-- ==== Sys2Proof/Word.lean ====
section
/-! DEFINITION. The word types of the block: what the manual reads and writes as bits. -/

namespace Sys2Proof

/-- One control-port word, 32 bits (02 R43). -/
abbrev Word := BitVec 32

/-- One byte; byte 0 of a multi-byte field holds bits [7:0] (00 R14). -/
abbrev Byte := BitVec 8

/-- One 64-bit log-port flit or manifest record, or a register-format word of two 32-bit words (15 R347). -/
abbrev Flit := BitVec 64

/-- Meridian time, 64 bits, in mt of 62.5 ps (03 R75). -/
abbrev Time := BitVec 64

/-- A 32-bit saturating event counter (17 R392). -/
abbrev Cnt := BitVec 32

end Sys2Proof
end

