-- ==== Sys2Proof/Syntax.lean ====
section
/-! DEFINITION. The commands the block takes: one constructor of `Instr` per row of the opcode table, with the
row's operands. The first operand of every constructor gives `dt`, the time in mt that has passed on the block's
own clock since the command before it (assumption 2). -/

namespace Sys2Proof

/-- A mailbox request as host firmware posts it: the mailbox, the header fields of Table 13.2 that the row does not fix,
and the argument words that follow the header (13 R317). -/
structure Req where
  /-- mailbox 0–7 -/
  mbx  : BitVec 3
  /-- the tag host firmware chose -/
  tag  : BitVec 8
  /-- 0 host firmware, 1–7 an attested session handle -/
  sess : BitVec 3
  /-- the reserved header bits [31:23] -/
  rsv  : BitVec 9
  /-- the argument words, at most 15 -/
  args : List Word
deriving DecidableEq, Repr, Inhabited

/-- Where a meridian pulse's rising edge fell against the edges of `ref` (02 Table 2.9, R56). -/
inductive PulseAlign where
  /-- within 1.0 ns of a `ref` rising edge: inside the alignment window -/
  | inWindow
  /-- within 1.0 ns of a `ref` falling edge -/
  | refFalling
  /-- anywhere else -/
  | outside
deriving DecidableEq, Repr, Inhabited

/-- One sensor reading of a tile at a thermal sample: both readings in 0.25 °C, signed (05 R150). -/
structure TempReading where
  tile : BitVec 8
  s0   : Int
  s1   : Int
deriving DecidableEq, Repr, Inhabited

/-- What one sampling interval read from one rail (09 R241): the voltage in mV and the current in mA, or nothing new. -/
structure RailReading where
  rail : BitVec 3
  mv   : Nat
  ma   : Nat
deriving DecidableEq, Repr, Inhabited

/-- The four port resets of Table 2.2. -/
inductive Port where
  | ctl | log | man | cvy
deriving DecidableEq, Repr, Inhabited

/-- The eight watched clock domains, in the numbering of event 0x203 (17 Table 17.2). -/
inductive Dom where
  | ctl | log | man | cvy | core | rck | sxt | lode
deriving DecidableEq, Repr, Inhabited

/-- How a leaf oscillator failed (04 R109). -/
inductive OscFault where
  | noEdge | count | notTuned
deriving DecidableEq, Repr, Inhabited

/-- How the crystal failed (02 R58). -/
inductive XoFault where
  | low | high | freq
deriving DecidableEq, Repr, Inhabited

/-- What a regulator answered in the steps of a rail's activation (09 R237). -/
structure RailAnswer where
  /-- step 1: OPERATION reports the output on -/
  on      : Bool
  /-- step 2: VOUT_MAX as read back, in mV -/
  voutMax : Nat
  /-- step 3: the status read was answered -/
  status  : Bool
  /-- step 5: voltage readbacks, each with its time since the write of `v_init` in mt, and its value in mV -/
  reads   : List (Nat × Nat)
deriving DecidableEq, Repr, Inhabited

/-- What ended the operation that an ACCEPTED command waits on (14 R329): what the environment or the hardware test
found, where the command's final status depends on it. -/
inductive OpResult where
  /-- the operation ended as it should -/
  | done
  /-- what the regulator answered in an activation's steps (09 R237) -/
  | rail (a : RailAnswer)
  /-- a step of it failed: the step's number (09 R237) -/
  | failStep (n : Nat)
  /-- a test passed, or failed with this detail (14 Table 14.11) -/
  | test (passed : Bool) (detail : Word)
  /-- a loop-back compared this many words and found this many mismatches (18 R413) -/
  | loop (compared mismatches : Word)
  /-- the three PMBus recoveries failed (02 Table 2.19) -/
  | pmbusDead
deriving DecidableEq, Repr, Inhabited

/-- One inbound log-port cycle with `li_valid` at 1 (15 R347). -/
structure InFlit where
  data : Flit
  sop  : Bool
  eop  : Bool
deriving DecidableEq, Repr, Inhabited

/-- One notice as it arrives on the convoy message port: its words, in order (10 R272). -/
structure Notice where
  words : List Flit
deriving DecidableEq, Repr, Inhabited

/-- How the level of a pin moves at an edge, in mV (02 R67). -/
structure PinMove where
  before : Int := 0
  after  : Int := 0
deriving DecidableEq, Repr, Inhabited

/-- An edge at a capture unit: its fraction in LSB, and at a pin how its level moves (03 R94, 02 R67). -/
structure EdgeIn where
  frac : BitVec 3
  lv   : PinMove := {}
deriving DecidableEq, Repr, Inhabited

/-- What a PMBus transaction brings, and how many of its attempts failed packet error checking: 3 is the last (02 R61). -/
structure Tried (α : Type) where
  val : α
  bad : BitVec 2 := 0
deriving DecidableEq, Repr, Inhabited

/-- The tiles that miss the strobe of a launch edge, and those whose alignment has not completed (08 R227, 04 R116). -/
structure LaunchTiles where
  missed    : List (BitVec 8) := []
  unaligned : List (BitVec 8) := []
deriving DecidableEq, Repr, Inhabited

/-- A rise of `cvo_ready`: the time before it, and for how many words it stays high, none for good (02 R50). -/
structure ReadyRise where
  dt    : Nat
  words : Option Nat := none
deriving DecidableEq, Repr, Inhabited

/-- The memories of Table 17.3, by region. -/
inductive MemRegion where
  | weight | history | master | tileState | trace | spill | staging | helmCode | helmData
deriving DecidableEq, Repr, Inhabited

/-- Which part of the hardware bring-up calibration has ended (18 R403). -/
inductive BringupPart where
  /-- the mortar compensation delays and the thermal sensors -/
  | mortarThermal
  /-- channels 0–59 -/
  | sextants
  /-- channels 60–63 -/
  | lodestar
deriving DecidableEq, Repr, Inhabited

/-- The fields of the fuse map (16 Table 16.1); a key or a chart record by its slot or its class. -/
inductive FuseField where
  | uds | lc | arb
  | fwKey (s : BitVec 2) | fwRev | progKey (s : BitVec 1) | progRev | opKey (s : BitVec 1) | opRev
  | chart | scales
deriving DecidableEq, Repr, Inhabited

/-- The commands of the block: one constructor per row of the opcode table, in the table's order. -/
inductive Instr where
  /-- IDENTIFY (R333). Command 0x00 returns the block version, the firmware level, the anti-rollback count, the lifecycle state, the last image-check reason and prog_id. -/
  | identify (dt : Nat) (q : Req)
  /-- FW_LOAD (R367). Command 0x01, admitted in ROM only, checks the image length, opens an inbound firmware-image transfer and holds the mailbox ACCEPTED through CHECK. -/
  | fwLoad (dt : Nat) (q : Req)
  /-- CAPS (R333). Command 0x02 returns the counts of present tiles per class and the IDCODE manufacturer tie-off. -/
  | caps (dt : Nat) (q : Req)
  /-- SET_EPOCH (R78). Command 0x10 makes an epoch setting N pending; the counter takes N x 16,000,000 mt at the second meridian pulse after completion. -/
  | setEpoch (dt : Nat) (q : Req)
  /-- SET_HOST_Q (R154). Command 0x11 sets the chip-wide emergency throttle rate host_q; a lowering acts within 2 us, a raise only after the throttle in force ends. -/
  | setHostQ (dt : Nat) (q : Req)
  /-- SET_FLOOR (R291). Command 0x12 sets the software floor word, in force from the next emission. -/
  | setFloor (dt : Nat) (q : Req)
  /-- SET_SAFE_Q (R260). Command 0x13 sets safe_q in 8-64; it is refused while the safe floor holds. -/
  | setSafeQ (dt : Nat) (q : Req)
  /-- SET_PMBUS (R262). Command 0x14 sets the PMBus rate, the tray address and tray_cmd; it is refused once any rail is active. -/
  | setPmbus (dt : Nat) (q : Req)
  /-- READ_POLICY (R334). Command 0x15 returns host_q, the floor word, safe_q, the PMBus word and the power configuration word. -/
  | readPolicy (dt : Nat) (q : Req)
  /-- TILE_INFO (R335). Command 0x20 returns a tile's class, power domain, rail, domain power state, learn_code and chart maximum code. -/
  | tileInfo (dt : Nat) (q : Req)
  /-- TILE_POLICY (R134). Command 0x21 validates and takes a whole tile policy word; a code change is scheduled as a slide or handover at the given instant. -/
  | tilePolicy (dt : Nat) (q : Req)
  /-- TILE_PLUMB (R141). Command 0x22 validates and takes a tile plumb word, which acts within 1 us, one plumb at a time. -/
  | tilePlumb (dt : Nat) (q : Req)
  /-- TILE_DROOP (R141). Command 0x23 validates and takes a tile droop word. -/
  | tileDroop (dt : Nat) (q : Req)
  /-- TILE_STATE_ENABLE (R128). Command 0x24 with operation 1 validates an enable against the expected state and schedules it at an instant, with cold calibration and tap check within the lead. -/
  | tileStateEnable (dt : Nat) (q : Req)
  /-- TILE_STATE_DISABLE (R428). Command 0x24 with operation 2 schedules a disable of a tile at an instant. -/
  | tileStateDisable (dt : Nat) (q : Req)
  /-- TILE_STATE_GATE (R129). Command 0x24 with operation 3 schedules a gate of a tile at an instant. -/
  | tileStateGate (dt : Nat) (q : Req)
  /-- TILE_STATE_UNGATE (R129). Command 0x24 with operation 4 schedules an ungate with soft start at an instant. -/
  | tileStateUngate (dt : Nat) (q : Req)
  /-- TILE_STATE_SWAP (R117). Command 0x24 with operation 5 schedules a calibration swap, a handover at an unchanged code, at an instant. -/
  | tileStateSwap (dt : Nat) (q : Req)
  /-- TILE_STATUS (R135). Command 0x25 returns the live tile status word and the policy, plumb and droop words from the mirror. -/
  | tileStatus (dt : Nat) (q : Req)
  /-- DOMAIN_POWER_OFF (R30). Command 0x26 reporting a domain off puts its tiles in DOMAIN_OFF at completion, stops their oscillators and drops them from the Reckoner and from throttle targets. -/
  | domainPowerOff (dt : Nat) (q : Req)
  /-- DOMAIN_POWER_ON (R132). Command 0x26 reporting a domain on schedules the return of its tiles to their previous states at a named instant that meets the 64 us lead. -/
  | domainPowerOn (dt : Nat) (q : Req)
  /-- TILE_COUNTERS (R332). Command 0x27 returns one page of a tile's generator, plumb and thermal counters from one snapshot; page 0 clears the peak temperature. -/
  | tileCounters (dt : Nat) (q : Req)
  /-- FLOOR_OVER (R293). Command 0x28 reads, and optionally clears, a tile's floor-override record. -/
  | floorOver (dt : Nat) (q : Req)
  /-- LEARN_RESET (R294). Command 0x29 sets learn_code of one tile, or of every adaptive and service tile, back to the chart maximum. -/
  | learnReset (dt : Nat) (q : Req)
  /-- TILE_CAPTURE (R229). Command 0x2A schedules a consistent capture of live tile values at an instant S placed outside commit windows. -/
  | tileCapture (dt : Nat) (q : Req)
  /-- RCK_LOAD (R169). Command 0x30 starts a program load: it checks the length, grants inbound credits for the container and answers ACCEPTED. -/
  | rckLoad (dt : Nat) (q : Req)
  /-- RCK_UNLOAD (R170). Command 0x31 requests an unload that takes effect at the next course boundary; it returns BUSY while a load is in progress. -/
  | rckUnload (dt : Nat) (q : Req)
  /-- RCK_MODE (R159). Command 0x32 moves the Reckoner between ACTIVE, through WARMUP, and ADVISORY, or sets the mode in which warm-up ends. -/
  | rckMode (dt : Nat) (q : Req)
  /-- RCK_MAP (R164). Command 0x33 writes class map entries all or nothing, checked against kinds and the R168 limits, in force at the next snapshot. -/
  | rckMap (dt : Nat) (q : Req)
  /-- RCK_STATUS (R183). Command 0x34 returns the Reckoner status word, prog_id and joest_ver. -/
  | rckStatus (dt : Nat) (q : Req)
  /-- RCK_COUNTERS (R184). Command 0x35 returns one page of the Reckoner counters from one snapshot. -/
  | rckCounters (dt : Nat) (q : Req)
  /-- RCK_CLASS (R195). Command 0x36 returns a class's numeric flag word, which it then clears as asked, and the class's adaptation counters. -/
  | rckClass (dt : Nat) (q : Req)
  /-- RCK_NV (R194). Command 0x37 reads the invalid-operation capture register and optionally clears valid. -/
  | rckNv (dt : Nat) (q : Req)
  /-- RCK_HISTORY (R202). Command 0x38 clears every delayed-scaling history ring and enters WARMUP. -/
  | rckHistory (dt : Nat) (q : Req)
  /-- WATCH_SET (R204). Command 0x39 sets the tensor watch window exponent w. -/
  | watchSet (dt : Nat) (q : Req)
  /-- WATCH_READ (R204). Command 0x3A returns the latest watch report of one tensor. -/
  | watchRead (dt : Nat) (q : Req)
  /-- RCK_SCALES (R201). Command 0x3B returns the fused conservative tensor scale codes. -/
  | rckScales (dt : Nat) (q : Req)
  /-- KS_OPEN (R220). Command 0x40 opens a keystone for an instant T in a free slot and assigns it the next ks_seq. -/
  | ksOpen (dt : Nat) (q : Req)
  /-- KS_STAGE (R221). Command 0x41 validates up to three action records against the expected state and sends the accepted tile actions to the tile shadow registers. -/
  | ksStage (dt : Nat) (q : Req)
  /-- KS_SEAL (R222). Command 0x42 seals an open keystone and waits for all shadow acknowledgements; an empty keystone commits at once. -/
  | ksSeal (dt : Nat) (q : Req)
  /-- KS_ABORT (R231). Command 0x43 aborts an open or sealed keystone with cause host if it reaches the engine before the launch edge. -/
  | ksAbort (dt : Nat) (q : Req)
  /-- KS_RESULT (R233). Command 0x44 returns the result record of a recently resolved keystone. -/
  | ksResult (dt : Nat) (q : Req)
  /-- KS_WAIT (R233). Command 0x45 completes 2 us after the named keystone resolves and returns its result record. -/
  | ksWait (dt : Nat) (q : Req)
  /-- KS_COUNTERS (R234). Command 0x46 returns the keystone engine counters. -/
  | ksCounters (dt : Nat) (q : Req)
  /-- KS_SLOTS (R337). Command 0x47 returns the state, ks_seq and T of the four slots as one snapshot. -/
  | ksSlots (dt : Nat) (q : Req)
  /-- SXT_SETUP (R91). Command 0x50 claims a sextant channel if unclaimed and applies a channel setup word with gate or window arming, waiting while the channel is armed. -/
  | sxtSetup (dt : Nat) (q : Req)
  /-- SXT_DISARM (R94). Command 0x51 disarms a channel, forming results for unpaired edges. -/
  | sxtDisarm (dt : Nat) (q : Req)
  /-- SXT_FREE (R100). Command 0x52 releases the caller's claim on a disarmed channel. -/
  | sxtFree (dt : Nat) (q : Req)
  /-- SXT_READ (R97). Command 0x53 returns up to three sextant result records of a channel the caller owns. -/
  | sxtRead (dt : Nat) (q : Req)
  /-- SXT_STATS (R98). Command 0x54 returns, and optionally clears, a channel's accumulated statistics as one snapshot. -/
  | sxtStats (dt : Nat) (q : Req)
  /-- SXT_INFO (R338). Command 0x55 returns a channel's owner, arm, calibration and lock status and its counters. -/
  | sxtInfo (dt : Nat) (q : Req)
  /-- LODE_AGE (R101). Command 0x56, operator session only, sets the lodestar ageing adjustment, which restarts the reference-check baseline. -/
  | lodeAge (dt : Nat) (q : Req)
  /-- LODE_CHECK (R102). Command 0x57, attested session only, reads the reference check and optionally sets its threshold. -/
  | lodeCheck (dt : Nat) (q : Req)
  /-- LODE_ENABLE (R58). Command 0x58 re-enables the lodestar after a crystal fault once the amplitude has held in range for 10 ms. -/
  | lodeEnable (dt : Nat) (q : Req)
  /-- RAIL_MAP (R236). Command 0x60 writes a rail map word, refused once the map is locked by the first activation. -/
  | railMap (dt : Nat) (q : Req)
  /-- RAIL_ACT (R237). Command 0x61 runs the five-step activation of one rail over PMBus and AVSBus and then makes v_init its set point. -/
  | railAct (dt : Nat) (q : Req)
  /-- POWER_LIMIT (R243). Command 0x62 sets the peak, burst or sustained limit, in force from the next evaluation. -/
  | powerLimit (dt : Nat) (q : Req)
  /-- POWER_CFG (R339). Command 0x63 sets est_margin, tel_margin and the ledger split mode, in force from the next interval. -/
  | powerCfg (dt : Nat) (q : Req)
  /-- PART_MAP (R254). Command 0x64 writes ledger partition map entries all or nothing, in force at the next interval. -/
  | partMap (dt : Nat) (q : Req)
  /-- LEDGER_READ (R257). Command 0x65 returns an account from the latest ledger snapshot. -/
  | ledgerRead (dt : Nat) (q : Req)
  /-- CAPTURE_AT (R263). Command 0x66 schedules a capture of the ledger, reason and power counters at an instant placed as R229 gives. -/
  | captureAt (dt : Nat) (q : Req)
  /-- REASONS (R252). Command 0x67 returns THR_CAUSE and one page of the reason duration counters. -/
  | reasons (dt : Nat) (q : Req)
  /-- POWER_COUNTERS (R264). Command 0x68 returns one page of the power controller counters. -/
  | powerCounters (dt : Nat) (q : Req)
  /-- POWER_STATUS (R339). Command 0x69 returns the cap rates, margin, trust, coolant, rail and limit state as one snapshot. -/
  | powerStatus (dt : Nat) (q : Req)
  /-- CVY_JOIN (R268). Command 0x70 validates a join word and code and schedules the join keystone at instant J. -/
  | cvyJoin (dt : Nat) (q : Req)
  /-- CVY_LEAVE (R271). Command 0x71 schedules leaving the convoy at an instant. -/
  | cvyLeave (dt : Nat) (q : Req)
  /-- CVY_MOVE (R275). Command 0x72, pilot only, validates a move, chooses its commit instant T and sends the move notice. -/
  | cvyMove (dt : Nat) (q : Req)
  /-- CVY_STATUS (R285). Command 0x73 returns the convoy status word. -/
  | cvyStatus (dt : Nat) (q : Req)
  /-- CVY_COUNTERS (R286). Command 0x74 returns one page of the convoy counters. -/
  | cvyCounters (dt : Nat) (q : Req)
  /-- LOG_SELECT (R351). Command 0x80 sets the outbound record type mask and the telemetry decimation D. -/
  | logSelect (dt : Nat) (q : Req)
  /-- TRACE_ARM (R359). Command 0x81 clears the trace SRAM and arms capture of the selected tile groups from an instant. -/
  | traceArm (dt : Nat) (q : Req)
  /-- TRACE_STOP (R359). Command 0x82 stops trace capture and returns the number of bytes held. -/
  | traceStop (dt : Nat) (q : Req)
  /-- TRACE_DUMP (R360). Command 0x83 streams a span of the trace SRAM as trace-dump packets. -/
  | traceDump (dt : Nat) (q : Req)
  /-- LOG_STATUS (R341). Command 0x84 returns the trace capacity, the bytes held and the drop and discard counts. -/
  | logStatus (dt : Nat) (q : Req)
  /-- CAL_SEXTANT (R99). Command 0x90 runs a code-density calibration of a disarmed channel. -/
  | calSextant (dt : Nat) (q : Req)
  /-- CAL_PLUMB (R408). Command 0x91 trims the tile's plumbs, or returns DEFERRED when R149 holds a plumb back. -/
  | calPlumb (dt : Nat) (q : Req)
  /-- TEST_RUN (R342). Command 0x92 runs a non-destructive test at once, or defers a destructive test whose resource is in service. -/
  | testRun (dt : Nat) (q : Req)
  /-- QUIESCE (R343). Command 0x93 grants resources for a bounded time and runs the deferred destructive tests within the grant. -/
  | quiesce (dt : Nat) (q : Req)
  /-- TEST_RESULT (R342). Command 0x94 returns the outcome of a test handle. -/
  | testResult (dt : Nat) (q : Req)
  /-- LOOPBACK (R412). Command 0x95 runs a pattern loop-back on one interface at a given depth and returns the compared and mismatched word counts. -/
  | loopback (dt : Nat) (q : Req)
  /-- FENCE (R395). Command 0xA0 fences a tile with cause host. -/
  | fence (dt : Nat) (q : Req)
  /-- FENCE_RELEASE (R400). Command 0xA1 releases a fenced tile whose latest trial passed: it resets its crossings and restores it to DISABLED or DOMAIN_OFF. -/
  | fenceRelease (dt : Nat) (q : Req)
  /-- FAULT_SUMMARY (R387). Command 0xA2 returns the raised fault classes, clearing them, and the ECC counts. -/
  | faultSummary (dt : Nat) (q : Req)
  /-- EVENT_READ (R354). Command 0xA3 returns whole event records, oldest first, from the Helm's event queue. -/
  | eventRead (dt : Nat) (q : Req)
  /-- XING_READ (R314). Command 0xA4 returns one crossing's counters, stale, gap and failed state and epochs. -/
  | xingRead (dt : Nat) (q : Req)
  /-- HELM_COUNTERS (R344). Command 0xA6 returns the doorbell misuse counts and the watchdog and restart counts. -/
  | helmCounters (dt : Nat) (q : Req)
  /-- SPDM (R375). Command 0xB0 passes one SPDM message to the responder and returns its response, through the words or the log port. -/
  | spdm (dt : Nat) (q : Req)
  /-- CHART_READ (R382). Command 0xB2 returns the chart in force for a class. -/
  | chartRead (dt : Nat) (q : Req)
  /-- CHART_TIGHTEN (R384). Command 0xB3 tightens a class's chart as a whole, with the clamps, lowered limits and keystone aborts of Table 16.9. -/
  | chartTighten (dt : Nat) (q : Req)
  /-- MBX_DOORBELL (R321). A write of MBX_DB copies each rung mailbox's request area and enters the intake queue in mailbox order, or is answered with hardware BUSY, or is discarded as misuse. -/
  | mbxDoorbell (dt : Nat) (ring : BitVec 8)
  /-- HELM_RESTART (R421). A write of 1 to CTL_HELM helm_restart in RUN moves the Helm to RESTART as a requested restart. -/
  | helmRestart (dt : Nat)
  /-- CTL_INT_CLEAR (R419). A write of 1 to a W1C cause of CTL_INT clears that cause and updates ctl_irq. -/
  | ctlIntClear (dt : Nat) (w : Word)
  /-- MER_LO_READ (R425). A read of MER_LO captures meridian time and state into MER_HI and MER_STATE and returns the low word. -/
  | merLoRead (dt : Nat)
  /-- LBK_XING_READ (R414). A read of LBK_XING takes the next LFSR value through crossing 4. -/
  | lbkXingRead (dt : Nat)
  /-- LBK_HELM_READ (R414). A read of LBK_HELM during a depth-2 control loop-back takes the next published word and counts the take. -/
  | lbkHelmRead (dt : Nat)
  /-- REGISTER_WRITE (R417). A write to any other register, or to an undecoded address, is stored or ignored as its access code gives. -/
  | registerWrite (dt : Nat) (addr : BitVec 14) (w : Word)
  /-- HELM_INTAKE_TAKE (R322). The Helm takes the oldest intake-queue entry and answers with ACCEPTED or the final status. -/
  | helmIntakeTake (dt : Nat)
  /-- INTAKE_REOPEN (R323). The Helm sets its intake-open flag again after at most 2 ms of closed intake. -/
  | intakeReopen (dt : Nat)
  /-- MAILBOX_REPUBLISH (R326). Within 10 us after the control port leaves reset, the Helm republishes every held mailbox state and response and sets sync. -/
  | mailboxRepublish (dt : Nat)
  /-- INSTANT_COMPLETION (R329). A command that waits on an instant or on an operation writes its final status when that bound is reached. -/
  | instantCompletion (dt : Nat) (mbx : BitVec 3) (r : OpResult)
  /-- BRN_RST_ASSERT (R41). Assertion of brn_rst_n resets the whole block at once, every output takes its reset value and every epoch is set to 0. -/
  | brnRstAssert (dt : Nat)
  /-- BRN_RST_RELEASE (R41). Release of brn_rst_n is synchronised to the boot oscillator; the presence monitors and the crystal start. -/
  | brnRstRelease (dt : Nat)
  /-- ROM_START (R366). 64 boot cycles after release, the ROM runs its self-check, reads the fuses, derives the DeviceID key and enters stage ROM. -/
  | romStart (dt : Nat)
  /-- POWER_ON_MONITOR (R70). VDDB below the falling threshold, or not yet above the rising one, holds the block in reset with all state lost. -/
  | powerOnMonitor (dt : Nat)
  /-- VDDB_LOW (R70). A VDDB dip below 0.70 V but above the falling threshold keeps state, is counted and raises vddb_low. -/
  | vddbLow (dt : Nat)
  /-- PORT_RESET_ASSERT (R42). Assertion of ctl_rst_n, log_rst_n, man_rst_n or cvy_rst_n resets that port and both sides of its crossings, discards its items in flight and advances its group epoch. -/
  | portResetAssert (dt : Nat) (p : Port)
  /-- PORT_RESET_RELEASE (R310). Each side of a port's crossings releases on its own clock and latches the new group epoch. -/
  | portResetRelease (dt : Nat) (p : Port)
  /-- TRST (R310). Assertion of trst_n resets the test controller and crossing 22. -/
  | trst (dt : Nat)
  /-- IMAGE_CHECK_DONE (R368). When the check of a firmware image ends, the Helm enters RUN with the alias key derived, or returns to ROM with the reason. -/
  | imageCheckDone (dt : Nat)
  /-- HELM_WDOG (R316). Expiry of the 10 ms Helm watchdog moves the Helm to RESTART, completes held commands with INTERNAL and ends every session. -/
  | helmWdog (dt : Nat)
  /-- RESTART_CHECK_DONE (R370). At the end of RESTART the held image is checked again, and the Helm returns to RUN or falls to ROM with reason 11. -/
  | restartCheckDone (dt : Nat)
  /-- ARB_ADVANCE (R369). After 60 s of stable RUN with an image whose svn is above the count, the Helm blows anti-rollback bits up to svn. -/
  | arbAdvance (dt : Nat) (blown : Bool)
  /-- SESSION_TIMEOUT (R376). A session with no secured message for 30 s ends and releases its lodestar claims. -/
  | sessionTimeout (dt : Nat) (h : BitVec 3)
  /-- REF_VALID (R81). The reference seen valid for 10 us moves the meridian state to ACQUIRING, or starts the return from HOLDOVER. -/
  | refValid (dt : Nat)
  /-- PLL_LOCK (R81). The core, rck and sxt PLLs lock; hail_clk starts, the Helm moves to the core clock and bring-up calibration starts. -/
  | pllLock (dt : Nat)
  /-- HARDWARE_BRINGUP_CAL (R403). Completion of the mortar delay, thermal sensor and sextant bring-up calibrations updates TST_READY. -/
  | hardwareBringupCal (dt : Nat) (part : BringupPart) (badTiles : List (BitVec 8)) (badSensors : List (BitVec 8 × Bool)) (badChannels : List (BitVec 6))
  /-- MERIDIAN_PULSE (R75). At each meridian pulse the block checks alignment and interval, advances first lock or return, takes a pending epoch and broadcasts the full counter to the tiles. -/
  | meridianPulse (dt : Nat) (periods : Nat) (al : PulseAlign) (longHigh : Bool) (diffs : List (BitVec 8 × Int))
  /-- REF_LOSS (R83). A declared loss of reference enters HOLDOVER, aborts keystones with later T, withdraws later handovers and suspends the convoy. -/
  | refLoss (dt : Nat) (pulse : Bool)
  /-- SLEW_STEP (R85). Every 1,000 reference periods in SLEWING one mt is added or dropped; at offset 0 the state becomes LOCKED. -/
  | slewStep (dt : Nat)
  /-- REF_CHECK (R102). Once per 1,000 pulses the Helm forms the reference offset against the lodestar and raises ref_suspect on a deviation. -/
  | refCheck (dt : Nat) (delta : Nat)
  /-- XO_FAULT (R58). A crystal amplitude or frequency fault stops the lodestar PLL, disarms channels 60-63 and releases their session claims. -/
  | xoFault (dt : Nat) (k : XoFault)
  /-- XO_STARTUP_WINDOW_END (R58). At the end of the 10 ms crystal start-up window, an amplitude still low is taken as a crystal fault. -/
  | xoStartupWindowEnd (dt : Nat) (low : Bool)
  /-- PLUMB_FIRE (R144). A tap voltage below V_ref fires a plumb; the macro raises the reactive stretch request, or moves a throttle for a steady tile. -/
  | plumbFire (dt : Nat) (tile : BitVec 8) (p : BitVec 2) (mv : Int)
  /-- PLUMB_RELEASE (R145). A tap voltage rising above the release level releases the plumb, which starts its hold. -/
  | plumbRelease (dt : Nat) (tile : BitVec 8) (p : BitVec 2) (mv : Int)
  /-- PLUMB_HOLD_END (R145). After hold periods, the plumb's request falls by one and decay begins; a moved steady throttle is removed. -/
  | plumbHoldEnd (dt : Nat) (tile : BitVec 8) (p : BitVec 2)
  /-- PLUMB_DECAY_STEP (R145). Every 2^decay periods during decay, the plumb's request falls by one until the plumb is idle. -/
  | plumbDecayStep (dt : Nat) (tile : BitVec 8) (p : BitVec 2)
  /-- PLUMB_DROOP_EXAM (R148). A plumb in droop for 1 ms is examined against the rail readback and either fences the tile for a faulty tap or raises rail_sag. -/
  | plumbDroopExam (dt : Nat) (tile : BitVec 8) (p : BitVec 2)
  /-- PLUMB_CALIBRATION (R149). An in-service trim of one plumb runs for 4 us with its output held released, at least every 10 s. -/
  | plumbCalibration (dt : Nat) (tile : BitVec 8) (p : BitVec 2) (inRange : Bool)
  /-- TAP_CHECK_ATTEMPT (R147). Within an enable lead, at the lead start or at each later readback within 20 mV, the block checks every enabled plumb at thr 63. -/
  | tapCheckAttempt (dt : Nat) (tile : BitVec 8) (fired : BitVec 4)
  /-- TAP_CHECK_DEADLINE (R147). At E minus 1 us with no tap check done, the enable is refused or dropped, or its keystone aborts with cause validation. -/
  | tapCheckDeadline (dt : Nat) (tile : BitVec 8)
  /-- THERMAL_SAMPLE (R150). Every 10 us all thermal sensors convert; the macros check the trip point and the power controller updates q_th. -/
  | thermalSample (dt : Nat) (rs : List TempReading)
  /-- THR_REQ_FALL (R65). A confirmed low on thr_req_n applies host_q to every running adaptive and service tile within 1 us. -/
  | thrReqFall (dt : Nat) (lowNs : Nat)
  /-- THR_REQ_RISE (R65). A rise of thr_req_n starts the 10 us hold of the host throttle. -/
  | thrReqRise (dt : Nat)
  /-- THR_REQ_HOLD_END (R65). 10 us after the rise the host_request throttle is removed. -/
  | thrReqHoldEnd (dt : Nat)
  /-- OSC_FAIL (R109). A failed leaf oscillator is stopped, fails over to the standby, or fences the tile when both oscillators have failed. -/
  | oscFail (dt : Nat) (tile : BitVec 8) (b : Bool) (f : OscFault)
  /-- OSC_CAL_DONE (R406). A cold calibration of a leaf oscillator ends with the oscillator tuned. -/
  | oscCalDone (dt : Nat) (tile : BitVec 8) (b : Bool) (tuned : Bool)
  /-- VOSC_LOW (R71). VOSC below 0.57 V for 1 us stops both oscillators and fences the tile. -/
  | voscLow (dt : Nat) (tile : BitVec 8)
  /-- VANA_LOW (R71). VANA below 0.61 V for 1 us raises vana_low and marks overlapping sextant results invalid. -/
  | vanaLow (dt : Nat) (inst : BitVec 16)
  /-- SLIDE_INSTANT (R111). At a scheduled or committed instant the active oscillator slides to the target code from below. -/
  | slideInstant (dt : Nat) (tile : BitVec 8)
  /-- HANDOVER_RETUNE_START (R115). At T minus 64 us the standby leaves warm and is calibrated to the new code. -/
  | handoverRetuneStart (dt : Nat) (tile : BitVec 8)
  /-- HANDOVER_ALIGN_START (R115). At T minus 2 us phase alignment of the standby begins, or the handover is missed if the standby is not tuned. -/
  | handoverAlignStart (dt : Nat) (tile : BitVec 8)
  /-- HANDOVER_SWITCH (R115). At the first falling edge at or after T the selector switches to the standby, or the handover is missed. -/
  | handoverSwitch (dt : Nat) (tile : BitVec 8) (aligned : Bool) (extraFs : Nat)
  /-- ENABLE_INSTANT (R128). At the enable instant the tile's first rising edge leaves within one code period, with soft start. -/
  | enableInstant (dt : Nat) (tile : BitVec 8)
  /-- DISABLE_INSTANT (R428). At the disable instant the output goes low at the first falling edge and the oscillators stop. -/
  | disableInstant (dt : Nat) (tile : BitVec 8)
  /-- GATE_INSTANT (R129). At the gate instant the output stops at the first falling edge while the oscillators keep running. -/
  | gateInstant (dt : Nat) (tile : BitVec 8)
  /-- UNGATE_INSTANT (R129). At the ungate instant the output restarts within one code period, with soft start. -/
  | ungateInstant (dt : Nat) (tile : BitVec 8)
  /-- DOMAIN_RETURN_INSTANT (R132). At the named instant each tile of a domain reported on returns to its previous state, or to a recorded enable. -/
  | domainReturnInstant (dt : Nat) (dom : BitVec 8)
  /-- SOFT_START_STEP (R123). Every 8 periods after a start from low, the start stretch falls by one until it reaches 0. -/
  | softStartStep (dt : Nat) (tile : BitVec 8)
  /-- AUTO_CALIBRATION_SWAP (R407). A running tile whose calibration is old or thermally stale gets a calibration swap scheduled by the block. -/
  | autoCalibrationSwap (dt : Nat) (tile : BitVec 8)
  /-- STANDBY_TEST (R410). Every 100 ms per tile group, test 0x02 calibrates a warm standby at three codes and counts it for 16 windows. -/
  | standbyTest (dt : Nat) (tile : BitVec 8) (pass : Bool)
  /-- LEARN_EXAM (R294). At each 1 ms multiple, tiles with more than one eighth of their periods at react_lim have learn_code lowered. -/
  | learnExam (dt : Nat)
  /-- FENCE_TRIAL (R399). 1 ms after a fence and every 10 s after it, both oscillators and the sensors of a fenced tile are trialled. -/
  | fenceTrial (dt : Nat) (tile : BitVec 8) (okA okB voscLow : Bool) (s0 s1 : Int)
  /-- MORTAR_WORD_DISCARD (R396). A mortar word that fails its check is discarded, counted and retransmitted, and repeated failures fence the tile. -/
  | mortarWordDiscard (dt : Nat) (tile : BitVec 8) (config : Bool) (nth : Nat)
  /-- MANIFEST_RECORD (R160). An OP or STAT record taken on the manifest port is stamped and placed in its tile's window or features, or discarded and counted. -/
  | manifestRecord (dt : Nat) (rec : Flit)
  /-- COURSE_BOUNDARY (R172). At each course boundary the Reckoner freezes features, emits plans and hails, resolves events, adjusts the course length and advances warm-up, watch and adaptation windows. -/
  | courseBoundary (dt : Nat)
  /-- PRESTRETCH_START (R177). At its start instant an event's pre-stretch becomes the predicted stretch origin at the tile. -/
  | prestretchStart (dt : Nat) (tile : BitVec 8)
  /-- PRESTRETCH_END (R177). At its end instant an event's pre-stretch leaves the predicted origin. -/
  | prestretchEnd (dt : Nat) (tile : BitVec 8)
  /-- DIP_START (R177). At its start instant an event's dip slides the tile's code down. -/
  | dipStart (dt : Nat) (tile : BitVec 8)
  /-- DIP_END (R177). After dip_len the tile's code slides back to the policy code. -/
  | dipEnd (dt : Nat) (tile : BitVec 8)
  /-- INBOUND_FLIT (R361). An inbound log flit is checked against the open transfer and stored, with header and final container or image checks, or discarded. -/
  | inboundFlit (dt : Nat) (f : InFlit)
  /-- PROGRAM_LOAD_SWAP (R169). At C_s the running program stops, the mode goes to LOADING, events are abandoned and segments are copied into SRAM. -/
  | programLoadSwap (dt : Nat)
  /-- LOAD_COMPLETE (R169). At the first course boundary after the copy, the mode goes to WARMUP and the load completes with OK. -/
  | loadComplete (dt : Nat)
  /-- UNLOAD_EFFECT (R170). At the next course boundary an unload abandons events, releases claims, clears the class map and sets OFF. -/
  | unloadEffect (dt : Nat)
  /-- INBOUND_TRANSFER_TIMEOUT (R362). An inbound transfer with no flit for 10 ms is abandoned, or a discarding transfer is closed. -/
  | inboundTransferTimeout (dt : Nat)
  /-- LO_CREDIT (R348). A cycle of lo_credit adds one outbound credit, or raises log_credit at the 1,023 cap. -/
  | loCredit (dt : Nat)
  /-- PACKET_SEND (R352). When its credits cover a packet, the port sends the oldest packet of the highest waiting class. -/
  | packetSend (dt : Nat)
  /-- PACKET_FORM_TIMEOUT (R351). An event, sextant or throttle packet forms when its waiting time expires. -/
  | packetFormTimeout (dt : Nat) (ty : BitVec 5) (ch : BitVec 6)
  /-- KS_SEAL_COMPLETE (R222). When every member tile acknowledges its shadow entry, a waiting seal completes and the keystone becomes SEALED. -/
  | ksSealComplete (dt : Nat) (slot : BitVec 2)
  /-- KS_SEAL_DEADLINE (R222). At T minus 1 us a keystone not sealed aborts with cause timeout, and one with shadows unacknowledged aborts with cause delivery. -/
  | ksSealDeadline (dt : Nat) (slot : BitVec 2)
  /-- KS_LAUNCH_EDGE (R223). On the last core edge before T the engine commits the keystone if no abort cause holds, updates the mirror, drives the strobe and sends resolution words. -/
  | ksLaunchEdge (dt : Nat) (slot : BitVec 2) (tiles : LaunchTiles)
  /-- KS_ACK_DEADLINE (R227). At T plus 1 us any member that has not acknowledged the commit resolution is fenced with cause strobe and the slot frees. -/
  | ksAckDeadline (dt : Nat) (slot : BitVec 2) (unacked : List (BitVec 8))
  /-- KS_RAIL_RAISE_WRITE (R224). In the first sampling interval at or after T minus 150 us, or at T minus 1 ms over PMBus, the raised set point is written. -/
  | ksRailRaiseWrite (dt : Nat) (rail : BitVec 3)
  /-- KS_RAIL_PMBUS_READ (R224). At T minus 200 us on a faulted link, a dedicated PMBus voltage read of the rail starts. -/
  | ksRailPmbusRead (dt : Nat) (rail : BitVec 3) (mv : Tried Nat)
  /-- KS_RAIL_CHECK (R224). At T minus 20 us the readback must lie within 10 mV of the raised set point, or the keystone aborts with cause rail. -/
  | ksRailCheck (dt : Nat) (rail : BitVec 3)
  /-- KS_RAIL_LOWER_WRITE (R224). In the first sampling interval at or after T, the lowered set point is written. -/
  | ksRailLowerWrite (dt : Nat) (rail : BitVec 3)
  /-- RAIL_WRITE_BACK (R225). After an abort or an override of a written raise, the old set point is written back in the first interval. -/
  | railWriteBack (dt : Nat) (rail : BitVec 3)
  /-- CAPTURE_LATCH (R229). At capture instant S every tile latches its live values, and the latch is moved past any commit window. -/
  | captureLatch (dt : Nat)
  /-- SAMPLING_INTERVAL (R241). Every 10 us the power controller reads the rails, forms die power, runs the fast guard and the estimate comparison, splits and integrates energy and serves voltage writes. -/
  | samplingInterval (dt : Nat) (rs : List RailReading) (missing : List (BitVec 8))
  /-- CAP_EVALUATION (R244). At each peak, burst or sustained evaluation the cap rate is cut or raised, sent to the tiles, or sent as a follow in a convoy. -/
  | capEvaluation (dt : Nat) (lim : BitVec 2)
  /-- LEDGER_SNAPSHOT (R257). At each 1 ms multiple the block snapshots every energy counter and partition record and forms a ledger packet. -/
  | ledgerSnapshot (dt : Nat)
  /-- PLAUSIBILITY_CHECK (R250). For a telemetry-suspect rail the block picks a tile plumb and a channel, or retries every 1 ms, and starts the threshold search. -/
  | plausibilityCheck (dt : Nat) (rail : BitVec 3)
  /-- PLAUSIBILITY_SEARCH_STEP (R250). Each 20 us search step measures the plumb's droop share, and the last step confirms or clears the telemetry fault. -/
  | plausibilitySearchStep (dt : Nat) (rail : BitVec 3) (droopMt : Nat)
  /-- AVS_LINK_FAULT (R60). A link with a stuck or invalid response enters its fault state, falls back to PMBus readback and widens the margins. -/
  | avsLinkFault (dt : Nat) (link : BitVec 1)
  /-- AVS_LINK_RETRY (R60). Every 100 ms one attempt is made on a faulted link, which returns to service after 16 good frames. -/
  | avsLinkRetry (dt : Nat) (link : BitVec 1) (goodFrames : Nat)
  /-- PMBUS_FALLBACK_READ (R240). At the fallback rates, a PMBus read of the current or voltage of a rail on a faulted link is made. -/
  | pmbusFallbackRead (dt : Nat) (rail : BitVec 3) (volt : Bool) (val : Tried Nat)
  /-- PMBUS_ALERT (R61). pmb_alert_n low is answered through the Alert Response Address, STATUS_WORD is read and rail_alert is raised. -/
  | pmbusAlert (dt : Nat) (rail : BitVec 3) (status : Tried (BitVec 16))
  /-- PMBUS_BUS_RECOVERY (R61). A PMBus held low for 35 ms is recovered with nine clocks and a stop, and the recovery is counted. -/
  | pmbusBusRecovery (dt : Nat) (recovered : Bool)
  /-- FLOW_HB_EDGE (R62). Each flow_hb rising edge classifies a period, declaring flow good, confirming coolant loss or making a wire fault. -/
  | flowHbEdge (dt : Nat) (highMt : Nat)
  /-- FLOW_HB_DC_TIMEOUT (R62). No flow_hb rising edge for 1 ms is a wire fault that applies the safe floor. -/
  | flowHbDcTimeout (dt : Nat)
  /-- TRAY_POLL (R64). Every 10 ms in WIRE_FAULT the tray status is read, releasing the floor, confirming loss or counting nothing. -/
  | trayPoll (dt : Nat) (answer : Option Byte)
  /-- WIRE_FAULT_WAIT_EXPIRY (R259). 30 s in WIRE_FAULT with no tray confirmation stops the chip as for coolant loss. -/
  | wireFaultWaitExpiry (dt : Nat)
  /-- TRAY_CONFIRM_LAPSE (R259). No confirming tray poll for 1 s after a release re-applies the safe floor and restarts the 30 s wait. -/
  | trayConfirmLapse (dt : Nat)
  /-- CVY_MOVE_NOTICE (R276). An inbound move notice is staged and sealed in slot 3, queued, or answered with a nak. -/
  | cvyMoveNotice (dt : Nat) (n : Notice)
  /-- CVY_FOLLOW_NOTICE (R280). An inbound follow notice lowers the follow rate of the spans of its lease by minimum. -/
  | cvyFollowNotice (dt : Nat) (n : Notice)
  /-- CVY_NAK_NOTICE (R277). An inbound nak from another member is counted and otherwise ignored. -/
  | cvyNakNotice (dt : Nat) (n : Notice)
  /-- CVY_LEAVE_NOTICE (R274). An inbound leave notice from another member is counted. -/
  | cvyLeaveNotice (dt : Nat) (n : Notice)
  /-- CVY_QUEUED_MOVE_STAGE (R276). When slot 3 frees, the queued convoy move is staged and sealed. -/
  | cvyQueuedMoveStage (dt : Nat)
  /-- CVY_JOIN_INSTANT (R268). At J the join keystone sets every adaptive tile to the convoy code and the member becomes ACTIVE, or the join aborts. -/
  | cvyJoinInstant (dt : Nat)
  /-- CVY_LEAVE_INSTANT (R271). At the leave instant leases end, pending moves are withdrawn, a leave notice is sent and the state becomes NONE. -/
  | cvyLeaveInstant (dt : Nat)
  /-- SPAN_START (R280). At each 10 us span start the follow rate F is the least rate of the span and reaches every running adaptive tile. -/
  | spanStart (dt : Nat)
  /-- CATCH_UP (R277). An out-of-step member commits the latest received convoy code in slot 3 at an eligible instant. -/
  | catchUp (dt : Nat)
  /-- NOTICE_WITHDRAW (R50). A convoy notice still unsent at its commit instant is withdrawn and counted, and the member acts locally. -/
  | noticeWithdraw (dt : Nat)
  /-- SEXTANT_EDGE (R94). An accepted start or stop edge on an armed channel opens, closes or replaces a pair and forms a result. -/
  | sextantEdge (dt : Nat) (ch : BitVec 6) (stop : Bool) (edge : EdgeIn)
  /-- GATE_EDGE (R92). A rising or falling edge of an sx_gate pin arms or disarms the channels under gate arming. -/
  | gateEdge (dt : Nat) (pin : BitVec 2) (rise : Bool)
  /-- WINDOW_OPEN (R93). At its open instant a window-armed channel arms. -/
  | windowOpen (dt : Nat) (ch : BitVec 6)
  /-- WINDOW_CLOSE (R93). At open plus length a window-armed channel disarms. -/
  | windowClose (dt : Nat) (ch : BitVec 6)
  /-- SEXTANT_SERVICE_CAL (R99). The rotating service test recalibrates one disarmed channel at least every 10 s. -/
  | sextantServiceCal (dt : Nat) (ch : BitVec 6) (pass : Bool)
  /-- SCRUB (R390). The background scrubber reads and corrects one SRAM word per scrub cycle and raises ecc_sticky on repeated corrections. -/
  | scrub (dt : Nat) (r : MemRegion) (idx : Nat) (corrected : Bool)
  /-- ECC_UNC (R391). An uncorrectable word read has the effect that the memory holding it gives. -/
  | eccUnc (dt : Nat) (r : MemRegion) (idx : Nat)
  /-- CLK_STOP (R308). A watched clock with no edge for 1 us is declared stopped and clk_stop is raised. -/
  | clkStop (dt : Nat) (d : Dom)
  /-- CLK_BACK (R308). A stopped clock that shows edges for 1 us is declared running and clk_back is raised. -/
  | clkBack (dt : Nat) (d : Dom)
  /-- XING_TIMEOUT (R309). A take that waits past its limit is abandoned on both sides and counted. -/
  | xingTimeout (dt : Nat) (x : BitVec 5) (tile : BitVec 8)
  /-- XING_STALE (R311). An epoch mismatch that lasts 8 receiving cycles makes a crossing stale, with the handling of R312. -/
  | xingStale (dt : Nat) (x : BitVec 5) (tile : BitVec 8) (other : BitVec 8) (ctlEnd : Bool)
  /-- XING_RESYNC (R313). The Helm resets a stale internal crossing, and three failed resyncs mark it failed. -/
  | xingResync (dt : Nat) (x : BitVec 5) (ok : Bool)
  /-- GRANT_END (R343). At the end of a QUIESCE grant unfinished deferred tests stop and their resources are re-initialised. -/
  | grantEnd (dt : Nat)
  /-- TEST_DONE (R411). A destructive test ends and leaves its resource at reset contents with its result recorded. -/
  | testDone (dt : Nat) (handle : BitVec 16) (pass : Bool) (detail : Word)
  /-- IDCODE (R72). TAP instruction 0x01 selects the 32-bit IDCODE register. -/
  | idcode (dt : Nat)
  /-- LBK_CFG (R415). TAP instruction 0x10 loads the loop-back interface, depth and seed. -/
  | lbkCfg (dt : Nat) (v : BitVec 40)
  /-- LBK_RUN (R415). TAP instruction 0x11 starts the configured loop-back in Run-Test/Idle. -/
  | lbkRun (dt : Nat) (compared mismatches : Word)
  /-- LBK_RES (R415). TAP instruction 0x12 reads the loop-back result. -/
  | lbkRes (dt : Nat)
  /-- SCAN (R415). TAP instruction 0x20, in MANUFACTURE under reset only, runs internal scan with uds masked. -/
  | scan (dt : Nat)
  /-- MBIST (R415). TAP instruction 0x21 runs memory tests 0x10 and 0x11 while the Helm is in ROM. -/
  | mbist (dt : Nat) (pass10 pass11 : Bool)
  /-- FUSE_WRITE (R415). TAP instruction 0x22 blows one unblown fuse field in MANUFACTURE. -/
  | fuseWrite (dt : Nat) (f : FuseField) (v : Nat)
  /-- LC_ADVANCE (R365). TAP instruction 0x23 blows the next lifecycle bit. -/
  | lcAdvance (dt : Nat)
  /-- RMA_TOKEN (R365). TAP instruction 0x24 checks a signed return token and advances FIELD to RMA. -/
  | rmaToken (dt : Nat) (tok : BitVec 768)
  /-- BYPASS (R415). TAP instruction 0xFF, or any unknown code, selects the 1-bit bypass register. -/
  | bypass (dt : Nat)
  /-- LODESTAR_PLL_LOCK (R101). The lodestar PLL locks to the started crystal, lodestar time starts at 0 and channels 60-63 lock their delay lines and begin calibration. -/
  | lodestarPllLock (dt : Nat)
  /-- LODESTAR_TICK (R101). At each 1 kHz lodestar tick a pending ageing adjustment takes effect on the fractional divider. -/
  | lodestarTick (dt : Nat)
  /-- CVO_READY (R50). The host fabric raises cvo_ready and the block's held outbound convoy notice words move, ending the counted stall. -/
  | cvoReady (rise : ReadyRise)
  /-- VDDB_BACK_IN_RANGE (R369). VDDB returns above 0.70 V after a dip, ending the vddb_low event and starting the 1 ms signing hold and the 1 s wait before anti-rollback blowing. -/
  | vddbBackInRange (dt : Nat)
  /-- VANA_BACK_IN_RANGE (R71). VANA returns above 0.61 V, ending the vana_low event so that sextant results are valid again and signing resumes after 1 ms. -/
  | vanaBackInRange (dt : Nat) (inst : BitVec 16)
  /-- CAL_AGE (R99). A sextant channel armed continuously for more than 60 s sets its cal_age status bit and keeps producing results. -/
  | calAge (dt : Nat) (ch : BitVec 6)
deriving DecidableEq, Repr

end Sys2Proof
end

