-- ==== Sys2Proof/Config.lean ====
section
/-! DEFINITION. What one implementation fixes and the manual leaves open: the free values. Every constant here is opaque:
nothing in Lean can evaluate it or prove a value of it (log 5). -/

namespace Sys2Proof.Config

/-- Why a free value is taken: the place where the manual bounds a value and leaves it open. -/
inductive Purpose where
  /-- output low time of a failover, at most 20 ns (04 R109) -/
  | failoverGap
  /-- time from tuned to settled, at most 200 µs (04 R106) -/
  | settle
  /-- a generator's seed (07 R208, 09 R256) -/
  | seed
  /-- a tap voltage within the band in which a plumb may or may not fire (05 R140) -/
  | plumbBand
  /-- the error of a dot product, within 2 units in the last place (07 R196) -/
  | dotError
  /-- a delay that the manual bounds from above and leaves open below (06 R172) -/
  | latency
  /-- the estimate of the time until intake opens again, 0–2,000 µs (13 R323) -/
  | reopen
  /-- a random number of the key engine (16 R373, R375) -/
  | nonce
  /-- whether the hardware resolves a race that the manual leaves open one way or the other -/
  | race
  /-- an element that an element-wise reading of the manual leaves open -/
  | element
deriving DecidableEq, Repr

/-- The n-th free value taken, for a purpose. -/
opaque free : Purpose → Nat → Nat

/-- Whether a return token is signed by the key that the ROM holds: neither the key nor what it signs is given (16 R365, log 12). -/
opaque tokenOk : BitVec 768 → Bool

/-- The digest of the Helm's ROM, measurement 1 (16 R366, R378; log 12). -/
opaque romDigest : BitVec 384

/-- The public key that the leaf of a requester's certificate chain carries: the manual gives no certificate layout (16 R376, log 13). -/
opaque certKey : List Byte → Option (Nat × Nat)

end Sys2Proof.Config
end

