-- ==== Sys2Proof/Machine/State.lean ====
section
/-! DEFINITION. The state of the block as plain data: every register, counter, queue, buffer, mode and pin level that
the manual gives BRN-256, with the reset value of each field written as its default. A field's docstring names the
spec file and the rule it comes from. A value marked (log n) has no reset value in the manual: entry n of the
assumption log names it. -/

namespace Sys2Proof.Machine

/-- A non-negative exact fraction of mt: the sub-unit remainders that R136 keeps exactly. -/
structure Frac where
  num : Nat := 0
  den : Nat := 1
deriving DecidableEq, Repr, Inhabited

/-- A 48-bit duration counter in units of 1.024 µs (16,384 mt) with the exact remainder it carries (04 R136, 17 R392). -/
structure Dur where
  /-- whole units, saturating -/
  n   : BitVec 48 := 0
  /-- remainder in mt, below one unit -/
  rem : Frac := {}
deriving DecidableEq, Repr, Inhabited

/-- The meridian states of Table 3.1 (03 R81). -/
inductive MerSt where
  | unlocked | acquiring | locked | holdover | slewing
deriving DecidableEq, Repr, Inhabited

/-- The tile generator states of Table 4.6 (04 R127). -/
inductive GenSt where
  | absent | disabled | starting | running | gated | domainOff | fenced | halted
deriving DecidableEq, Repr, Inhabited

/-- The states of the standby oscillator (04 R107, Table 4.8). -/
inductive StbySt where
  | off | calibrating | warm | testing
deriving DecidableEq, Repr, Inhabited

/-- The request states of a plumb (05 R145). -/
inductive PlumbSt where
  | idle | firing | holding | decaying
deriving DecidableEq, Repr, Inhabited

/-- The slope choice of an `sx_in` pin (02 R67). -/
inductive Slope where
  | rising | falling | both
deriving DecidableEq, Repr, Inhabited

/-- The counted origin of a stretch (04 Table 4.5, R136); the start origin counts as none. -/
inductive Orig where
  | none | reactive | predicted | throttle
deriving DecidableEq, Repr, Inhabited

/-- The Reckoner modes of Table 6.1 (06 R158). -/
inductive RckMode where
  | off | loading | warmup | active | advisory
deriving DecidableEq, Repr, Inhabited

/-- The keystone states of Table 8.3 (08 R219). -/
inductive KsSt where
  | free | opened | sealed | committed | aborted
deriving DecidableEq, Repr, Inhabited

/-- The coolant states of Table 9.9 (09 R258). -/
inductive CoolSt where
  | unknown | good | wireFault | stopped
deriving DecidableEq, Repr, Inhabited

/-- The convoy member states of Table 10.2 (10 R270). -/
inductive CvySt where
  | none | joining | active | suspended | leaving
deriving DecidableEq, Repr, Inhabited

/-- The Helm stages of Table 13.1 (13 R315). -/
inductive Stage where
  | reset | rom | check | run | restart
deriving DecidableEq, Repr, Inhabited

/-- The mailbox states of Table 13.4 (13 R319). -/
inductive MbxSt where
  | idle | posted | accepted | done
deriving DecidableEq, Repr, Inhabited

/-- The owners of a sextant channel (03 Table 3.8, 14 Table 14.1). -/
inductive Owner where
  | none | host | rck | service | session (h : BitVec 3) | helm
deriving DecidableEq, Repr, Inhabited

/-- The final answer of a command: status, deny code and result words (13 Table 13.3). -/
structure Resp where
  status : Byte
  deny   : BitVec 4
  words  : List Word
deriving DecidableEq, Repr, Inhabited

/-- What a command held ACCEPTED waits on, where no scheduled change carries its mailbox (14 R329). -/
inductive Wait where
  | none
  | railAct (rail : BitVec 3)
  | railQueued (rail : BitVec 3)
  | calSextant (ch : BitVec 6)
  | calPlumb (tile : BitVec 8)
  | test (handle : BitVec 16)
  | loopback
  | inbound
deriving DecidableEq, Repr, Inhabited

/-- One mailbox: its ctl-side areas and state, and what the Helm holds of it (13 R317 to R326). -/
structure Mbx where
  /-- 13 R317, 19 R423: request area, 16 words -/
  reqArea : List Word := List.replicate 16 0
  /-- 13 R317, 19 R423: response area, 16 words -/
  resp    : List Word := List.replicate 16 0
  /-- 13 R319: state as MBX_STATE shows it -/
  st      : MbxSt := .idle
  /-- 13 R326: state as the Helm holds it -/
  held    : MbxSt := .idle
  /-- 13 R326: response as the Helm holds it -/
  heldResp : List Word := List.replicate 16 0
  /-- 13 R319: the request words copied at the doorbell edge -/
  cmd     : List Word := []
  /-- 14 R329: the final answer once its bound is reached and it is to be written -/
  final   : Option Resp := Option.none
  /-- 14 R329: what the command waits on -/
  wait    : Wait := .none
  /-- 13 R324: the Helm holds a response that the ctl domain has not taken -/
  unsent  : Bool := false
  /-- 13 R320: `db_misuse`, 32-bit -/
  misuse  : Cnt := 0
deriving DecidableEq, Repr, Inhabited

/-- The control port's own registers (19) and the state of the four host-clocked ports (02 R39, R42). -/
structure Ctl where
  /-- 19 R419: CTL_INT `mbx_done`, 8 bits -/
  done    : BitVec 8 := 0
  /-- 19 R419: CTL_INT `mbx_misuse` -/
  misuse  : Bool := false
  /-- 19 R419: CTL_INT `xing_stale` -/
  xstale  : Bool := false
  /-- 19 R419: CTL_INT_EN, 12 bits -/
  en      : BitVec 12 := 0
  /-- 19 R419: the level `evt_pend` rests at while the Helm cannot run -/
  evtHeld : Bool := false
  /-- 19 R420: CTL_XSTALE, 7 bits -/
  staleBits : BitVec 7 := 0
  /-- 13 Table 13.5: MBX_STATE `sync` -/
  sync    : Bool := false
  /-- 13 Table 13.5: MBX_BUSY, 32-bit -/
  busy    : Cnt := 0
  /-- 19 R425: MER_HI, 32 bits -/
  merHi   : Word := 0
  /-- 19 R425: MER_STATE, 32 bits -/
  merSt   : Word := 0
  /-- 19 R425: a break since the previous MER_LO read -/
  brk     : Bool := false
  /-- 18 R414: LBK_ECHO as last written, none before any write -/
  echo    : Option Word := Option.none
  /-- 18 R414: next value LBK_XING gives -/
  xing    : Word := 1
  /-- 18 R414: LBK_HELM, the word the Helm presents -/
  helm    : Word := 0
  /-- 18 R414: LBK_HELM takes left in a depth-2 control loop-back, takes and misses counted -/
  helmLeft : Nat := 0
  helmTaken : Nat := 0
  /-- 12 R312: the last value taken through crossing 4; what the ctl domain holds of the Helm's stage and intake, of
  meridian time and state, of CTL_BOOT and of `stop` once crossing 2, 5 or 6 is stale -/
  snap4   : Word := 0
  snapHelm : Word := 0
  snapMer : Time := 0
  snapMst : Word := 0
  snapBoot : Word := 0
  snapStop : Bool := false
  /-- 19 R417: data of the latest control-port read, and its `ctl_err` (02 R43) -/
  rdata   : Word := 0
  err     : Bool := false
  /-- 12 R310: ports (ctl, log, man, cvy) whose reset has ended and whose own side releases once its clock runs -/
  rel     : BitVec 4 := 0
  /-- 02 R39: control port in reset -/
  rst     : Bool := false
  /-- 02 R39: log port in reset -/
  logRst  : Bool := false
  /-- 02 R39: manifest port in reset -/
  manRst  : Bool := false
  /-- 02 R39: convoy port in reset -/
  cvyRst  : Bool := false
deriving DecidableEq, Repr, Inhabited

/-- The Helm: its stage, intake and watchdog (13), and the firmware it holds (16). -/
structure Helm where
  /-- 13 R315: stage -/
  stage   : Stage := .reset
  /-- 13 R321: intake-open flag -/
  open_   : Bool := false
  /-- 13 R323: the `reopen` estimate in µs, 0–2,000 -/
  reopen  : BitVec 16 := 0
  /-- 13 R321: intake queue of at most 4 entries, oldest first -/
  queue   : List (BitVec 3) := []
  /-- 14 Table 14.13: watchdog expiries, 32-bit -/
  wdogs   : Cnt := 0
  /-- 14 Table 14.13: requested restarts, 32-bit -/
  restarts : Cnt := 0
  /-- 16 R368: reason of the last failed image check, 8 bits -/
  reason  : Byte := 0
  /-- 16 Table 16.4: `fw_ver` of the image that runs, 0 in ROM -/
  fwVer   : Word := 0
  /-- 16 R369: `svn` of the image that runs -/
  svn     : Nat := 0
  /-- 16 R369: uptime at which the present stable RUN began -/
  runAt   : Nat := 0
  /-- 16 R370: the image held in the Helm's code SRAM -/
  image   : List Byte := []
  /-- 16 R370: the firmware measurement taken at boot, 384 bits -/
  meas    : BitVec 384 := 0
  /-- 17 R391: the code SRAM holds an uncorrectable word -/
  codeBad : Bool := false
  /-- 16 R366: the ROM has started since reset -/
  romUp   : Bool := false
deriving DecidableEq, Repr, Inhabited

/-- Boot domain: resets, supply monitors, presence monitors, coolant and throttle inputs, stop (02, 09). -/
structure Boot where
  /-- 02 R41: the block is held in reset -/
  inReset : Bool := false
  /-- time since the release of `brn_rst_n`, in mt (the model's own clock, log 2) -/
  uptime  : Nat := 0
  /-- 19 R422: last block reset was the power-on monitor's -/
  rstPor  : Bool := false
  /-- 02 R70: a VDDB dip is in force -/
  vddbDip : Bool := false
  /-- 02 R70: VDDB dips, 32-bit -/
  vddbCnt : Cnt := 0
  /-- 16 R369: uptime at which VDDB last came back in range -/
  vddbBack : Nat := 0
  /-- 02 R71: the VANA instances that are low -/
  vanaLow : List (BitVec 16) := []
  /-- 16 R373: uptime until which the key engine refuses to sign after a supply event -/
  signHold : Nat := 0
  /-- 02 R66: `chip_stop_o` -/
  chipStop : Bool := false
  /-- 19 R422: `stop_cause` -/
  stopCause : BitVec 3 := 0
  /-- 05 R153: a thermal trip holds -/
  trip    : Bool := false
  /-- 09 R258: coolant state -/
  cool    : CoolSt := .unknown
  /-- 02 R63: flow good declared once since reset -/
  flowOnce : Bool := false
  /-- 02 R62: uptime of the last `flow_hb` rising edge, none before the first -/
  hbLast  : Option Nat := Option.none
  /-- 02 R62: successive good, lost and unclassified periods -/
  hbGood  : Nat := 0
  hbLost  : Nat := 0
  hbOdd   : Nat := 0
  /-- 02 R62: a DC level has been declared since the last edge -/
  hbDc    : Bool := false
  /-- 09 R259: the tray has confirmed flow and the floor is released -/
  trayOk  : Bool := false
  /-- 09 R259: uptime of the start of the 30 s wait -/
  waitAt  : Nat := 0
  /-- 09 R259: uptime of the last confirming poll -/
  trayAt  : Nat := 0
  /-- 09 R259: uptime at which the next tray poll is due, none when none is -/
  pollAt  : Option Nat := Option.none
  /-- 09 Table 9.11: wire faults, tray polls failed, 32-bit -/
  wires   : Cnt := 0
  trayBad : Cnt := 0
  /-- 09 Table 9.11: time in WIRE_FAULT -/
  wireTime : Dur := {}
  /-- 02 R65: a confirmed low on `thr_req_n` -/
  thrLow  : Bool := false
  /-- 02 R65: `thr_req_n` is held low, as the pin stands whatever the block does -/
  thrPin  : Bool := false
  /-- 02 R65: the 10 µs hold after the rise -/
  thrHold : Bool := false
  /-- 02 R65: uptime of the latest rise of `thr_req_n` -/
  thrRiseAt : Nat := 0
  /-- 05 Table 5.6: `thr_req_n` assertions and glitches, 32-bit -/
  thrCnt  : Cnt := 0
  thrGlitch : Cnt := 0
  /-- 19 R422: CTL_BOOT `clk_run`, 8 bits; bit 0 always reads 1 -/
  clkRun  : BitVec 8 := 1
  /-- 12 R308: domains whose clock is declared stopped -/
  clkStopped : BitVec 8 := 0
  /-- 19 R422: reference present (R55) -/
  refOk   : Bool := false
  /-- 19 R422: crystal healthy (R58) -/
  xoOk    : Bool := false
  /-- 02 R58: the crystal start-up window is open -/
  xoWindow : Bool := true
  /-- 02 R58: uptime since which the crystal amplitude has held in range -/
  xoGoodAt : Nat := 0
  /-- 19 R422: pair corrections since reset (R56) -/
  refSwap : Bool := false
  merSwap : Bool := false
  /-- 02 R56: successive pulses at a `ref` falling edge -/
  fallRun : Nat := 0
  /-- 18 R405: TST_READY `boot_cal`, `sxt_cal`, `lode_cal`, `locked_once`, `cal_fail` -/
  bootCal : Bool := false
  sxtCal  : Bool := false
  lodeCal : Bool := false
  lockedOnce : Bool := false
  calFail : Bool := false
  /-- 02 R48: `hail_clk` runs -/
  hailClk : Bool := false
  /-- 05 R150: the instant of the latest thermal sample, none before the first -/
  thermAt : Option Time := Option.none
  /-- 11 R294: the millisecond of the latest examination of the learned limits, none before the first -/
  examAt  : Option Time := Option.none
deriving DecidableEq, Repr, Inhabited

/-- The meridian counter and its lock (03). -/
structure Mer where
  /-- 03 R81: meridian state -/
  st      : MerSt := .unlocked
  /-- 03 R75: the counter, 64 bits, as it shows: it moves in steps of 20 mt between the edges of `ref` -/
  now     : Time := 0
  /-- 03 R75: mt since the counter's latest step, below 20 -/
  frac    : Nat := 0
  /-- 03 Table 3.1: the counter runs -/
  running : Bool := false
  /-- 03 R81, R85: `ref` seen valid for 10 µs since loss -/
  refBack : Bool := false
  /-- 03 R81, R85: PLLs locked (relocked) to the reference -/
  plls    : Bool := false
  /-- 03 R85: successive aligned pulses seen on the way to lock or return -/
  aligned : Nat := 0
  /-- 03 R78: epoch marked set -/
  epochSet : Bool := false
  /-- 03 R78: pending epoch setting N and the pulses still to come -/
  epochPend : Option (BitVec 40 × Nat) := Option.none
  /-- 03 R85: phase offset still to remove, in mt -/
  offset  : Int := 0
  /-- 03 R76, R85: mt since SLEWING began or since its latest step: 160 mt are one reference period -/
  slewMt  : Nat := 0
  /-- 03 R86: break counter, 32-bit -/
  breaks  : Cnt := 0
  /-- 03 Table 3.4: pulse alignment and interval counters, 32-bit -/
  alignCnt : Cnt := 0
  interCnt : Cnt := 0
  /-- 02 R55: successive pulses outside the window -/
  badRun  : Nat := 0
deriving DecidableEq, Repr, Inhabited

/-- A change scheduled at a tile for a meridian instant (04 R111, R112, R128, R129). -/
inductive SchedAct where
  | code (c : BitVec 16)
  | enable | disable | gate | ungate | swap
deriving DecidableEq, Repr, Inhabited

/-- A scheduled change: its instant, what it does, the mailbox that waits on it, and whether a keystone commit or the
block itself (an automatic swap) placed it. -/
structure Sched where
  at_  : Time
  act  : SchedAct
  mbx  : Option (BitVec 3) := Option.none
  ks   : Bool := false
  auto : Bool := false
deriving DecidableEq, Repr, Inhabited

/-- A handover under way at a tile: the standby's preparation (04 Table 4.4). -/
structure Hov where
  at_    : Time
  code   : BitVec 16
  swap   : Bool := false
  tuned  : Bool := false
  aligning : Bool := false
deriving DecidableEq, Repr, Inhabited

/-- One plumb of a tile (05). -/
structure Plumb where
  /-- 05 R145: request state -/
  st     : PlumbSt := .idle
  /-- 05 R145: the stretch this plumb requests, 0–16 -/
  req    : BitVec 5 := 0
  /-- 05 R143: `hold` and `decay` latched at entry into droop -/
  hold   : Nat := 16
  decay  : Nat := 1
  /-- 05 R145: periods of the tile that have begun in this hold, or in this step of the decay -/
  cnt    : Nat := 0
  /-- 05 R143, Table 5.1: uptime until which the output is held for a threshold change -/
  blankTill : Nat := 0
  /-- 05 R149: uptime until which the output is held released for a calibration -/
  calTill : Nat := 0
  /-- 05 R140: comparator output in droop -/
  out    : Bool := false
  /-- 05 R148: time in droop since entry or since the last examination, in mt -/
  outMt  : Nat := 0
  /-- 09 R250: reactive request masked by the plausibility check -/
  masked : Bool := false
  /-- 05 R149: uptime and temperature of the latest calibration -/
  calAt  : Nat := 0
  calTemp : Int := 0
  /-- 05 Table 5.6: entries into droop, 32-bit, and droop time -/
  entries : Cnt := 0
  time   : Dur := {}
  /-- 06 Table 6.4: droop mt in the course that runs, and the last 16 courses in 1/16, newest first -/
  acc    : Nat := 0
  hist   : List Nat := List.replicate 16 0
  /-- 15 Table 15.5: droop mt and entry in the telemetry span -/
  tAcc   : Nat := 0
  tEnt   : Bool := false
  /-- 15 R359: entry in the course that runs -/
  cEnt   : Bool := false
deriving DecidableEq, Repr, Inhabited

/-- One OP record in a tile's window (06 R160). -/
structure OpRec where
  start : Time
  dur   : BitVec 16
  cls   : BitVec 6
  work  : BitVec 8
  fmt   : BitVec 4
  tag   : BitVec 4
deriving DecidableEq, Repr, Inhabited

/-- One operand slot's statistics features (06 R161). -/
structure Stat where
  known  : Bool := false
  zero   : BitVec 8 := 0
  sat    : BitVec 8 := 0
  nonfin : BitVec 8 := 0
  mag    : BitVec 8 := 0
  age    : Nat := 0
deriving DecidableEq, Repr, Inhabited

/-- One pending or committed Reckoner event of a tile (06 R176 to R178). -/
structure Event where
  inst    : Time
  preStart : Time
  preEnd  : Time
  dipStart : Time
  dipEnd  : Time
  preK    : BitVec 5
  dip     : BitVec 16
  hail    : Bool
  need    : Nat
  confs   : Nat := 0
  committed : Bool := false
  preOn   : Bool := false
  dipOn   : Bool := false
  preDone : Bool := false
  dipDone : Bool := false
  intent  : Bool := false
  /-- formed in ACTIVE: its actions reach the tile (R159) -/
  sent    : Bool := true
  /-- cancelled or abandoned: only the ends of its actions are still to come (R178, R181) -/
  dead    : Bool := false
  /-- phases added so far by this event's pre-stretch (R122) -/
  added   : Dur := {}
deriving DecidableEq, Repr, Inhabited

/-- What telemetry and trace records accumulate for a tile over a span (15 Table 15.5). -/
structure Telem where
  courses : Nat := 0
  tCourse : BitVec 32 := 0
  kMax    : BitVec 5 := 0
  qMin    : BitVec 9 := 256
  floor_  : Bool := false
  gap     : Bool := false
  skip    : Bool := false
  periods : Nat := 0
  passed  : Nat := 0
  react   : Nat := 0
  plan    : Nat := 0
  thr     : Nat := 0
  why     : BitVec 12 := 0
deriving DecidableEq, Repr, Inhabited

/-- One tile: generator, words, plumbs, sensors, limits, windows and counters (04, 05, 06, 11, 17). -/
structure Tile where
  /-- 04 R127: generator state -/
  st      : GenSt := .disabled
  /-- 04 R135: active oscillator, true for B -/
  actB    : Bool := false
  /-- 04 R135: standby state -/
  stby    : StbySt := .off
  /-- 04 R135: code of the active oscillator, without a dip -/
  runCode : BitVec 16 := 0
  /-- 06 R177: depth of the dip in force, in codes -/
  dip     : BitVec 16 := 0
  /-- 06 R177, 11 R292: pre-stretch and dip that the tile holds in force, as the floor last checked them -/
  heldK   : BitVec 5 := 0
  heldD   : BitVec 16 := 0
  /-- 04 R106: mt still to run until the active oscillator, and the standby, is settled -/
  settle  : Nat := 0
  stbySettle : Nat := 0
  /-- 04 R109, R128: the active oscillator is still being brought to its code; that follows a failover of a running tile -/
  actCal  : Bool := false
  foGap   : Bool := false
  /-- 04 Table 4.10: instant of a handover that a failover has already done -/
  hovDone : Option Time := Option.none
  /-- 04 R109: failed oscillators -/
  failA   : Bool := false
  failB   : Bool := false
  /-- 04 R128: both oscillators calibrated within the lead of an enable -/
  calA    : Bool := false
  calB    : Bool := false
  /-- 17 R395: fence cause, 4 bits; fence counter -/
  cause   : BitVec 4 := 0
  fences  : Cnt := 0
  /-- 04 R133: policy word -/
  code    : BitVec 16 := 0
  reactLim : BitVec 5 := 16
  planLim : BitVec 5 := 0
  softStart : Bool := true
  /-- 05 R141: plumb word and droop word, 64 bits each -/
  plumbW  : BitVec 64 := 0x20E018D810D008C8#64
  droopW  : BitVec 64 := 0x0000000006940110#64
  /-- 05 R145: the four plumbs -/
  plumbs  : List Plumb := List.replicate 4 {}
  /-- 04 R123: start stretch, and the periods begun since it last fell -/
  start   : BitVec 5 := 0
  startPer : Nat := 0
  /-- 04 R118: the next read of the stretch is that of a low half -/
  low     : Bool := false
  /-- 04 R118: time until that read; a half's last edge follows its read by 350 ps and its added phases -/
  wait    : Frac := {}
  /-- 04 R118: time by which the reads of a clock that has just started lie ahead of its edges, still to be run -/
  lead    : Frac := {}
  /-- 04 R118: origin that the low half of the latest period read -/
  lowOrg  : Orig := .none
  /-- 04 R111: code that times the period under way -/
  perCode : BitVec 16 := 0
  /-- 04 R118: stretch and origin that the high half of the period under way read -/
  highRead : BitVec 5 × Orig := (0, .none)
  /-- 04 R124: the period under way carries its high phase; its number 0–7 in the frame -/
  pass    : Bool := true
  frame   : Nat := 0
  /-- 04 R126: phases added, periods passed and time so far in the frame -/
  frK     : Nat := 0
  frPass  : Nat := 0
  frLen   : Frac := {}
  /-- 04 R135: stretch of the last period -/
  lastK   : BitVec 5 := 0
  /-- 05 R152: thermal target rate -/
  qth     : BitVec 9 := 256
  /-- 11 R294: learned code -/
  learn   : BitVec 16 := 40960
  /-- 04 R128, R132: state to return to when the domain returns; true: an enable is recorded -/
  ret     : GenSt := .disabled
  recEn   : Bool := false
  /-- 04 R112: scheduled changes -/
  sched   : List Sched := []
  /-- 03 Table 3.3: handovers withdrawn at a loss of reference that the Helm schedules again after the return -/
  resched : List SchedAct := []
  /-- 01 R27: instant of the latest code move taken -/
  movedAt : Option Time := Option.none
  /-- 04 R115: handover under way -/
  hov     : Option Hov := Option.none
  /-- 05 R147: the enable instant whose tap check has passed -/
  tapOk   : Option Time := Option.none
  /-- 05 R150, R151: sensors failed, last readings (0.25 °C), at or above 115 °C on the last sample -/
  failS0  : Bool := false
  failS1  : Bool := false
  t0      : Int := 0
  t1      : Int := 0
  hot0    : Bool := false
  hot1    : Bool := false
  /-- 05 R151: successive samples with more than 15 °C between the sensors -/
  disagree : Nat := 0
  /-- 06 R163: the last 11 tile temperatures, newest first -/
  temps   : List Int := []
  /-- 05 Table 5.6: peak temperature, 12 bits -/
  peak    : Int := -2048
  /-- 04 Table 4.9: duration counters -/
  dReact  : Dur := {}
  dPred   : Dur := {}
  dThr    : Dur := {}
  dSupp   : Dur := {}
  dCanc   : Dur := {}
  dHov    : Dur := {}
  dFail   : Dur := {}
  /-- 04 Table 4.9: event counters, 32-bit -/
  slides  : Cnt := 0
  hovs    : Cnt := 0
  swaps   : Cnt := 0
  hovMiss : Cnt := 0
  dipCanc : Cnt := 0
  oscFails : Cnt := 0
  /-- 05 Table 5.6: plumb calibrations, sensor faults, `steady_unshed`, 32-bit -/
  plCals  : Cnt := 0
  senFaults : Cnt := 0
  unshed  : Cnt := 0
  /-- 05 Table 5.6: thermal throttle time, moved-throttle time -/
  dTherm  : Dur := {}
  dMoved  : Dur := {}
  /-- 08 R234: strobe misses of this tile -/
  strobes : Cnt := 0
  /-- 04 R137, 03 R83: scheduled changes withdrawn at a loss of reference -/
  withdrawn : Cnt := 0
  /-- 17 R396: discarded mortar words, and the uptimes of those within the last 1 ms -/
  mortar  : Cnt := 0
  mortarAt : List Nat := []
  /-- 11 R293: floor-override record -/
  dFloor  : Dur := {}
  floorWhy : BitVec 12 := 0
  /-- 11 R294: periods, and periods at the reactive limit, in the 1 ms that runs; RUNNING through all of it -/
  exPer   : Nat := 0
  exLim   : Nat := 0
  exRun   : Bool := false
  /-- 09 R255: passed periods in the interval that runs, and the last count that arrived -/
  passIv  : Nat := 0
  passLast : Nat := 0
  /-- 03 R79: successive meridian mismatches; scheduled actions withheld -/
  mism    : Nat := 0
  mismCnt : Cnt := 0
  withhold : Bool := false
  /-- 17 R399: the latest fence trial: run, oscillators passed, sensors passed -/
  trialRun : Bool := false
  trialA  : Bool := false
  trialB  : Bool := false
  trialS0 : Bool := false
  trialS1 : Bool := false
  /-- 17 R399: uptime at which the next trial of a fenced tile is due -/
  trialAt : Nat := 0
  /-- 18 R407: uptime and temperature of the active oscillator's last cold calibration -/
  calAt   : Nat := 0
  calTemp : Int := 0
  /-- 06 R162: OP window, ordered by planned start -/
  window  : List OpRec := []
  /-- 06 R161: statistics features of the four operand slots -/
  stats   : List Stat := List.replicate 4 {}
  /-- 06 R176: pending and committed events, at most 4 -/
  events  : List Event := []
  /-- 06 R182: instants of the intents sent, while a later one could lie close -/
  hailed  : List Time := []
  /-- 06 R172: the last plan word, and the plan formed at the last snapshot that the next emission sends -/
  plan    : BitVec 64 := 0
  /-- 07 R206: whether the tile was skipped in each of the last 11 courses, newest first -/
  skips   : List Bool := []
  /-- 07 R206: last-layer converted inputs (binary32) and output `m_out` of the last 11 courses, newest first -/
  lastX   : List (List (BitVec 32)) := []
  lastY   : List (BitVec 32) := []
  /-- 07 R206: latest adaptation sample per plumb, binary32 -/
  samples : List (BitVec 32) := List.replicate 4 0
  /-- 09 R247: power estimate of the last course, binary32 -/
  est     : BitVec 32 := 0
  estSkip : Bool := false
  /-- 09 R255: this tile's own estimates in the interval: sum in 2^-16 mW and count -/
  estSum  : Nat := 0
  estCnt  : Nat := 0
  /-- 15 R355: telemetry sums, and trace sums of the course -/
  telem   : Telem := {}
  trace   : Telem := {}
  /-- 14 R332: TILE_COUNTERS snapshot pages 1–3 -/
  snap    : List (List Word) := []
  /-- 18 R410: passes of test 0x02 on the standby, and the result of the latest -/
  stbyTests : Cnt := 0
  /-- 05 R148, 18 R408: a plumb disabled by a faulty tap stays disabled in the plumb word (no extra field);
  18 R408: a deferred plumb trim waits for the tile's next stop -/
  trimWait : Bool := false
deriving DecidableEq, Repr, Inhabited

/-- A plausibility check under way on a rail (09 R250). -/
structure PlCheck where
  tile  : BitVec 8
  plumb : BitVec 2
  ch    : BitVec 6
  /-- the largest code so far whose droop share was at least one half, and the search steps done -/
  code  : Nat := 0
  steps : Nat := 0
  /-- uptime of its start t0 -/
  t0    : Nat := 0
deriving DecidableEq, Repr, Inhabited

/-- One frame or transaction on a supply bus (09 R239): an AVSBus frame of Table 9.2 with its link and Select value, or a PMBus
command of Table 9.3 with its address; `data` is what it writes, voltages in mV, none for a read or a send byte. -/
inductive BusOp where
  | avs (link : BitVec 1) (sel cmd type : BitVec 4) (data : Option Nat)
  | pmb (addr : BitVec 7) (code : Byte) (data : Option Nat)
deriving DecidableEq, Repr, Inhabited

/-- One rail (09). -/
structure Rail where
  /-- 09 R236: rail map word, 64 bits -/
  map     : BitVec 64 := 0x0000000000030000#64
  /-- 09 R237: active -/
  active  : Bool := false
  /-- 09 R237: mailbox of the activation that runs -/
  acting  : Option (BitVec 3) := Option.none
  /-- 08 R228, 09 R237: committed set point in mV -/
  vset    : BitVec 12 := 0
  /-- 05 R139: the set point the plumb references follow, in mV -/
  vref    : Nat := 0
  /-- 09 R239: set point last written to the regulator, in mV -/
  written : Nat := 0
  /-- 08 R225: a written raise to take back, and since when; 08 R224: instant of the latest committed set point -/
  wback   : Option (BitVec 12) := Option.none
  wbackAt : Time := 0
  lowerAt : Time := 0
  /-- 09 R241: last readbacks, voltage in mV and current in mA, newest first, at most 4 each -/
  mvs     : List Nat := []
  mas     : List Nat := []
  /-- 09 R240: uptime of the latest fallback read of the voltage, and of the current -/
  pmVolt  : Option Nat := Option.none
  pmCurr  : Option Nat := Option.none
  /-- 08 R224: a readback has been taken since the last write -/
  fresh   : Bool := false
  /-- 09 R238: successive samples above, and at or below; `safe_q` applied -/
  overRun : Nat := 0
  underRun : Nat := 0
  isOver  : Bool := false
  /-- 09 R248: consecutive valid intervals above, and below, the estimate -/
  above   : Nat := 0
  below   : Nat := 0
  /-- 09 R248, R251: telemetry-suspect, telemetry fault -/
  suspect : Bool := false
  fault   : Bool := false
  /-- 09 R250: the check that runs; uptime of the last clearing -/
  check   : Option PlCheck := Option.none
  clearedAt : Option Nat := Option.none
  /-- 09 R250: uptime of the last wait that was counted -/
  plWaitAt : Option Nat := Option.none
  /-- 09 R247: sums of estimates over the courses of the interval in 2^-16 mW, courses, and validity -/
  estSum  : Nat := 0
  estCnt  : Nat := 0
  estBad  : Bool := false
  /-- 09 Table 9.11, 05 Table 5.6: counters, 32-bit -/
  cInvalid : Cnt := 0
  cSuspect : Cnt := 0
  cRun    : Cnt := 0
  cConf   : Cnt := 0
  cClear  : Cnt := 0
  cWait   : Cnt := 0
  cOver   : Cnt := 0
  cAlert  : Cnt := 0
  cSag    : Cnt := 0
deriving DecidableEq, Repr, Inhabited

/-- The power controller (09) and the policy it holds (11, 14). -/
structure Power where
  /-- 05 R154, 08 R228: `host_q`, and a raise that waits for the throttle in force to end -/
  hostQ   : BitVec 8 := 64
  hostQNow : BitVec 8 := 64
  /-- 11 R291: floor word, and the one in force since the last emission -/
  floorW  : BitVec 64 := 0x0000000000010001#64
  floorNow : BitVec 64 := 0x0000000000010001#64
  /-- 09 R260: `safe_q` -/
  safeQ   : BitVec 7 := 32
  /-- 14 Table 14.3: PMBus word (log 9) -/
  pmbus   : Word := 0
  /-- 09 R248, R255: power configuration word: est_margin, tel_margin, split mode; the word in force in this interval -/
  cfg     : Word := 0x00000A0F#32
  cfgNow  : Word := 0x00000A0F#32
  /-- 09 R236: the rail map is locked -/
  mapLock : Bool := false
  /-- 09 R243, 08 R228: peak, burst and sustained limits in mW -/
  limits  : List Word := [2000000, 2000000, 2000000]
  /-- 09 R244: cap rates q_peak, q_burst, q_sustained -/
  caps    : List (BitVec 9) := [256, 256, 256]
  /-- 09 R244: interval of the last fast guard, none before the first -/
  kGuard  : Option Nat := Option.none
  /-- 09 R241: intervals since the first rail activation -/
  k       : Nat := 0
  /-- 09 R242: P′ of the last 100 intervals and the 1-ms means, newest first, in 2^-16 mW -/
  hist    : List Nat := []
  msAcc   : List Nat := []
  means   : List Frac := []
  /-- 09 R241: die power P_k of the last interval, 2^-16 mW -/
  pDie    : Nat := 0
  /-- 09 R248, R249: distrusted; consecutive valid in-margin intervals -/
  distrust : Bool := false
  trustRun : Nat := 0
  /-- 02 R59: for each AVSBus link, the sampling interval of its latest voltage write and the writes in it -/
  writes  : List (Time × Nat) := [(0, 0), (0, 0)]
  /-- 09 R239: the frames and transactions that the latest bus activity formed, in order -/
  bus     : List BusOp := []
  /-- 02 R61: PMBus transactions counted as failed after two retries -/
  pmbBad  : Cnt := 0
  /-- 09 R241, R244: meridian multiple of the latest interval closed, and of the latest evaluation of each limit -/
  ivAt    : Option Time := Option.none
  capAt   : List (Option Time) := [Option.none, Option.none, Option.none]
  /-- 02 R60: AVSBus links faulted, bit k -/
  avsBad  : BitVec 2 := 0
  /-- 02 R60: uptime of each link's fault or of the latest attempt on it -/
  avsAt   : List Nat := [0, 0]
  /-- 02 R61: PMBus recoveries and failed recoveries in a row; alerts -/
  pmbRec  : Cnt := 0
  pmbFail : Nat := 0
  /-- 09 Table 9.11: counters -/
  breach  : List Cnt := [0, 0, 0]
  guards  : Cnt := 0
  distrusts : Cnt := 0
  trusts  : Cnt := 0
  dDistrust : Dur := {}
  wbacks  : Cnt := 0
  /-- 09 R252: the 12 reason duration counters -/
  reasons : List Dur := List.replicate 12 {}
  /-- 15 Table 15.6: OR of THR_CAUSE over the interval, and its value at the previous interval's end -/
  causeOr : BitVec 12 := 0
  causeEnd : BitVec 12 := 0
  /-- 16 R383: chart guard drops, 32-bit -/
  chartGuard : Cnt := 0
  /-- 14 R332: snapshots of POWER_COUNTERS and REASONS -/
  snapPow : List (List Word) := []
  snapRea : List (List Word) := []
deriving DecidableEq, Repr, Inhabited

/-- One energy account: a 64-bit energy in µJ with its own rounding generator (09 R256). -/
structure Account where
  energy : BitVec 64 := 0
  sat    : Bool := false
  lfsr   : Word := 1
deriving DecidableEq, Repr, Inhabited

/-- One partition's record beside its account (09 Table 9.8). -/
structure Part where
  est    : Bool := false
  epoch  : Cnt := 0
  estIv  : Cnt := 0
  fbIv   : Cnt := 0
deriving DecidableEq, Repr, Inhabited

/-- The ledger (09 R254 to R257). -/
structure Ledger where
  /-- 09 R254: partition map, 256 entries of 8 bits; the map that the next interval boundary takes -/
  map     : List Byte := List.replicate 256 0
  mapNext : List Byte := List.replicate 256 0
  /-- 09 R256: accounts 0–15 partitions, 16 die, 17 unallocated, 18–25 rails -/
  accts   : List Account := List.replicate 26 {}
  parts   : List Part := List.replicate 16 {}
  /-- 09 R257: latest snapshot of the accounts, the partition records, the tiles of each partition, and its instant -/
  sAccts  : List Account := List.replicate 26 {}
  sParts  : List Part := List.replicate 16 {}
  sTiles  : List Nat := List.replicate 16 0
  tSnap   : Time := 0
  /-- 09 R257: meridian multiple of the latest snapshot taken on the present time -/
  snapAt  : Option Time := Option.none
deriving DecidableEq, Repr, Inhabited

/-- What a keystone in slot 3 is for (10 R268, R276, R277). -/
inductive KsKind where
  | host | join | move | catchUp
deriving DecidableEq, Repr, Inhabited

/-- One keystone slot (08 R214 to R226). -/
structure Slot where
  st     : KsSt := .free
  /-- 08 R214: `ks_seq`, 32 bits -/
  seq    : Word := 0
  /-- 08 R220: commit instant T -/
  t      : Time := 0
  /-- 08 R216: staged action records, 128 bits each, in staging order -/
  acts   : List (BitVec 128) := []
  /-- 08 R221: instant at which each action was staged, in the same order -/
  staged : List Time := []
  kind   : KsKind := .host
  /-- 10 Table 10.4: `mseq` of a convoy move, and the code that it or a catch-up carries -/
  mseq   : Word := 0
  code   : BitVec 16 := 0
  /-- 08 R222: a seal waits; every shadow entry is acknowledged -/
  sealing : Bool := false
  acked  : Bool := true
  /-- 08 R222: mailbox of the waiting seal -/
  sealMbx : Option (BitVec 3) := Option.none
  /-- 08 R233: mailboxes of KS_WAIT -/
  waits  : List (BitVec 3) := []
  /-- 08 R224: rails whose raise has been written, and whose check has passed -/
  raised : List (BitVec 3) := []
  checked : List (BitVec 3) := []
  /-- 08 R227: members fenced for a missing acknowledgement -/
  lateFence : Nat := 0
deriving DecidableEq, Repr, Inhabited

/-- One keystone result record (08 Table 8.4). -/
structure KsRes where
  seq    : Word
  slot   : BitVec 2
  st     : KsSt
  cause  : BitVec 4
  convoy : Bool
  nAct   : Nat
  t      : Time
  failIdx : BitVec 10 := 0x3FF
  failTgt : BitVec 8 := 0
  late   : BitVec 9 := 0
deriving DecidableEq, Repr, Inhabited

/-- A capture that waits for its instant (08 R229, 09 R263). -/
structure Capture where
  at_    : Time
  /-- a tile group 0–7, 8 for all; none for a counter capture -/
  groups : Option (BitVec 4)
  mbx    : Option (BitVec 3)
deriving DecidableEq, Repr, Inhabited

/-- The keystone engine (08). -/
structure Keys where
  /-- 08 R214: the four slots -/
  slots   : List Slot := List.replicate 4 {}
  /-- 08 R214: next `ks_seq` -/
  next    : Word := 1
  /-- 08 R233: the last 16 results, newest first -/
  results : List KsRes := []
  /-- 08 R234: committed; aborted by cause 1–12; strobe misses; moved captures, 32-bit -/
  committed : Cnt := 0
  aborted : List Cnt := List.replicate 12 0
  misses  : Cnt := 0
  moved   : Cnt := 0
  /-- 08 R229: captures waiting -/
  caps    : List Capture := []
  /-- 08 R223: T of the keystones committed at an instant not yet 160 mt past -/
  recentT : List Time := []
  /-- 10 R268: meridian time at which slot 3 last became free -/
  freed3  : Time := 0
deriving DecidableEq, Repr, Inhabited

/-- One layer of a loaded class (07 Table 7.3) with where its segments lie (06 Table 6.7). -/
structure Layer where
  nin    : Nat
  nout   : Nat
  inFmt  : BitVec 3
  act    : BitVec 2
  bias   : Bool
  margin : Nat
  adapt  : Bool
  win    : Nat
  mLag   : Nat
  lo     : BitVec 32
  hi     : BitVec 32
  eta    : BitVec 32
  mOut   : Nat
  outMap : List Byte
  /-- weight SRAM offset and element format of the matrix segment, and weight SRAM offset of the bias vector -/
  wAt    : Nat
  wFmt   : BitVec 3
  bAt    : Nat
deriving DecidableEq, Repr, Inhabited

/-- The history ring and watch figures of one tensor (07 R200, R203, Table 7.8). -/
structure Tensor where
  /-- 07 R200: 16 entries of (finite magnitude as binary32), none when empty, by course number modulo 16 -/
  ring   : List (Option (BitVec 32)) := List.replicate 16 Option.none
  /-- in the course that runs: elements, zeros, saturations, non-finite, and the amax so far -/
  cElem  : Nat := 0
  cZero  : Nat := 0
  cSat   : Nat := 0
  cNonfin : Nat := 0
  cAmax  : Option (BitVec 32) := Option.none
  /-- in the window: sums and highest shares -/
  wElem  : Cnt := 0
  wZero  : Cnt := 0
  wSat   : Cnt := 0
  wNonfin : Cnt := 0
  mZero  : Nat := 0
  mSat   : Nat := 0
  mNonfin : Nat := 0
  fb     : Bool := false
  scale  : BitVec 8 := 0
  /-- 07 R204: latest report, 288 bits -/
  report : BitVec 288 := 0
deriving DecidableEq, Repr, Inhabited

/-- A lookup-table segment of a class (07 R187). -/
structure LookTable where
  spill : Bool
  dst   : Nat
  len   : Nat
  fmt   : Nat
deriving DecidableEq, Repr, Inhabited

/-- The sample of a channel for a course that has ended: what its pairs gave, whether the last of them still runs, and the prediction
and inputs of course n − `m_lag` (07 R206). -/
structure Sample where
  ch    : BitVec 6
  tile  : BitVec 8
  plumb : BitVec 2
  len   : Nat
  sum   : Nat
  bad   : Bool
  open_ : Bool
  skip  : Bool
  y     : BitVec 32
  xs    : List (BitVec 32)
deriving DecidableEq, Repr, Inhabited

/-- One loaded model class (06 Table 6.6) with its numeric state (07). -/
structure Cls where
  id      : Nat
  kinds   : BitVec 3
  pwr     : Bool
  confirm : Nat
  keep    : Bool
  baseMac : Nat
  opMac   : Nat
  stateB  : Nat
  feat    : BitVec 16
  lastIn  : Nat
  lastOut : Nat
  fprint  : BitVec 64
  layers  : List Layer
  /-- 07 R203: input and output tensor of each layer, in order: 2·layer + side -/
  tensors : List Tensor
  /-- 07 R195: numeric flag word, 64 bits -/
  flags   : BitVec 64 := 0
  /-- 07 Table 7.9 counters, 32-bit -/
  nv      : Cnt := 0
  nanIn   : Cnt := 0
  of_     : Cnt := 0
  planNonfin : Cnt := 0
  fallback : Cnt := 0
  used    : Cnt := 0
  skipped : Cnt := 0
  updates : Cnt := 0
  unders  : Cnt := 0
  windows : Cnt := 0
  stall   : Nat := 0
  adaptSat : Cnt := 0
  reloads : Cnt := 0
  /-- 11 R292: `floor_clip` -/
  clips   : Cnt := 0
  /-- 07 R207: master weights of row `m_out` and its bias, binary32 -/
  masters : List (BitVec 32) := []
  mBias   : BitVec 32 := 0
  /-- 07 R208: generator -/
  lfsr    : Word := 1
  /-- 07 R210, R211: courses in the adaptation window; an update could change; an update underflowed -/
  winCnt  : Nat := 0
  winMove : Bool := false
  winUnder : Bool := false
  /-- 07 R205: the channels dealt to this class and the pair (tile, plumb) each watches -/
  chans   : List (BitVec 6 × Option (BitVec 8 × BitVec 2)) := []
  /-- 07 R187: lookup-table segments in order -/
  tables  : List LookTable := []
  /-- 07 R206: samples of courses that have ended, oldest first, until their pairs have ended -/
  sampQ   : List Sample := []
deriving DecidableEq, Repr, Inhabited

/-- A hail that the emission in hand sends: its tile, its kind and the instant that it names (06 R180). -/
structure HailReq where
  tile : BitVec 8
  kind : BitVec 2
  inst : Time
deriving DecidableEq, Repr, Inhabited

/-- A hail sent on a lane (02 R48, 06 R180). -/
structure Hail where
  tile : BitVec 8
  kind : BitVec 2
  ofs  : BitVec 16
deriving DecidableEq, Repr, Inhabited

/-- The Reckoner (06, 07). -/
structure Rck where
  /-- 06 R158: mode -/
  mode    : RckMode := .off
  /-- 06 R172: course length code: 0 200 ns, 1 400 ns, 2 800 ns -/
  course  : BitVec 2 := 0
  /-- 06 R159: courses left in WARMUP, and the mode in which warm-up ends -/
  warm    : Nat := 0
  endMode : RckMode := .active
  /-- 06 R172: snapshot instant of the course that runs; course number; a course that was evaluated is under way -/
  snapAt  : Time := 0
  n       : Nat := 0
  flight  : Bool := false
  /-- 06 R173: rotation position; uptime at which a course last exceeded the budget of 200 ns, and that of 400 ns; a doubling is due -/
  rot     : Nat := 0
  over2   : Nat := 0
  over4   : Nat := 0
  grow    : Bool := false
  /-- 06 R164: class map, 256 entries; the map the next snapshot takes -/
  map     : List Byte := List.replicate 256 0
  mapNext : List Byte := List.replicate 256 0
  /-- 06 R165: `prog_id`, `joest_ver`, `class_mask`, `state_shared` of the loaded program -/
  progId  : BitVec 64 := 0
  joest   : Word := 0
  mask    : BitVec 16 := 0
  shared  : Nat := 0
  /-- 06 R167: spill partition in granules of 64 KiB -/
  spill   : Nat := 0
  /-- 06 R165: loaded classes, ascending -/
  classes : List Cls := []
  /-- 06 R169: load between steps 1 and 6; its step; mode and carry asked for; mailbox; entries cleared -/
  loading : Bool := false
  loadStep : Nat := 0
  loadMode : RckMode := .active
  carry   : Bool := false
  loadMbx : Option (BitVec 3) := Option.none
  cleared : Nat := 0
  /-- 06 R169, R170: instants at which step 3 or 5 ended, and at which an unload was commanded -/
  stepAt  : Time := 0
  unloadAt : Time := 0
  /-- 14 Table 14.15: mailboxes of the class map commands that wait for the load to end, oldest first -/
  mapWaits : List (BitVec 3) := []
  /-- 17 R392: the counters and flags of classes that are not loaded now -/
  retired : List Cls := []
  /-- 06 R169: the bytes of the container in the staging area -/
  staging : List Byte := []
  /-- 06 R170: an unload waits for the next course boundary -/
  unload  : Bool := false
  /-- 07 R194: capture register, 128 bits -/
  capture : BitVec 128 := 0
  /-- 07 R204: watch window exponent, and courses in the window; the course under way began before the window -/
  watchW  : Nat := 12
  watchCnt : Nat := 0
  watchSkip : Bool := false
  watchNon : Bool := false
  /-- 06 Table 6.10: counters, 32-bit -/
  opTaken : Cnt := 0
  stTaken : Cnt := 0
  recOff  : Cnt := 0
  recTile : Cnt := 0
  recLate : Cnt := 0
  recBad  : Cnt := 0
  winOvf  : Cnt := 0
  courses : Cnt := 0
  tileSkip : Cnt := 0
  opSkip  : Cnt := 0
  d400    : Dur := {}
  d800    : Dur := {}
  planRange : Cnt := 0
  evFull  : Cnt := 0
  late    : Cnt := 0
  evCommit : Cnt := 0
  evCancel : Cnt := 0
  evAband : Cnt := 0
  intents : Cnt := 0
  commits : Cnt := 0
  cancels : Cnt := 0
  wilds   : Cnt := 0
  hailShort : Cnt := 0
  warmups : Cnt := 0
  loads   : Cnt := 0
  refusals : Cnt := 0
  cleared175 : Cnt := 0
  snap    : List (List Word) := []
  /-- 02 R48: hails sent by the last command; 06 R180: those of the emission in hand -/
  hails   : List Hail := []
  hailQ   : List HailReq := []
  /-- 12 R312: the meridian time that stamps records once crossing 10 is stale -/
  manStamp : Time := 0
deriving DecidableEq, Repr, Inhabited

/-- One sextant channel (03). -/
structure Chan where
  /-- 03 R91: channel setup word, 64 bits; window open instant and length -/
  setup  : BitVec 64 := 0
  open_  : Time := 0
  len    : Word := 0
  /-- 03 R100: owner -/
  owner  : Owner := .none
  /-- 03 R92, R93: armed; results left before disarming; gate-once already used -/
  armed  : Bool := false
  left   : Nat := 0
  gateUsed : Bool := false
  /-- 03 R92: uptime of the last gate edge -/
  gateAt : Nat := 0
  /-- 03 R94: pending start and held stop, in LSB of 1/8 mt -/
  pStart : Option Nat := Option.none
  pStop  : Option Nat := Option.none
  /-- 03 R94: the start unit has taken its first edge since arming -/
  first  : Bool := false
  /-- 03 R95: last accepted edge of the start and stop unit -/
  lStart : Option Nat := Option.none
  lStop  : Option Nat := Option.none
  /-- 03 R96: flags that the pair in hand has met: holdover, ana, nolock, brk -/
  fHold  : Bool := false
  fAna   : Bool := false
  fLock  : Bool := false
  fBrk   : Bool := false
  /-- 03 R97: result FIFO, at most 16 records of 128 bits, oldest first -/
  fifo   : List (BitVec 128) := []
  /-- 15 R351: uptime at which each result of the FIFO was formed -/
  fifoAt : List Nat := []
  /-- 03 R97: counters, 32-bit -/
  starts : Cnt := 0
  stops  : Cnt := 0
  dead   : Cnt := 0
  unpaired : Cnt := 0
  drops  : Cnt := 0
  /-- 03 R98: statistics -/
  sCount : Cnt := 0
  sMin   : Word := 0
  sMax   : Word := 0
  sSum   : Int := 0
  sSq    : Nat := 0
  satS   : Bool := false
  satQ   : Bool := false
  sFlags : BitVec 8 := 0
  sLeft  : Cnt := 0
  /-- 03 R99, 18 R403: calibrated once; being calibrated; failed; `cal_age`; uptime of the calibration and of arming -/
  cal    : Bool := false
  caling : Bool := false
  failed : Bool := false
  calAge : Bool := false
  calAt  : Nat := 0
  armAt  : Nat := 0
  /-- 03 R88: delay line in lock -/
  lock   : Bool := false
  /-- 03 R91: setups that wait, oldest first: word, open instant, length, mailbox -/
  waits  : List (BitVec 64 × Time × Word × Option (BitVec 3)) := []
  /-- 07 R206: droop LSB of the current course on a channel watched for adaptation, and a flagged pair in it -/
  aSum   : Nat := 0
  aBad   : Bool := false
deriving DecidableEq, Repr, Inhabited

/-- The sextants' shared parts (03 R92, R97) and the lodestar (03 R101, R102, 16 R381). -/
structure Sxt where
  chans   : List Chan := List.append (List.replicate 63 {}) [{ owner := .helm }]
  /-- 03 R97: shared result buffer, at most 4,096 records, oldest first -/
  buffer  : List (BitVec 128) := []
  /-- 03 R92: level of the gate pins -/
  gates   : BitVec 4 := 0
  /-- 02 R67: threshold code and slope choice of each `sx_in` pin -/
  dac     : List Byte := List.replicate 8 0
  slope   : List Slope := List.replicate 8 .rising
  /-- 03 R99: the channel in the rotation's pass, and the uptime at which the pass began -/
  svc     : Option (Nat × Nat) := Option.none
  /-- 03 R101: lodestar enabled, PLL locked, lodestar time, and its remainder in 10^-9 mt -/
  enabled : Bool := true
  locked  : Bool := false
  time    : Time := 0
  rem     : Nat := 0
  restarts : Cnt := 0
  /-- 03 R101, 16 R381: ageing adjustment as retained; its 8-bit check code, as the difference from the code that belongs to the
  adjustment (0: the check passes; the manual names no code); the adjustment in force -/
  age     : BitVec 16 := 0
  ageChk  : BitVec 8 := 0
  ageNow  : BitVec 16 := 0
  /-- 03 R101: lodestar ticks (of 1 kHz) that had passed when the adjustment was set -/
  ageTick : Nat := 0
  /-- 03 R102: offsets towards the baseline; the baseline once complete; last offset; threshold; deviation run -/
  offsets : List Int := []
  base    : Option Int := Option.none
  last    : Int := 0
  thr     : Nat := 500
  dev     : Nat := 0
  suspects : Cnt := 0
  /-- 03 R102: meridian pulses since the one from which channel 63 measures, its lodestar time of the latest, and the uptime of
  the latest check or of the start of the baseline -/
  pulses  : Option Nat := Option.none
  pulseAt : Time := 0
  checkAt : Nat := 0
deriving DecidableEq, Repr, Inhabited

/-- One outbound packet: header fields and the flits after flits 0 and 1 (15 Table 15.1). -/
structure Packet where
  ptype : BitVec 5
  src   : BitVec 8
  nrec  : BitVec 8
  seq   : BitVec 16
  mst   : BitVec 3
  brk   : Bool
  gap   : Bool
  epoch : BitVec 8
  stamp : Time
  body  : List Flit
deriving DecidableEq, Repr, Inhabited

/-- What an inbound transfer carries (15 Table 15.9). -/
inductive InKind where
  | image | container | spdm
deriving DecidableEq, Repr, Inhabited

/-- An inbound transfer, open or waiting to open (15 R349, R361). -/
structure Inbound where
  kind   : InKind
  mbx    : BitVec 3
  tag    : BitVec 8
  bytes  : Nat
  /-- bytes stored, packets taken, flits left in the open packet and its data bytes left -/
  got    : Nat := 0
  pkt    : Nat := 0
  inPkt  : Bool := false
  flits  : Nat := 0
  left   : Nat := 0
  /-- credits granted and unspent; credits granted in all -/
  credit : Nat := 0
  granted : Nat := 0
  /-- refused: open only to discard -/
  discard : Bool := false
  /-- a flit without credit was discarded with the rest of its packet -/
  hole   : Bool := false
  /-- uptime of the last flit, or of the opening -/
  lastAt : Nat := 0
  /-- bytes received of an image or an SPDM message -/
  data   : List Byte := []
deriving DecidableEq, Repr, Inhabited

/-- The log port and the trace SRAM (15). -/
structure Log where
  /-- 15 R348: outbound credits 0–1,023 -/
  credits : Nat := 0
  /-- 15 R351: type mask; R355: decimation and boundaries since the last set -/
  mask    : Word := 0x000021A6#32
  dec     : BitVec 8 := 32
  decCnt  : Nat := 0
  decNew  : Bool := false
  /-- 15 Table 15.1: next `seq`, `gap` and `brk` per type, 32 types -/
  seqs    : List (BitVec 16) := List.replicate 32 0
  gaps    : BitVec 32 := 0
  brks    : BitVec 32 := 0
  /-- 15 R352: class queues, oldest first; consecutive packets of classes 0 and 1 sent -/
  q0      : List Packet := []
  q1      : List Packet := []
  q2      : List Packet := []
  run01   : Nat := 0
  /-- 15 R351: records waiting to form a packet: events, throttle records, each in flits with their packet stamp -/
  evWait  : List (BitVec 128) := []
  thrWait : List (BitVec 128) := []
  thrStamp : Time := 0
  /-- 15 R351: uptime at which the first waiting event and throttle record was formed -/
  evAt    : Nat := 0
  thrAt   : Nat := 0
  /-- 15 R355: first tile position of the telemetry packets deferred -/
  defer   : List Nat := []
  /-- 15 R353: outbound drops; 15 R361: inbound flits discarded; trace drops, 32-bit -/
  drops   : Cnt := 0
  discards : Cnt := 0
  traceDrops : Cnt := 0
  /-- 15 R347: packet most recently sent -/
  sent    : Option Packet := Option.none
  /-- 15 R359: capture armed, running, groups, start instant, bytes held -/
  armed   : Bool := false
  runs    : Bool := false
  groups  : BitVec 8 := 0
  armAt   : Time := 0
  held    : Nat := 0
  /-- 15 R360: dumps under way, oldest first: next offset, end, mailbox -/
  dumps   : List (Nat × Nat × Option (BitVec 3)) := []
  /-- 15 R352: the class whose oldest packet holds the port while it waits for credits -/
  hold    : Option (BitVec 2) := Option.none
  /-- 15 R350: uptime at which the packet most recently sent began -/
  sentAt  : Nat := 0
  /-- 15 R358: trace SRAM contents as (address, byte) cells in canonical form -/
  mem     : List Host.Cell := []
  /-- 06 R166, R168: weight SRAM contents as (address, byte) cells in canonical form -/
  wmem    : List Host.Cell := []
  /-- 15 R361: the transfer in hand first, then those that wait -/
  inbound : List Inbound := []
  /-- 15 R353: captures waiting in their source -/
  capWait : List Packet := []
deriving DecidableEq, Repr, Inhabited

/-- The chart in force for one class (16 Table 16.8). -/
structure Chart where
  maxCode : BitVec 16 := 40960
  head    : BitVec 5 := 0
  vmax    : BitVec 10 := 950
  peak    : Word := 2000000
  burst   : Word := 2000000
  sus     : Word := 2000000
  tight   : Bool := false
deriving DecidableEq, Repr, Inhabited

/-- One attested session (16 R376). -/
structure Sess where
  operator : Bool
  /-- key exchange done, FINISH not yet -/
  half   : Bool
  /-- uptime of the last secured message -/
  lastAt : Nat
  /-- transcript of the handshake, the key of the requester's finish, the requester's certificate chain as far as it has come, the
  encapsulated step: 0 none, 1 digests due, 2 and 3 digests and certificate asked for, 4 done (log 13) -/
  th     : List Byte := []
  fin    : List Byte := []
  peer   : List Byte := []
  encap  : Nat := 0
deriving DecidableEq, Repr, Inhabited

/-- The fused array of a part fresh from wafer test (log 11): the chart records of the three classes (16 Table 16.8) carry
the values that `Chart` has at reset, the scale codes are those of Table 7.7, and every other bit is unblown. -/
def fuseReset : BitVec 3776 :=
  let r : Nat := 40960 + 950 * 2 ^ 21 + 2000 * 2 ^ 32 + 2000 * 2 ^ 44 + 2000 * 2 ^ 56
  BitVec.ofNat 3776 ((r + r * 2 ^ 72 + r * 2 ^ 144 + 0x90888E * 2 ^ 216) * 2 ^ 3536)

/-- Fuses, keys, chart and sessions (16). -/
structure Trust where
  /-- 16 R364: the three copies of the fuse array, 3,776 bits each (log 11) -/
  fuse0   : BitVec 3776 := fuseReset
  fuse1   : BitVec 3776 := fuseReset
  fuse2   : BitVec 3776 := fuseReset
  /-- 16 R364: the one-time programmable region, 4 KiB (log 11) -/
  otp     : List Byte := []
  /-- 16 R382: chart in force of classes 1–3 -/
  charts  : List Chart := List.replicate 3 {}
  /-- 16 R384: tightenings taken in ROM, by class, which take effect at RUN -/
  tightWait : List (Nat × Chart) := []
  /-- 16 R371: DeviceID key derived and locked; key of the firmware -/
  devKey  : Option (BitVec 384) := Option.none
  devLock : Bool := false
  aliasKey : Option (BitVec 384) := Option.none
  /-- 16 R373: signatures made again -/
  retries : Cnt := 0
  /-- 16 R376: sessions 1–7 by handle -/
  sess    : List (Option Sess) := List.replicate 8 Option.none
  /-- 16 R375: versions and algorithms negotiated on the plain connection: 0 none, 1 version, 2 capabilities, 3 algorithms -/
  conn    : Nat := 0
  /-- 16 R375: the capability flags of the requester on the plain connection -/
  reqCaps : Word := 0
  /-- 16 R372: the certificate chain of slot 0, its bytes free (log 13) -/
  chain   : List Byte := []
  /-- 16 R375, R380: transcripts that signatures cover: negotiation, certificates, measurements (log 13) -/
  vca     : List Byte := []
  certT   : List Byte := []
  measT   : List Byte := []
  /-- 16 R379: digest of the loaded container up to `sig_ofs` and of its signing key -/
  progDig : BitVec 384 := 0
  progKey : BitVec 384 := 0
deriving DecidableEq, Repr, Inhabited

/-- One crossing's state (12 R311 to R314). -/
structure Xing where
  own    : BitVec 8 := 0
  other  : BitVec 8 := 0
  stale  : Bool := false
  gap    : Bool := false
  failed : Bool := false
  fails  : Nat := 0
  /-- 12 R309: `xing_timeout` has been raised for the present stop of the other side's clock -/
  toSeen : Bool := false
  tos    : Cnt := 0
  drops  : Cnt := 0
  stales : Cnt := 0
deriving DecidableEq, Repr, Inhabited

/-- The crossings and group epochs (12). -/
structure Xings where
  /-- 12 R304: crossings 0–22 -/
  main   : List Xing := List.replicate 23 {}
  /-- 12 R304: crossings 23 and 24 of each tile -/
  x23    : List Xing := List.replicate 256 {}
  x24    : List Xing := List.replicate 256 {}
  /-- 12 R310: epochs of the CTL, LOG, MAN, CVY and TEST groups -/
  eCtl   : BitVec 8 := 0
  eLog   : BitVec 8 := 0
  eMan   : BitVec 8 := 0
  eCvy   : BitVec 8 := 0
  eTest  : BitVec 8 := 0
deriving DecidableEq, Repr, Inhabited

/-- A convoy move held by the member (10 R276). -/
structure CvyMove where
  t    : Time
  code : BitVec 16
  mseq : Word
deriving DecidableEq, Repr, Inhabited

/-- A lease of a follow taken: from its first span to its end, its rate (10 R280). -/
structure Lease where
  from_ : Time
  till  : Time
  q     : BitVec 9
  /-- its reasons, in THR_CAUSE order -/
  why   : BitVec 12
  /-- covers I of an own notice -/
  own   : Bool
  inst  : Time
  /-- withdrawn unsent: acts under its cap reason and not as a follow (R281) -/
  local_ : Bool := false
  /-- the own notice has left the port (R286) -/
  left   : Bool := false
deriving DecidableEq, Repr, Inhabited

/-- An outbound notice with its words still to send and the instant at which it is withdrawn (10 R272, 02 R50). -/
structure OutNotice where
  words : List Flit
  until_ : Option Time
  follow : Bool
  /-- the stall has been counted -/
  stalled : Bool := false
deriving DecidableEq, Repr, Inhabited

/-- Convoy membership (10). -/
structure Cvy where
  /-- 10 R270: member state -/
  st      : CvySt := .none
  /-- 10 R266: join word -/
  join    : BitVec 64 := 0
  /-- 10 R267: configuration tag -/
  tag     : BitVec 16 := 0
  /-- 10 R285: convoy code; latest move committed here -/
  code    : BitVec 16 := 0
  lastSeq : Word := 0
  /-- 10 R268: join instant J and its mailbox -/
  joinAt  : Time := 0
  joinMbx : Option (BitVec 3) := Option.none
  /-- 10 R271: leave instant and its mailbox -/
  leaveAt : Option Time := Option.none
  leaveMbx : Option (BitVec 3) := Option.none
  /-- 10 R275: next `mseq` of the pilot; mailboxes of pending moves by mseq -/
  nextSeq : Word := 1
  moveMbx : List (Word × BitVec 3) := []
  /-- 10 R276: the queued move -/
  queued  : Option CvyMove := Option.none
  /-- 10 R274: highest `mseq` received, and the latest move received -/
  seen    : List Word := []
  latest  : Option CvyMove := Option.none
  /-- 10 R277: out of step; a catch-up may still be tried -/
  oos     : Bool := false
  retry   : Bool := false
  /-- 10 R280: leases; follow rate F of the current span -/
  leases  : List Lease := []
  rate    : BitVec 9 := 256
  /-- 10 R281: rate of withdrawn own follows in force, and their cap reasons in THR_CAUSE order -/
  localQ  : BitVec 9 := 256
  localWhy : BitVec 12 := 0
  /-- 10 R279: meridian time of the last own notice -/
  lastOwn : Option Time := Option.none
  /-- 10 R279: boundary whose evaluations may call for a follow, not yet decided -/
  owe     : Option Time := Option.none
  /-- 02 R50: uptimes at which the inbound notices in the queue are taken, at most 16, oldest first -/
  inAt    : List Nat := []
  /-- 02 R50: `cvo_ready`; outbound notices, oldest first; `cvi_ready` -/
  ready   : Bool := false
  out     : List OutNotice := []
  /-- 02 R50: words most recently sent -/
  sent    : List Flit := []
  /-- 10 Table 10.6: counters -/
  cMoves  : Cnt := 0
  cCatch  : Cnt := 0
  cNaks   : List Cnt := [0, 0, 0, 0]
  cNakRx  : Cnt := 0
  cFolTx  : Cnt := 0
  cFolRx  : Cnt := 0
  cLate   : Cnt := 0
  cRange  : Cnt := 0
  cTag    : Cnt := 0
  cBad    : Cnt := 0
  cStall  : Cnt := 0
  cWith   : Cnt := 0
  cLeave  : Cnt := 0
  dWait   : Dur := {}
  dLocal  : Dur := {}
  dOos    : Dur := {}
  dSusp   : Dur := {}
  snap    : List (List Word) := []
deriving DecidableEq, Repr, Inhabited

/-- Events and memory errors (17). -/
structure Faults where
  /-- 17 R386: the Helm's event queue, at most 256 records, oldest first -/
  queue   : List (BitVec 128) := []
  /-- 17 R386: `evq_lost`, and records dropped since the last `evq_ovf` -/
  lost    : Cnt := 0
  lostNow : Nat := 0
  /-- 17 R387: classes with an event raised since the last FAULT_SUMMARY -/
  raised  : BitVec 16 := 0
  /-- 17 R389: correctable and uncorrectable counts of weight, trace and state SRAM -/
  ecc     : List Cnt := List.replicate 6 0
  /-- 17 R390: words corrected on the last pass; words that raised `ecc_sticky` -/
  once    : List (MemRegion × Nat) := []
  sticky  : List (MemRegion × Nat) := []
  /-- 17 R389: uncorrectable words not yet written again -/
  bad     : List (MemRegion × Nat) := []
deriving DecidableEq, Repr, Inhabited

/-- One test handle (14 Table 14.11): identifier, target, 0 pending 1 passed 2 failed 3 not run, detail. -/
structure Test where
  handle : BitVec 16
  id     : Byte
  target : Word
  res    : BitVec 2
  detail : Word
deriving DecidableEq, Repr, Inhabited

/-- A QUIESCE grant (14 R343). -/
structure Grant where
  groups : BitVec 8
  rck    : Bool
  trace  : Bool
  till   : Nat
  mbx    : BitVec 3
  ran    : Nat := 0
deriving DecidableEq, Repr, Inhabited

/-- The rotation of test 0x02 over one tile group (18 R410). -/
structure StbyRot where
  /-- uptime at which its latest test began, none before the first -/
  at_  : Option Nat := Option.none
  /-- position in the group of the tile that the latest test took, and whether that test still runs -/
  pos  : Nat := 31
  runs : Bool := false
deriving DecidableEq, Repr, Inhabited

/-- Service tests, loop-backs and the test port (18). -/
structure Tests where
  /-- 14 R343: the last 32 tests requested, newest first -/
  list    : List Test := []
  nextH   : BitVec 16 := 1
  grant   : Option Grant := Option.none
  /-- 18 R412: interface and depth of the loop-back that runs, its seed and mailbox -/
  loop    : Option (BitVec 4 × BitVec 4 × Word × BitVec 3) := Option.none
  /-- 18 R413: flits of a log loop-back still to be returned for want of credits -/
  loopOut : Nat := 0
  /-- 18 R410: next channel of the rotation of test 0x03 -/
  rotCh   : Nat := 0
  /-- 18 R410: the rotation of test 0x02 over each of the 8 tile groups -/
  stby    : List StbyRot := List.replicate 8 {}
  /-- 18 R415: TAP instruction register, LBK_CFG and LBK_RES data, data register selected -/
  ir      : Byte := 0x01
  lbkCfg  : BitVec 40 := 0
  lbkRes  : BitVec 66 := 0
  dr      : BitVec 66 := 0
deriving DecidableEq, Repr, Inhabited

/-- Integration tie-offs (01 R25, 02 R72): they never change (log 10). -/
structure Ties where
  /-- class of each tile, Table 1.4 -/
  cls    : List (BitVec 2) := List.replicate 256 1
  /-- power domain of each tile, 0–191 -/
  dom    : List (BitVec 8) := List.replicate 256 0
  /-- rail of each tile, 0–7 -/
  rail   : List (BitVec 3) := List.replicate 256 0
  /-- manufacturer code of IDCODE, 11 bits -/
  mfr    : BitVec 11 := 0
deriving DecidableEq, Repr, Inhabited

/-- Why a step could stop with a fault. The block has no such stop: no departure observable at a port leaves it in an
undefined state (00 R7), and every event of the manual is a next state. -/
inductive Fault where
deriving DecidableEq, Repr

/-- Why a step is refused. -/
inductive Refusal where
  /-- raised by a dispatch arm whose command has no meaning yet; safe: it stops the run -/
  | notModelled (mnemonic : String)
deriving DecidableEq, Repr

/-- The whole block, and the commands that wait, first in first out. -/
structure State where
  ties   : Ties := {}
  boot   : Boot := {}
  mer    : Mer := {}
  ctl    : Ctl := {}
  mbxs   : List Mbx := List.replicate 8 {}
  helm   : Helm := {}
  tiles  : List Tile := List.replicate 256 {}
  /-- 01 R30: domains reported on; instant and mailbox of a return in hand, 192 entries each -/
  doms   : List Bool := List.replicate 192 true
  domRet : List (Option (Time × Option (BitVec 3))) := List.replicate 192 Option.none
  rails  : List Rail := List.replicate 8 {}
  power  : Power := {}
  ledger : Ledger := {}
  keys   : Keys := {}
  rck    : Rck := {}
  sxt    : Sxt := {}
  log    : Log := {}
  trust  : Trust := {}
  xings  : Xings := {}
  cvy    : Cvy := {}
  faults : Faults := {}
  tests  : Tests := {}
  /-- the model's own counter of free values taken so far (log 5) -/
  fresh  : Nat := 0
  /-- the commands that wait, first in first out -/
  pending : List Instr := []
deriving DecidableEq, Repr

/-- The block right after the release of reset. -/
def State.reset : State := {}

end Sys2Proof.Machine
end

