-- ==== Sys2Proof/Machine/Ops.lean ====
section
/-! DEFINITION. The named operations everything else is built from: bit fields, saturating counters, exact fractions,
duration counters, byte memories in canonical form, free values, and the accessors of tiles, rails, mailboxes, classes,
channels and slots. -/

namespace Sys2Proof.Machine

open Sys2Proof

/-! ## Bit fields -/

/-- Bits [lo+w−1 : lo] of a register-format value. -/
def fld {n : Nat} (x : BitVec n) (lo w : Nat) : Nat := (x.toNat >>> lo) % 2 ^ w

/-- One bit of a register-format value. -/
def bit {n : Nat} (x : BitVec n) (i : Nat) : Bool := x.getLsbD i

/-- The value whose fields (lowest bit, width, value) are given, every other bit 0. -/
def pack : List (Nat × Nat × Nat) → Nat
  | [] => 0
  | (lo, w, v) :: r => ((v % 2 ^ w) <<< lo) ||| pack r

/-- `x` with the field [lo+w−1 : lo] replaced by `v`. -/
def setFld {n : Nat} (x : BitVec n) (lo w v : Nat) : BitVec n :=
  let mask : BitVec n := (BitVec.ofNat n (2 ^ w - 1)) <<< lo
  (x &&& ~~~mask) ||| ((BitVec.ofNat n (v % 2 ^ w)) <<< lo)

/-- A 32-bit word of a number. -/
def w32 (n : Nat) : Word := BitVec.ofNat 32 n

/-- The low `k` 32-bit words of a number, low word first (14 R328). -/
def wordsOf : Nat → Nat → List Word
  | 0, _ => []
  | k + 1, n => w32 n :: wordsOf k (n >>> 32)

/-- The number that words spell, low word first. -/
def natOfWords : List Word → Nat
  | [] => 0
  | w :: r => w.toNat + (natOfWords r) <<< 32

/-- The low `k` bytes of a number, byte 0 first (00 R14). -/
def bytesOf : Nat → Nat → List Byte
  | 0, _ => []
  | k + 1, n => BitVec.ofNat 8 n :: bytesOf k (n >>> 8)

/-- The number that bytes spell, byte 0 lowest (00 R14). -/
def natOfBytes : List Byte → Nat
  | [] => 0
  | b :: r => b.toNat + (natOfBytes r) <<< 8

/-- Two's complement of an integer in `w` bits, as a number. -/
def twos (w : Nat) (i : Int) : Nat := (BitVec.ofInt w i).toNat

/-- 1 for true, 0 for false. -/
def b2n (b : Bool) : Nat := if b then 1 else 0

/-- The list's elements paired with their positions from `n` on. -/
def enumFrom' {α : Type} : Nat → List α → List (Nat × α)
  | _, [] => []
  | n, a :: r => (n, a) :: enumFrom' (n + 1) r

/-- The positions at which a predicate holds. -/
def positions {α : Type} (p : α → Bool) (l : List α) : List Nat :=
  ((enumFrom' 0 l).filter (fun x => p x.2)).map (·.1)

/-- The mask whose bit i is `p` of the i-th element. -/
def maskOf {α : Type} (p : α → Bool) (l : List α) : Nat :=
  (positions p l).foldl (fun m i => m ||| (1 <<< i)) 0

/-- The sum of a list of numbers. -/
def sumN (l : List Nat) : Nat := l.foldl (· + ·) 0

/-- A list with its first element that meets a predicate changed. -/
def updFirst {α : Type} (p : α → Bool) (f : α → α) : List α → List α
  | [] => []
  | a :: r => if p a then f a :: r else a :: updFirst p f r

/-- ceil(a / b). -/
def cdiv (a b : Nat) : Nat := (a + b - 1) / b

/-- The least multiple of `m` at or above `x`. -/
def alignUp (x m : Nat) : Nat := cdiv x m * m

/-- The minimum of a list, or `d` when it is empty or all lies above `d`. -/
def minOr (d : Nat) (l : List Nat) : Nat := l.foldl min d

/-- The maximum of a list, at least `d`. -/
def maxOr (d : Nat) (l : List Nat) : Nat := l.foldl max d

/-! ## Counters (17 R392, Table 17.4) -/

/-- A saturating counter advanced by `k`: it holds its maximum. -/
def satAdd {w : Nat} (x : BitVec w) (k : Nat) : BitVec w :=
  if x.toNat + k ≥ 2 ^ w then BitVec.allOnes w else BitVec.ofNat w (x.toNat + k)

/-- A saturating counter advanced by one. -/
def satInc {w : Nat} (x : BitVec w) : BitVec w := satAdd x 1

/-- The reduced fraction. -/
def Frac.mk' (n d : Nat) : Frac := { num := n / Nat.gcd n d, den := d / Nat.gcd n d }

def Frac.ofNat (n : Nat) : Frac := { num := n, den := 1 }

def Frac.add (a b : Frac) : Frac := Frac.mk' (a.num * b.den + b.num * a.den) (a.den * b.den)

/-- Difference, 0 when it would be negative. -/
def Frac.sub (a b : Frac) : Frac := Frac.mk' (a.num * b.den - b.num * a.den) (a.den * b.den)

def Frac.mul (a : Frac) (k : Nat) : Frac := Frac.mk' (a.num * k) a.den

def Frac.lt (a b : Frac) : Bool := decide (a.num * b.den < b.num * a.den)

/-- floor(a / b) of two fractions, 0 when b is 0. -/
def Frac.quot (a b : Frac) : Nat := (a.num * b.den) / (b.num * a.den)

def Frac.floor (a : Frac) : Nat := a.num / a.den

/-- A duration counter advanced by a time in mt: whole units counted, the remainder kept exactly; at its maximum it holds
and its remainder stops (04 R136, 17 R392). -/
def Dur.add (d : Dur) (t : Frac) : Dur :=
  if d.n = BitVec.allOnes 48 then d
  else
    let total := d.rem.add t
    let u := total.floor / 16384
    { n := satAdd d.n u, rem := total.sub (Frac.ofNat (u * 16384)) }

def Dur.addNat (d : Dur) (t : Nat) : Dur := if t = 0 then d else d.add (Frac.ofNat t)

/-- A duration counter with a time taken back, while it has not reached its maximum. -/
def Dur.sub (d : Dur) (t : Frac) : Dur :=
  if d.n = BitVec.allOnes 48 then d
  else
    let total := (d.rem.add (Frac.ofNat (d.n.toNat * 16384))).sub t
    let u := total.floor / 16384
    { n := BitVec.ofNat 48 u, rem := total.sub (Frac.ofNat (u * 16384)) }

/-- A duration counter that has counted nothing. -/
def Dur.isZero (d : Dur) : Bool := decide (d.n = 0) && decide (d.rem.num = 0)

/-- A duration counter's two result words, low first (14 R332). -/
def Dur.words (d : Dur) : List Word := wordsOf 2 d.n.toNat

/-! ## Byte memories (06 R166, 15 R358): canonical lists of cells; an unlisted byte reads 0 (log 4) -/

/-- What an unlisted address reads as. -/
def memDefault : Byte := 0

/-- The byte at an address. -/
def memRead : List Host.Cell → Nat → Byte
  | [], _ => memDefault
  | (b, v) :: r, a => if a < b then memDefault else if a = b then v else memRead r a

/-- The memory with one byte written; writing the default removes the entry. -/
def memWrite : List Host.Cell → Nat → Byte → List Host.Cell
  | [], a, v => if v = memDefault then [] else [(a, v)]
  | (b, u) :: r, a, v =>
    if a < b then (if v = memDefault then (b, u) :: r else (a, v) :: (b, u) :: r)
    else if a = b then (if v = memDefault then r else (a, v) :: r)
    else (b, u) :: memWrite r a v

/-- The memory with consecutive bytes written from an address on. -/
def memWriteList (m : List Host.Cell) : Nat → List Byte → List Host.Cell
  | _, [] => m
  | a, v :: r => memWriteList (memWrite m a v) (a + 1) r

/-- `n` bytes from an address on. -/
def memReadList (m : List Host.Cell) : Nat → Nat → List Byte
  | _, 0 => []
  | a, n + 1 => memRead m a :: memReadList m (a + 1) n

/-- The memory with every byte of [lo, hi) at the default. -/
def memClear (m : List Host.Cell) (lo hi : Nat) : List Host.Cell :=
  m.filter (fun c => !(decide (lo ≤ c.1) && decide (c.1 < hi)))

/-- Addresses strictly rise and no entry equals the default. -/
def Memory.wf : List Host.Cell → Bool
  | [] => true
  | [(_, v)] => decide (v ≠ memDefault)
  | (a, v) :: (b, u) :: r => decide (v ≠ memDefault) && decide (a < b) && Memory.wf ((b, u) :: r)

/-! ## Free values (log 5) -/

/-- A free value below `bound` (any value at all when the bound is 0), and the state that has taken it. -/
def State.take (s : State) (p : Config.Purpose) (bound : Nat) : Nat × State :=
  let v := Config.free p s.fresh
  (if bound = 0 then v else v % bound, { s with fresh := s.fresh + 1 })

/-- A free non-zero 32-bit seed (07 R208, 09 R256). -/
def State.takeSeed (s : State) : Word × State :=
  let (v, s) := s.take .seed (2 ^ 32 - 1)
  (w32 (v + 1), s)

/-! ## Accessors -/

def State.tile (s : State) (i : Nat) : Tile := s.tiles.getD i {}
def State.modTile (s : State) (i : Nat) (f : Tile → Tile) : State := { s with tiles := s.tiles.modify i f }
def State.mapTiles (s : State) (f : Nat → Tile → Tile) : State := { s with tiles := s.tiles.mapIdx f }
def State.rail (s : State) (r : Nat) : Rail := s.rails.getD r {}
def State.modRail (s : State) (r : Nat) (f : Rail → Rail) : State := { s with rails := s.rails.modify r f }
def State.mbx (s : State) (n : BitVec 3) : Mbx := s.mbxs.getD n.toNat {}
def State.modMbx (s : State) (n : BitVec 3) (f : Mbx → Mbx) : State := { s with mbxs := s.mbxs.modify n.toNat f }
def State.slot (s : State) (k : Nat) : Slot := s.keys.slots.getD k {}
def State.modSlot (s : State) (k : Nat) (f : Slot → Slot) : State :=
  { s with keys := { s.keys with slots := s.keys.slots.modify k f } }
def State.chan (s : State) (c : Nat) : Chan := s.sxt.chans.getD c {}
def State.modChan (s : State) (c : Nat) (f : Chan → Chan) : State :=
  { s with sxt := { s.sxt with chans := s.sxt.chans.modify c f } }
def State.modPlumb (s : State) (i p : Nat) (f : Plumb → Plumb) : State :=
  s.modTile i (fun t => { t with plumbs := t.plumbs.modify p f })

/-- Crossing x; 23 and 24 are those of a tile (12 R304). -/
def State.xing (s : State) (x tile : Nat) : Xing :=
  if x = 23 then s.xings.x23.getD tile {} else if x = 24 then s.xings.x24.getD tile {} else s.xings.main.getD x {}

def State.modXing (s : State) (x tile : Nat) (f : Xing → Xing) : State :=
  { s with xings :=
      if x = 23 then { s.xings with x23 := s.xings.x23.modify tile f }
      else if x = 24 then { s.xings with x24 := s.xings.x24.modify tile f }
      else { s.xings with main := s.xings.main.modify x f } }

/-- A crossing is not stale. -/
def State.xingOk (s : State) (x : Nat) : Bool := !(s.xings.main.getD x {}).stale

/-- Tile class (01 R25): 0 absent, 1 adaptive, 2 steady, 3 service. -/
def State.clsOf (s : State) (i : Nat) : Nat := (s.ties.cls.getD i 0).toNat
def State.present (s : State) (i : Nat) : Bool := decide (s.clsOf i ≠ 0)
def State.adaptive (s : State) (i : Nat) : Bool := decide (s.clsOf i = 1)
def State.steady (s : State) (i : Nat) : Bool := decide (s.clsOf i = 2)
def State.service (s : State) (i : Nat) : Bool := decide (s.clsOf i = 3)
def State.railOf (s : State) (i : Nat) : Nat := (s.ties.rail.getD i 0).toNat
def State.domOf (s : State) (i : Nat) : Nat := (s.ties.dom.getD i 0).toNat
def State.domOn (s : State) (i : Nat) : Bool := s.doms.getD (s.domOf i) true

/-- All tile positions. -/
def allTiles : List Nat := List.range 256

/-- The chart in force of a tile's class (16 R382). -/
def State.chart (s : State) (i : Nat) : Chart := s.trust.charts.getD (s.clsOf i - 1) {}

/-- The loaded class of an identifier (06 R165). -/
def State.cls (s : State) (c : Nat) : Option Cls := s.rck.classes.find? (fun x => x.id == c)
def State.modCls (s : State) (c : Nat) (f : Cls → Cls) : State :=
  { s with rck := { s.rck with classes := s.rck.classes.map (fun x => if x.id == c then f x else x) } }

/-- The class identifier that the class map in force gives a tile (06 R164). -/
def State.classOf (s : State) (i : Nat) : Nat := fld (s.rck.map.getD i 0) 0 4

/-- Apply a state change for each element of a list, in order. -/
def State.each {α : Type} (s : State) (l : List α) (f : State → α → State) : State := l.foldl f s

/-- Meridian time as a number. -/
def State.nowN (s : State) : Nat := s.mer.now.toNat

/-- The key of an instant: keys order instants as R76 does, modulo 2^64 around the present, whose key is `nowK`. -/
def State.key (s : State) (t : Time) : Nat := (t - s.mer.now + BitVec.ofNat 64 (2 ^ 63)).toNat

/-- The meridian multiple of `per` at or before the present. -/
def State.multAt (s : State) (per : Nat) : Time := BitVec.ofNat 64 (s.nowN / per * per)

/-- The key of the present. -/
def nowK : Nat := 2 ^ 63

/-- An instant may be scheduled: it lies ahead, by at most 2^40 mt (03 R77). -/
def State.inHorizon (s : State) (t : Time) : Bool := decide (nowK < s.key t) && decide (s.key t ≤ nowK + 2 ^ 40)

/-- An instant has come. -/
def State.due (s : State) (t : Time) : Bool := decide (s.key t ≤ nowK)

/-- Meridian state code of Table 3.1. -/
def MerSt.code : MerSt → Nat
  | .unlocked => 0 | .acquiring => 1 | .locked => 2 | .holdover => 3 | .slewing => 4

/-- Generator state code of Table 4.6. -/
def GenSt.code : GenSt → Nat
  | .absent => 0 | .disabled => 1 | .starting => 2 | .running => 3 | .gated => 4 | .domainOff => 5 | .fenced => 6
  | .halted => 7

/-- Standby code of Table 4.8. -/
def StbySt.code : StbySt → Nat
  | .off => 0 | .calibrating => 1 | .warm => 2 | .testing => 3

/-- Reckoner mode code of Table 6.1. -/
def RckMode.code : RckMode → Nat
  | .off => 0 | .loading => 1 | .warmup => 2 | .active => 3 | .advisory => 4

/-- Keystone state code of Table 8.3. -/
def KsSt.code : KsSt → Nat
  | .free => 0 | .opened => 1 | .sealed => 2 | .committed => 3 | .aborted => 4

/-- Coolant code of Table 9.9. -/
def CoolSt.code : CoolSt → Nat
  | .unknown => 0 | .good => 1 | .wireFault => 2 | .stopped => 3

/-- Convoy member code of Table 10.2. -/
def CvySt.code : CvySt → Nat
  | .none => 0 | .joining => 1 | .active => 2 | .suspended => 3 | .leaving => 4

/-- Helm stage code of Table 13.1. -/
def Stage.code : Stage → Nat
  | .reset => 0 | .rom => 1 | .check => 2 | .run => 3 | .restart => 4

/-- Mailbox state code of Table 13.4. -/
def MbxSt.code : MbxSt → Nat
  | .idle => 0 | .posted => 1 | .accepted => 2 | .done => 3

/-- Domain number of event 0x203 (17 Table 17.2). -/
def domIdx : Dom → Nat
  | .ctl => 0 | .log => 1 | .man => 2 | .cvy => 3 | .core => 4 | .rck => 5 | .sxt => 6 | .lode => 7

/-- The tile takes no state change: fenced or halted. -/
def Tile.fenced (t : Tile) : Bool := decide (t.st = .fenced)

/-- One oscillator failed (04 R110). -/
def Tile.single (t : Tile) : Bool := t.failA != t.failB

/-- The block is halted: coolant STOPPED or a thermal trip holds (11 Table 11.3). -/
def State.haltedB (s : State) : Bool := decide (s.boot.cool = .stopped) || s.boot.trip

/-- The safe floor holds (09 R259, R260). -/
def State.safeFloor (s : State) : Bool := decide (s.boot.cool = .wireFault) && !s.boot.trayOk

/-- The host throttle is in force, with its 10 µs hold (02 R65). -/
def State.thrOn (s : State) : Bool := s.boot.thrLow || s.boot.thrHold

/-- The block is a convoy member. -/
def State.member (s : State) : Bool := decide (s.cvy.st ≠ .none)

/-- A pattern loop-back runs on an interface of Table 18.5, which carries nothing else meanwhile (18 R412). -/
def State.looping (s : State) (i : Nat) : Bool :=
  match s.tests.loop with
  | some l => l.1.toNat == i
  | none => false

/-- LOCKED or SLEWING: new instants are taken (03 R77, R87). -/
def State.schedulable (s : State) : Bool := decide (s.mer.st = .locked) || decide (s.mer.st = .slewing)

end Sys2Proof.Machine
end

