-- ==== Sys2Proof/Machine/Num.lean ====
section
/-! DEFINITION. The Reckoner's number formats: exact values, binary32 rounding, conversion with saturation, maximum and minimum,
and stochastic rounding (07 R186 to R191, R198, R208). -/

namespace Sys2Proof.Machine

open Sys2Proof

/-- A number as a format spells it: NaN, an infinity of a sign, or sign · m · 2^e with both zeros. -/
inductive Num where
  | nan
  | inf (neg : Bool)
  | fin (neg : Bool) (m : Nat) (e : Int)
deriving DecidableEq, Repr

/-- The canonical quiet NaN (R193). -/
def nan32 : BitVec 32 := 0x7FC00000#32

/-- A binary32 infinity of a sign. -/
def inf32 (neg : Bool) : BitVec 32 := if neg then 0xFF800000#32 else 0x7F800000#32

def Num.isNan : Num → Bool
  | .nan => true
  | _ => false
def Num.isInf : Num → Bool
  | .inf _ => true
  | _ => false
def Num.isZero : Num → Bool
  | .fin _ m _ => m == 0
  | _ => false
def Num.neg : Num → Bool
  | .nan => false
  | .inf n => n
  | .fin n _ _ => n

/-- An exact binary fraction m · 2^e of either sign. -/
structure Dy where
  m : Int := 0
  e : Int := 0
deriving DecidableEq, Repr, Inhabited

/-- 2^k for a shift that is never negative. -/
def pow2 (k : Int) : Nat := 2 ^ k.toNat

def Dy.add (a b : Dy) : Dy :=
  let e := min a.e b.e
  { m := a.m * (pow2 (a.e - e) : Int) + b.m * (pow2 (b.e - e) : Int), e := e }
def Dy.neg (a : Dy) : Dy := { a with m := -a.m }
def Dy.sub (a b : Dy) : Dy := a.add b.neg
def Dy.mul (a b : Dy) : Dy := { m := a.m * b.m, e := a.e + b.e }
def Dy.abs (a : Dy) : Dy := { a with m := (a.m.natAbs : Int) }
def Dy.lt (a b : Dy) : Bool := decide ((a.sub b).m < 0)
def Dy.le (a b : Dy) : Bool := decide ((a.sub b).m ≤ 0)
def Dy.ofInt (i : Int) : Dy := { m := i, e := 0 }

/-- The exact value of a finite number; 0 for the others. -/
def Num.dy : Num → Dy
  | .fin n m e => { m := if n then -(m : Int) else (m : Int), e := e }
  | _ => {}

/-! ## Decoding (Table 7.1) -/

/-- A sign, exponent and mantissa format of so many mantissa bits, with its bias: the finite values. -/
def floatFin (neg : Bool) (ex man mb : Nat) (bias : Int) : Num :=
  if ex = 0 then .fin neg man (1 - bias - (mb : Int)) else .fin neg (man + 2 ^ mb) ((ex : Int) - bias - (mb : Int))

def num32 (b : BitVec 32) : Num :=
  let ex := fld b 23 8
  let man := fld b 0 23
  if ex = 255 then (if man = 0 then .inf (bit b 31) else .nan) else floatFin (bit b 31) ex man 23 127

def numE4M3 (b : Byte) : Num :=
  if fld b 0 7 = 0x7F then .nan else floatFin (bit b 7) (fld b 3 4) (fld b 0 3) 3 7

def numE5M2 (b : Byte) : Num :=
  if fld b 2 5 = 31 then (if fld b 0 2 = 0 then .inf (bit b 7) else .nan) else floatFin (bit b 7) (fld b 2 5) (fld b 0 2) 2 15

def numInt (w : Nat) (b : Nat) : Num :=
  let i := (BitVec.ofNat w b).toInt
  .fin (decide (i < 0)) i.natAbs 0

/-- An element of a format code: 0 E4M3, 1 E5M2, 2 INT8, 3 INT4, 4 binary32. -/
def numOf (fmt code : Nat) : Num :=
  match fmt with
  | 0 => numE4M3 (BitVec.ofNat 8 code)
  | 1 => numE5M2 (BitVec.ofNat 8 code)
  | 2 => numInt 8 code
  | 3 => numInt 4 code
  | _ => num32 (BitVec.ofNat 32 code)

/-- Exponent of the largest power of two of a format (Table 7.1, emax). -/
def emaxOf (fmt : Nat) : Int := if fmt = 0 then 8 else if fmt = 1 then 15 else if fmt = 2 then 6 else 2

/-! ## Rounding -/

/-- m · 2^e rounded to a multiple of 2^q, ties to even, as a count of 2^q. -/
def roundAt (m : Nat) (e q : Int) : Nat :=
  if q ≤ e then m * pow2 (e - q)
  else
    let d := pow2 (q - e)
    let a := m / d
    let r := m % d
    if 2 * r > d ∨ (2 * r = d ∧ a % 2 = 1) then a + 1 else a

/-- The exponent of the leading bit of m · 2^e, m not 0. -/
def topExp (m : Nat) (e : Int) : Int := (Nat.log2 m : Int) + e

/-- `rn`: binary32 round to nearest, ties to even, of a signed magnitude; whether it overflows to infinity (R190). -/
def rn (neg : Bool) (m : Nat) (e : Int) : BitVec 32 × Bool :=
  let sg : Nat := if neg then 2 ^ 31 else 0
  if m = 0 then (BitVec.ofNat 32 sg, false)
  else
    let q := max (topExp m e - 23) (-149)
    let n := (q + 149).toNat * 2 ^ 23 + roundAt m e q
    if n ≥ 0x7F800000 then (inf32 neg, true) else (BitVec.ofNat 32 (sg + n), false)

/-- `rn` of an exact value; an exact zero is +0. -/
def rnDy (d : Dy) : BitVec 32 × Bool := rn (decide (d.m < 0)) d.m.natAbs d.e

/-- An integer as binary32. -/
def f32OfInt (i : Int) : BitVec 32 := (rnDy (Dy.ofInt i)).1

/-- ulp(r) of R191: 2^(max(E, −126) − 23). -/
def ulp (d : Dy) : Dy :=
  { m := 1, e := (if d.m = 0 then -126 else max (topExp d.m.natAbs d.e) (-126)) - 23 }

/-- The binary32 magnitudes just below and just above |x|, x not representable. -/
def neighbours (d : Dy) : Dy × Dy :=
  let q := max (topExp d.m.natAbs d.e - 23) (-149)
  let n := d.m.natAbs / pow2 (q - d.e)
  ({ m := (n : Int), e := q }, { m := (n : Int) + 1, e := q })

/-- An exact value is a binary32 value, range aside. -/
def representable (d : Dy) : Bool :=
  if d.m = 0 then true
  else
    let q := max (topExp d.m.natAbs d.e - 23) (-149)
    decide (q ≤ d.e) || decide (d.m.natAbs % pow2 (q - d.e) = 0)

/-- The 16-bit fraction f = floor(d · 65,536) of |x| between its neighbours; 0 when x is representable (R208). -/
def srFrac (d : Dy) : Nat :=
  if representable d then 0
  else
    let q := max (topExp d.m.natAbs d.e - 23) (-149)
    let k := pow2 (q - d.e)
    (d.m.natAbs % k) * 65536 / k

/-- `sr` with the draw r: the result and whether it was held at the largest finite value (R208). -/
def sr (d : Dy) (r : Nat) : BitVec 32 × Bool :=
  let x : BitVec 32 × Bool :=
    if representable d then rnDy d
    else
      let nb := neighbours d
      let v := if r < srFrac d then nb.2 else nb.1
      rn (decide (d.m < 0)) v.m.natAbs v.e
  if (num32 x.1).isInf then ((if d.m < 0 then 0xFF7FFFFF#32 else 0x7F7FFFFF#32), true) else (x.1, false)

/-! ## Conversion into an operand format (R188, Table 7.2) -/

/-- What a conversion reports. -/
inductive ConvNote where
  | none | sat | nanInt
deriving DecidableEq, Repr

/-- A finite magnitude into an 8-bit format of `mb` mantissa bits with a bias: the code, or none when it rounds beyond the
largest finite code. -/
def toFloat8 (m : Nat) (e : Int) (mb : Nat) (bias : Int) (top : Nat) : Option Nat :=
  if m = 0 then some 0
  else
    let lo : Int := 1 - bias - (mb : Int)
    let q := max (topExp m e - (mb : Int)) lo
    let n := (q - lo).toNat * 2 ^ mb + roundAt m e q
    if n > top then Option.none else some n

/-- A binary32 value converted into format 0 to 2 with a tensor scale code. -/
def conv (fmt : Nat) (scale : Nat) (v : BitVec 32) : Nat × ConvNote :=
  let sg (neg : Bool) : Nat := if neg then 0x80 else 0
  match num32 v, fmt with
  | .nan, 2 => (0, .nanInt)
  | .nan, _ => (0x7F, .none)
  | .inf n, 0 => (sg n + 0x7E, .sat)
  | .inf n, 1 => (sg n + 0x7C, .none)
  | .inf n, _ => ((if n then 0x81 else 0x7F), .sat)
  | .fin n m e, 0 => match toFloat8 m (e + 127 - (scale : Int)) 3 7 0x7E with
    | some c => (sg n + c, .none)
    | Option.none => (sg n + 0x7E, .sat)
  | .fin n m e, 1 => match toFloat8 m (e + 127 - (scale : Int)) 2 15 0x7B with
    | some c => (sg n + c, .none)
    | Option.none => (sg n + 0x7B, .sat)
  | .fin n m e, _ =>
    let k := roundAt m (e + 127 - (scale : Int)) 0
    if k > 127 then ((if n then 0x81 else 0x7F), .sat) else ((if n then (256 - k) % 256 else k), .none)

/-- An element times its scale code, as binary32 (R207, R187). -/
def scaled (fmt scale code : Nat) : BitVec 32 :=
  match numOf fmt code with
  | .nan => nan32
  | .inf n => inf32 n
  | .fin n m e => if scale = 255 then nan32 else (rn n m (e + (scale : Int) - 127)).1

/-! ## Maximum, minimum and activation (R198) -/

/-- Order of two binary32 values that are not NaN: whether a < b. -/
def less32 (a b : BitVec 32) : Bool :=
  match num32 a, num32 b with
  | .inf n, .inf k => n && !k
  | .inf n, _ => n
  | _, .inf k => !k
  | x, y => x.dy.lt y.dy

/-- max or min of two values; whether `nan_in` is set. -/
def maxMin (mx : Bool) (a b : BitVec 32) : BitVec 32 × Bool :=
  if (num32 a).isNan || (num32 b).isNan then (nan32, true)
  else if (num32 a).isZero && (num32 b).isZero then
    (if mx then a &&& b else a ||| b, false)
  else (if less32 a b == mx then b else a, false)

/-- An activation: 0 identity, 1 relu, 2 clamp; the number of operations that set `nan_in`. -/
def activate (act : Nat) (lo hi v : BitVec 32) : BitVec 32 × Nat :=
  match act with
  | 1 => let x := maxMin true v 0#32; (x.1, b2n x.2)
  | 2 =>
    let x := maxMin true v lo
    let y := maxMin false x.1 hi
    (y.1, b2n x.2 + b2n y.2)
  | _ => (v, 0)

/-- floor(log2) of a finite non-zero magnitude. -/
def log2Of (v : BitVec 32) : Int :=
  match num32 v with
  | .fin _ m e => topExp m e
  | _ => 0

/-- The fused conservative scale codes (Table 7.7, R201). -/
def fusedScale (fmt : Nat) : Nat := if fmt = 0 then 0x8E else if fmt = 1 then 0x88 else 0x90

/-- An output rounded to an integer, ties to even, and clamped to 0..hi, after a multiplication; whether it was clamped (R199). -/
def toField (v : BitVec 32) (mul hi : Nat) : Nat × Bool :=
  match num32 v with
  | .nan => (0, false)
  | .inf n => ((if n then 0 else hi), true)
  | .fin n m e =>
    let k := roundAt (m * mul) e 0
    if n then (0, decide (k ≠ 0)) else if k > hi then (hi, true) else (k, false)

end Sys2Proof.Machine
end

