-- ==== Sys2Proof/Machine/Operands.lean ====
section
/-! DEFINITION. The operand forms: the register-format words of the manual with a reader for each field, the argument
words of a request, and the forms of an answer (04, 05, 09, 10, 11, 13, 14). -/

namespace Sys2Proof

/-! ## Request words -/

/-- Argument word n of a request, n from 1 (13 R317). -/
def Req.w (q : Req) (n : Nat) : Word := q.args.getD (n - 1) 0

/-- Two argument words as one 64-bit value, low word first (14 R328). -/
def Req.w64 (q : Req) (n : Nat) : BitVec 64 := BitVec.ofNat 64 ((q.w n).toNat + (q.w (n + 1)).toNat * 2 ^ 32)

/-- A bit of word n that the layout does not name is set: every bit at or above `lo` (00 R15). -/
def Req.rsvAbove (q : Req) (n lo : Nat) : Bool := decide ((q.w n).toNat >>> lo ≠ 0)

end Sys2Proof

namespace Sys2Proof.Machine

open Sys2Proof

/-! ## The tile words (04 Table 4.7, 05 Tables 5.2 and 5.3) -/

/-- A tile's policy word as READ back (04 Table 4.7). -/
def Tile.policyN (t : Tile) : Nat :=
  pack [(0, 16, t.code.toNat), (16, 5, t.reactLim.toNat), (21, 5, t.planLim.toNat), (26, 1, b2n t.softStart)]

/-- Threshold code of plumb p in a plumb word. -/
def plumbThr (w : BitVec 64) (p : Nat) : Nat := fld w (16 * p) 6
def plumbEn (w : BitVec 64) (p : Nat) : Bool := bit w (16 * p + 6)
def plumbHyst (w : BitVec 64) (p : Nat) : Nat := fld w (16 * p + 7) 2
def plumbStr (w : BitVec 64) (p : Nat) : Nat := fld w (16 * p + 9) 5
def plumbRsv (w : BitVec 64) (p : Nat) : Nat := fld w (16 * p + 14) 2

/-- Hysteresis in mV (05 Table 5.2). -/
def plumbHystMv (w : BitVec 64) (p : Nat) : Nat := 5 * (plumbHyst w p + 1)

def droopHold (w : BitVec 64) : Nat := fld w 0 8
def droopDecay (w : BitVec 64) : Nat := fld w 8 3
def droopShiftQ (w : BitVec 64) : Nat := fld w 11 9
def droopThermSet (w : BitVec 64) : Nat := fld w 20 7

/-- Floor rates of the floor word (11 Table 11.2). -/
def floorA (w : BitVec 64) : Nat := fld w 0 9
def floorS (w : BitVec 64) : Nat := fld w 16 9

/-! ## The rail map word (09 Table 9.1) -/

def rmPresent (w : BitVec 64) : Bool := bit w 0
def rmSel (w : BitVec 64) : Nat := fld w 1 4
def rmAddr (w : BitVec 64) : Nat := fld w 5 7
def rmPage (w : BitVec 64) : Nat := fld w 12 4
def rmILsb (w : BitVec 64) : Nat := fld w 16 3
def rmVInit (w : BitVec 64) : Nat := fld w 20 12
def rmRGrid (w : BitVec 64) : Nat := fld w 32 12
def rmPFill (w : BitVec 64) : Nat := fld w 44 12

/-- AVSBus link of a rail (09 R236). -/
def linkOf (r : Nat) : Nat := r / 4

/-- An AVSBus frame to a rail: command, data type and data (09 Table 9.2). -/
def avsOp (map : BitVec 64) (r cmd ty : Nat) (data : Option Nat) : BusOp :=
  .avs (BitVec.ofNat 1 (linkOf r)) (BitVec.ofNat 4 (rmSel map)) (BitVec.ofNat 4 cmd) (BitVec.ofNat 4 ty) data

/-- A paged PMBus access to a rail's regulator: PAGE, then the command (09 Table 9.3). -/
def pmbOps (map : BitVec 64) (code : Byte) (data : Option Nat) : List BusOp :=
  [.pmb (BitVec.ofNat 7 (rmAddr map)) 0x00 (some (rmPage map)), .pmb (BitVec.ofNat 7 (rmAddr map)) code data]

/-- The PMBus word of SET_PMBUS (14 Table 14.3): tray address and `tray_cmd`. -/
def pmTray (w : Word) : Nat := fld w 1 7
def pmTrayCmd (w : Word) : Nat := fld w 8 8

/-! ## The power configuration word (14 0x63) and the join word (10 Table 10.1) -/

def cfgEst (w : Word) : Nat := fld w 0 6
def cfgTel (w : Word) : Nat := fld w 6 7
def cfgSplit (w : Word) : Bool := bit w 13

def joinId (w : BitVec 64) : Nat := fld w 0 16
def joinMember (w : BitVec 64) : Nat := fld w 16 16
def joinN1 (w : BitVec 64) : Nat := fld w 32 16
def joinLead (w : BitVec 64) : Nat := fld w 48 4
def joinMaskTherm (w : BitVec 64) : Bool := bit w 52
def joinMaskHost (w : BitVec 64) : Bool := bit w 53

/-! ## Answers (13 Table 13.3, 14 R330, Table 14.1) -/

def stOK : Byte := 0x00
def stAccepted : Byte := 0x01
def stBusy : Byte := 0x02
def stDeferred : Byte := 0x03
def stBadArg : Byte := 0x10
def stChart : Byte := 0x11
def stNotPermitted : Byte := 0x12
def stFenced : Byte := 0x13
def stNoRef : Byte := 0x14
def stAborted : Byte := 0x20
def stTooLarge : Byte := 0x21
def stInternal : Byte := 0x30

/-- The refusal detail of Table 14.1. -/
structure Detail where
  item  : Nat := 0
  idx   : Nat := 0
  aux   : Nat := 0
  extra : Nat := 0
  limit : Nat := 0
deriving DecidableEq, Repr

/-- The three detail words of a refusal. -/
def Detail.words (d : Detail) : List Word :=
  [w32 (pack [(0, 8, d.item), (8, 16, d.idx), (24, 8, d.aux)]), w32 d.extra, w32 d.limit]

/-- What a command's body answers: its final status at once, or ACCEPTED with results (14 R329). -/
inductive Ans where
  | final (r : Resp)
  | accepted (words : List Word)
deriving DecidableEq, Repr

def okR (ws : List Word) : Resp := { status := stOK, deny := 0, words := ws }
def refR (st : Byte) (deny : BitVec 4) (d : Detail) : Resp := { status := st, deny := deny, words := d.words }
def badArgR (n : Nat) : Resp := refR stBadArg 0 { item := 1, idx := n }
def notPermR (deny : BitVec 4) (d : Detail) : Resp := refR stNotPermitted deny d
def chartR (deny : BitVec 4) (d : Detail) : Resp := refR stChart deny d
def fencedR (tile : Nat) : Resp := refR stFenced 2 { item := 2, idx := tile }
def noRefR : Resp := refR stNoRef 6 { item := 0x0B, aux := 1 }
def tooLargeR (extra limit : Nat) : Resp := refR stTooLarge 0 { extra := extra, limit := limit }
def internalR (reason : Nat) : Resp := { status := stInternal, deny := 0, words := [w32 reason] }
/-- BUSY from the Helm: `why` 0 in word 1 and the detail in words 2–4 (14 R330). -/
def busyR (d : Detail) : Resp := { status := stBusy, deny := 0, words := 0 :: d.words }
def deferredR (h : BitVec 16) : Resp := { status := stDeferred, deny := 0, words := [w32 h.toNat] }
/-- Refused after a halt (11 Table 11.3). -/
def haltR : Resp := notPermR 1 {}

/-- The response header of Table 13.3. -/
def respHeader (op tag : Byte) (r : Resp) : Word :=
  w32 (pack [(0, 8, op.toNat), (8, 8, tag.toNat), (16, 8, r.status.toNat), (24, 4, r.deny.toNat),
    (28, 4, r.words.length)])

/-- A list cut or filled with zeros to 16 words. -/
def area16 (l : List Word) : List Word := (l ++ List.replicate 16 0).take 16

/-- The request header of Table 13.2. -/
def reqHeader (op : Byte) (q : Req) : Word :=
  w32 (pack [(0, 8, op.toNat), (8, 8, q.tag.toNat), (16, 4, q.args.length), (20, 3, q.sess.toNat), (23, 9, q.rsv.toNat)])

/-- The request that 16 copied words spell. -/
def reqOfWords (mbx : BitVec 3) (ws : List Word) : Req :=
  let h := ws.getD 0 0
  { mbx := mbx, tag := BitVec.ofNat 8 (fld h 8 8), sess := BitVec.ofNat 3 (fld h 20 3), rsv := BitVec.ofNat 9 (fld h 23 9),
    args := (ws.drop 1).take (fld h 16 4) }

end Sys2Proof.Machine
end

