-- ==== Sys2Proof/Machine/Flags.lean ====
section
/-! DEFINITION. Every flag and derived value the manual gives: stretch and pulse pass, target rates and throttle reasons,
interrupt causes, status words, and the raising of events and packets (04, 09, 11, 13, 15, 17, 19). -/

namespace Sys2Proof.Machine

open Sys2Proof

/-! ## Pulse pass and throttle stretch (04 R124, R125) -/

/-- The least throttle stretch up to `lim` at which `m` passes of 8 stay at or below q, or `lim`. -/
def throttleK (q lim m : Nat) : Nat :=
  ((List.range (lim + 1)).find? (fun k => decide (256 * m * 32 ≤ 8 * q * (32 + k)))).getD lim

/-- The loop of R125 from `m` downwards: pulse pass, throttle stretch, and whether the target lies below the reachable
floor. -/
def passLoop (q lim : Nat) : Nat → Nat × Nat × Bool
  | 0 => (1, lim, true)
  | m + 1 =>
    let k := throttleK q lim (m + 1)
    if 256 * (m + 1) * 32 ≤ 8 * q * (32 + k) then (m + 1, k, false)
    else if m = 0 then (1, k, true) else passLoop q lim m

/-- Pulse pass, throttle stretch and throttle floor for a target rate q (R125). -/
def passOf (q lim : Nat) : Nat × Nat × Bool := passLoop q lim (cdiv (8 * q) 256)

/-- Whether period n of a frame carries its high phase at pulse pass m (R124). -/
def passes (n m : Nat) : Bool := decide ((n + 1) * m / 8 > n * m / 8)

/-! ## Requests in force at a tile -/

/-- The tile's reactive request: the largest of its unmasked plumbs (05 R145, 09 R250). -/
def Tile.reactive (t : Tile) : Nat := maxOr 0 ((t.plumbs.filter (fun p => !p.masked)).map (fun p => p.req.toNat))

/-- The tile's predicted stretch: the largest pre-stretch in force (06 R177). -/
def Tile.predicted (t : Tile) : Nat := maxOr 0 ((t.events.filter (·.preOn)).map (fun e => e.preK.toNat))

/-- The events of a tile that are pending: not yet resolved, or committed with actions still to end (06 R176). -/
def Tile.pendingEvents (t : Tile) : List Event := t.events.filter (fun e => !e.dead)

/-- The dip of the events in force: the largest of those covering now, limited by R177 and R111. -/
def Tile.dipOf (t : Tile) : Nat :=
  let d := maxOr 0 ((t.events.filter (·.dipOn)).map (fun e => e.dip.toNat))
  min d (min (t.code.toNat / 8) (t.runCode.toNat - 2560))

/-- The software floor's clip of a pre-stretch k and a dip d at policy code c: the dip first, then the stretch (11 R292). -/
def floorClip (f c k d : Nat) : Nat × Nat :=
  if f * (32 + k) * c ≤ 8192 * (c - d) then (k, d)
  else if f * (32 + k) ≤ 8192 then (k, c - cdiv (f * (32 + k) * c) 8192)
  else (min k (8192 / f - 32), 0)

/-- The floor of a tile's class (11 R291): none on a steady tile. -/
def State.floorOf (s : State) (i : Nat) : Nat :=
  if s.adaptive i then floorA s.power.floorNow else if s.service i then floorS s.power.floorNow else 0

/-- The pre-stretch and the dip that a tile holds in force before the floor: the largest of the events that act, limited by
`plan_lim` and the dip rules (06 R177). -/
def Tile.rawPlan (t : Tile) : Nat × Nat := (min t.planLim.toNat t.predicted, t.dipOf)

/-- What of it acts: the floor's clip of it (11 R292). -/
def State.heldPlan (s : State) (i : Nat) : Nat × Nat :=
  let t := s.tile i
  floorClip (s.floorOf i) t.code.toNat t.rawPlan.1 t.rawPlan.2

/-- The predicted origin of a tile (04 R120). -/
def State.predictedAt (s : State) (i : Nat) : Nat := (s.heldPlan i).1

/-- An unmasked plumb of the tile fires or holds: what a steady tile moves (05 R146). -/
def Tile.droops (t : Tile) : Bool :=
  t.plumbs.any (fun p => !p.masked && (decide (p.st = .firing) || decide (p.st = .holding)))

/-- The least of the three cap rates (09 R244). -/
def State.capRate (s : State) : Nat := minOr 256 (s.power.caps.map (·.toNat))

/-- The cap margin in % (09 R245, Table 9.5). -/
def State.margin (s : State) : Nat :=
  2 + (if s.power.avsBad = 0 then 0 else if s.power.avsBad = 3 then 10 else 6) + (if s.power.distrust then 5 else 0)

/-- The target tiles to which a steady tile's throttle moves: those of R28, tiles in a domain reported off among them, which R30 would
leave out (01 R28; log 94). -/
def State.targets (s : State) (i : Nat) : List Nat :=
  let ok := allTiles.filter (fun j => s.adaptive j && !(s.tile j).fenced)
  let dom := ok.filter (fun j => s.domOf j == s.domOf i)
  if dom.isEmpty then ok.filter (fun j => s.railOf j == s.railOf i) else dom

/-- A steady tile that is heard: not fenced and not in a domain reported off (01 R30, 05 R151). -/
def State.heard (s : State) (i : Nat) : Bool := s.present i && !(s.tile i).fenced && s.domOn i

/-- The steady tiles that move a throttle: tile, rate moved for droop, rate moved for temperature (05 R146, R152). -/
def State.movers (s : State) : List (Nat × Nat × Nat) :=
  (allTiles.filter (fun i => s.steady i && s.heard i && ((s.tile i).droops || decide ((s.tile i).qth ≠ 256)))).map
    (fun i => (i, if (s.tile i).droops then droopShiftQ (s.tile i).droopW else 256, (s.tile i).qth.toNat))

/-- The rate the steady tiles move onto a tile, for droop and for temperature. -/
def State.movedOn (s : State) (mv : List (Nat × Nat × Nat)) (i : Nat) : Nat × Nat :=
  let mine := mv.filter (fun m => (s.targets m.1).contains i)
  (minOr 256 (mine.map (·.2.1)), minOr 256 (mine.map (·.2.2)))

/-- The chart clamp of a tile (09 R253), 256 when none. -/
def State.chartClamp (s : State) (i : Nat) : Nat :=
  let c := (s.tile i).code.toNat
  let mx := (s.chart i).maxCode.toNat
  if c > mx then 256 * mx / c else 256

/-- The learned clamp of a tile (11 R294), 256 when none. -/
def State.learnClamp (s : State) (i : Nat) : Nat :=
  let c := (s.tile i).code.toNat
  let l := (s.tile i).learn.toNat
  if c > l then 256 * l / c else 256

/-- Own cap rates act locally on a tile: always on a service tile, and on an adaptive tile outside ACTIVE and LEAVING
(10 R270, R279). -/
def State.capsLocal (s : State) (i : Nat) : Bool :=
  s.service i || !(decide (s.cvy.st = .active) || decide (s.cvy.st = .leaving))

/-- The target rates in force at a tile, each with its reason bit (09 Table 9.7). A steady tile takes none. -/
def State.qParts (s : State) (mv : List (Nat × Nat × Nat)) (i : Nat) : List (Nat × Nat) :=
  if s.steady i || !s.present i then [] else
  let t := s.tile i
  let ad := s.adaptive i
  let moved := if ad then s.movedOn mv i else (256, 256)
  let caps := if s.capsLocal i then
      [(3, (s.power.caps.getD 0 256).toNat), (4, (s.power.caps.getD 1 256).toNat), (5, (s.power.caps.getD 2 256).toNat)]
    else []
  let loc := if ad then ((List.range 12).filter (fun b => bit s.cvy.localWhy b)).map (fun b => (b, s.cvy.localQ.toNat)) else []
  [(0, moved.1), (2, min t.qth.toNat moved.2)] ++ caps ++ loc ++
  (if ad then [(6, s.cvy.rate.toNat)] else []) ++
  (if s.thrOn then [(7, s.power.hostQNow.toNat)] else []) ++
  [(8, s.chartClamp i), (8, s.learnClamp i)] ++
  (if (s.rail (s.railOf i)).isOver then [(8, s.power.safeQ.toNat)] else []) ++
  (if s.safeFloor then [(10, s.power.safeQ.toNat)] else [])

/-- The target rate q of a tile: the lowest of those in force (04 R124). -/
def State.qTarget (s : State) (mv : List (Nat × Nat × Nat)) (i : Nat) : Nat := minOr 256 ((s.qParts mv i).map (·.2))

/-- Pulse pass, throttle stretch and throttle floor of a tile. -/
def State.passTile (s : State) (mv : List (Nat × Nat × Nat)) (i : Nat) : Nat × Nat × Bool :=
  passOf (s.qTarget mv i) (s.tile i).planLim.toNat

/-- The stretch of R120 and the origin it counts under (R136): reactive before throttle before predicted on a tie. -/
def stretchOf (reactLim planLim reactive start predicted throttle : Nat) : Nat × Orig :=
  let r := min reactLim reactive
  let p := min reactLim (min planLim predicted)
  let th := min reactLim (min planLim throttle)
  let k := max r (max (min reactLim start) (max p th))
  (k, if k = 0 then .none else if r = k then .reactive else if th = k then .throttle
      else if p = k then .predicted else .none)

/-- The stretch that the next half of a tile reads. -/
def State.stretch (s : State) (mv : List (Nat × Nat × Nat)) (i : Nat) : Nat × Orig :=
  let t := s.tile i
  stretchOf t.reactLim.toNat t.planLim.toNat t.reactive t.start.toNat (s.predictedAt i) (s.passTile mv i).2.1

/-- The reasons acting at a tile, in THR_CAUSE bit order (15 Tables 15.5 and 15.7). -/
def State.reasonsAt (s : State) (mv : List (Nat × Nat × Nat)) (i : Nat) : BitVec 12 :=
  let t := s.tile i
  let q := (s.qParts mv i).foldl (fun m p => if p.2 < 256 then m ||| (1 <<< p.1) else m) 0
  let react := b2n (decide (t.reactive ≠ 0))
  let pred := b2n (decide (s.predictedAt i ≠ 0) || decide (t.dip ≠ 0)) <<< 1
  let stop := b2n (decide (t.st = .halted) && decide (s.boot.cool = .stopped)) <<< 11
  BitVec.ofNat 12 (q ||| react ||| pred ||| stop)

/-- THR_CAUSE (09 R252, Table 9.7; 05 R156; 06 R177). -/
def State.thrCause (s : State) (mv : List (Nat × Nat × Nat)) : BitVec 12 :=
  let ts := s.tiles
  let capLow := decide (s.capRate < 256)
  let clampAt (i : Nat) : Bool :=
    s.present i && (if s.steady i then decide (s.chartClamp i < 256)
      else decide (s.chartClamp i < 256) || decide (s.learnClamp i < 256))
  BitVec.ofNat 12 (pack [
    (0, 1, b2n (ts.any (fun t => decide (t.reactive ≠ 0)) || mv.any (fun m => (s.tile m.1).droops && !(s.targets m.1).isEmpty))),
    (1, 1, b2n (allTiles.any (fun i => decide (s.predictedAt i ≠ 0) || decide ((s.tile i).dip ≠ 0)))),
    (2, 1, b2n (ts.any (fun t => decide (t.qth ≠ 256)) || s.boot.trip)),
    (3, 1, b2n (decide ((s.power.caps.getD 0 256).toNat < 256))),
    (4, 1, b2n (decide ((s.power.caps.getD 1 256).toNat < 256))),
    (5, 1, b2n (decide ((s.power.caps.getD 2 256).toNat < 256))),
    (6, 1, b2n (decide (s.cvy.rate.toNat < 256))),
    (7, 1, b2n s.thrOn),
    (8, 1, b2n (allTiles.any clampAt || s.rails.any (·.isOver))),
    (9, 1, b2n (s.power.distrust && capLow)),
    (10, 1, b2n s.safeFloor),
    (11, 1, b2n (decide (s.boot.cool = .stopped)))])

/-! ## Interrupts (19 R419) -/

/-- The level `evt_pend`: the Helm's event queue is not empty; it rests while the Helm cannot run, and
while crossing 3 is stale. -/
def State.evtPend (s : State) : Bool :=
  if s.helm.stage = .reset || s.helm.stage = .restart || !s.xingOk 3 then s.ctl.evtHeld else !s.faults.queue.isEmpty

/-- CTL_INT (19 Table 19.3). -/
def State.ctlInt (s : State) : Word :=
  w32 (pack [(0, 8, s.ctl.done.toNat), (8, 1, b2n s.ctl.misuse), (9, 1, b2n s.ctl.xstale), (10, 1, b2n s.evtPend),
    (11, 1, b2n (if s.xingOk 6 then s.boot.chipStop else s.ctl.snapStop))])

/-- The output `ctl_irq` (02 R45). -/
def State.ctlIrq (s : State) : Bool := decide (s.ctlInt.toNat % 4096 &&& s.ctl.en.toNat ≠ 0)

/-! ## Status words -/

/-- An enable of the tile is due within the 64 µs in which its oscillators are calibrated: of a tile that is DISABLED by command or
keystone, of one in a domain reported off at the domain's return (04 R127, Table 4.6; R128, R132). -/
def State.starting (s : State) (i : Nat) : Bool :=
  let t := s.tile i
  let soon (T : Time) : Bool := decide (s.key T ≤ nowK + 1024000)
  (decide (t.st = .disabled) &&
    (t.sched.any (fun x => decide (x.act = .enable) && soon x.at_) ||
      s.keys.slots.any (fun k => (decide (k.st = .opened) || decide (k.st = .sealed)) && soon k.t &&
        k.acts.any (fun a => decide (fld a 0 4 = 2) && decide (fld a 4 8 = i))))) ||
  (decide (t.st = .domainOff) && (t.recEn || decide (t.ret = .running) || decide (t.ret = .gated)) &&
    (match s.domRet.getD (s.domOf i) none with
     | some (T, _) => soon T
     | none => false))

/-- The standby state that a tile shows (04 Tables 4.6, 4.8): it is calibrating before a start. -/
def State.standbyShown (s : State) (i : Nat) : StbySt := if s.starting i then .calibrating else (s.tile i).stby

/-- The tile status word (04 Table 4.8); a fence's cause shows while the tile is fenced. -/
def State.statusWord (s : State) (mv : List (Nat × Nat × Nat)) (i : Nat) : BitVec 64 :=
  let t := s.tile i
  let pt := if t.st = .running then s.passTile mv i else (8, 0, false)
  BitVec.ofNat 64 (pack [(0, 3, t.st.code), (3, 1, b2n t.actB), (4, 2, (s.standbyShown i).code), (6, 16, t.runCode.toNat - t.dip.toNat),
    (22, 5, t.lastK.toNat), (27, 4, pt.1), (31, 1, b2n (decide (t.settle = 0) && (decide (t.st = .running) || decide (t.st = .gated)))),
    (32, 1, b2n t.single), (33, 1, b2n t.failA), (34, 1, b2n t.failB), (35, 1, b2n pt.2.2), (36, 4, if t.fenced then t.cause.toNat else 0)])

/-- The status outputs of a tile: `tst_run`, `tst_fen`, `tst_thr`, `tst_str` (02, 04 R126, Table 4.6). -/
def State.tstOut (s : State) (mv : List (Nat × Nat × Nat)) (i : Nat) : Bool × Bool × Bool × Bool :=
  let t := s.tile i
  let pt := s.passTile mv i
  let run := decide (t.st = .running)
  (run, t.fenced, run && (decide (pt.1 < 8) || decide (pt.2.1 ≠ 0) || decide (t.dip ≠ 0)),
    run && decide ((s.stretch mv i).1 > 0))

/-- Tile temperature: the higher of its valid readings (05 R150), in 0.25 °C. -/
def Tile.temp (t : Tile) : Int :=
  if t.failS0 then t.t1 else if t.failS1 then t.t0 else max t.t0 t.t1

/-! ## Outbound packets (15 R347 to R353) -/

/-- Output class of a record type (15 Table 15.2). -/
def typeClass (ty : Nat) : Nat :=
  if ty = 1 ∨ ty = 2 ∨ ty = 3 ∨ ty = 4 ∨ ty = 5 ∨ ty = 12 then 0 else if ty = 10 ∨ ty = 11 then 2 else 1

/-- Flits that a class queue holds (15 Table 15.3). -/
def classRoom (c : Nat) : Nat := if c = 0 then 512 else if c = 1 then 1024 else 4096

def Packet.flits (p : Packet) : Nat := 2 + p.body.length
def queueFlits (q : List Packet) : Nat := sumN (q.map Packet.flits)

def Log.queue (l : Log) (c : Nat) : List Packet := if c = 0 then l.q0 else if c = 1 then l.q1 else l.q2
def Log.setQueue (l : Log) (c : Nat) (q : List Packet) : Log :=
  if c = 0 then { l with q0 := q } else if c = 1 then { l with q1 := q } else { l with q2 := q }

/-- Types that the mask does not govern (15 R351). -/
def alwaysSent (ty : Nat) : Bool := ty == 3 || ty == 4 || ty == 6 || ty == 11 || ty == 12

def State.selected (s : State) (ty : Nat) : Bool := alwaysSent ty || bit s.log.mask ty

/-- Room in the class queue of a type for a packet of so many flits. -/
def State.roomFor (s : State) (ty flits : Nat) : Bool :=
  decide (queueFlits (s.log.queue (typeClass ty)) + flits ≤ classRoom (typeClass ty))

/-- A packet of a type formed now and put at the end of its class queue: it takes the type's next `seq` and carries the
type's `gap` and `brk` (15 Table 15.1). -/
def State.putPacket (s : State) (ty src nrec : Nat) (stamp : Time) (body : List Flit) : State :=
  let p : Packet := {
    ptype := BitVec.ofNat 5 ty, src := BitVec.ofNat 8 src, nrec := BitVec.ofNat 8 nrec, seq := s.log.seqs.getD ty 0,
    mst := BitVec.ofNat 3 s.mer.st.code, brk := bit s.log.brks ty, gap := bit s.log.gaps ty,
    epoch := (s.xings.main.getD 7 {}).own, stamp := stamp, body := body }
  let l := s.log.setQueue (typeClass ty) (s.log.queue (typeClass ty) ++ [p])
  { s with log := { l with seqs := l.seqs.modify ty (· + 1), gaps := setFld l.gaps ty 1 0, brks := setFld l.brks ty 1 0 } }

/-- So many records of a type are dropped: counted, and the type's next packet carries `gap` (15 R353). -/
def State.dropRecs (s : State) (ty n : Nat) : State :=
  { s with log := { s.log with drops := satAdd s.log.drops n, gaps := setFld s.log.gaps ty 1 1 } }

/-- A packet of droppable records already formed: it joins its class queue, or its records are dropped for want of room. -/
def State.sendRecs (s : State) (ty src nrec : Nat) (stamp : Time) (body : List Flit) : State :=
  if s.roomFor ty (2 + body.length) then s.putPacket ty src nrec stamp body else s.dropRecs ty (max nrec 1)

/-- A packet of droppable records: formed when its type is selected. -/
def State.logPacket (s : State) (ty src nrec : Nat) (stamp : Time) (body : List Flit) : State :=
  if s.selected ty then s.sendRecs ty src nrec stamp body else s

/-- The two flits of a 16-byte record. -/
def recFlits (r : BitVec 128) : List Flit := [BitVec.ofNat 64 r.toNat, BitVec.ofNat 64 (r.toNat >>> 64)]

/-- The number's low `k` flits, low first. -/
def flitsOf : Nat → Nat → List Flit
  | 0, _ => []
  | k + 1, n => BitVec.ofNat 64 n :: flitsOf k (n >>> 64)

/-- Bytes as whole flits, padded with 0 (15 R347). -/
def flitsOfBytes (bs : List Byte) : List Flit := flitsOf (cdiv bs.length 8) (natOfBytes bs)

/-- Whole events from the front of a record list, at most `n` records: a pair is never split (15 R354). -/
def wholeEvents : Nat → List (BitVec 128) → List (BitVec 128) × List (BitVec 128)
  | n, a :: b :: r =>
    if bit a 13 then
      (if n < 2 then ([], a :: b :: r)
       else let x := wholeEvents (n - 2) r; (a :: b :: x.1, x.2))
    else if n = 0 then ([], a :: b :: r)
    else let x := wholeEvents (n - 1) (b :: r); (a :: x.1, x.2)
  | n, [a] => if n = 0 then ([], [a]) else ([a], [])
  | _, [] => ([], [])

/-- One event packet from the waiting event records (15 R351). -/
def State.formEvents (s : State) : State :=
  if s.log.evWait.isEmpty then s else
  let x := wholeEvents 4 s.log.evWait
  let s := { s with log := { s.log with evWait := x.2, evAt := s.boot.uptime } }
  s.sendRecs 1 0 x.1.length s.mer.now (x.1.flatMap recFlits)

/-! ## Events (17 R386, 15 R354) -/

/-- The event record of Table 15.4, with its continuation where there is one. -/
def eventRecs (code : Nat) (idx : Option Nat) (arg : Nat) (t : Time) (cont : Option (Nat × Nat)) : List (BitVec 128) :=
  BitVec.ofNat 128 (pack [(0, 12, code), (12, 1, b2n idx.isSome), (13, 1, b2n cont.isSome), (16, 16, idx.getD 0),
    (32, 32, arg), (64, 64, t.toNat)]) ::
  (match cont with
   | some (a, b) => [BitVec.ofNat 128 (pack [(0, 64, a), (64, 64, b)])]
   | none => [])

/-- Raise an event: its class is marked, its record joins the Helm's queue of 256 or is counted lost, and it goes to the
log port when type 1 is selected (17 R386, R387). -/
def State.raiseC (s : State) (code : Nat) (idx : Option Nat) (arg : Nat) (cont : Option (Nat × Nat)) : State :=
  let rs := eventRecs code idx arg s.mer.now cont
  let f := s.faults
  let f := { f with raised := f.raised ||| BitVec.ofNat 16 (1 <<< (code / 256)) }
  let f := if f.queue.length + rs.length ≤ 256 then { f with queue := f.queue ++ rs }
    else { f with lost := satAdd f.lost rs.length, lostNow := f.lostNow + rs.length }
  let s := { s with faults := f }
  if s.selected 1 then
    let s := { s with log := { s.log with
      evWait := s.log.evWait ++ rs, evAt := if s.log.evWait.isEmpty then s.boot.uptime else s.log.evAt } }
    if s.log.evWait.length ≥ 4 then s.formEvents else s
  else s

/-- Raise an event with an `idx`. -/
def State.raise (s : State) (code idx arg : Nat) : State := s.raiseC code (some idx) arg none

/-- Raise an event that names no item. -/
def State.raise0 (s : State) (code arg : Nat) : State := s.raiseC code none arg none

/-- Once 16 entries of the event queue are free again, one `evq_ovf` carries the number dropped (17 R386). -/
def State.evqFlush (s : State) : State :=
  if s.faults.lostNow ≠ 0 && decide (s.faults.queue.length ≤ 240) then
    let n := s.faults.lostNow
    let s := { s with faults := { s.faults with lostNow := 0 } }
    s.raise0 0xB08 n
  else s

end Sys2Proof.Machine
end

