-- ==== Sys2Proof/Machine/Follow.lean ====
section
/-! DEFINITION. What a convoy member sends: notices and their tag, the outbound port, and the follows of its own (10 R266, R267, R272,
R279, R280; 02 R50). -/

namespace Sys2Proof.Machine

open Sys2Proof

/-! ## Notices (10 R266, R267, R272) -/

/-- One bit of the CRC-16 with polynomial 0x1021. -/
def crcBit (c : BitVec 16) (b : Bool) : BitVec 16 :=
  if (c.getLsbD 15) != b then (c <<< 1) ^^^ 0x1021#16 else c <<< 1

/-- CRC-16 over bytes, most significant bit first (10 R267). -/
def crc16 (bs : List Byte) : BitVec 16 :=
  bs.foldl (fun c b => [7, 6, 5, 4, 3, 2, 1, 0].foldl (fun c i => crcBit c (b.getLsbD i)) c) 0xFFFF#16

/-- The configuration tag of a join word: over its bytes with `member` 0 (10 R267). -/
def joinTag (w : BitVec 64) : BitVec 16 := crc16 (bytesOf 8 (setFld w 16 16 0).toNat)

/-- The three words of a notice of this member (10 Tables 10.3 and 10.4). -/
def Cvy.noticeWords (c : Cvy) (kind : Nat) (inst : Nat) (w2 : Nat) : List Flit :=
  [BitVec.ofNat 64 (pack [(0, 4, kind), (4, 4, 1), (8, 16, joinId c.join), (24, 16, joinMember c.join),
     (40, 16, c.tag.toNat)]), BitVec.ofNat 64 inst, BitVec.ofNat 64 w2]

/-- The convoy port sends: it is out of reset, its clock runs and crossing 12 is not stale. -/
def State.cvyUp (s : State) : Bool :=
  !s.ctl.cvyRst && bit s.boot.clkRun 3 && !(s.xings.main.getD 12 {}).stale

/-- Up to `k` words of the notices leave, in order: the words, the notices that have left whole, and the rest. -/
def sendWords : Nat → List OutNotice → List Flit × List OutNotice × List OutNotice
  | _, [] => ([], [], [])
  | k, n :: r =>
    if n.words.length ≤ k then let x := sendWords (k - n.words.length) r; (n.words ++ x.1, n :: x.2.1, x.2.2)
    else (n.words.take k, [], { n with words := n.words.drop k } :: r)

/-- Up to `k` words leave: a follow counts as sent with its last word, and its lease's wait runs from then on (10 Table 10.6). -/
def Cvy.sendUpTo (c : Cvy) (k : Nat) : Cvy :=
  let x := sendWords k c.out
  let fs := x.2.1.filter (·.follow)
  { c with
    sent := x.1, out := x.2.2, cFolTx := satAdd c.cFolTx fs.length
    leases := c.leases.map (fun l => if l.own && fs.any (fun n => n.until_ == some l.inst) then { l with left := true } else l) }

/-- The words that wait. -/
def Cvy.waiting (c : Cvy) : Nat := sumN (c.out.map (fun n => n.words.length))

/-- The oldest notice is held: its stall is counted once (02 R50). -/
def Cvy.hold (c : Cvy) : Cvy :=
  match c.out with
  | [] => c
  | n :: r => if n.stalled then c else { c with out := { n with stalled := true } :: r, cStall := satInc c.cStall }

/-- Notices leave while the fabric is ready; else the oldest is held (02 R50). -/
def State.cvyPump (s : State) : State :=
  let c := s.cvy
  if c.out.isEmpty then s
  else { s with cvy := if c.ready && s.cvyUp then c.sendUpTo c.waiting else c.hold }

/-- A notice joins the outbound ones; `until_` is the instant at which it is withdrawn when still unsent. -/
def State.sendNotice (s : State) (kind inst w2 : Nat) (until_ : Option Time) (follow : Bool) : State :=
  let n : OutNotice := { words := s.cvy.noticeWords kind inst w2, until_ := until_, follow := follow }
  { s with cvy := { s.cvy with out := s.cvy.out ++ [n] } }.cvyPump

/-! ## Follows of its own (10 R279, R280) -/

/-- The rate a member announces at a boundary and its reasons in THR_CAUSE order: its caps, and the masked reasons. -/
def State.followRate (s : State) : Nat × BitVec 12 :=
  let caps := [(3, (s.power.caps.getD 0 256).toNat), (4, (s.power.caps.getD 1 256).toNat), (5, (s.power.caps.getD 2 256).toNat)]
  let th := if joinMaskTherm s.cvy.join then
      [(2, minOr 256 ((allTiles.filter s.adaptive).map (fun i => (s.tile i).qth.toNat)))] else []
  let ho := if joinMaskHost s.cvy.join && s.boot.thrLow then [(7, s.power.hostQNow.toNat)] else []
  let all := (caps ++ th ++ ho).filter (fun p => p.2 < 256)
  (minOr 256 (all.map (·.2)), BitVec.ofNat 12 (all.foldl (fun m p => m ||| (1 <<< p.1)) 0))

/-- The `why` field of a follow, from reasons in THR_CAUSE order (10 Table 10.4). -/
def whyField (w : BitVec 12) : Nat :=
  b2n (bit w 3) + 2 * b2n (bit w 4) + 4 * b2n (bit w 5) + 8 * b2n (bit w 2) + 16 * b2n (bit w 7)

/-- The interval boundary by which a decision is dated: a meridian multiple of 160,000 mt (R279). -/
def State.boundary (s : State) : Time := BitVec.ofNat 64 (s.nowN / 160000 * 160000)

/-- An evaluation of an ACTIVE or LEAVING member may call for a follow: it is decided once every evaluation of the boundary is in, so
that one notice carries the least rate and all reasons (R279; log 97). -/
def State.followCheck (s : State) : State :=
  if s.cvy.st = .active || s.cvy.st = .leaving then { s with cvy := { s.cvy with owe := some s.boundary } } else s

/-- A follow is called for at boundary `td`: the rate lies below every own notice whose lease covers I, or 500 µs have passed since the
last own notice (R279). -/
def State.callsFollow (s : State) (td inst : Time) (q : Nat) : Bool :=
  let c := s.cvy
  let covers := c.leases.filter (fun l => l.own && decide (s.key l.inst ≤ s.key inst) && decide (s.key inst < s.key l.inst + 16000000))
  let old := match c.lastOwn with
    | none => true
    | some t => decide ((td - t).toNat ≥ 8000000) && decide ((td - t).toNat < 2 ^ 63)
  decide (q < 256) && c.lastOwn ≠ some td && (old || covers.all (fun l => decide (q < l.q.toNat)))

/-- The follow that a boundary's evaluations call for is taken and sent (R279, R280). -/
def State.followSend (s : State) : State :=
  match s.cvy.owe with
  | none => s
  | some td =>
    let s : State := { s with cvy := { s.cvy with owe := none } }
    let inst : Time := td + BitVec.ofNat 64 (joinLead s.cvy.join * 160000)
    let r := s.followRate
    if !(s.cvy.st = .active || s.cvy.st = .leaving) || !s.callsFollow td inst r.1 then s
    else
      let l : Lease := { from_ := inst, till := inst + 16000000, q := BitVec.ofNat 9 r.1, why := r.2, own := true, inst := inst }
      let s := { s with cvy := { s.cvy with leases := s.cvy.leases ++ [l], lastOwn := some td, cFolRx := satInc s.cvy.cFolRx } }
      s.sendNotice 2 inst.toNat (pack [(0, 9, r.1), (9, 5, whyField r.2)]) (some inst) true

end Sys2Proof.Machine
end

