-- ==== Sys2Proof/Machine/Elapse.lean ====
section
/-! DEFINITION. The passing of time between two commands (log 2): every value but time is constant there, so the tile
clocks, the duration counters and the two time bases advance in closed form (04 R118, R124, R126, R136; 09 R252). -/

namespace Sys2Proof.Machine

open Sys2Proof

/-- What a tile's generator sees while time passes: stretch and its origin, pulse pass, code with any dip, the reactive
limit in force, the floor rate of its class (0: none) and the reasons that a frame below the floor adds. -/
structure GenIn where
  k    : Nat
  org  : Orig
  m    : Nat
  code : Nat
  rlim : Nat
  flr  : Nat
  why  : BitVec 12
deriving DecidableEq, Repr

/-- The length of `n` phases of 1/32 of a period at a code, in mt (04 R118). -/
def phaseTime (n code : Nat) : Frac := Frac.mk' (n * 5120) code

/-- Phases that a half adds: floor(k/2) for the high half, ceil(k/2) for the low one (R118). -/
def halfAdd (low : Bool) (k : Nat) : Nat := if low then (k + 1) / 2 else k / 2

/-- A span's sums with so many phases of an origin added. -/
def Telem.addPhases (x : Telem) (org : Orig) (n : Nat) : Telem :=
  match org with
  | .reactive => { x with react := x.react + n }
  | .predicted => { x with plan := x.plan + n }
  | .throttle => { x with thr := x.thr + n }
  | .none => x

/-- The tile's duration counters with time added under an origin; predicted time also counts for the event whose
pre-stretch set it, the largest in force (R122, R136). -/
def Tile.addStretch (t : Tile) (org : Orig) (d : Frac) : Tile :=
  match org with
  | .reactive => { t with dReact := t.dReact.add d }
  | .predicted => { t with
      dPred := t.dPred.add d,
      events := updFirst (fun e => e.preOn && decide (e.preK.toNat = t.predicted)) (fun e => { e with added := e.added.add d }) t.events }
  | .throttle => { t with dThr := t.dThr.add d }
  | .none => t

/-- So many phases, lasting `d`, are added to a tile's periods under an origin. -/
def Tile.added (t : Tile) (org : Orig) (n : Nat) (d : Frac) : Tile :=
  if n = 0 then t
  else { t.addStretch org d with telem := t.telem.addPhases org n, trace := t.trace.addPhases org n }

/-- Periods begun, periods passed and the largest stretch of them join a span's sums. -/
def Telem.addPeriods (x : Telem) (n p k : Nat) : Telem :=
  { x with periods := x.periods + n, passed := x.passed + p, kMax := BitVec.ofNat 5 (max x.kMax.toNat k) }

/-- Periods of its tile that begin while a plumb holds or decays (05 R145). -/
def Plumb.countPeriods (x : Plumb) (n : Nat) : Plumb :=
  if x.st = .holding || x.st = .decaying then { x with cnt := x.cnt + n } else x

/-- `n` periods begin, `p` of them passed: the interval and the spans count them, and so do a ramp (04 R123) and the plumbs. -/
def Tile.countPeriods (t : Tile) (n p : Nat) : Tile :=
  { t with
    passIv := t.passIv + p, telem := t.telem.addPeriods n p 0, trace := t.trace.addPeriods n p 0
    startPer := if t.start = 0 then 0 else t.startPer + n, plumbs := t.plumbs.map (fun x => x.countPeriods n) }

def Tile.maxStretch (t : Tile) (k : Nat) : Tile :=
  { t with telem := t.telem.addPeriods 0 0 k, trace := t.trace.addPeriods 0 0 k }

/-- Whether a frame of the tile, `len` long with `kk` phases added and `p` periods passed, lies below the floor (R293). -/
def belowFloor (t : Tile) (g : GenIn) (kk p : Nat) : Bool :=
  decide (g.flr ≠ 0) && decide (t.perCode.toNat * p * 32 * 256 < g.flr * t.code.toNat * (256 + kk))

/-- The floor-override record grows by a frame's length (11 R293). -/
def Tile.floorFrame (t : Tile) (g : GenIn) (d : Frac) : Tile :=
  { t with dFloor := t.dFloor.add d, floorWhy := t.floorWhy ||| g.why }

/-- The read of a high half: a new period begins, timed by the code in force, passed or suppressed by R124. -/
def Tile.readHigh (t : Tile) (g : GenIn) : Tile :=
  let p := passes t.frame g.m
  let len := phaseTime (16 + g.k / 2) g.code
  let t := { t with
    perCode := BitVec.ofNat 16 g.code, pass := p, highRead := (BitVec.ofNat 5 g.k, g.org), low := true, wait := len,
    frK := t.frK + g.k / 2, frPass := t.frPass + b2n p, frLen := t.frLen.add len,
    dSupp := if p then t.dSupp else t.dSupp.add len }
  (t.added g.org (g.k / 2) (phaseTime (g.k / 2) g.code)).countPeriods 1 (b2n p)

/-- The read of a low half: the period's stretch is the sum of what its halves read; the frame moves on, and a whole
frame is held against the floor. -/
def Tile.readLow (t : Tile) (g : GenIn) : Tile :=
  let code := t.perCode.toNat
  let n := (g.k + 1) / 2
  let len := phaseTime (16 + n) code
  let hk := t.highRead.1.toNat
  let lim := (decide (hk = g.rlim) && decide (t.highRead.2 = .reactive)) || (decide (g.k = g.rlim) && decide (g.org = .reactive))
  let whole := hk / 2 + n
  let t := { t with
    low := false, wait := len, lastK := BitVec.ofNat 5 whole, lowOrg := g.org, frame := (t.frame + 1) % 8,
    frK := t.frK + n, frLen := t.frLen.add len, exPer := t.exPer + 1, exLim := t.exLim + b2n lim,
    dSupp := if t.pass then t.dSupp else t.dSupp.add len }
  let t := (t.added g.org n (phaseTime n code)).maxStretch whole
  if t.frame = 0 then
    let t := if belowFloor t g t.frK t.frPass then t.floorFrame g t.frLen else t
    { t with frK := 0, frPass := 0, frLen := {} }
  else t

/-- Reads one after another while time is left: at most `n` of them, stopping at a frame's start when `stop` is set. -/
def Tile.reads (g : GenIn) (stop : Bool) : Nat → Frac → Tile → Frac × Tile
  | 0, d, t => (d, t)
  | n + 1, d, t =>
    if d.lt t.wait || (stop && !t.low && decide (t.frame = 0)) then (d, t)
    else Tile.reads g stop n (d.sub t.wait) (if t.low then t.readLow g else t.readHigh g)

/-- As many whole frames as fit, each alike, from a frame's start. -/
def Tile.frames (t : Tile) (g : GenIn) (d : Frac) : Frac × Tile :=
  let fr := phaseTime (8 * (32 + g.k)) g.code
  let n := if d.lt t.wait then 0 else (d.sub t.wait).quot fr
  if n = 0 then (d, t)
  else
    let t := { t with
      perCode := BitVec.ofNat 16 g.code, lastK := BitVec.ofNat 5 g.k,
      exPer := t.exPer + 8 * n, exLim := t.exLim + (if g.k = g.rlim ∧ g.org = Orig.reactive then 8 * n else 0),
      dSupp := t.dSupp.add ((phaseTime ((8 - g.m) * (32 + g.k)) g.code).mul n) }
    let t := ((t.added g.org (8 * g.k * n) ((phaseTime (8 * g.k) g.code).mul n)).countPeriods (8 * n) (g.m * n)).maxStretch g.k
    let t := if belowFloor t g (8 * g.k) g.m then t.floorFrame g (fr.mul n) else t
    (d.sub (fr.mul n), t)

/-- A running tile clock over `dt` mt: the frame in hand, whole frames, and the rest. The reads of a clock that has just
started run ahead by its `lead`. -/
def Tile.clock (t : Tile) (g : GenIn) (dt : Nat) : Tile :=
  let (d, t) := Tile.reads g true 16 ((Frac.ofNat dt).add t.lead) { t with lead := {} }
  let (d, t) := if !t.low && decide (t.frame = 0) then t.frames g d else (d, t)
  let (d, t) := Tile.reads g false 18 d t
  { t with wait := t.wait.sub d }

/-- The duration counters with a half that an origin set timed anew: `n` phases of a period at code `c1` become phases at `c2`. -/
def Tile.rephase (t : Tile) (org : Orig) (n c1 c2 : Nat) : Tile :=
  let fix (d : Dur) : Dur := (d.add (phaseTime n c2)).sub (phaseTime n c1)
  match org with
  | .reactive => { t with dReact := fix t.dReact }
  | .predicted => { t with dPred := fix t.dPred }
  | .throttle => { t with dThr := fix t.dThr }
  | .none => t

/-- The transition period of a switch from code c1 to c2 (04 R115): its low phase lasts max(T1, T2)/2 + e and what the stretch adds
in phases of the new oscillator. Where the low half has not been read yet its read moves with its nominal end; where it has, what
follows moves and its phases are timed anew. -/
def Tile.transit (t : Tile) (c1 c2 : Nat) (e : Frac) : Tile :=
  let half := (phaseTime 16 (min c1 c2)).add e
  if t.low then
    let t := { t with wait := (t.wait.add half).sub (phaseTime 16 c1), perCode := BitVec.ofNat 16 c2 }
    { t with
      frLen := (t.frLen.add half).sub (phaseTime 16 c2)
      dSupp := if t.pass then t.dSupp else (t.dSupp.add half).sub (phaseTime 16 c2) }
  else
    let n := t.lastK.toNat - t.highRead.1.toNat / 2
    let grown := half.add (phaseTime n c2)
    let t := { t with wait := (t.wait.add (grown.add (phaseTime 16 c2))).sub ((phaseTime 16 c1).add (phaseTime (16 + n) c1)) }
    let t := if t.frame = 0 then t else { t with frLen := (t.frLen.add grown).sub (phaseTime (16 + n) c1) }
    let t := if t.pass then t else { t with dSupp := (t.dSupp.add grown).sub (phaseTime (16 + n) c1) }
    t.rephase t.lowOrg n c1 c2

/-- The output is held low for `g` mt more in the period under way: a failover to a warm standby (04 R109). -/
def Tile.pause (t : Tile) (g : Nat) : Tile :=
  { t with wait := t.wait.add (Frac.ofNat g), frLen := t.frLen.add (Frac.ofNat g), dFail := t.dFail.addNat g }

/-- A plumb over `dt` mt: time in droop (05 Table 5.6, R148). -/
def Plumb.elapse (p : Plumb) (dt : Nat) : Plumb :=
  if p.out then { p with time := p.time.addNat dt, outMt := p.outMt + dt, acc := p.acc + dt, tAcc := p.tAcc + dt } else p

/-- What a span notes of a tile's rate, reasons and throttle floor. -/
def Telem.see (x : Telem) (q : Nat) (fl : Bool) (why : BitVec 12) : Telem :=
  { x with qMin := BitVec.ofNat 9 (min x.qMin.toNat q), floor_ := x.floor_ || fl, why := x.why ||| why }

/-- The rung 3 to 5 reasons a frame below the floor notes: those that alone go below it, else all in force (R293). -/
def State.floorReasons (s : State) (mv : List (Nat × Nat × Nat)) (i : Nat) : BitVec 12 :=
  let f := s.floorOf i
  let t := s.tile i
  let r := min t.reactive t.reactLim.toNat
  let mask (l : List Nat) : Nat := l.foldl (fun a b => a ||| (1 <<< b)) 0
  let qs := (s.qParts mv i).filter (fun p => decide (p.2 < 256))
  let alone := (qs.filter (fun p => decide (p.2 < f))).map (·.1) ++ (if 8192 < f * (32 + r) then [0] else [])
  let all := qs.map (·.1) ++ (if r ≠ 0 then [0] else [])
  BitVec.ofNat 12 (mask (if alone.isEmpty then all else alone))

/-- One tile over `dt` mt. -/
def State.elapseTile (s : State) (mv : List (Nat × Nat × Nat)) (dt : Nat) (i : Nat) (t : Tile) : Tile :=
  if !s.present i then t else
  let pt := s.passTile mv i
  let st := s.stretch mv i
  let why := s.reasonsAt mv i
  let t' := { t with
    plumbs := t.plumbs.map (fun p => p.elapse dt), settle := t.settle - dt, stbySettle := t.stbySettle - dt,
    dFail := if decide (t.st = .starting) && t.foGap then t.dFail.addNat dt else t.dFail,
    dTherm := if t.qth ≠ 256 then t.dTherm.addNat dt else t.dTherm,
    dMoved := if mv.any (fun m => m.1 == i) && !(s.targets i).isEmpty then t.dMoved.addNat dt else t.dMoved }
  if t.st = .running then
    let g : GenIn := {
      k := st.1, org := st.2, m := pt.1, code := t.runCode.toNat - t.dip.toNat, rlim := t.reactLim.toNat,
      flr := s.floorOf i, why := s.floorReasons mv i }
    let t' := { t' with telem := t'.telem.see (s.qTarget mv i) pt.2.2 why, trace := t'.trace.see (s.qTarget mv i) pt.2.2 why }
    if g.code = 0 then t' else t'.clock g dt
  else t'

/-- The convoy's duration counters over `dt` mt (10 Table 10.6). -/
def Cvy.elapse (c : Cvy) (capLow : Bool) (now : Time) (dt : Nat) : Cvy :=
  let wait := maxOr 0 ((c.leases.filter (fun l => l.own && l.left && !l.local_)).map (fun l => if (l.inst - now).toNat < 2 ^ 63 then (l.inst - now).toNat else 0))
  let localNow := (decide (c.st ≠ .none) && decide (c.localQ.toNat < 256)) ||
    ((decide (c.st = .joining) || decide (c.st = .suspended)) && capLow)
  { c with
    dWait := c.dWait.addNat (min dt wait), dLocal := if localNow then c.dLocal.addNat dt else c.dLocal,
    dOos := if c.oos then c.dOos.addNat dt else c.dOos, dSusp := if c.st = .suspended then c.dSusp.addNat dt else c.dSusp }

/-- The meridian counter over `dt` mt: it shows steps of 20 mt between the edges of `ref` (03 R75). -/
def Mer.elapse (m : Mer) (dt : Nat) : Mer :=
  if m.running then
    { m with
      now := m.now + BitVec.ofNat 64 ((m.frac + dt) / 20 * 20), frac := (m.frac + dt) % 20
      slewMt := if m.st = .slewing then m.slewMt + dt else m.slewMt }
  else m

/-- Lodestar time over `dt` mt of the block: the adjustment in force makes its clock faster by so many ppb (03 R101; log 77). -/
def Sxt.elapse (x : Sxt) (dt : Nat) : Sxt :=
  let total := x.rem + dt * ((10 ^ 9 : Int) + x.ageNow.toInt).toNat
  { x with time := satAdd x.time (total / 10 ^ 9), rem := total % 10 ^ 9 }

/-- `dt` mt pass. -/
def State.elapse (s : State) (dt : Nat) : State :=
  if dt = 0 then s else
  let mv := s.movers
  let why := s.thrCause mv
  let fresh := positions (fun t => t.dFloor.isZero && decide (t.floorWhy = 0)) s.tiles
  let s' := { s with
    tiles := s.tiles.mapIdx (fun i t => s.elapseTile mv dt i t)
    boot := { s.boot with
      uptime := s.boot.uptime + dt,
      wireTime := if s.boot.cool = CoolSt.wireFault then s.boot.wireTime.addNat dt else s.boot.wireTime }
    mer := s.mer.elapse dt
    sxt := if s.sxt.locked && bit s.boot.clkRun 7 then s.sxt.elapse dt else s.sxt
    power := { s.power with
      reasons := s.power.reasons.mapIdx (fun b (d : Dur) => if bit why b then d.addNat dt else d)
      causeOr := s.power.causeOr ||| why
      dDistrust := if s.power.distrust then s.power.dDistrust.addNat dt else s.power.dDistrust }
    rck := { s.rck with
      d400 := if s.rck.course = 1 then s.rck.d400.addNat dt else s.rck.d400
      d800 := if s.rck.course = 2 then s.rck.d800.addNat dt else s.rck.d800 }
    cvy := s.cvy.elapse (decide (s.capRate < 256)) s.mer.now dt }
  s'.each (fresh.filter (fun i => !(s'.tile i).dFloor.isZero || decide ((s'.tile i).floorWhy ≠ 0)))
    (fun s i => s.raise 0x309 i 0)

/-- A command arrives `dt` mt after the one before it: what the commands of the instant before have called for is sent, time passes,
and the hails of the last command are gone. -/
def State.tick (s : State) (dt : Nat) : State :=
  let u := if dt = 0 then s else s.followSend.elapse dt
  { u with rck := { u.rck with hails := [] } }

end Sys2Proof.Machine
end

