-- ==== Sys2Proof/Machine/Mailbox.lean ====
section
/-! DEFINITION. The mailboxes of the Helm: the doorbell, the intake, the common checks of a request, its answer and its
publication, and what a restart does to commands in hand (13 R318; 14 R329 to R331, R429). -/

namespace Sys2Proof.Machine

open Sys2Proof

/-- One command of Helm firmware 4.2: its opcode, the form its request must have, who and which stage may issue it, whether
it changes a tile, a rail or a limit, the internal crossings it needs, its own form checks, and what it does. -/
structure Cmd where
  op      : Byte
  /-- the number of argument words is right (14 R328) -/
  len     : Req → Bool := fun q => q.args.isEmpty
  /-- for each argument word, the bits that its layout names -/
  masks   : List Word := []
  /-- a session may issue it (14 R331) -/
  sess    : Bool := false
  /-- admitted in ROM (13 R315) -/
  rom     : Bool := false
  /-- refused with deny 0x1 after a halt (14 R329) -/
  changes : Bool := false
  /-- internal crossings whose failure makes it return INTERNAL (12 Table 12.5) -/
  needs   : List Nat := []
  /-- range and order of the argument values, and size limits: the first two steps of R429 -/
  form    : State → Req → Option Resp := fun _ _ => none
  /-- the rules of state and permission, and the effect -/
  run     : State → Req → State × Ans

/-- Exactly n argument words. -/
def lenIs (n : Nat) (q : Req) : Bool := decide (q.args.length = n)

/-- The first argument word, from word n on, with a bit set that its mask does not name. -/
def rsvWord : Nat → List Word → List Word → Option Nat
  | n, m :: ms, w :: ws => if w &&& ~~~m = 0 then rsvWord (n + 1) ms ws else some n
  | _, _, _ => none

/-- A session handle names an open session (16 R376). -/
def State.sessOpen (s : State) (h : BitVec 3) : Bool :=
  match s.trust.sess.getD h.toNat none with
  | some x => !x.half
  | none => false

/-- The header and form checks that every request passes first (13 R318, 14 R429 step 1). -/
def Cmd.formFail (c : Cmd) (s : State) (q : Req) : Option Resp :=
  if q.rsv ≠ 0 || !c.len q then some (badArgR 0)
  else match rsvWord 1 c.masks q.args with
    | some n => some (badArgR n)
    | none => c.form s q

/-- The common refusals of state and permission, in rung order: a halt, then stage and session (13 R315, R318; 14 R331),
then a failed crossing. `inSess`: the request came inside a session's vendor-defined message, the one way in which a session
issues a command other than 0xB0 (16 R376). -/
def Cmd.gateFail (c : Cmd) (inSess : Bool) (s : State) (q : Req) : Option Resp :=
  if c.changes && s.haltedB then some haltR
  else if s.helm.stage ≠ .run && !c.rom then some (notPermR 0xA { item := 0x0C, idx := s.helm.stage.code })
  else if q.sess ≠ 0 && !(c.sess && s.sessOpen q.sess && (inSess || c.op = 0xB0)) then some (notPermR 0xA {})
  else if c.needs.any (fun x => (s.xings.main.getD x {}).failed) then some (internalR 4)
  else none

/-- What the Helm answers to a request. -/
def Cmd.handle (c : Cmd) (inSess : Bool) (s : State) (q : Req) : State × Ans :=
  match c.formFail s q with
  | some r => (s, .final r)
  | none =>
    match c.gateFail inSess s q with
    | some r => (s, .final r)
    | none => c.run s q

/-- The answer to an opcode that is no command of firmware 4.2 (13 R318). -/
def unknownOp (s : State) : State × Ans := (s, .final (badArgR 0))

/-! ## Publication (13 R324, R326; 12 R309, R312) -/

/-- Crossing 2 delivers: the control port is out of reset, its clock runs and the crossing is not stale. -/
def State.ctlUp (s : State) : Bool :=
  !s.ctl.rst && bit s.boot.clkRun 0 && !(s.xings.main.getD 2 {}).stale

/-- The ctl side takes the Helm's snapshot of one mailbox; entry to DONE sets its interrupt cause through crossing 3 (13 R324). -/
def State.publish (s : State) (n : BitVec 3) : State :=
  if !s.ctlUp then s.modMbx n (fun m => { m with unsent := true }) else
  let m := s.mbx n
  let s := s.modMbx n (fun m => { m with st := m.held, resp := m.heldResp, unsent := false })
  if m.held = .done && s.xingOk 3 then { s with ctl := { s.ctl with done := s.ctl.done ||| BitVec.ofNat 8 (1 <<< n.toNat) } } else s

/-- The opcode and tag of the command a mailbox holds. -/
def Mbx.op (m : Mbx) : Byte := BitVec.ofNat 8 (fld (m.cmd.getD 0 0) 0 8)
def Mbx.tag (m : Mbx) : Byte := BitVec.ofNat 8 (fld (m.cmd.getD 0 0) 8 8)

/-- The final status of a mailbox's command is written: DONE (13 R319). -/
def State.finish (s : State) (n : BitVec 3) (r : Resp) : State :=
  let s := s.modMbx n (fun m => { m with
    held := .done, heldResp := area16 (respHeader m.op m.tag r :: r.words), final := none, wait := .none })
  s.publish n

/-- As `finish`, for a command whose mailbox may not be there. -/
def State.finishO (s : State) (o : Option (BitVec 3)) (r : Resp) : State :=
  match o with
  | some n => s.finish n r
  | none => s

/-- A command answers ACCEPTED with results (13 R319). -/
def State.accept (s : State) (n : BitVec 3) (ws : List Word) : State :=
  let s := s.modMbx n (fun m => { m with
    held := .accepted, heldResp := area16 (respHeader m.op m.tag { status := stAccepted, deny := 0, words := ws } :: ws) })
  s.publish n

/-- The bound of an ACCEPTED command is settled: its final answer is `r` and waits to be written (14 R329). -/
def State.settle (s : State) (n : BitVec 3) (r : Resp) : State :=
  if (s.mbx n).held = .accepted then s.modMbx n (fun m => { m with final := some r }) else s

/-- As `settle`, for a mailbox that may not be there. -/
def State.settleO (s : State) (o : Option (BitVec 3)) (r : Resp) : State :=
  match o with
  | some n => s.settle n r
  | none => s

/-- The Helm's answer to the command a mailbox holds. -/
def State.answer (s : State) (n : BitVec 3) (a : Ans) : State :=
  match a with
  | .final r => s.finish n r
  | .accepted ws => s.accept n ws

/-! ## Doorbells (13 R319 to R323) -/

/-- Hardware BUSY: the mailbox goes to DONE in the ctl domain, and the doorbell does not reach the Helm; crossing 2 brings the answer and
crossing 3 its cause, while they are not stale (13 R321; 12 R312). -/
def State.hwBusy (s : State) (n : BitVec 3) (words : List Word) (why reopen : Nat) : State :=
  let r : Resp := { status := stBusy, deny := 0, words := [w32 (pack [(0, 2, why), (16, 16, reopen)])] }
  let op : Byte := BitVec.ofNat 8 (fld (words.getD 0 0) 0 8)
  let tag : Byte := BitVec.ofNat 8 (fld (words.getD 0 0) 8 8)
  let s := if s.xingOk 2 then s.modMbx n (fun m => { m with st := .done, resp := area16 (respHeader op tag r :: r.words) }) else s
  let done := if s.xingOk 2 && s.xingOk 3 then s.ctl.done ||| BitVec.ofNat 8 (1 <<< n.toNat) else s.ctl.done
  { s with ctl := { s.ctl with busy := satInc s.ctl.busy, done := done } }

/-- The mailbox's command is still in hand, on either side of crossing 2. -/
def Mbx.inHand (m : Mbx) : Bool :=
  decide (m.st = .posted) || decide (m.st = .accepted) || decide (m.held = .posted) || decide (m.held = .accepted)

/-- Whether a doorbell enters the intake now, and if not why: 1 queue full, 2 intake closed, 3 no stage that admits
commands; 4: the mailbox is still in hand; 5: its crossing is stale and it is lost (12 R312; 13 R320, R321). -/
def State.bellFail (s : State) (n : BitVec 3) : Option Nat :=
  if (s.mbx n).inHand then some 4
  else if [0, 1].any (fun x => (s.xings.main.getD x {}).stale) then some 5
  else if !(s.helm.stage = .run || s.helm.stage = .rom) then some 3
  else if !s.helm.open_ then some 2
  else if s.helm.queue.length ≥ 4 then some 1
  else none

/-- A doorbell of mailbox n with the words its request area holds: it enters the intake queue, is answered BUSY, or is
discarded as misuse (13 R319 to R321). -/
def State.bell (s : State) (n : BitVec 3) : State :=
  match s.bellFail n with
  | none =>
    let s := s.modMbx n (fun m => { m with st := .posted, held := .posted, cmd := m.reqArea, final := none, wait := .none })
    { s with helm := { s.helm with queue := s.helm.queue ++ [n] } }
  | some 4 =>
    let s := s.modMbx n (fun m => { m with misuse := satInc m.misuse })
    { s with ctl := { s.ctl with misuse := true } }
  | some 5 => s
  | some why => s.hwBusy n (s.mbx n).reqArea why (if why = 2 then s.helm.reopen.toNat else 0)

/-- The host writes a request into a mailbox's area: the argument words, then the header (13 R319 steps 1 and 2). -/
def State.writeReq (s : State) (op : Byte) (q : Req) : State :=
  s.modMbx q.mbx (fun m => { m with
    reqArea := area16 (reqHeader op q :: (q.args ++ m.reqArea.drop (q.args.length + 1))) })

/-- The control port takes accesses: the block and the port are out of reset, and the port's clock runs. -/
def State.portUp (s : State) : Bool := !s.boot.inReset && !s.ctl.rst && bit s.boot.clkRun 0

/-- A command as host firmware posts it: it writes the area and rings. Where the intake queue was empty the Helm takes the
command within the 2 µs of R322 and answers; else it stays POSTED until its turn (HELM_INTAKE_TAKE). -/
def postCmd (c : Cmd) (dt : Nat) (q : Req) (s : State) : State :=
  let s := s.tick dt
  if !s.portUp then s else
  let idle := s.helm.queue.isEmpty
  let s := (s.writeReq c.op q).bell q.mbx
  if idle && s.helm.queue == [q.mbx] then
    let s := { s with helm := { s.helm with queue := [] } }
    let a := c.handle false s q
    a.1.answer q.mbx a.2
  else s

/-! ## A restart of the Helm (13 R316) -/

/-- No pending action answers a mailbox any more. -/
def State.dropAnswers (s : State) : State :=
  { s with
    tiles := s.tiles.map (fun t => { t with sched := t.sched.map (fun x => { x with mbx := none }) })
    domRet := s.domRet.map (fun o => o.map (fun x => (x.1, none)))
    rails := s.rails.map (fun r => { r with acting := none })
    keys := { s.keys with
      slots := s.keys.slots.map (fun k => { k with sealMbx := none, waits := [] })
      caps := s.keys.caps.map (fun c => { c with mbx := none }) }
    sxt := { s.sxt with chans := s.sxt.chans.map (fun c => { c with waits := [] }) }
    cvy := { s.cvy with joinMbx := none, leaveMbx := none, moveMbx := [] }
    rck := { s.rck with loadMbx := none, mapWaits := [] }
    log := { s.log with dumps := s.log.dumps.map (fun d => (d.1, d.2.1, none)), inbound := [] }
    tests := { s.tests with loop := none, loopOut := 0, grant := none } }

end Sys2Proof.Machine
end

