-- ==== Sys2Proof/Machine/Notice.lean ====
section
/-! DEFINITION. What a convoy member answers and holds (10): naks, catch-up eligibility, the end of membership; and the abandoning of
a tile's Reckoner events (06 R181). -/

namespace Sys2Proof.Machine

open Sys2Proof

/-! ## Reckoner events given up (06 R178, R181; 04 R114, R122) -/

/-- An event's actions at the tile end without it: its pre-stretch leaves the predicted origin and what it added counts as
cancelled-plan stretch (04 R122, 06 R178). -/
def Tile.endEvent (t : Tile) (e : Event) : Tile :=
  let t := { t with events := t.events.filter (fun x => x ≠ e), dCanc := t.dCanc.add e.added.rem }
  { t with dCanc := t.dCanc.addNat (e.added.n.toNat * 16384) }

/-- The later bound of an action that a cancel reaching the tile at `t` sets: its end, or `t` where that comes first. -/
def State.sooner (s : State) (a b : Time) : Time := if s.key a < s.key b then a else b

/-- An event is cancelled: its pre-stretch ends when the cancel has reached the tile; its dip is not started, or is slid back
with the lead of Table 4.3 (06 R178). -/
def State.killed (s : State) (arr : Time) (e : Event) : Event :=
  if e.dead then e else
  { e with
    dead := true
    preEnd := s.sooner e.preEnd arr, preDone := e.preDone || !(e.preOn || decide (s.key e.preStart < s.key arr))
    dipEnd := s.sooner e.dipEnd (arr + 1600), dipDone := e.dipDone || !(e.dipOn || decide (s.key e.dipStart ≤ s.key arr)) }

/-- The event's actions are over. -/
def State.actionsOver (s : State) (e : Event) : Bool :=
  (e.preDone || (!e.sent && s.due e.preEnd)) && (e.dipDone || (!e.sent && s.due e.dipEnd))

/-- Events that are over leave the tile; what a cancelled one had added counts as cancelled-plan stretch (04 R122). -/
def State.sweepEvents (s : State) (i : Nat) : State :=
  s.modTile i (fun t =>
    let over_ := t.events.filter (fun e => (e.dead || e.committed) && s.actionsOver e)
    (over_.filter (·.dead)).foldl Tile.endEvent { t with events := t.events.filter (fun e => !over_.contains e || e.dead) })

/-- The active oscillator is not settled yet: a free time of at most 200 µs (04 R106). -/
def State.unsettle (s : State) (i : Nat) : State :=
  let (v, s) := s.take .settle 3200001
  s.modTile i (fun t => { t with settle := v })

/-- The floor's check of what a tile holds in force, made whenever its pre-stretch or dip has changed: a clip counts once in the
tile's class (11 R292). -/
def State.recheck (s : State) (i : Nat) : State :=
  let t := s.tile i
  let raw := t.rawPlan
  if raw = (t.heldK.toNat, t.heldD.toNat) then s
  else
    let c := s.classOf i
    let clipped := decide (s.heldPlan i ≠ raw)
    let s := s.modTile i (fun t => { t with heldK := BitVec.ofNat 5 raw.1, heldD := BitVec.ofNat 16 raw.2 })
    if clipped then s.modCls c (fun x => { x with clips := satInc x.clips }) else s

/-- The plan in force follows the events: the floor checks it, and a change of the dip is a slide of a running tile (06 R177,
11 R292). -/
def State.redip (s : State) (i : Nat) : State :=
  let s := s.recheck i
  let t := s.tile i
  let d := BitVec.ofNat 16 (s.heldPlan i).2
  if d = t.dip then s
  else
    let s := s.modTile i (fun t => { t with dip := d })
    if t.st = .running then s.unsettle i else s

/-- What the Reckoner does for a tile whose events are given up: counts, one wildcard cancel where an intent was pending. -/
def State.countAbandon (s : State) (i : Nat) : State :=
  let ev := (s.tile i).pendingEvents
  let r := { s.rck with evAband := satAdd s.rck.evAband ev.length }
  { s with
    rck := if ev.any (fun e => e.intent && !e.committed) then { r with
      wilds := satInc r.wilds, hails := r.hails ++ [{ tile := BitVec.ofNat 8 i, kind := 3, ofs := 0 }] } else r }

/-- Every event of a tile whose clock stops is abandoned, its actions ended with the clock (06 R181). -/
def State.abandon (s : State) (i : Nat) : State :=
  if (s.tile i).events.isEmpty then s else
  (s.countAbandon i).modTile i (fun t =>
    { (t.events.foldl Tile.endEvent t) with dip := 0, heldK := 0, heldD := 0 })

/-- Every event of a tile whose clock goes on is abandoned: its actions end as those of a cancelled event (06 R181, R178). -/
def State.abandonRun (s : State) (i : Nat) : State :=
  if (s.tile i).events.isEmpty then s else
  let s := s.countAbandon i
  let (v, s) := s.take .latency 1121
  let arr := s.mer.now + BitVec.ofNat 64 v
  (((s.modTile i (fun t => { t with events := t.events.map (s.killed arr) })).redip i)).sweepEvents i

/-- Every delayed-scaling history ring of every class is cleared; the course under way leaves no entry either (07 R202). -/
def State.clearHistory (s : State) : State :=
  { s with rck := { s.rck with classes := s.rck.classes.map (fun c =>
      { c with tensors := c.tensors.map (fun t => { t with ring := List.replicate 16 none, cAmax := none }) }) } }

/-- The Reckoner enters WARMUP for 16 courses; leaving ACTIVE abandons every event (06 R159, R181). -/
def State.enterWarmup (s : State) : State :=
  let go (s : State) (m : RckMode) : State :=
    { s with rck := { s.rck with mode := .warmup, warm := 16, endMode := m, warmups := satInc s.rck.warmups } }
  match s.rck.mode with
  | .active => go (s.each allTiles State.abandonRun) .active
  | .advisory => go s .advisory
  | .warmup => go s s.rck.endMode
  | _ => s

/-! ## Naks and the end of membership (10 R271, R276, R277, R283) -/

/-- A nak of a move: its reason, with the keystone cause for 1 and the staging status for 2 (10 Table 10.4). -/
def State.sendNak (s : State) (reason cause status : Nat) (mseq : Word) (t : Time) : State :=
  let s := { s with cvy := { s.cvy with cNaks := s.cvy.cNaks.modify (reason - 1) satInc } }
  s.sendNotice 3 t.toNat (pack [(0, 4, reason), (4, 4, cause), (8, 8, status), (16, 32, mseq.toNat)]) none false

/-- A move did not commit here: the member is out of step and may catch up (10 R277). -/
def State.outOfStep (s : State) (mseq : Word) (retry : Bool) : State :=
  let s := { s with cvy := { s.cvy with oos := true, retry := retry } }
  s.raise0 0x801 mseq.toNat

/-- The words of a tile's policy are the mirror's: its code. A released tile of a convoy takes the convoy code (10 R269). -/
def State.ownsCode (s : State) (i : Nat) : Bool := s.member && s.adaptive i

/-- Membership ends: leases and the follow rate go, a queued move is withdrawn and counted, every field of the membership is as
at reset and the state is NONE (10 R271, R283, R284). -/
def State.cvyEnd (s : State) : State :=
  let c := s.cvy
  { s with
      cvy := { c with
      st := .none, join := 0, tag := 0, code := 0, lastSeq := 0, joinAt := 0, leases := [], rate := 256, localQ := 256,
      localWhy := 0, queued := none, oos := false, retry := false, latest := none, seen := [], joinMbx := none, leaveAt := none,
      leaveMbx := none, nextSeq := 1, moveMbx := [], lastOwn := none, owe := none, cWith := satAdd c.cWith c.queued.toList.length } }

end Sys2Proof.Machine
end

