-- ==== Sys2Proof/Machine/Expect.lean ====
section
/-! DEFINITION. Expected state and the rules that judge a change of a tile, a rail or a limit before it is scheduled or
staged (04 R105, R110 to R112, R121, R128, R134, R428; 05 R142; 08 R216 to R218, R221; 11 R294, R295). -/

namespace Sys2Proof.Machine

open Sys2Proof

/-- A change of a tile that a command schedules or a keystone stages (08 Table 8.2). -/
inductive TChg where
  | code (c : Nat)
  | enable | disable | gate | ungate | swap
  | policy (w : BitVec 64)
  | plumb (w : BitVec 64)
  | droop (w : BitVec 64)
deriving DecidableEq, Repr

/-- What is expected of a tile at an instant (08 R218). -/
structure Exp where
  code  : Nat
  /-- the code from which a slide is measured: the running code while a dip is in force (Table 4.10) -/
  run   : Nat
  rlim  : Nat
  plim  : Nat
  soft  : Bool
  pw    : BitVec 64
  dw    : BitVec 64
  st    : GenSt
deriving DecidableEq, Repr

/-- Fields of a keystone action record (08 Table 8.1). -/
def actKind (a : BitVec 128) : Nat := fld a 0 4
def actTarget (a : BitVec 128) : Nat := fld a 4 8
def actRsv (a : BitVec 128) : Nat := fld a 12 52
def actValue (a : BitVec 128) : Nat := fld a 64 64

/-- The tile change that an action record carries. -/
def actChg (a : BitVec 128) : Option TChg :=
  match actKind a with
  | 1 => some (.code (actValue a))
  | 2 => some .enable
  | 3 => some .disable
  | 4 => some .gate
  | 5 => some .ungate
  | 6 => some .swap
  | 7 => some (.policy (BitVec.ofNat 64 (actValue a)))
  | 8 => some (.plumb (BitVec.ofNat 64 (actValue a)))
  | 9 => some (.droop (BitVec.ofNat 64 (actValue a)))
  | _ => none

/-- The generator state that counts for R428: STARTING as RUNNING, DOMAIN_OFF as the state it returns to. -/
def Tile.countsAs (t : Tile) : GenSt :=
  match t.st with
  | .starting => .running
  | .domainOff => if t.recEn then .running else t.ret
  | x => x

/-- Table 4.6a: the state after a state action, or none where it is refused. -/
def stateAfter (st : GenSt) : TChg → Option GenSt
  | .enable => if st = .gated then none else some .running
  | .disable => some .disabled
  | .gate => if st = .disabled then none else some .gated
  | .ungate => if st = .disabled then none else some .running
  | .swap => if st = .disabled then none else some st
  | _ => some st

/-- The expected state with one change applied. -/
def Exp.apply (e : Exp) : TChg → Exp
  | .code c => { e with code := c, run := if c = e.code then e.run else c }
  | .policy w => { e with
      code := fld w 0 16, run := if fld w 0 16 = e.code then e.run else fld w 0 16, rlim := fld w 16 5, plim := fld w 21 5, soft := bit w 26 }
  | .plumb w => { e with pw := w }
  | .droop w => { e with dw := w }
  | .swap => e
  | .enable => { e with st := (stateAfter e.st .enable).getD e.st }
  | .disable => { e with st := .disabled }
  | .gate => { e with st := (stateAfter e.st .gate).getD e.st }
  | .ungate => { e with st := (stateAfter e.st .ungate).getD e.st }

/-- The committed state of a tile. -/
def Tile.exp (t : Tile) : Exp :=
  {
    code := t.code.toNat, run := if t.dip = 0 then t.code.toNat else t.runCode.toNat - t.dip.toNat, rlim := t.reactLim.toNat, plim := t.planLim.toNat, soft := t.softStart, pw := t.plumbW, dw := t.droopW,
    st := t.countsAs }

/-- A scheduled entry moves the code or swaps the oscillators. -/
def Sched.moves (x : Sched) : Bool :=
  match x.act with
  | .code _ => true
  | .swap => true
  | _ => false

/-- The change of a scheduled entry. -/
def SchedAct.chg : SchedAct → TChg
  | .code c => .code c.toNat
  | .enable => .enable
  | .disable => .disable
  | .gate => .gate
  | .ungate => .ungate
  | .swap => .swap

/-- Insert by instant, after those of the same instant. -/
def insertAt {α : Type} (key : α → Nat) (x : α) : List α → List α
  | [] => [x]
  | y :: r => if key x < key y then x :: y :: r else y :: insertAt key x r

/-- Sort by instant, keeping the order of equals. -/
def sortAt {α : Type} (key : α → Nat) (l : List α) : List α := l.foldl (fun acc x => insertAt key x acc) []

/-- A slot holds a keystone that is open or sealed. -/
def Slot.live (k : Slot) : Bool := decide (k.st = .opened) || decide (k.st = .sealed)

/-- The changes of tile i that scheduled commands and open keystones other than slot `own` hold, with the keys of their instants. -/
def State.changesOf (s : State) (i : Nat) (own : Option Nat) : List (Nat × TChg) :=
  let t := s.tile i
  let sch := (t.sched.filter (fun x => !x.auto)).map (fun x => (s.key x.at_, x.act.chg))
  let ks := ((enumFrom' 0 s.keys.slots).filter (fun p => p.2.live && own != some p.1)).flatMap (fun p =>
    (p.2.acts.filter (fun a => decide (actTarget a = i))).filterMap (fun a => (actChg a).map (fun c => (s.key p.2.t, c))))
  sortAt (·.1) (sch ++ ks)

/-- The expected state of tile i at the instant of key `at_`, with more changes applied last (08 R218). -/
def State.expAt (s : State) (i at_ : Nat) (own : Option Nat) (more : List TChg) : Exp :=
  let e := ((s.changesOf i own).filter (fun c => decide (c.1 < at_))).foldl (fun e c => e.apply c.2) (s.tile i).exp
  more.foldl Exp.apply e

/-- Whether a change asks a new code of a tile expected in `e`. -/
def newCode (e : Exp) : TChg → Option Nat
  | .code c => if c = e.code then none else some c
  | .policy w => if fld w 0 16 = e.code then none else some (fld w 0 16)
  | _ => none

/-- The move from code c to c' lies within slide reach (04 R111). -/
def slideReach (c c' : Nat) : Bool := decide (c' - c ≤ c / 8) && decide (c - c' ≤ c / 8)

/-- A code is reached by a slide: from the expected code, or from what runs under a dip in force (04 R111, Table 4.10). -/
def Exp.slides (e : Exp) (c : Nat) : Bool := slideReach e.code c || slideReach e.run c

/-- A change that retunes the standby: a calibration swap, or a move beyond slide reach (04 R111, R117). -/
def isHandover (e : Exp) (c : TChg) : Bool :=
  match c with
  | .swap => true
  | c => match newCode e c with
    | some n => decide (e.code ≠ 0) && !e.slides n
    | none => false

/-- The minimum lead of a tile change (04 Table 4.3, 08 Table 8.2). -/
def leadOf (e : Exp) (c : TChg) : Nat := if isHandover e c || c = .enable then 1024000 else 1600

/-- The class limit of `react_lim` (04 R120). -/
def classLim (cls : Nat) : Nat := if cls = 1 then 16 else if cls = 3 then 8 else 0

/-- The order of R429 and R295 among several refusals: BAD_ARG, then TOO_LARGE, then the highest refusing rung. -/
def respRank (r : Resp) : Nat :=
  if r.status = stBadArg then 0 else if r.status = stTooLarge then 1 else if r.deny = 0 then 2 else 2 + r.deny.toNat

/-- The refusal that decides, if any. -/
def pickR (l : List Resp) : Option Resp :=
  l.foldl (fun m r => match m with
    | none => some r
    | some x => if respRank r < respRank x then some r else some x) none

/-- A refusal naming a tile. -/
def tileR (st : Byte) (deny : BitVec 4) (i : Nat) : Resp := refR st deny { item := 2, idx := i }
def tileBad (i : Nat) : Resp := tileR stBadArg 0 i

/-- Refusals of a code request (04 R105, R110, R111; 01 R27, R29; 11 R294; 10 R269). `moves` are the instants of the tile's
other moves; a slide within reach of the code alone and not of the dip in force is refused when it is new: at staging (Table 4.10,
08 R218; log 99). -/
def State.codeErrs (s : State) (i at_ : Nat) (e : Exp) (c : Nat) (new : Bool) (moves : List Nat) : List Resp :=
  let t := s.tile i
  (if c < 2560 || c > 40960 then [tileBad i] else []) ++
  (if c > (s.chart i).maxCode.toNat then [tileR stChart 5 i] else []) ++
  (if !s.steady i && decide (c > t.learn.toNat) then [tileR stChart 7 i] else []) ++
  (if s.steady i && decide (e.st = .running) && decide (e.code ≠ 0) then [tileR stNotPermitted 8 i] else []) ++
  (if s.service i && decide (e.code ≠ 0) &&
      (!e.slides c || moves.any (fun m => decide (m < at_ + 16000000) && decide (at_ < m + 16000000)))
    then [tileR stNotPermitted 8 i] else []) ++
  (if decide (e.code ≠ 0) && !e.slides c && (t.failA || t.failB) then [tileR stNotPermitted 0xA i] else []) ++
  (if new && decide (e.code ≠ 0) && slideReach e.code c && !slideReach e.run c then [tileR stNotPermitted 0xA i] else [])

/-- The refusal of a change to a code that a convoy owns: of every one but a policy word that carries the convoy code (10 R269). -/
def State.ownErr (s : State) (i : Nat) (convoy refused : Bool) : List Resp :=
  if s.ownsCode i && !convoy && refused then [tileR stNotPermitted 9 i] else []

/-- Refusals of a policy word (04 R121, R134). -/
def State.policyErrs (s : State) (i : Nat) (e : Exp) (w : BitVec 64) : List Resp :=
  let c := fld w 0 16
  let rl := fld w 16 5
  let pl := fld w 21 5
  let head := (s.chart i).head.toNat
  let cl := s.clsOf i
  (if fld w 27 37 ≠ 0 || (c = 0 && e.code ≠ 0) then [tileBad i] else []) ++
  (if rl < pl + head then [tileR stChart 5 i] else []) ++
  (if rl > classLim cl || (cl ≠ 2 && rl < 2) || (cl = 2 && pl ≠ 0) || pl > rl then [tileR stNotPermitted 8 i] else [])

/-- Refusals of a plumb word for a tile class (05 R142). -/
def plumbErrs (cls i : Nat) (w : BitVec 64) : List Resp :=
  let ps := [0, 1, 2, 3]
  let near := ps.filter (fun p => plumbEn w p && decide (plumbThr w p ≤ 40))
  let on := ps.filter (fun p => plumbEn w p)
  (if ps.any (fun p => decide (plumbRsv w p ≠ 0) || decide (plumbStr w p < 2) || decide (plumbStr w p > 16))
    then [tileBad i] else []) ++
  (if (cls = 2 && on.isEmpty) || (cls ≠ 2 && near.length < 2) then [tileR stNotPermitted 0xA i] else [])

/-- Refusals of a droop word (05 R142). -/
def droopErrs (i : Nat) (w : BitVec 64) : List Resp :=
  if fld w 27 37 ≠ 0 || droopHold w < 8 || droopShiftQ w = 0 || droopShiftQ w > 256 || droopThermSet w < 85 ||
    droopThermSet w > 105 then [tileBad i] else []

/-- Refusals of a state action or a swap by command (`byCmd`) or keystone (04 R110, R128, R428; 09 R237, R253, R260; 02 R63). -/
def State.stateErrs (s : State) (i : Nat) (e : Exp) (c : TChg) (byCmd : Bool) : List Resp :=
  let t := s.tile i
  let starts := (c = .enable && decide (e.st = .disabled)) || (c = .ungate && decide (e.st = .gated))
  (if (stateAfter e.st c).isNone then [tileR stNotPermitted 0xA i] else []) ++
  (if c = .swap && (t.failA || t.failB) then [tileR stNotPermitted 0xA i] else []) ++
  (if starts && s.steady i && decide (e.code > (s.chart i).maxCode.toNat) then [tileR stChart 5 i] else []) ++
  (if c = .enable && decide (e.st = .disabled) then
    (if e.code = 0 then [tileBad i] else []) ++
    (if s.schedulable then [] else [noRefR]) ++
    (if s.boot.flowOnce then [] else [notPermR 4 { item := 0x0B, aux := 0 }]) ++
    (if byCmd && s.safeFloor then [notPermR 3 { item := 0x0B, aux := 0 }] else []) ++
    (if (s.rail (s.railOf i)).active then [] else [notPermR 0xA { item := 3, idx := s.railOf i }])
   else [])

/-- A QUIESCE grant covers a tile: it takes no enable and no ungate (14 R343). -/
def State.granted (s : State) (i : Nat) : Bool :=
  match s.tests.grant with
  | some g => bit g.groups (i / 32)
  | none => false

/-- The refusal that a QUIESCE grant gives: it names the first test that still has to run on the resource (14 R343). -/
def State.grantR (s : State) (p : Test → Bool) : Resp :=
  let ids := (s.tests.list.reverse.filter (fun t => t.res == 0 && p t)).map (fun t => t.id.toNat)
  notPermR 0xA { item := 0x11, idx := ids.headD 0 }

/-- The refusal of an enable or an ungate under a grant. -/
def State.grantTileR (s : State) (i : Nat) : Resp :=
  s.grantR (fun t => decide (0x12 ≤ t.id.toNat) && decide (t.target.toNat = i / 32))

/-- Every refusal of one change of tile i for an instant, judged on the expected state; the lead counts from `base`. -/
def State.tileErrs (s : State) (base i at_ : Nat) (e : Exp) (c : TChg) (byCmd convoy : Bool) (moves : List Nat) : List Resp :=
  if !s.present i then [tileBad i] else
  (if at_ < base + leadOf e c then [tileBad i] else []) ++
  (if (s.tile i).fenced || decide ((s.tile i).cause ≠ 0) then [fencedR i] else []) ++
  (if (c = .enable || c = .ungate) && s.granted i then [s.grantTileR i] else []) ++
  (match c with
   | .code n =>
      if n = e.code then (if n < 2560 || n > 40960 then [tileBad i] else [])
      else s.codeErrs i at_ e n (decide (base ≠ 0)) moves ++ s.ownErr i convoy true
   | .policy w => s.policyErrs i e w ++
      (match newCode e c with
       | some n => if n = 0 then [] else
          s.codeErrs i at_ e n (decide (base ≠ 0)) moves ++ s.ownErr i convoy (decide (n ≠ s.cvy.code.toNat))
       | none => [])
   | .plumb w => plumbErrs (s.clsOf i) i w
   | .droop w => droopErrs i w
   | c => s.stateErrs i e c byCmd)

/-- Whether a change of a tile sets or retunes its code: the first group of R217. -/
def setsCode (e : Exp) : TChg → Bool
  | .code _ => true
  | .swap => true
  | c => (newCode e c).isSome

/-- The groups of R217 that a change belongs to. -/
def groupsOf (e : Exp) (c : TChg) : List Nat :=
  (if setsCode e c then [0] else []) ++
  (match c with
   | .enable | .disable | .gate | .ungate => [1]
   | .policy _ => [2]
   | .plumb _ => [3]
   | .droop _ => [4]
   | _ => [])

/-- The instants at which code moves of tile i are pending or were last taken, other than by slot `own` (01 R27). -/
def State.moveTimes (s : State) (i : Nat) (own : Option Nat) : List Nat :=
  ((s.changesOf i own).filter (fun c => match c.2 with
    | .code _ => true
    | .policy w => decide (fld w 0 16 ≠ (s.tile i).code.toNat)
    | _ => false)).map (·.1) ++ ((s.tile i).movedAt.map s.key).toList

/-- A rail's chart maximum in mV (09 R238). -/
def State.railMax (s : State) (r : Nat) : Nat :=
  let on := allTiles.filter (fun i => s.present i && s.railOf i == r)
  let v (k : Nat) : Nat := (s.trust.charts.getD k {}).vmax.toNat
  if on.isEmpty then min (v 0) (min (v 1) (v 2)) else minOr 1023 (on.map (fun i => v (s.clsOf i - 1)))

/-- The chart's ceiling of a power limit: the least over the classes of the present tiles (09 R243, 16 R382). -/
def State.ceiling (s : State) (which : Nat) : Nat :=
  let v (k : Nat) : Nat := let c := s.trust.charts.getD k {}
    (if which = 0 then c.peak else if which = 1 then c.burst else c.sus).toNat
  let cl := [1, 2, 3].filter (fun k => allTiles.any (fun i => s.clsOf i == k))
  if cl.isEmpty then min (v 0) (min (v 1) (v 2)) else minOr (2 ^ 32) (cl.map (fun k => v (k - 1)))

/-- The expected value of a rail set point, a power limit or `host_q` at an instant, from open keystones (08 R218). -/
def State.expVal (s : State) (kind tgt at_ : Nat) (own : Option Nat) (cur : Nat) : Nat :=
  let ks := ((enumFrom' 0 s.keys.slots).filter (fun p => p.2.live && own != some p.1 && decide (s.key p.2.t < at_))).flatMap
    (fun p => (p.2.acts.filter (fun a => decide (actKind a = kind) && decide (actTarget a = tgt))).map
      (fun a => (s.key p.2.t, actValue a)))
  (sortAt (·.1) ks).foldl (fun _ x => x.2) cur

end Sys2Proof.Machine
end

