-- ==== Sys2Proof/Machine/Resolve.lean ====
section
/-! DEFINITION. How keystones resolve and what ends them: validation of an action, abort, revalidation, commit at the launch
edge, fencing and the halt (08; 17 R395 to R398; 09 R261; 05 R153). -/

namespace Sys2Proof.Machine

open Sys2Proof

/-! ## Validation of one action (08 R216, R217, R221) -/

/-- The record fits Tables 8.1 and 8.2. -/
def actForm (a : BitVec 128) : Bool :=
  let v := actValue a
  let t := actTarget a
  actRsv a == 0 && (match actKind a with
  | 1 => decide (v < 65536)
  | 2 | 3 | 4 | 5 | 6 => v == 0
  | 7 | 8 | 9 => true
  | 10 => decide (t < 8) && decide (500 ≤ v) && decide (v ≤ 950)
  | 11 => decide (t < 3) && decide (v < 2 ^ 32)
  | 12 => t == 0 && decide (1 ≤ v) && decide (v ≤ 192)
  | _ => false)

/-- The kind of target an action names: 0 tile, 1 rail, 2 limit, 3 host throttle rate. -/
def actScope (a : BitVec 128) : Nat :=
  if actKind a ≤ 9 then 0 else actKind a - 9

def sameTarget (a b : BitVec 128) : Bool := actScope a == actScope b && actTarget a == actTarget b

/-- The changes of tile i that a list of actions carries, in order. -/
def chgsOn (i : Nat) (l : List (BitVec 128)) : List TChg :=
  (l.filter (fun a => decide (actScope a = 0) && decide (actTarget a = i))).filterMap actChg

/-- The groups of R217 that changes of one tile take in turn, each judged on the state expected after those before it (R218). -/
def groupsIn : Exp → List TChg → List Nat
  | _, [] => []
  | e, c :: r => groupsOf e c ++ groupsIn (e.apply c) r

/-- An action meets another of its target and group: of the same keystone before it, of another keystone with the same T, or a move
or swap that a command has scheduled for T (08 R217, 04 Table 4.10). -/
def State.actClash (s : State) (k T : Nat) (prior : List (BitVec 128)) (a : BitVec 128) : Bool :=
  let i := actTarget a
  let others := (((enumFrom' 0 s.keys.slots).filter (fun p => p.2.live && p.1 != k && decide (s.key p.2.t = T))).map (fun p => p.2.acts))
  match actChg a with
  | some c =>
    let e0 := s.expAt i T (some k) []
    let mine := chgsOn i prior
    let gs := groupsOf (mine.foldl Exp.apply e0) c
    (prior :: others).any (fun l => (groupsIn e0 (chgsOn i l)).any gs.contains) ||
    (gs.contains 0 && (s.tile i).sched.any (fun x => decide (s.key x.at_ = T) && !x.auto && x.moves))
  | none => (prior :: others).any (fun l => l.any (fun b => sameTarget a b))

/-- The lead of a rail action: longer on a faulted link (08 Table 8.2). -/
def State.railLead (s : State) (r : Nat) : Nat := if bit s.power.avsBad (linkOf r) then 20000000 else 4000000

/-- Refusals of a power limit against the ceiling and the other limits (09 R243). -/
def State.limitErrs (s : State) (which v : Nat) (lims : List Nat) : List Resp :=
  (if (which = 0 && v < 10000) || (which = 1 && v > lims.getD 0 0) || (which = 2 && v > lims.getD 1 0)
    then [refR stBadArg 0 { item := 0x0E, idx := which }] else []) ++
  (if v > s.ceiling which then [chartR 5 { item := 0x0E, idx := which }] else [])

/-- Every refusal of an action of slot k whose instant has key T, after the actions `prior` of the same keystone. -/
def State.actErrs (s : State) (base k T : Nat) (prior : List (BitVec 128)) (convoy : Bool) (a : BitVec 128) : List Resp :=
  if !actForm a then [refR stBadArg 0 {}] else
  let i := actTarget a
  (if s.actClash k T prior a then [refR stBadArg 0 {}] else []) ++ (match actChg a with
  | some c =>
    s.tileErrs base i T (s.expAt i T (some k) (chgsOn i prior)) c false convoy (s.moveTimes i (some k))
  | none =>
    let v := actValue a
    if actKind a = 10 then
      (if T < base + s.railLead i then [refR stBadArg 0 {}] else []) ++
      (if v > s.railMax i then [chartR 5 { item := 3, idx := i }] else []) ++
      (if (s.rail i).active then [] else [notPermR 0xA { item := 3, idx := i }])
    else if T < base + 1600 then [refR stBadArg 0 {}]
    else if actKind a = 11 then
      let own (w cur : Nat) : Nat := (prior.filter (fun b => decide (actKind b = 11) && decide (actTarget b = w))).foldl
        (fun _ b => actValue b) cur
      let lim (w : Nat) : Nat := own w (s.expVal 11 w T (some k) (s.power.limits.getD w 0).toNat)
      s.limitErrs i v [lim 0, lim 1, lim 2]
    else [])

/-- The first action of a list that fails, with its index and the refusal that decides. -/
def State.firstFail (s : State) (base k T : Nat) (convoy : Bool) : Nat → List (BitVec 128) → List (BitVec 128) →
    Option (Nat × BitVec 128 × Resp)
  | _, _, [] => none
  | n, prior, a :: r =>
    match pickR (s.actErrs base k T prior convoy a) with
    | some x => some (n, a, x)
    | none => s.firstFail base k T convoy (n + 1) (prior ++ [a]) r

/-! ## Results (08 R233) -/

/-- The keystone result record of Table 8.4. -/
def KsRes.record (r : KsRes) : Nat :=
  pack [(0, 32, r.seq.toNat), (32, 2, r.slot.toNat), (34, 3, r.st.code), (37, 4, r.cause.toNat), (41, 1, b2n r.convoy),
    (48, 10, r.nAct), (64, 64, r.t.toNat), (128, 10, r.failIdx.toNat), (138, 8, r.failTgt.toNat), (146, 9, r.late.toNat)]

def KsRes.words (r : KsRes) : List Word := wordsOf 6 r.record

/-- ABORTED with a result record in words 1–6 (14 R330). -/
def abortedR (r : KsRes) : Resp := { status := stAborted, deny := 0, words := r.words }

/-- ABORTED for a swap that no keystone carried: a record whose `ks_seq` is 0 and cause handover (14 0x24). -/
def missedSwapR (t : Time) : Resp :=
  abortedR { seq := 0, slot := 0, st := .aborted, cause := 8, convoy := false, nAct := 0, t := t }

/-- A keystone resolves: its record is kept among the last 16, logged, and answered to those who wait (08 R233). -/
def State.resolve (s : State) (k : Nat) (r : KsRes) : State :=
  let w := (s.slot k).waits
  let s := { s with keys := { s.keys with results := (r :: s.keys.results).take 16 } }
  let s := s.logPacket 2 k 1 s.mer.now (flitsOf 3 r.record)
  s.each w (fun s m => s.settle m (if r.st = .committed then okR r.words else abortedR r))

/-- The result record of slot k as it stands. -/
def Slot.res (x : Slot) (k : Nat) (st : KsSt) (cause : Nat) (fail : Option (Nat × Nat)) : KsRes :=
  {
    seq := x.seq, slot := BitVec.ofNat 2 k, st := st, cause := BitVec.ofNat 4 cause, convoy := decide (x.kind ≠ .host),
    nAct := x.acts.length, t := x.t,
    failIdx := match fail with | some f => BitVec.ofNat 10 f.1 | none => 0x3FF
    failTgt := match fail with | some f => BitVec.ofNat 8 f.2 | none => 0 }

/-- A pending move at the pilot is answered (10 R275). -/
def State.settleMove (s : State) (mseq : Word) (r : Resp) : State :=
  let ms := s.cvy.moveMbx.filter (fun x => x.1 == mseq)
  let s := { s with cvy := { s.cvy with moveMbx := s.cvy.moveMbx.filter (fun x => x.1 != mseq) } }
  s.each ms (fun s x => s.settle x.2 r)

/-- What an abort of a convoy keystone means to the member (10 R268, R276, R277, R283). -/
def State.convoyAbort (s : State) (x : Slot) (cause : Nat) (r : KsRes) : State :=
  match x.kind with
  | .host => s
  | .catchUp => s
  | .join => (s.settleO s.cvy.joinMbx (abortedR r)).cvyEnd
  | .move =>
    let s := s.settleMove x.mseq (abortedR r)
    let s := if cause = 4 then s.sendNak 4 0 0 x.mseq x.t else s.sendNak 1 cause 0 x.mseq x.t
    s.outOfStep x.mseq true

/-- The keystone in slot k aborts: outcome, event, counters, the raised rails to write back, the shadows discarded, the slot
free (08 R225, R226, R231). -/
def State.abortOne (s : State) (k cause : Nat) (fail : Option (Nat × Nat)) : State :=
  let x := s.slot k
  if !x.live then s else
  let r := x.res k .aborted cause fail
  let s := s.resolve k r
  let s := s.settleO x.sealMbx (abortedR r)
  let s := { s with
    keys := { s.keys with aborted := s.keys.aborted.modify (cause - 1) satInc, freed3 := if k = 3 then s.mer.now else s.keys.freed3 }
    tiles := s.tiles.mapIdx (fun i (t : Tile) =>
      if t.hov.any (fun (h : Hov) => h.at_ = x.t) && x.acts.any (fun a => actScope a = 0 && actTarget a = i)
        && !t.sched.any (fun (e : Sched) => e.at_ = x.t && !e.ks)
      then { t with hov := none, stby := if t.stby = StbySt.off then StbySt.off else StbySt.calibrating } else t)
    rails := s.rails.mapIdx (fun i (rl : Rail) => if x.raised.any (fun y => y.toNat = i) then { rl with wback := some rl.vset, wbackAt := s.mer.now } else rl) }
  let s := s.modSlot k (fun _ => {})
  let s := s.raise 0x602 cause x.seq.toNat
  s.convoyAbort x cause r

/-- Revalidation after a change before their instants: every open keystone with T later than `t0` that names a target of
`tgts` is judged again, and aborts with cause dependency when it fails; what such an abort touches is judged in turn (R232). -/
def State.revalidate : Nat → Nat → List (Nat × Nat) → State → State
  | 0, _, _, s => s
  | n + 1, t0, tgts, s =>
    let bad := [0, 1, 2, 3].findSome? (fun k =>
      let x := s.slot k
      if x.live && decide (s.key x.t > t0) && x.acts.any (fun a => tgts.contains (actScope a, actTarget a)) then
        (s.firstFail 0 k (s.key x.t) (decide (x.kind ≠ .host)) 0 [] x.acts).map (fun f => (k, f.1, actTarget f.2.1, x))
      else none)
    match bad with
    | none => s
    | some (k, i, tg, x) =>
      (s.abortOne k 10 (some (i, tg))).revalidate n t0 (tgts ++ x.acts.map (fun a => (actScope a, actTarget a)))

/-- The keystone in slot k aborts, and what depends on it is judged again. -/
def State.abortKs (s : State) (k cause : Nat) (fail : Option (Nat × Nat)) : State :=
  let x := s.slot k
  if !x.live then s
  else (s.abortOne k cause fail).revalidate 4 (s.key x.t) (x.acts.map (fun a => (actScope a, actTarget a)))

/-- The first action of a slot that names tile i. -/
def Slot.naming (x : Slot) (i : Nat) : Option Nat :=
  ((enumFrom' 0 x.acts).find? (fun p => actScope p.2 = 0 && actTarget p.2 = i)).map (·.1)

/-- Every live keystone that names tile i aborts with a cause, naming its first action on the tile. -/
def State.abortNaming (s : State) (i cause : Nat) : State :=
  s.each [0, 1, 2, 3] (fun s k => match (s.slot k).naming i with
    | some n => s.abortKs k cause (some (n, i))
    | none => s)

/-! ## Fencing (04 R130; 17 R395 to R398, Table 17.6) -/

/-- A tile's changes that wait are given up and answered. -/
def State.dropSched (s : State) (i : Nat) (r : Resp) : State :=
  let es := (s.tile i).sched
  let s := s.modTile i (fun t => { t with sched := [], resched := [], hov := none })
  s.each es (fun s e => s.settleO e.mbx r)

/-- What leaves a generator whose clock stops for good: both oscillators stop, stretch and pulse pass clear. -/
def Tile.stopClock (t : Tile) : Tile :=
  { t with
    stby := .off, runCode := 0, dip := 0, heldK := 0, heldD := 0, start := 0, low := false, wait := {}, frame := 0, frK := 0, frPass := 0, frLen := {},
    lastK := 0, settle := 0, stbySettle := 0, actCal := false, foGap := false, hovDone := none, startPer := 0, lead := {},
    calA := false, calB := false, tapOk := none, exRun := false }

/-- Plumbs that are no longer heard. -/
def Plumb.silence (p : Plumb) : Plumb := { p with st := .idle, req := 0, cnt := 0, out := false, outMt := 0, masked := false }

/-- A plausibility check on a tile is abandoned and left to be retried (09 R250). -/
def State.dropCheck (s : State) (i : Nat) : State :=
  s.each (List.range 8) (fun s r => match (s.rail r).check with
    | some c => if c.tile.toNat = i then
        ((s.modRail r (fun x => { x with check := none, plWaitAt := none })).modChan c.ch.toNat (fun ch => { ch with owner := .none, armed := false, setup := 0 })).modPlumb
          i c.plumb.toNat (fun p => { p with masked := false })
      else s
    | none => s)

/-- Fence tile i for a cause of Table 17.5. -/
def State.fence (s : State) (i cause : Nat) : State :=
  let t := s.tile i
  if !s.present i then s
  else if t.fenced || t.st = .halted then s.modTile i (fun t => { t with fences := satInc t.fences })
  else
    let s := s.abandon i
    let s := s.dropSched i (fencedR i)
    let s := s.dropCheck i
    let s := s.modTile i (fun t => { t.stopClock with
      st := .fenced, cause := BitVec.ofNat 4 cause, fences := satInc t.fences, plumbs := t.plumbs.map Plumb.silence, ret := .disabled,
      recEn := false, window := [], stats := List.replicate 4 {}, disagree := 0, trialRun := false, mism := 0,
      trialAt := s.boot.uptime + 16000000 })
    let s := s.raise 0x401 i cause
    s.abortNaming i 2

/-! ## The halt (09 R261, Table 9.10; 05 R153; 04 R131; 10 R284) -/

/-- The outcome of a join or a move that no keystone carried to its end. -/
def convoyGone (cause : Nat) (t : Time) : Resp :=
  abortedR { seq := 0, slot := 3, st := .aborted, cause := BitVec.ofNat 4 cause, convoy := true, nAct := 0, t := t }

/-- Membership ends with a join or moves still in hand: each is answered as aborted, a leave with OK (10 R271, R284). -/
def State.cvyFinish (s : State) (cause : Nat) : State :=
  let s := s.settleO s.cvy.joinMbx (convoyGone cause s.cvy.joinAt)
  let s := s.each s.cvy.moveMbx (fun s x => s.settle x.2 (convoyGone cause s.mer.now))
  (s.settleO s.cvy.leaveMbx (okR [])).cvyEnd

/-- A leave notice (10 R271, R284). -/
def State.leaveSend (s : State) : State := s.sendNotice 4 s.nowN 0 none false

/-- Every keystone aborts, and `chip_stop_o` rises with its first cause; a member that is joining sends its leave first. -/
def State.stopping (s : State) (cause : Nat) : State :=
  let s := (if s.cvy.st = .joining then s.leaveSend else s).each [0, 1, 2, 3] (fun s k => s.abortKs k 12 none)
  { s with
      boot := { s.boot with
      chipStop := true, stopCause := if s.boot.stopCause = 0 then BitVec.ofNat 3 cause else s.boot.stopCause } }

/-- What the events of a tile apply ends with its clock; the events themselves wait for their resolution, as 06 R181 names no
halt. -/
def Tile.endActions (t : Tile) : Tile :=
  let es := (t.events.filter (fun e => e.dead || !e.committed)).map (fun e =>
    { e with preOn := false, preDone := true, dipOn := false, dipDone := true })
  (es.filter (·.dead)).foldl Tile.endEvent { t with events := es }

/-- Every present tile gives up the changes that wait there, and is HALTED. -/
def State.haltTiles (s : State) : State :=
  let s := s.each (allTiles.filter s.present) (fun s i => s.dropSched i haltR)
  { s with tiles := s.tiles.mapIdx (fun i (t : Tile) => if s.present i then { t.endActions.stopClock with st := .halted } else t) }

/-- The halt: the chip stops, its tiles with it, and membership of a convoy ends with a leave. -/
def State.halt (s : State) (cause : Nat) : State :=
  let joining := s.cvy.st = .joining
  let s := (s.stopping cause).haltTiles
  if !s.member then s else (if joining then s else s.leaveSend).cvyFinish 12

/-- A low on `thr_req_n` is confirmed: the throttle begins and is counted (02 R65, 05 R154). -/
def State.thrConfirm (s : State) : State :=
  { s with
    power := { s.power with hostQNow := if s.thrOn then s.power.hostQNow else s.power.hostQ }
    boot := { s.boot with thrPin := true, thrLow := true, thrHold := false, thrCnt := satInc s.boot.thrCnt } }

/-! ## Words taken (04 R134; 05 R143; 08 R226) -/

/-- A plumb released: it holds, from the first period that begins from now on (05 R145). -/
def Plumb.release (x : Plumb) : Plumb :=
  { x with st := if x.st = .firing then .holding else x.st, cnt := if x.st = .firing then 0 else x.cnt, out := false, outMt := 0 }

/-- A plumb under a new plumb word: one that the word disables while it fires counts as released, a new `str` acts on one that
fires or holds, and a threshold that changes holds the output for 50 ns after the changes of the `turn` plumbs before it: one plumb
at a time (05 R143, Table 5.1). -/
def Plumb.reword (x : Plumb) (old w : BitVec 64) (p turn : Nat) (steady : Bool) (upt : Nat) : Plumb :=
  let x := if x.st = .firing || x.st = .holding then { x with req := BitVec.ofNat 5 (if steady then 0 else plumbStr w p) } else x
  let x := if plumbThr w p ≠ plumbThr old p then { x with blankTill := upt + 800 * (turn + 1) } else x
  if plumbEn w p then x else x.release

/-- A plumb word is taken (05 R143). -/
def Tile.setPlumbW (t : Tile) (w : BitVec 64) (steady : Bool) (upt : Nat) : Tile :=
  let changed (p : Nat) : Bool := decide (plumbThr w p ≠ plumbThr t.plumbW p)
  { t with
    plumbW := w
    plumbs := t.plumbs.mapIdx (fun p (x : Plumb) => x.reword t.plumbW w p ((List.range p).filter changed).length steady upt) }

/-- The limits of a policy word act at once (04 R134). -/
def Tile.setLimits (t : Tile) (w : BitVec 64) : Tile :=
  { t with reactLim := BitVec.ofNat 5 (fld w 16 5), planLim := BitVec.ofNat 5 (fld w 21 5), softStart := bit w 26 }

/-- The tile's clock or its oscillators run: a code change there is a move (04 R111). -/
def Tile.live (t : Tile) : Bool := t.st = .running || t.st = .gated || t.st = .starting

/-- A new policy code reaches the tile's words; where its oscillators run, the move is left for its instant. -/
def Tile.takeCode (t : Tile) (c : Nat) (at_ : Time) : Tile :=
  let t := { t with code := BitVec.ofNat 16 c, movedAt := if t.code = 0 then t.movedAt else some at_ }
  if t.live then { t with sched := t.sched ++ [{ at_ := at_, act := .code (BitVec.ofNat 16 c), ks := true }] } else t

/-- A tile change of a committing keystone (08 R226, Table 8.2). -/
def Tile.commitChg (t : Tile) (at_ : Time) (steady : Bool) (upt : Nat) : TChg → Tile
  | .code c => if c = t.code.toNat then t else t.takeCode c at_
  | .policy w =>
    let t' := t.setLimits w
    if fld w 0 16 = t.code.toNat then t' else t'.takeCode (fld w 0 16) at_
  | .plumb w => t.setPlumbW w steady upt
  | .droop w => { t with droopW := w }
  | .enable => { t with sched := t.sched ++ [{ at_ := at_, act := .enable, ks := true }] }
  | .disable => { t with sched := t.sched ++ [{ at_ := at_, act := .disable, ks := true }] }
  | .gate => { t with sched := t.sched ++ [{ at_ := at_, act := .gate, ks := true }] }
  | .ungate => { t with sched := t.sched ++ [{ at_ := at_, act := .ungate, ks := true }] }
  | .swap => { t with sched := t.sched ++ [{ at_ := at_, act := .swap, ks := true }] }

/-- A new host throttle rate: a lowering acts, a raise waits for a throttle in force to end (05 R154). -/
def State.setHostRate (s : State) (q : Nat) : State :=
  let v := BitVec.ofNat 8 q
  { s with
      power := { s.power with
      hostQ := v, hostQNow := if !s.thrOn || v.toNat < s.power.hostQNow.toNat then v else s.power.hostQNow } }

/-- One action of a committing keystone enters the mirror (08 R224, R228). -/
def State.commitAct (s : State) (at_ : Time) (a : BitVec 128) : State :=
  match actChg a with
  | some c => (s.modTile (actTarget a) (fun t => t.commitChg at_ (s.steady (actTarget a)) s.boot.uptime c)).redip (actTarget a)
  | none =>
    let v := actValue a
    if actKind a = 10 then
      s.modRail (actTarget a) (fun r => { r with
        vset := BitVec.ofNat 12 v, vref := if v > r.vset.toNat then v else r.vref, lowerAt := at_ })
    else if actKind a = 11 then { s with power := { s.power with limits := s.power.limits.set (actTarget a) (w32 v) } }
    else s.setHostRate v

/-- What a commit of a convoy keystone means to the member (10 R268, R276, R277). -/
def State.convoyCommit (s : State) (x : Slot) : State :=
  match x.kind with
  | .host => s
  | .join => { (s.settleO s.cvy.joinMbx (okR [])) with cvy := { s.cvy with st := .active, joinMbx := none } }
  | .move =>
    let s := s.settleMove x.mseq (okR [])
    { s with cvy := { s.cvy with code := x.code, lastSeq := x.mseq, oos := false, retry := false, cMoves := satInc s.cvy.cMoves } }
  | .catchUp => { s with cvy := { s.cvy with code := x.code, lastSeq := x.mseq, oos := false, retry := false, cCatch := satInc s.cvy.cCatch } }

/-- Captures whose instant lies in the window of a commit at T are moved to T + 160 mt (08 R229). -/
def State.moveCaps (s : State) (T : Time) : State :=
  let hit (c : Capture) : Bool := decide (s.key T ≤ s.key c.at_ + 64) && decide (s.key c.at_ < s.key T + 160)
  let n := (s.keys.caps.filter hit).length
  { s with
      keys := { s.keys with
      caps := s.keys.caps.map (fun c => if hit c then { c with at_ := T + 160 } else c), moved := satAdd s.keys.moved n } }

/-- The keystone in slot k commits: every action enters the mirror on one edge, the outcome is recorded, reported and answered;
an empty keystone frees its slot at once (08 R222, R223, R226, R228, R233). -/
def State.commitKs (s : State) (k : Nat) : State :=
  let x := s.slot k
  let r := x.res k .committed 0 none
  let s := s.each x.acts (fun s a => s.commitAct x.t a)
  let s := { s with
      keys := { s.keys with
      committed := satInc s.keys.committed, recentT := x.t :: s.keys.recentT.filter (fun t => decide (nowK < s.key t + 160)) } }
  let s := s.moveCaps x.t
  let s := s.settleO x.sealMbx (okR [])
  let s := s.resolve k r
  let s := s.modSlot k (fun y => if x.acts.isEmpty then {} else { y with st := .committed, waits := [], sealMbx := none })
  let s := s.raise 0x601 k x.seq.toNat
  s.convoyCommit x

end Sys2Proof.Machine
end

