-- ==== Sys2Proof/Machine/Tiles.lean ====
section
/-! DEFINITION. The tile configuration commands, 0x20 to 0x2A (14 R335, Table 14.4; 04 R112, R117, R128 to R135, R428;
05 R141 to R143; 08 R229; 11 R293, R294). -/

namespace Sys2Proof.Machine

open Sys2Proof

/-- The tile a request names in word 1. -/
def reqTile (q : Req) : Nat := fld (q.w 1) 0 8

/-- A present tile must be named (01 R26). -/
def formPresent (s : State) (q : Req) : Option Resp :=
  if s.present (reqTile q) then none else some (tileBad (reqTile q))

/-- Only the BAD_ARG refusals of a list: step 1 of R429. -/
def badOf (l : List Resp) : Option Resp := pickR (l.filter (fun r => r.status = stBadArg))

/-- The instant in two argument words lies within the horizon (03 R77). -/
def instantBad (s : State) (q : Req) (n : Nat) : List Resp :=
  if s.inHorizon (q.w64 n) then [] else [badArgR n]

/-- A changed tile is refused while fenced (17 R398). -/
def fenceErrs (s : State) (i : Nat) : List Resp := if (s.tile i).fenced || (s.tile i).cause ≠ 0 then [fencedR i] else []

/-- Answer the refusal that decides, or go on. -/
def orElse (s : State) (l : List Resp) (ok : State × Ans) : State × Ans :=
  match pickR l with
  | some r => (s, .final r)
  | none => ok

/-- TILE_INFO 0x20. -/
def cmdTileInfo : Cmd :=
  {
    op := 0x20, len := lenIs 1, masks := [0xFF], form := formPresent
    run := fun s q =>
      let i := reqTile q
      (s, .final (okR [w32 (pack [(0, 2, s.clsOf i), (2, 8, s.domOf i), (10, 3, s.railOf i), (13, 1, b2n (s.domOn i))]),
        w32 (pack [(0, 16, (s.tile i).learn.toNat), (16, 16, (s.chart i).maxCode.toNat)])])) }

/-! ## Automatic swaps and the standby test give way to a change (18 R407, R416) -/

/-- Two keys of instants lie less than 10 µs apart. -/
def nearKeys (x y : Nat) : Bool := decide (x < y + 160000) && decide (y < x + 160000)

/-- A test 0x02 on the tile's standby stops, and the standby is calibrated for the move that is staged. -/
def State.stopTest (s : State) (i : Nat) : State :=
  if (s.tile i).stby = .testing then s.modTile i (fun t => { t with stby := .calibrating }) else s

/-- The instants of the swaps scheduled in the group of tile i. -/
def State.groupSwaps (s : State) (i : Nat) : List Time :=
  (allTiles.filter (fun j => j / 32 == i / 32)).flatMap (fun j => ((s.tile j).sched.filter (fun x => x.act = .swap)).map (·.at_))

/-- An automatic swap of a tile is scheduled at the earliest instant that R407 allows (log 101). -/
def State.placeSwap (s : State) (i : Nat) : State :=
  let base := alignUp (s.nowN + 1024000) 16000000
  let busy := (s.changesOf i none).map (·.1)
  let group := s.groupSwaps i
  let ok (T : Time) : Bool := !busy.any (fun k => nearKeys k (s.key T)) && decide ((group.filter (· == T)).length < 4)
  match (List.range 600).find? (fun j => ok (BitVec.ofNat 64 (base + j * 16000000))) with
  | some j => (s.modTile i (fun t => { t with
      sched := t.sched ++ [{ at_ := BitVec.ofNat 64 (base + j * 16000000), act := .swap, auto := true }] })).stopTest i
  | none => s

/-- An automatic swap within 10 µs of a change scheduled for its tile is withdrawn and scheduled anew; a handover under way for it
ends. -/
def State.yieldSwap (s : State) (i : Nat) (T : Time) : State :=
  let gone := (s.tile i).sched.filter (fun x => x.auto && nearKeys (s.key x.at_) (s.key T))
  if gone.isEmpty then s
  else
    (s.modTile i (fun t =>
      let mine := t.hov.any (fun h => gone.any (fun x => x.at_ == h.at_))
      { t with
        sched := t.sched.filter (fun x => !gone.contains x), hov := if mine then none else t.hov
        stby := if mine && t.stby ≠ .off then .calibrating else t.stby })).placeSwap i

/-- What gives way to a change of a tile that a command or a keystone schedules for T; `retunes` marks a handover or a swap. -/
def State.booked (s : State) (i : Nat) (T : Time) (retunes : Bool) : State :=
  (if retunes then s.stopTest i else s).yieldSwap i T

/-- What gives way to the tile actions that a keystone of instant T stages after those of `prior`. -/
def State.bookActs (k : Nat) (T : Time) : List (BitVec 128) → List (BitVec 128) → State → State
  | _, [], s => s
  | prior, a :: r, s =>
    let i := actTarget a
    State.bookActs k T (prior ++ [a]) r (match actChg a with
      | some c => s.booked i T (isHandover (s.expAt i (s.key T) (some k) (chgsOn i prior)) c)
      | none => s)

/-- Another move of the tile is scheduled for the same instant (04 Table 4.10, 08 R217). -/
def State.moveClash (s : State) (i : Nat) (T : Time) : Bool :=
  (s.tile i).sched.any (fun x => x.at_ = T && !x.auto && x.moves) ||
  s.keys.slots.any (fun k => k.live && k.t = T && k.acts.any (fun a => actScope a = 0 && actTarget a = i &&
    (match actChg a with | some c => setsCode (s.expAt i (s.key T) none []) c | none => false)))

/-- Every refusal of a TILE_POLICY request, judged on the state expected at its instant; a word of limits acts at once (04 R134). -/
def policyErrsAll (s : State) (q : Req) : List Resp :=
  let i := reqTile q
  let w := q.w64 2
  let T := q.w64 4
  let at_ := if T = 0 then nowK + 1 else s.key T
  let e := s.expAt i at_ none []
  if !s.present i then [tileBad i]
  else match newCode e (.policy w) with
  | none => (if T ≠ 0 then [badArgR 4] else []) ++ s.policyErrs i e w ++ fenceErrs s i
  | some c =>
    (if T = 0 then [badArgR 4] else instantBad s q 4) ++
    s.tileErrs nowK i at_ e (.policy w) true false (s.moveTimes i none) ++
    (if c = 0 then [badArgR 2] else []) ++
    (if s.moveClash i T then [badArgR 4] else []) ++ (if s.schedulable then [] else [noRefR])

/-- TILE_POLICY 0x21: the limits act at once, a changed code at its instant (04 R134). -/
def cmdTilePolicy : Cmd :=
  {
    op := 0x21, len := lenIs 5, masks := [0xFF, 0x07FFFFFF, 0], changes := true
    form := fun s q => badOf (policyErrsAll s q)
    run := fun s q => orElse s (policyErrsAll s q)
      (let i := reqTile q
       let w := q.w64 2
       let T := q.w64 4
       let s1 := (s.modTile i (fun t => t.setLimits w)).redip i
       if T = 0 then (s1, .final (okR []))
       else
         let s2 := s1.modTile i (fun t => { t with sched := t.sched ++ [{ at_ := T, act := .code (BitVec.ofNat 16 (fld w 0 16)) }] })
         let s3 := s2.booked i T (isHandover (s.expAt i (s.key T) none []) (.policy w))
         (s3.revalidate 4 (s.key T) [(0, i)], .final (okR []))) }

/-- TILE_PLUMB 0x22. -/
def cmdTilePlumb : Cmd :=
  {
    op := 0x22, len := lenIs 3, masks := [0xFF, 0x3FFF3FFF, 0x3FFF3FFF], changes := true
    form := fun s q => if s.present (reqTile q) then badOf (plumbErrs (s.clsOf (reqTile q)) (reqTile q) (q.w64 2))
      else some (tileBad (reqTile q))
    run := fun s q => orElse s (plumbErrs (s.clsOf (reqTile q)) (reqTile q) (q.w64 2) ++ fenceErrs s (reqTile q))
      (s.modTile (reqTile q) (fun t => t.setPlumbW (q.w64 2) (s.steady (reqTile q)) s.boot.uptime), .final (okR [])) }

/-- TILE_DROOP 0x23. -/
def cmdTileDroop : Cmd :=
  {
    op := 0x23, len := lenIs 3, masks := [0xFF, 0x07FFFFFF, 0], changes := true
    form := fun s q => if s.present (reqTile q) then badOf (droopErrs (reqTile q) (q.w64 2)) else some (tileBad (reqTile q))
    run := fun s q => orElse s (fenceErrs s (reqTile q))
      (s.modTile (reqTile q) (fun t => { t with droopW := q.w64 2 }), .final (okR [])) }

/-- The state operation of a TILE_STATE request. -/
def stateOp (n : Nat) : Option SchedAct :=
  match n with
  | 1 => some .enable
  | 2 => some .disable
  | 3 => some .gate
  | 4 => some .ungate
  | 5 => some .swap
  | _ => none

/-- Every refusal of a TILE_STATE request. -/
def stateErrsAll (s : State) (q : Req) : List Resp :=
  let i := reqTile q
  let T := q.w64 3
  match stateOp (fld (q.w 2) 0 3) with
  | none => [badArgR 2]
  | some a =>
    if !s.present i then [tileBad i] else
    instantBad s q 3 ++
    s.tileErrs nowK i (s.key T) (s.expAt i (s.key T) none []) a.chg true false [] ++
    (if a = .swap && s.moveClash i T then [badArgR 3] else []) ++ (if s.schedulable then [] else [noRefR])

/-- TILE_STATE 0x24: the change is scheduled for its instant and answers with the tile's state after it. -/
def cmdTileState : Cmd :=
  {
    op := 0x24, len := lenIs 4, masks := [0xFF, 7], changes := true
    form := fun s q => badOf (stateErrsAll s q)
    run := fun s q => orElse s (stateErrsAll s q)
      (match stateOp (fld (q.w 2) 0 3) with
       | none => (s, .final (badArgR 2))
       | some a =>
         let i := reqTile q
         let T := q.w64 3
         let s1 := s.modTile i (fun t => { t with sched := t.sched ++ [{ at_ := T, act := a, mbx := some q.mbx }] })
         let s2 := s1.booked i T (a = .swap)
         (s2.revalidate 4 (s.key T) [(0, i)], .accepted [])) }

/-- The request of a TILE_STATE row, its operation in word 2. -/
def withStateOp (n : Nat) (q : Req) : Req :=
  { q with args := q.args.modify 1 (fun w => (w &&& ~~~7#32) ||| BitVec.ofNat 32 n) }

/-- TILE_STATUS 0x25. -/
def cmdTileStatus : Cmd :=
  {
    op := 0x25, len := lenIs 1, masks := [0xFF], form := formPresent
    run := fun s q =>
      let i := reqTile q
      let t := s.tile i
      (s, .final (okR (wordsOf 2 (s.statusWord s.movers i).toNat ++ wordsOf 2 t.policyN ++ wordsOf 2 t.plumbW.toNat ++
        wordsOf 2 t.droopW.toNat))) }

/-- The domain a request names. -/
def reqDom (q : Req) : Nat := fld (q.w 1) 0 8

/-- A tile of a domain reported off: DOMAIN_OFF with the state it returns to; handovers and swaps in hand are withdrawn
(04 R132, Table 4.10); its sensors are no longer heard (01 R30, 05 R151). -/
def State.tileOff (s : State) (i : Nat) : State :=
  let t := s.tile i
  if t.st = .fenced || t.st = .halted || t.st = .domainOff || !s.present i then s else
  let s := s.abandon i
  let gone := t.sched.filter (fun x => x.act = .swap)
  let s := s.modTile i (fun t => { t.stopClock with
    st := .domainOff, ret := if t.st = .starting then .running else t.st, hov := none, window := [], stats := List.replicate 4 {},
    plumbs := t.plumbs.map Plumb.silence, disagree := 0, hot0 := false, hot1 := false
    sched := t.sched.filter (fun x => x.act ≠ .swap) })
  let s := s.each gone (fun s x => s.settleO x.mbx (missedSwapR x.at_))
  s.dropCheck i

/-- The tiles of a domain. -/
def State.domTiles (s : State) (d : Nat) : List Nat := allTiles.filter (fun i => s.present i && s.domOf i == d)

/-- A power domain is reported off, in force at once (01 R30). -/
def State.domainOff (s : State) (d : Nat) : State :=
  let old := (s.domRet.getD d none).bind (·.2)
  let s := s.each (s.domTiles d) State.tileOff
  let s := { s with doms := s.doms.set d false, domRet := s.domRet.set d none }
  let s := s.settleO old (okR [])
  s.revalidate 4 nowK ((s.domTiles d).map (fun i => (0, i)))

/-- Every refusal of a DOMAIN_POWER request. -/
def domErrs (s : State) (q : Req) : List Resp :=
  (if reqDom q ≥ 192 then [badArgR 1] else []) ++
  (if bit (q.w 1) 8 then
    instantBad s q 2 ++ (if s.key (q.w64 2) < nowK + 1024000 then [badArgR 2] else []) ++ (if s.schedulable then [] else [noRefR])
   else if q.w64 2 ≠ 0 then [badArgR 2] else [])

/-- DOMAIN_POWER 0x26. A report that replaces an on report still waiting ends it with OK. -/
def cmdDomainPower : Cmd :=
  {
    op := 0x26, len := lenIs 3, masks := [0x1FF], changes := true
    form := fun s q => badOf (domErrs s q)
    run := fun s q => orElse s (domErrs s q)
      (if bit (q.w 1) 8 then
        let old := (s.domRet.getD (reqDom q) none).bind (·.2)
        let s1 := State.settleO { s with domRet := s.domRet.set (reqDom q) (some (q.w64 2, some q.mbx)) } old (okR [])
        (s1.revalidate 4 (s1.key (q.w64 2)) ((s1.domTiles (reqDom q)).map (fun i => (0, i))), .accepted [])
       else (s.domainOff (reqDom q), .final (okR []))) }

/-- The request of a DOMAIN_POWER row, its direction in word 1 bit 8. -/
def withDomOp (on : Bool) (q : Req) : Req :=
  { q with args := q.args.modify 0 (fun w => (w &&& ~~~0x100#32) ||| BitVec.ofNat 32 (if on then 256 else 0)) }

/-- The four pages of a tile's counters (04 Table 4.9, 05 Table 5.6). -/
def Tile.pages (t : Tile) : List (List Word) :=
  [ [t.dReact, t.dPred, t.dThr, t.dSupp, t.dCanc, t.dHov, t.dFail].flatMap Dur.words,
    [t.slides, t.hovs, t.swaps, t.hovMiss, t.dipCanc, t.oscFails, t.plCals, t.senFaults],
    t.plumbs.flatMap (fun p => p.entries :: p.time.words),
    t.dTherm.words ++ t.dMoved.words ++ [t.unshed, w32 (twos 12 t.peak)] ]

/-- TILE_COUNTERS 0x27: page 0 takes the snapshot and clears the peak temperature, to −2048 (14 R332; log 95). -/
def cmdTileCounters : Cmd :=
  {
    op := 0x27, len := lenIs 1, masks := [0xFFF]
    form := fun s q => if fld (q.w 1) 8 4 > 3 then some (badArgR 1) else formPresent s q
    run := fun s q =>
      let i := reqTile q
      let p := fld (q.w 1) 8 4
      let s1 := if p = 0 then s.modTile i (fun t => { t with snap := t.pages, peak := -2048 }) else s
      let zeros := ((Tile.pages {}).getD p []).map (fun _ => (0 : Word))
      (s1, .final (okR (((s1.tile i).snap.getD p zeros)))) }

/-- FLOOR_OVER 0x28 (11 R293). -/
def cmdFloorOver : Cmd :=
  {
    op := 0x28, len := lenIs 1, masks := [0x1FF]
    form := fun s q => if s.steady (reqTile q) then some (tileBad (reqTile q)) else formPresent s q
    run := fun s q =>
      let i := reqTile q
      let t := s.tile i
      let s1 := if bit (q.w 1) 8 then s.modTile i (fun t => { t with dFloor := {}, floorWhy := 0 }) else s
      (s1, .final (okR (t.dFloor.words ++ [w32 t.floorWhy.toNat]))) }

/-- The learned code of a tile goes back to the chart maximum (11 R294). -/
def State.learnReset (s : State) (i : Nat) : State := s.modTile i (fun t => { t with learn := (s.chart i).maxCode })

/-- LEARN_RESET 0x29. -/
def cmdLearnReset : Cmd :=
  {
    op := 0x29, len := lenIs 1, masks := [0x1FF], changes := true
    form := fun s q => if fld (q.w 1) 0 9 > 256 then some (badArgR 1)
      else if fld (q.w 1) 0 9 = 256 then none else formPresent s q
    run := fun s q =>
      let n := fld (q.w 1) 0 9
      if n = 256 then
        (s.each (allTiles.filter (fun i => (s.adaptive i || s.service i) && !(s.tile i).fenced)) State.learnReset, .final (okR []))
      else orElse s (fenceErrs s n) (if s.steady n then s else s.learnReset n, .final (okR [])) }

/-- A capture joins those that wait, moved past the window of a commit that has already been made (08 R229). -/
def State.addCapture (s : State) (groups : Option (BitVec 4)) (T : Time) (n : BitVec 3) : State :=
  let c : Capture := { at_ := T, groups := groups, mbx := some n }
  let s := { s with keys := { s.keys with caps := s.keys.caps ++ [c] } }
  s.each s.keys.recentT (fun s t => s.moveCaps t)

/-- Captures already latched whose packets wait in their source (15 R353). -/
def State.capsHeld (s : State) : Nat :=
  (((s.log.capWait.filter (fun p => p.ptype ≠ 12)).map (fun p => (p.ptype, p.stamp))).eraseDups).length

/-- Refusals of a capture instant: the horizon, then BUSY with four captures waiting (15 R353), then the reference. -/
def captureErrs (s : State) (q : Req) (n : Nat) (zeroOk : Bool) : List Resp :=
  (if zeroOk && q.w64 n = 0 then [] else instantBad s q n) ++
  (if s.keys.caps.length + s.capsHeld ≥ 4 then [busyR {}] else []) ++ (if s.schedulable then [] else [noRefR])

/-- TILE_CAPTURE 0x2A: at its instant, or the earliest for 0. -/
def cmdTileCapture : Cmd :=
  {
    op := 0x2A, len := lenIs 3, masks := [0xF]
    form := fun s q => if fld (q.w 1) 0 4 > 8 then some (badArgR 1) else badOf (captureErrs s q 2 true)
    run := fun s q => orElse s (captureErrs s q 2 true)
      (s.addCapture (some (BitVec.ofNat 4 (fld (q.w 1) 0 4))) (if q.w64 2 = 0 then s.mer.now + 1 else q.w64 2) q.mbx,
        .accepted []) }

def execTileInfo (dt : Nat) (q : Req) (s : State) : Host.Outcome State Fault Refusal := .next (postCmd cmdTileInfo dt q s)
def execTilePolicy (dt : Nat) (q : Req) (s : State) : Host.Outcome State Fault Refusal := .next (postCmd cmdTilePolicy dt q s)
def execTilePlumb (dt : Nat) (q : Req) (s : State) : Host.Outcome State Fault Refusal := .next (postCmd cmdTilePlumb dt q s)
def execTileDroop (dt : Nat) (q : Req) (s : State) : Host.Outcome State Fault Refusal := .next (postCmd cmdTileDroop dt q s)
def execTileStateEnable (dt : Nat) (q : Req) (s : State) : Host.Outcome State Fault Refusal :=
  .next (postCmd cmdTileState dt (withStateOp 1 q) s)
def execTileStateDisable (dt : Nat) (q : Req) (s : State) : Host.Outcome State Fault Refusal :=
  .next (postCmd cmdTileState dt (withStateOp 2 q) s)
def execTileStateGate (dt : Nat) (q : Req) (s : State) : Host.Outcome State Fault Refusal :=
  .next (postCmd cmdTileState dt (withStateOp 3 q) s)
def execTileStateUngate (dt : Nat) (q : Req) (s : State) : Host.Outcome State Fault Refusal :=
  .next (postCmd cmdTileState dt (withStateOp 4 q) s)
def execTileStateSwap (dt : Nat) (q : Req) (s : State) : Host.Outcome State Fault Refusal :=
  .next (postCmd cmdTileState dt (withStateOp 5 q) s)
def execTileStatus (dt : Nat) (q : Req) (s : State) : Host.Outcome State Fault Refusal := .next (postCmd cmdTileStatus dt q s)
def execDomainPowerOff (dt : Nat) (q : Req) (s : State) : Host.Outcome State Fault Refusal :=
  .next (postCmd cmdDomainPower dt (withDomOp false q) s)
def execDomainPowerOn (dt : Nat) (q : Req) (s : State) : Host.Outcome State Fault Refusal :=
  .next (postCmd cmdDomainPower dt (withDomOp true q) s)
def execTileCounters (dt : Nat) (q : Req) (s : State) : Host.Outcome State Fault Refusal := .next (postCmd cmdTileCounters dt q s)
def execFloorOver (dt : Nat) (q : Req) (s : State) : Host.Outcome State Fault Refusal := .next (postCmd cmdFloorOver dt q s)
def execLearnReset (dt : Nat) (q : Req) (s : State) : Host.Outcome State Fault Refusal := .next (postCmd cmdLearnReset dt q s)
def execTileCapture (dt : Nat) (q : Req) (s : State) : Host.Outcome State Fault Refusal := .next (postCmd cmdTileCapture dt q s)

end Sys2Proof.Machine
end

