-- ==== Sys2Proof/Machine/Generator.lean ====
section
/-! DEFINITION. What happens at a tile generator: instants, handovers, oscillators, tap checks, learned limits, trials and
mortar faults (04 R108 to R117, R123, R128 to R132; 05 R147; 11 R294; 17 R396, R399; 18 R406, R407, R410). -/

namespace Sys2Proof.Machine

open Sys2Proof

/-- The earliest scheduled change of a tile that is due and of the kind asked for, unless the tile withholds (03 R79). -/
def State.dueOf (s : State) (i : Nat) (p : SchedAct → Bool) : Option Sched :=
  let t := s.tile i
  if t.withhold then none
  else ((sortAt (fun x => s.key x.at_) t.sched).filter (fun x => s.due x.at_ && p x.act)).head?

/-- A scheduled change is done with. -/
def State.dropOne (s : State) (i : Nat) (x : Sched) : State :=
  s.modTile i (fun t => { t with sched := t.sched.erase x })

/-- A TILE_STATE change ends with OK and the tile's state (14 0x24). -/
def State.settleState (s : State) (i : Nat) (x : Sched) : State :=
  s.settleO x.mbx (okR [w32 (s.tile i).st.code])

/-- The time by which a half reads its stretch ahead of its nominal ending edge: 350 ps (04 R118). -/
def readAhead : Frac := { num := 28, den := 5 }

/-- The output starts from low with period 0 of a new frame and, where it applies, the start stretch (04 R123, R124). -/
def Tile.startOutput (t : Tile) : Tile :=
  { t with
           st := .running, low := false, wait := phaseTime 16 t.runCode.toNat, lead := readAhead, frame := 0, frK := 0, frPass := 0,
           frLen := {}, exRun := false, start := if t.softStart then t.reactLim else 0, startPer := 0, actCal := false, foGap := false }

/-- The oscillator that a start makes active has been calibrated within its lead: A unless it has failed (04 R128). -/
def Tile.calibrated (t : Tile) : Bool := if t.failA then t.calB else t.calA

/-- The oscillators of a tile run at its policy code: A active unless it has failed, the other its standby unless it has failed, warm
where both have been calibrated. -/
def Tile.oscOn (t : Tile) (upt : Nat) : Tile :=
  { t with
           runCode := t.code, actB := t.failA,
           stby := if t.failA || t.failB then .off else if t.calA && t.calB then .warm else .calibrating,
           actCal := !t.calibrated, calAt := upt, calTemp := t.temp, dip := 0, hov := none, hovDone := none }

/-- A tile starts from off: its output with it where the active oscillator is calibrated, else by way of STARTING; fenced when both
oscillators have failed (04 R127, R128). -/
def State.startTile (s : State) (i : Nat) : State :=
  let t := s.tile i
  if t.failA && t.failB then s.fence i 2
  else
  let s := s.modXing 23 i (fun x => { x with toSeen := false })
  if t.calibrated then (s.modTile i (fun t => { (t.oscOn s.boot.uptime).startOutput with tapOk := none })).unsettle i
  else s.modTile i (fun t => { t.oscOn s.boot.uptime with st := .starting, tapOk := none })

/-- Dips in force, or due to start within 2 µs, end with a committed move; each counts (04 R114). -/
def State.cancelDips (s : State) (i : Nat) : State :=
  let hit (e : Event) : Bool := e.sent && decide (e.dip ≠ 0) && !e.dipDone && (e.dipOn || decide (s.key e.dipStart ≤ nowK + 32000))
  s.modTile i (fun t =>
    let n := (t.events.filter hit).length
    { t with
      events := t.events.map (fun e => if hit e then { e with dip := 0, dipOn := false, dipDone := true } else e)
      dip := 0, heldD := 0, dipCanc := satAdd t.dipCanc n })

/-! ## Moves (04 R111, R113 to R116) -/

/-- A code lies within slide reach of the tile's code, or of what it runs at under a dip (04 R111, Table 4.10). -/
def Tile.reaches (t : Tile) (c : Nat) : Bool :=
  slideReach t.runCode.toNat c || (t.dip ≠ 0 && slideReach (t.runCode.toNat - t.dip.toNat) c)

/-- The active oscillator slides to a new policy code; a calibration swap that is being prepared follows it (04 R111, R117). -/
def Tile.slid (t : Tile) (c : BitVec 16) (at_ : Time) : Tile :=
  { t with
    code := c, runCode := c, slides := satInc t.slides, movedAt := some at_
    hov := t.hov.map (fun h => if h.swap then { h with code := c } else h) }

/-- SLIDE_INSTANT: a due code change within slide reach slides the active oscillator; where no oscillator runs the code is
kept for the next start (04 R111, 08 R226). -/
def State.slideInstant (s : State) (i : Nat) : State :=
  match s.dueOf i (fun a => match a with | .code _ => true | _ => false) with
  | some x =>
    match x.act with
    | .code c =>
      let t := s.tile i
      if !t.live then
        (s.dropOne i x).modTile i (fun t => { t with code := c, movedAt := if t.code = 0 then t.movedAt else some x.at_ })
      else if t.runCode = c then (s.dropOne i x).modTile i (fun t => { t with code := c })
      else if t.reaches c.toNat then
        (((s.dropOne i x).cancelDips i).modTile i (fun t => t.slid c x.at_)).unsettle i
      else s
    | _ => s
  | none => s

/-- The next handover of a tile within 64 µs: its instant, code and whether it is a calibration swap (04 Table 4.4). -/
def State.nextHov (s : State) (i : Nat) : Option Hov :=
  let t := s.tile i
  let own := t.sched.filterMap (fun x => match x.act with
    | .code c => if t.reaches c.toNat then none else some { at_ := x.at_, code := c : Hov }
    | .swap => some { at_ := x.at_, code := t.runCode, swap := true }
    | _ => none)
  let ks := (s.keys.slots.filter Slot.live).flatMap (fun k =>
    (k.acts.filter (fun a => decide (actScope a = 0) && decide (actTarget a = i))).filterMap (fun a => match actChg a with
      | some .swap => some { at_ := k.t, code := t.runCode, swap := true : Hov }
      | some c => (newCode t.exp c).bind (fun n =>
          if t.reaches n then none else some { at_ := k.t, code := BitVec.ofNat 16 n })
      | none => none))
  ((sortAt (fun h => s.key h.at_) (own ++ ks)).filter (fun h => decide (s.key h.at_ ≤ nowK + 1024000))).head?

/-- HANDOVER_RETUNE_START: the standby leaves warm and is calibrated to the new code. -/
def State.retuneStart (s : State) (i : Nat) : State :=
  let t := s.tile i
  if !(t.st = .running || t.st = .gated) || t.hov.isSome || t.failA || t.failB then s else
  match s.nextHov i with
  | some h => s.modTile i (fun t => { t with hov := some h, stby := .calibrating })
  | none => s

/-- The first live keystone whose instant is `T` and that carries a handover or a swap of tile i: slot and action index. -/
def State.ksHandover (s : State) (i : Nat) (T : Option Time) : List (Nat × Nat) :=
  (enumFrom' 0 s.keys.slots).filterMap (fun p =>
    if p.2.live && (match T with | some x => decide (p.2.t = x) | none => true) then
      ((enumFrom' 0 p.2.acts).find? (fun a => actScope a.2 = 0 && actTarget a.2 = i &&
        (match actChg a.2 with | some c => isHandover (s.expAt i (s.key p.2.t) (some p.1) []) c | none => false))).map
        (fun a => (p.1, a.1))
    else none)

/-- A handover not taken is counted and reported (04 R116). -/
def State.countMiss (s : State) (i : Nat) : State := (s.modTile i (fun t => { t with hovMiss := satInc t.hovMiss })).raise 0x302 i 0

/-- A handover is not taken: it is counted and reported, a swap's command is answered, and a keystone that carries it aborts
with the cause given (04 R116, 08 Table 8.5). -/
def State.missHandover (s : State) (i : Nat) (h : Hov) (cause : Nat) : State :=
  let gone := (s.tile i).sched.filter (fun x => x.at_ = h.at_ && !x.ks && x.moves)
  let s := s.modTile i (fun t => { t with
    hov := none, sched := t.sched.filter (fun x => !gone.contains x),
    stby := if t.stby = .off then .off else .calibrating })
  let s := s.each gone (fun s x => s.settleO x.mbx (missedSwapR x.at_))
  let s := s.countMiss i
  s.each (s.ksHandover i (some h.at_)) (fun s k => s.abortKs k.1 cause (some (k.2, i)))

/-- HANDOVER_ALIGN_START: alignment begins 2 µs before T, or the handover is missed when the standby is not tuned. -/
def State.alignStart (s : State) (i : Nat) : State :=
  match (s.tile i).hov with
  | some h =>
    if s.key h.at_ > nowK + 32000 then s
    else if h.tuned then s.modTile i (fun t => { t with hov := some { h with aligning := true } })
    else s.missHandover i h 8
  | none => s

/-- The code that times the period under way. -/
def Tile.periodCode (t : Tile) : Nat := if t.perCode = 0 then t.runCode.toNat - t.dip.toNat else t.perCode.toNat

/-- The selector has gone over to the standby at the handover's code, with `e` added to the low phase of the transition period; the old
oscillator is calibrated to that code (04 R115, Table 4.4, R117). A dip goes on through a swap, which moves nothing (log 80). -/
def Tile.switched (t : Tile) (h : Hov) (e : Frac) (upt : Nat) : Tile :=
  let c := h.code.toNat - t.dip.toNat
  let lim := phaseTime 1 c
  let e := if lim.lt e then lim else e
  let t := if t.st = .running then t.transit t.periodCode c e else t
  { t with
    actB := !t.actB, runCode := h.code, code := if h.swap then t.code else h.code, stby := .calibrating, hov := none
    settle := t.stbySettle, stbySettle := 0, calAt := upt, calTemp := t.temp,
    movedAt := if h.swap then t.movedAt else some h.at_, dHov := t.dHov.add e,
    hovs := if h.swap then t.hovs else satInc t.hovs, swaps := if h.swap then satInc t.swaps else t.swaps }

/-- The scheduled entries that a handover at its instant answers. -/
def Hov.answers (h : Hov) (x : Sched) : Bool :=
  x.at_ = h.at_ && (if h.swap then x.act = .swap else x.act = .code h.code)

/-- HANDOVER_SWITCH: the switch at the first falling edge at or after T, with the added low time e in fs, or a miss when the
alignment has not completed (04 R115, R116). A keystone's handover is past its abort: that is decided at the launch edge. -/
def State.hovSwitch (s : State) (i : Nat) (aligned : Bool) (extraFs : Nat) : State :=
  match (s.tile i).hov with
  | some h =>
    let es := (s.tile i).sched.filter h.answers
    if !s.due h.at_ || (s.tile i).withhold || es.isEmpty then s
    else if !(aligned && h.aligning) && !es.any (·.ks) then s.missHandover i h 8
    else
      let s := if h.swap then s else s.cancelDips i
      let s := s.modTile i (fun t => { (t.switched h (Frac.mk' extraFs 62500) s.boot.uptime) with sched := t.sched.filter (fun x => !h.answers x) })
      s.each es (fun s x => s.settleState i x)
  | none =>
    match s.dueOf i (fun a => match a with | .swap => true | .code _ => true | _ => false) with
    | some x =>
      let t := s.tile i
      let far := match x.act with | .code c => !t.reaches c.toNat | _ => true
      if t.live && far && !x.ks then s.missHandover i { at_ := x.at_, code := t.runCode, swap := decide (x.act = .swap) } 8
      else if x.act = .swap then (s.dropOne i x).settleState i x else s
    | none => s

/-! ## Starts and stops (04 R128, R129, R132, R428) -/

/-- The enable of a tile by command that has no completed tap check is refused, naming the rail (05 R147). -/
def State.tapRefuse (s : State) (i : Nat) (x : Sched) : State :=
  (s.dropOne i x).settleO x.mbx (notPermR 0xA { item := 3, idx := s.railOf i })

/-- ENABLE_INSTANT. The enable of a tile in a domain reported off is recorded at its instant (log 81). -/
def State.enableInstant (s : State) (i : Nat) : State :=
  match s.dueOf i (fun a => a = .enable) with
  | some x =>
    let t := s.tile i
    if t.st = .disabled then
      if t.tapOk ≠ some x.at_ then s.tapRefuse i x
      else
        let s := s.startTile i
        if (s.tile i).fenced then s else (s.dropOne i x).settleState i x
    else if t.st = .domainOff then
      ((s.dropOne i x).modTile i (fun t => { t with recEn := t.recEn || t.ret = .disabled })).settleState i x
    else (s.dropOne i x).settleState i x
  | none => s

/-- The clock of a tile stops and its oscillators with it: DISABLED (04 R428). -/
def State.disableTile (s : State) (i : Nat) : State :=
  let t := s.tile i
  if t.live then ((s.abandon i).dropCheck i).modTile i (fun t => { t.stopClock with st := .disabled, hov := none })
  else if t.st = .domainOff then s.modTile i (fun t => { t with ret := .disabled, recEn := false })
  else s

/-- DISABLE_INSTANT. -/
def State.disableInstant (s : State) (i : Nat) : State :=
  match s.dueOf i (fun a => a = .disable) with
  | some x => let s := (s.dropOne i x).disableTile i; s.settleState i x
  | none => s

/-- The output of a tile stops while its oscillators run on: GATED (04 R129). -/
def State.gateTile (s : State) (i : Nat) : State :=
  let t := s.tile i
  if t.st = .running || t.st = .starting then
    ((s.abandon i).dropCheck i).modTile i (fun t => { t with
      st := .gated, start := 0, startPer := 0, low := false, wait := {}, lead := {}, exRun := false, foGap := false })
  else if t.st = .domainOff && t.countsAs = .running then s.modTile i (fun t => { t with ret := .gated, recEn := false })
  else s

/-- GATE_INSTANT. -/
def State.gateInstant (s : State) (i : Nat) : State :=
  match s.dueOf i (fun a => a = .gate) with
  | some x => let s := (s.dropOne i x).gateTile i; s.settleState i x
  | none => s

/-- The output of a gated tile restarts with soft start, by way of STARTING while its oscillator is still brought to its code
(04 R129, R127). -/
def State.ungateTile (s : State) (i : Nat) : State :=
  let t := s.tile i
  if t.st = .gated then s.modTile i (fun t => if t.actCal then { t with st := .starting } else t.startOutput)
  else if t.st = .domainOff && t.ret = .gated then s.modTile i (fun t => { t with ret := .running })
  else s

/-- UNGATE_INSTANT. -/
def State.ungateInstant (s : State) (i : Nat) : State :=
  match s.dueOf i (fun a => a = .ungate) with
  | some x => let s := (s.dropOne i x).ungateTile i; s.settleState i x
  | none => s

/-- A tile of a domain that returns at T takes the state it held, or the enable recorded for it once its tap check is done (R132). -/
def State.tileReturn (T : Time) (s : State) (i : Nat) : State :=
  let t := s.tile i
  if t.st ≠ .domainOff then s else
  let go := if t.recEn then t.tapOk = some T else t.ret = .running
  let s1 := s.modTile i (fun t => { t with recEn := false, ret := .disabled })
  if go then s1.startTile i
  else if t.ret = .gated && !t.recEn then
    if t.failA && t.failB then s1.fence i 2 else (s1.modTile i (fun t => { t.oscOn s.boot.uptime with st := .gated })).unsettle i
  else s1.modTile i (fun t => { t with st := .disabled })

/-- DOMAIN_RETURN_INSTANT. -/
def State.domainReturn (s : State) (d : Nat) : State :=
  match s.domRet.getD d none with
  | some (T, m) =>
    if !s.due T then s else
    let s := { s with doms := s.doms.set d true, domRet := s.domRet.set d none }
    let s := s.each (s.domTiles d) (State.tileReturn T)
    s.settleO m (okR [])
  | none => s

/-! ## Oscillators (04 R108 to R110, 18 R406, R407, R410) -/

/-- A tile that becomes single with a handover or swap staged or scheduled loses it: cause validation (04 R110, R116). One for the
instant `done` has been carried out by the failover itself (Table 4.10). -/
def State.becomeSingle (s : State) (i : Nat) (done : Option Time) : State :=
  let s := match (s.tile i).hov with
    | some h => s.missHandover i h 11
    | none => s
  let gone := (s.tile i).sched.filter (fun x => x.act = .swap)
  let s := s.modTile i (fun t => { t with sched := t.sched.filter (fun x => x.act ≠ .swap) })
  let s := s.each gone (fun s x => s.settleO x.mbx (missedSwapR x.at_))
  s.each ((s.ksHandover i none).filter (fun k => decide (done ≠ some (s.slot k.1).t))) (fun s k => s.abortKs k.1 11 (some (k.2, i)))

/-- Every live keystone that names a tile whose oscillators have both failed aborts with cause validation. -/
def State.failBoth (s : State) (i : Nat) : State := (s.abortNaming i 11).fence i 2

/-- The standby drives the tile from now on, alone. -/
def Tile.handed (t : Tile) : Tile :=
  { t with actB := !t.actB, stby := .off, settle := t.stbySettle, stbySettle := 0 }

/-- The active oscillator fails while the standby is aligned to a handover: the handover is done, at its code. A code that a keystone
carries enters the policy word at the launch edge (04 Table 4.10; 08 R228). -/
def State.failoverAligned (s : State) (i : Nat) (h : Hov) : State :=
  let es := (s.tile i).sched.filter h.answers
  let (g, s) := s.take .failoverGap 321
  let s := s.modTile i (fun t =>
    let u := t.switched h {} s.boot.uptime
    let u := if u.st = .running then u.pause g else u
    { u with
      code := if es.isEmpty then t.code else u.code, movedAt := if es.isEmpty then t.movedAt else u.movedAt
      stby := .off, hovDone := some h.at_, sched := t.sched.filter (fun x => !h.answers x) })
  (s.each es (fun s x => s.settleState i x)).becomeSingle i (some h.at_)

/-- The active oscillator fails with a warm standby: the output is held low for at most 20 ns (04 R109); a tile in STARTING starts. -/
def State.failoverWarm (s : State) (i : Nat) : State :=
  let (g, s) := s.take .failoverGap 321
  (s.modTile i (fun t =>
    if t.st = .running then t.handed.pause g else if t.st = .starting then t.handed.startOutput else { t.handed with actCal := false })).becomeSingle
    i none

/-- The active oscillator fails with a standby that is not warm: that one is first brought to the code, in STARTING; a gated tile stays
gated (04 R109). -/
def State.failoverCold (s : State) (i : Nat) : State :=
  ((s.dropCheck i).modTile i (fun t => { t.handed with
    st := if t.st = .gated then .gated else .starting, actCal := true, foGap := t.st = .running || t.foGap, low := false, wait := {},
    lead := {} })).becomeSingle i none

/-- The active oscillator is lost: the standby takes over as it stands (04 R109, Table 4.10). -/
def State.failover (s : State) (i : Nat) : State :=
  let t := s.tile i
  match t.hov with
  | some h =>
    if h.aligning then s.failoverAligned i h else if t.stby = .warm then s.failoverWarm i else s.failoverCold i
  | none => if t.stby = .warm then s.failoverWarm i else s.failoverCold i

/-- Oscillator A or B of a tile has failed for a reason: 1 no edge, 2 count, 3 not tuned (04 R109). -/
def State.failOsc (s : State) (i : Nat) (b : Bool) (why : Nat) : State :=
  let t := s.tile i
  if !s.present i || t.fenced || t.st = .halted || (if b then t.failB else t.failA) then s else
  let s := s.modTile i (fun t => { t with
    failA := t.failA || !b, failB := t.failB || b, oscFails := satInc t.oscFails })
  let s := s.raise 0x301 i (b2n b + 2 * why)
  let t := s.tile i
  if t.failA && t.failB then s.failBoth i
  else if t.live then
    if t.actB = b then s.failover i
    else (s.modTile i (fun t => { t with stby := .off, stbySettle := 0 })).becomeSingle i none
  else s.becomeSingle i none

/-- Reason code of an oscillator failure. -/
def oscWhy : OscFault → Nat
  | .noEdge => 1 | .count => 2 | .notTuned => 3

/-- The standby has been calibrated: tuned to the handover it is prepared for, and warm where that is the code of the active
oscillator; it settles within 200 µs (04 R106 to R108). -/
def State.stbyTuned (s : State) (i : Nat) : State :=
  let (v, s) := s.take .settle 3200001
  s.modTile i (fun t => { t with
    stby := if t.hov.any (fun h => decide (h.code ≠ t.runCode)) then .calibrating else .warm
    stbySettle := v, hov := t.hov.map (fun h => { h with tuned := true }) })

/-- The active oscillator has been brought to its code: a tile in STARTING starts, a gated one is ready (04 R127, R129). -/
def State.actTuned (s : State) (i : Nat) : State :=
  if !(s.tile i).actCal then s
  else (s.modTile i (fun t => if t.st = .starting then t.startOutput else { t with actCal := false })).unsettle i

/-- OSC_CAL_DONE: a cold calibration ends: before a start, in STARTING, in a handover, or of a standby that returns to warm; one that
does not reach tuned has failed (18 R406). -/
def State.calDone (s : State) (i : Nat) (b tuned : Bool) : State :=
  let t := s.tile i
  if !s.present i || t.fenced || t.st = .halted then s
  else if !tuned then s.failOsc i b 3
  else if t.live then
    if t.actB = b then s.actTuned i else if t.stby = .calibrating then s.stbyTuned i else s
  else s.modTile i (fun t => { t with calA := t.calA || !b, calB := t.calB || b })

/-- An automatic calibration swap is due: the active oscillator's calibration is more than 600 s old, or the tile's
temperature has moved by more than 20 °C since (18 R407). -/
def State.swapDue (s : State) (i : Nat) : Bool :=
  let t := s.tile i
  t.st = .running && !t.failA && !t.failB && !t.sched.any (·.auto) && s.schedulable &&
  (decide (s.boot.uptime > t.calAt + 9600000000000) || decide ((t.temp - t.calTemp).natAbs > 80))

/-- AUTO_CALIBRATION_SWAP: the swap that is due is scheduled. -/
def State.autoSwap (s : State) (i : Nat) : State := if s.swapDue i then s.placeSwap i else s

/-- Test 0x02 on the standby of a running tile has ended; a standby that fails it has failed (18 R410). -/
def State.standbyTest (s : State) (i : Nat) (pass : Bool) : State :=
  let t := s.tile i
  if t.st = .running && (t.stby = .warm || t.stby = .testing) && t.hov.isNone then
    if pass then s.modTile i (fun t => { t with stby := .warm, stbyTests := satInc t.stbyTests })
    else
      let (v, s) := s.take .race 2
      s.failOsc i (!t.actB) (2 + v)
  else s

def State.modRot (s : State) (g : Nat) (f : StbyRot → StbyRot) : State :=
  { s with tests := { s.tests with stby := s.tests.stby.modify g f } }

/-- The standby of a running tile is warm, and no handover is prepared. -/
def State.stbyWarm (s : State) (i : Nat) : Bool :=
  decide ((s.tile i).st = .running) && decide ((s.tile i).stby = .warm) && (s.tile i).hov.isNone

/-- The tile that the rotation of a group takes next: the first warm one after the tile of the latest test, in ascending order. -/
def State.rotNext (s : State) (g : Nat) : Option Nat :=
  ((List.range 32).map (fun j => 32 * g + ((s.tests.stby.getD g {}).pos + 1 + j) % 32)).find? s.stbyWarm

/-- The 16 windows of 163,840 mt over which test 0x02 counts (18 Table 18.3, R406). -/
def stbyTestMt : Nat := 2621440

/-- STANDBY_TEST: the rotation's test of one tile of its group begins, 100 ms after the one before it, or ends with its result; a test
stopped meanwhile ends without one (18 R410, Table 18.8). -/
def State.rotTest (s : State) (i : Nat) (pass : Bool) : State :=
  let g := i / 32
  let r := s.tests.stby.getD g {}
  if r.runs && (s.tile (32 * g + r.pos)).stby = .testing then
    if 32 * g + r.pos = i && decide (s.boot.uptime ≥ r.at_.getD 0 + stbyTestMt) then
      (s.modRot g (fun r => { r with runs := false })).standbyTest i pass
    else s
  else if s.rotNext g = some i && (match r.at_ with | none => true | some t => decide (s.boot.uptime ≥ t + 1600000000)) then
    (s.modRot g (fun _ => { at_ := some s.boot.uptime, pos := i % 32, runs := true })).modTile i (fun t => { t with stby := .testing })
  else if r.runs then s.modRot g (fun r => { r with runs := false })
  else s

/-! ## Tap checks (05 R147) -/

/-- The instants of the enables of a tile that still need their tap check: by command, by keystone (slot and action), by a
recorded enable of its domain's return. -/
def State.enables (s : State) (i : Nat) : List (Time × Option Sched × Option (Nat × Nat)) :=
  let t := s.tile i
  let cmd := if t.st = .disabled then (t.sched.filter (fun x => x.act = .enable)).map (fun x => (x.at_, some x, none)) else []
  let ks := if t.st = .disabled then (enumFrom' 0 s.keys.slots).filterMap (fun p =>
      if p.2.live then ((enumFrom' 0 p.2.acts).find? (fun a => actKind a.2 = 2 && actTarget a.2 = i)).map
        (fun a => (p.2.t, none, some (p.1, a.1))) else none) else []
  let rec_ := if t.st = .domainOff && t.recEn then
      (match s.domRet.getD (s.domOf i) none with | some (T, _) => [(T, none, none)] | none => []) else []
  sortAt (fun x => s.key x.1) (cmd ++ ks ++ rec_)

/-- The latest readback of a tile's rail lies within so many mV of its set point. -/
def State.railNear (s : State) (r tol : Nat) : Bool :=
  let rl := s.rail r
  match rl.mvs.head? with
  | some v => decide (v ≤ rl.vset.toNat + tol) && decide (rl.vset.toNat ≤ v + tol)
  | none => false

/-- TAP_CHECK_ATTEMPT: the check of every enabled plumb at `thr` 63, within the lead of an enable, while the readback lies
within 20 mV of the set point and the check can complete by E − 16,000 mt. -/
def State.tapCheck (s : State) (i : Nat) (fired : BitVec 4) : State :=
  match (s.enables i).head? with
  | none => s
  | some (E, x, _) =>
    let t := s.tile i
    if t.tapOk = some E || s.key E > nowK + 1024000 || s.key E < nowK + 48000 || !s.railNear (s.railOf i) 20 then s
    else
      let bad := [0, 1, 2, 3].filter (fun p => plumbEn t.plumbW p && bit fired p)
      if bad.isEmpty then
        s.modTile i (fun t => { t with
          tapOk := some E, plumbs := t.plumbs.map (fun p => { p with calAt := s.boot.uptime, calTemp := t.temp }) })
      else
        let s := s.each bad (fun s p => s.raise 0x303 i p)
        let s := match x with
          | some x => (s.dropOne i x).settleO x.mbx (okR [w32 GenSt.fenced.code])
          | none => s
        s.fence i 4

/-- TAP_CHECK_DEADLINE: no check has completed by E − 16,000 mt: the enable is refused or dropped, or its keystone aborts. -/
def State.tapDeadline (s : State) (i : Nat) : State :=
  match (s.enables i).head? with
  | none => s
  | some (E, x, k) =>
    if (s.tile i).tapOk = some E || s.key E > nowK + 16000 then s
    else match x, k with
      | some x, _ => s.tapRefuse i x
      | none, some k => s.abortKs k.1 11 (some (k.2, i))
      | none, none => s.modTile i (fun t => { t with recEn := false, ret := .disabled })

/-! ## The learned limit, trials and mortar (11 R294; 17 R396, R399) -/

/-- One tile's examination at a millisecond. -/
def State.examTile (s : State) (i : Nat) : State :=
  let t := s.tile i
  let hit := t.exRun && t.st = .running && decide (t.exLim * 8 > t.exPer)
  let new := max 2560 (min t.learn.toNat (t.code.toNat - t.code.toNat / 8))
  let s := s.modTile i (fun t => { t with exPer := 0, exLim := 0, exRun := t.st = .running, learn := if hit then BitVec.ofNat 16 new else t.learn })
  if hit then s.raise 0x30A i new else s

/-- LEARN_EXAM: every adaptive and service tile, once for each meridian multiple of 16,000,000 mt. -/
def State.learnExam (s : State) : State :=
  if !s.mer.running || s.boot.examAt = some (s.multAt 16000000) then s else
  State.each { s with boot := { s.boot with examAt := some (s.multAt 16000000) } }
    (allTiles.filter (fun i => s.adaptive i || s.service i)) State.examTile

/-- A reading within −40 °C to 150 °C. -/
def tempOk (v : Int) : Bool := decide (-160 ≤ v) && decide (v ≤ 600)

/-- FENCE_TRIAL: both oscillators and both sensors of a fenced tile are tried, 1 ms after the fence and every 10 s, after a grant on
its group; with VOSC low the trial does not run and every oscillator counts as failed. -/
def State.fenceTrial (s : State) (i : Nat) (okA okB vosc : Bool) (s0 s1 : Int) : State :=
  if !(s.tile i).fenced || s.granted i || decide (s.boot.uptime < (s.tile i).trialAt) then s
  else
    let next := s.boot.uptime + 160000000000
    if vosc then s.modTile i (fun t => { t with trialA := false, trialB := false, trialAt := next })
    else s.modTile i (fun t => { t with
      trialAt := next, trialRun := true, trialA := okA, trialB := okB, trialS0 := tempOk s0, trialS1 := tempOk s1 })

/-- MORTAR_WORD_DISCARD: counted; 16 within 1 ms, or a configuration word that fails four times, fence the tile. -/
def State.mortarDiscard (s : State) (i : Nat) (config : Bool) (nth : Nat) : State :=
  if !s.present i then s else
  let s := s.modTile i (fun t => { t with
    mortar := satInc t.mortar,
    mortarAt := s.boot.uptime :: t.mortarAt.filter (fun a => decide (s.boot.uptime < a + 16000000)) })
  if (s.tile i).mortarAt.length ≥ 16 || (config && nth ≥ 4) then s.fence i 9 else s

/-! ## The rows -/

abbrev Step := Host.Outcome State Fault Refusal

/-- An event on the block's own clock: nothing happens to a block held in reset but time. -/
def event (dt : Nat) (s : State) (f : State → State) : Step :=
  .next (if s.boot.inReset then s.tick dt else f (s.tick dt))

def execSlideInstant (dt : Nat) (tile : BitVec 8) (s : State) : Step := event dt s (fun s => s.slideInstant tile.toNat)
def execHandoverRetuneStart (dt : Nat) (tile : BitVec 8) (s : State) : Step := event dt s (fun s => s.retuneStart tile.toNat)
def execHandoverAlignStart (dt : Nat) (tile : BitVec 8) (s : State) : Step := event dt s (fun s => s.alignStart tile.toNat)
def execHandoverSwitch (dt : Nat) (tile : BitVec 8) (aligned : Bool) (extraFs : Nat) (s : State) : Step :=
  event dt s (fun s => s.hovSwitch tile.toNat aligned extraFs)
def execEnableInstant (dt : Nat) (tile : BitVec 8) (s : State) : Step := event dt s (fun s => s.enableInstant tile.toNat)
def execDisableInstant (dt : Nat) (tile : BitVec 8) (s : State) : Step := event dt s (fun s => s.disableInstant tile.toNat)
def execGateInstant (dt : Nat) (tile : BitVec 8) (s : State) : Step := event dt s (fun s => s.gateInstant tile.toNat)
def execUngateInstant (dt : Nat) (tile : BitVec 8) (s : State) : Step := event dt s (fun s => s.ungateInstant tile.toNat)
def execDomainReturnInstant (dt : Nat) (dom : BitVec 8) (s : State) : Step := event dt s (fun s => s.domainReturn dom.toNat)
/-- The start stretch falls by 1 once 8 periods have run at it (04 R123). -/
def Tile.rampStep (t : Tile) : Tile :=
  if t.start = 0 || t.startPer < 8 || t.low then t else { t with start := t.start - 1, startPer := t.startPer - 8 }

/-- SOFT_START_STEP. -/
def execSoftStartStep (dt : Nat) (tile : BitVec 8) (s : State) : Step :=
  event dt s (fun s => s.modTile tile.toNat Tile.rampStep)
def execAutoCalibrationSwap (dt : Nat) (tile : BitVec 8) (s : State) : Step := event dt s (fun s => s.autoSwap tile.toNat)
def execStandbyTest (dt : Nat) (tile : BitVec 8) (pass : Bool) (s : State) : Step :=
  event dt s (fun s => s.rotTest tile.toNat pass)
def execOscFail (dt : Nat) (tile : BitVec 8) (b : Bool) (f : OscFault) (s : State) : Step :=
  event dt s (fun s => s.failOsc tile.toNat b (oscWhy f))
def execOscCalDone (dt : Nat) (tile : BitVec 8) (b tuned : Bool) (s : State) : Step :=
  event dt s (fun s => s.calDone tile.toNat b tuned)
/-- VOSC_LOW: both oscillators stop and the tile is fenced (02 R71, 04 R109). -/
def execVoscLow (dt : Nat) (tile : BitVec 8) (s : State) : Step := event dt s (fun s => s.fence tile.toNat 3)
def execTapCheckAttempt (dt : Nat) (tile : BitVec 8) (fired : BitVec 4) (s : State) : Step :=
  event dt s (fun s => s.tapCheck tile.toNat fired)
def execTapCheckDeadline (dt : Nat) (tile : BitVec 8) (s : State) : Step := event dt s (fun s => s.tapDeadline tile.toNat)
def execLearnExam (dt : Nat) (s : State) : Step := event dt s State.learnExam
def execFenceTrial (dt : Nat) (tile : BitVec 8) (okA okB voscLow : Bool) (s0 s1 : Int) (s : State) : Step :=
  event dt s (fun s => s.fenceTrial tile.toNat okA okB voscLow s0 s1)
def execMortarWordDiscard (dt : Nat) (tile : BitVec 8) (config : Bool) (nth : Nat) (s : State) : Step :=
  event dt s (fun s => s.mortarDiscard tile.toNat config nth)

end Sys2Proof.Machine
end

