-- ==== Sys2Proof/Machine/Plumbs.lean ====
section
/-! DEFINITION. Plumbs, thermal sensors and the emergency throttle input (05 R139 to R157; 01 R28; 02 R65). -/

namespace Sys2Proof.Machine

open Sys2Proof

/-- The threshold code that the next search step of a plausibility check sets (09 Table 9.6). -/
def PlCheck.probe (c : PlCheck) : Nat := c.code + 2 ^ (5 - c.steps)

/-- The threshold code in force at a plumb: its word's, or the search's while a check runs on it (09 R250). -/
def State.thrCode (s : State) (i p : Nat) : Nat :=
  match (s.rail (s.railOf i)).check with
  | some c => if c.tile.toNat = i ∧ c.plumb.toNat = p then c.probe else plumbThr (s.tile i).plumbW p
  | none => plumbThr (s.tile i).plumbW p

/-- The plumb's reference in mV: below its rail's set point by 5 mV a step (05 R139). -/
def State.plumbRef (s : State) (i p : Nat) : Int :=
  ((s.rail (s.railOf i)).vref : Int) - 5 * (s.thrCode i p : Int)

/-- The calibration of a plumb is held to the aged bounds: older than 60 s, or the tile's temperature has moved by more than
10 °C since (05 R149). -/
def State.plumbAged (s : State) (i p : Nat) : Bool :=
  let x := (s.tile i).plumbs.getD p {}
  decide (s.boot.uptime > x.calAt + 960000000000) || decide (((s.tile i).temp - x.calTemp).natAbs > 40)

/-- Whether a tap voltage fires a plumb: always 10 mV or more below V_ref, never above V_ref + 3 mV (+ 8 mV when aged), free between
(05 R140, R144, Table 5.1). -/
def State.plumbFires (s : State) (i p : Nat) (mv : Int) : Bool × State :=
  let r := s.plumbRef i p
  if mv ≤ r - 10 then (true, s)
  else if mv > r + (if s.plumbAged i p then 8 else 3) then (false, s)
  else let x := s.take .plumbBand 2; (decide (x.1 = 1), x.2)

/-- A steady tile throttles nothing: `steady_unshed` with 0 for a droop, 1 for a temperature (01 R28). -/
def State.unshedIf (s : State) (i why : Nat) : State :=
  if s.steady i && (s.targets i).isEmpty then
    (s.modTile i (fun t => { t with unshed := satInc t.unshed })).raise 0x305 i why
  else s

/-- A plumb enters droop: its full request, the hold and decay of this entry, and its counts (05 R143, R145, R146). -/
def State.enterDroop (s : State) (i p : Nat) : State :=
  let w := (s.tile i).plumbW
  let d := (s.tile i).droopW
  let str := if s.steady i then 0 else plumbStr w p
  let s := s.modPlumb i p (fun x => { x with
    st := .firing, req := BitVec.ofNat 5 str, cnt := 0, out := true, outMt := 0, hold := droopHold d, decay := 2 ^ droopDecay d,
    entries := if x.masked then x.entries else satInc x.entries, tEnt := true, cEnt := true })
  if ((s.tile i).plumbs.getD p {}).masked then s else s.unshedIf i 0

/-- The comparator output of a plumb is held: through the blanking of a threshold change (05 R143), or released through its
calibration (05 R149). -/
def Plumb.blanked (x : Plumb) (upt : Nat) : Bool := decide (upt < x.blankTill)
def Plumb.trimming (x : Plumb) (upt : Nat) : Bool := decide (upt < x.calTill)

/-- PLUMB_FIRE: an enabled plumb that is heard and not yet in droop, its output not held. -/
def State.plumbFire (s : State) (i p : Nat) (mv : Int) : State :=
  let t := s.tile i
  let x := t.plumbs.getD p {}
  if !s.heard i || !plumbEn t.plumbW p || x.out || x.blanked s.boot.uptime || x.trimming s.boot.uptime then s
  else
    let x := s.plumbFires i p mv
    if x.1 then x.2.enterDroop i p else x.2

/-- PLUMB_RELEASE: the tap rises above V_ref plus the hysteresis; the plumb holds (05 R140, R145). -/
def State.plumbRelease (s : State) (i p : Nat) (mv : Int) : State :=
  let x := (s.tile i).plumbs.getD p {}
  if !s.heard i || !x.out || x.blanked s.boot.uptime || mv ≤ s.plumbRef i p + (plumbHystMv (s.tile i).plumbW p : Int) then s
  else s.modPlumb i p Plumb.release

/-- A plumb's request falls by one; at 0 it is idle. -/
def Plumb.fall (x : Plumb) : Plumb :=
  if x.req.toNat ≤ 1 then { x with st := .idle, req := 0, cnt := 0 } else { x with st := .decaying, req := x.req - 1, cnt := 0 }

/-- So many periods of the tile have run whole since a plumb's count began: they have begun and the next is still to be read. A tile
without a running clock has no periods: there the span counts as run (log 78). -/
def Tile.ran (t : Tile) (x : Plumb) (n : Nat) : Bool := t.st ≠ .running || (decide (n ≤ x.cnt) && !t.low)

/-- PLUMB_HOLD_END: `hold` whole periods after the release the request falls by 1 and the decay begins; a steady tile's moved throttle
is removed in one step (05 R145, R146). -/
def State.plumbHoldEnd (s : State) (i p : Nat) : State :=
  s.modPlumb i p (fun x => if x.st = .holding && (s.tile i).ran x x.hold then x.fall else x)

/-- PLUMB_DECAY_STEP: after every 2^`decay` periods. -/
def State.plumbDecay (s : State) (i p : Nat) : State :=
  s.modPlumb i p (fun x => if x.st = .decaying && (s.tile i).ran x x.decay then x.fall else x)

/-- A faulty tap: reported, and the tile fenced (05 R147, R148, 18 R408). -/
def State.tapFault (s : State) (i p : Nat) : State := (s.raise 0x303 i p).fence i 4

/-- PLUMB_DROOP_EXAM: 1 ms in droop is held against the last readback of the rail; a rail of which none has been taken yet confirms
the sag (05 R148; log 79). -/
def State.droopExam (s : State) (i p : Nat) : State :=
  let x := (s.tile i).plumbs.getD p {}
  if !s.heard i || !x.out || x.outMt < 16000000 then s
  else if s.railNear (s.railOf i) 20 then
    (s.modTile i (fun t => t.setPlumbW (setFld t.plumbW (16 * p + 6) 1 0) (s.steady i) s.boot.uptime)).tapFault i p
  else
    let s := s.modPlumb i p (fun x => { x with outMt := 0 })
    let s := s.modRail (s.railOf i) (fun r => { r with cSag := satInc r.cSag })
    s.raise 0x304 (s.railOf i) 0

/-- A plumb may be trimmed now: the tile does not run, or another enabled plumb lies no more than 40 mV deeper (05 R149). -/
def State.trimOk (s : State) (i p : Nat) : Bool :=
  let w := (s.tile i).plumbW
  decide ((s.tile i).st ≠ .running) ||
  [0, 1, 2, 3].any (fun o => decide (o ≠ p) && plumbEn w o && decide (plumbThr w o ≤ plumbThr w p + 8))

/-- PLUMB_CALIBRATION: one plumb of a tile at a time is trimmed, its output held released for the 4 µs that it takes; a trim that finds
no change in its range is a faulty tap (05 R149, 18 R408). -/
def State.plumbCal (s : State) (i p : Nat) (inRange : Bool) : State :=
  if !s.heard i || !s.trimOk i p || (s.tile i).plumbs.any (fun x => x.trimming s.boot.uptime) then s
  else if !inRange then s.tapFault i p
  else
    let t := s.tile i
    let s := s.modTile i (fun t => { t with plCals := satInc t.plCals, trimWait := false })
    s.modPlumb i p (fun x => { x.release with calAt := s.boot.uptime, calTemp := t.temp, calTill := s.boot.uptime + 64000 })

/-! ## Thermal sensors (05 R150 to R153) -/

/-- A 12-bit signed reading. -/
def temp12 (v : Int) : Int := max (-2048) (min 2047 v)

/-- One sensor of a tile reads: out of range it fails and is reported (05 R151). -/
def State.senseOne (s : State) (i k : Nat) (v : Int) : State :=
  let t := s.tile i
  if (if k = 0 then t.failS0 else t.failS1) then s
  else if tempOk v then s.modTile i (fun t => if k = 0 then { t with t0 := v } else { t with t1 := v })
  else
    (s.modTile i (fun t => { t with
      failS0 := t.failS0 || k = 0, failS1 := t.failS1 || k = 1, senFaults := satInc t.senFaults })).raise 0x306 i k

/-- The thermal target rate after a sample (05 R152), in quarter degrees. -/
def qthNext (q : Nat) (t : Int) (setC : Nat) : Nat :=
  let p : Int := 4 * (setC : Int)
  if t ≥ p then max 16 (q - 32) else if t < p - 8 then min 256 (q + 8) else q

/-- The trip check of a tile on this sample (05 R153): both valid sensors, or one on two samples in a row. -/
def Tile.trips (t : Tile) : Bool :=
  let h0 := !t.failS0 && decide (t.t0 ≥ 460)
  let h1 := !t.failS1 && decide (t.t1 ≥ 460)
  (h0 && h1) || (h0 && t.hot0) || (h1 && t.hot1)

/-- One tile's sample: its sensors, their agreement, its temperature, its thermal rate; and whether it trips. -/
def State.sampleTile (s : State) (r : TempReading) : State :=
  let i := r.tile.toNat
  if !s.heard i then s else
  let s := (s.senseOne i 0 (temp12 r.s0)).senseOne i 1 (temp12 r.s1)
  let t := s.tile i
  if t.failS0 && t.failS1 then s.fence i 5
  else
    let apart := !t.failS0 && !t.failS1 && decide ((t.t0 - t.t1).natAbs > 60)
    let n := if apart then t.disagree + 1 else 0
    let q := qthNext t.qth.toNat t.temp (droopThermSet t.droopW)
    let s := s.modTile i (fun t => { t with
      disagree := n, senFaults := if n = 3 then satInc t.senFaults else t.senFaults, qth := BitVec.ofNat 9 q,
      temps := (t.temp :: t.temps).take 11, peak := max t.peak t.temp })
    let s := if n = 3 then s.raise 0x307 i 0 else s
    if t.qth = 256 && q < 256 then s.unshedIf i 1 else s

/-- The last sample of a tile's sensors is kept for the next trip check. -/
def Tile.keepHot (t : Tile) : Tile :=
  { t with hot0 := !t.failS0 && decide (t.t0 ≥ 460), hot1 := !t.failS1 && decide (t.t1 ≥ 460) }

/-- A tile that is not heard takes no part in the sample: what counts successive samples begins again. -/
def Tile.missSample (t : Tile) : Tile := { t with disagree := 0, hot0 := false, hot1 := false }

/-- The tile's reading of a sample: what the row brings for it, else its sensors read as on the sample before (log 36). -/
def State.readingOf (s : State) (rs : List TempReading) (i : Nat) : TempReading :=
  (rs.find? (fun r => r.tile.toNat == i)).getD { tile := BitVec.ofNat 8 i, s0 := (s.tile i).t0, s1 := (s.tile i).t1 }

/-- The multiple of 160,000 mt at or before the present: the instant of the sample that is due (05 R150). -/
def State.sampleAt (s : State) : Time := s.multAt 160000

/-- The trip of a sample, once (05 R153). -/
def State.tripAt (s : State) (i : Nat) : State :=
  if s.boot.trip then s
  else ((({ s with boot := { s.boot with trip := true } }).raise 0x308 i 0).halt 4)

/-- THERMAL_SAMPLE: every tile heard samples together, once for each multiple of 160,000 mt; a confirmed trip stops the chip, naming
its first tile (05 R150 to R153). -/
def State.thermalSample (s : State) (rs : List TempReading) : State :=
  if !s.mer.running || s.boot.thermAt = some s.sampleAt then s else
  let s := { s with boot := { s.boot with thermAt := some s.sampleAt } }
  let s := s.each (allTiles.filter s.heard) (fun s i => s.sampleTile (s.readingOf rs i))
  let mine := allTiles.filter s.heard
  let hot := mine.filter (fun i => (s.tile i).trips)
  let s := s.mapTiles (fun i t => if s.heard i then t.keepHot else t.missSample)
  let s := match hot with
    | [] => s
    | i :: _ => s.tripAt i
  s.followCheck

/-! ## The emergency throttle input (02 R65, 05 R154) -/

/-- THR_REQ_FALL: a low of 10 ns or more is confirmed and counted; a shorter one is a glitch. -/
def State.thrFall (s : State) (lowNs : Nat) : State :=
  if lowNs < 10 then { s with boot := { s.boot with thrGlitch := satInc s.boot.thrGlitch } }
  else if s.boot.thrLow then s
  else s.thrConfirm

/-- THR_REQ_RISE: the 10 µs hold begins. -/
def State.thrRise (s : State) : State :=
  if s.boot.thrLow then
    { s with boot := { s.boot with thrPin := false, thrLow := false, thrHold := true, thrRiseAt := s.boot.uptime } }
  else s

/-- THR_REQ_HOLD_END: 10 µs after the rise the throttle ends and a raised `host_q` is in force. -/
def State.thrEnd (s : State) : State :=
  if s.boot.thrHold && decide (s.boot.uptime ≥ s.boot.thrRiseAt + 160000) then
    { s with boot := { s.boot with thrHold := false }, power := { s.power with hostQNow := s.power.hostQ } }
  else s

def execPlumbFire (dt : Nat) (tile : BitVec 8) (p : BitVec 2) (mv : Int) (s : State) : Step :=
  event dt s (fun s => s.plumbFire tile.toNat p.toNat mv)
def execPlumbRelease (dt : Nat) (tile : BitVec 8) (p : BitVec 2) (mv : Int) (s : State) : Step :=
  event dt s (fun s => s.plumbRelease tile.toNat p.toNat mv)
def execPlumbHoldEnd (dt : Nat) (tile : BitVec 8) (p : BitVec 2) (s : State) : Step :=
  event dt s (fun s => s.plumbHoldEnd tile.toNat p.toNat)
def execPlumbDecayStep (dt : Nat) (tile : BitVec 8) (p : BitVec 2) (s : State) : Step :=
  event dt s (fun s => s.plumbDecay tile.toNat p.toNat)
def execPlumbDroopExam (dt : Nat) (tile : BitVec 8) (p : BitVec 2) (s : State) : Step :=
  event dt s (fun s => s.droopExam tile.toNat p.toNat)
def execPlumbCalibration (dt : Nat) (tile : BitVec 8) (p : BitVec 2) (inRange : Bool) (s : State) : Step :=
  event dt s (fun s => s.plumbCal tile.toNat p.toNat inRange)
def execThermalSample (dt : Nat) (rs : List TempReading) (s : State) : Step := event dt s (fun s => s.thermalSample rs)
/-- The level of `thr_req_n` at a block held in reset. -/
def State.holdThr (s : State) (low : Bool) : State := { s with boot := { s.boot with thrPin := low } }

/-- A block held in reset notes the level of the pin alone. -/
def execThrReqFall (dt : Nat) (lowNs : Nat) (s : State) : Step :=
  .next (if s.boot.inReset then (s.tick dt).holdThr (s.boot.thrPin || decide (10 ≤ lowNs)) else (s.tick dt).thrFall lowNs)
def execThrReqRise (dt : Nat) (s : State) : Step :=
  .next (if s.boot.inReset then (s.tick dt).holdThr false else (s.tick dt).thrRise)
def execThrReqHoldEnd (dt : Nat) (s : State) : Step := event dt s State.thrEnd

end Sys2Proof.Machine
end

