-- ==== Sys2Proof/Machine/Sextants.lean ====
section
/-! DEFINITION. The sextant channels: setup words, arming, pairs, results, statistics, ownership and the commands 0x50 to 0x55
(03 R88 to R100; 14 R338, Table 14.7; 15 R351). -/

namespace Sys2Proof.Machine

open Sys2Proof

/-! ## The channel setup word (03 Table 3.6) -/

def sxStart (w : BitVec 64) : Nat := fld w 0 12
def sxStop (w : BitVec 64) : Nat := fld w 12 12
def sxStartEdge (w : BitVec 64) : Nat := fld w 24 2
def sxStopEdge (w : BitVec 64) : Nat := fld w 26 2
def sxChain (w : BitVec 64) : Bool := bit w 28
def sxArm (w : BitVec 64) : Nat := fld w 29 2
def sxPin (w : BitVec 64) : Nat := fld w 31 2
def sxOnce (w : BitVec 64) : Bool := bit w 33
def sxPairs (w : BitVec 64) : Nat := fld w 34 8
def sxDest (w : BitVec 64) : Bool := bit w 42
def sxStat (w : BitVec 64) : Bool := bit w 43

/-- The tile that a source code taps: its clock, or one of its plumbs (03 Table 3.5). -/
def srcTile (c : Nat) : Option Nat :=
  if 0x100 ≤ c ∧ c ≤ 0x1FF then some (c - 0x100) else if 0x400 ≤ c ∧ c ≤ 0x7FF then some ((c - 0x400) / 4) else none

/-- A source code that channel `ch` may take with an arming (03 R89, R104). -/
def State.srcOk (s : State) (ch c arm : Nat) : Bool :=
  match srcTile c with
  | some i => s.present i
  | none => decide (c ≤ 7) || c == 0x800 || c == 0x801 || (c == 0x802 && arm == 2 && decide (ch < 60)) ||
      (c == 0x803 && decide (60 ≤ ch))

/-- The edge field fits its source: 0 for a pin, not 0 for an internal source (03 R91). -/
def edgeOk (c e : Nat) : Bool := if c ≤ 7 then e == 0 else e != 0

/-- A channel's `arm` is off (03 R99). -/
def Chan.off (c : Chan) : Bool := !c.armed && sxArm c.setup == 0

/-! ## Time of a channel (03 R88, R104) -/

/-- The present on the channel's time base, in mt: between the counter's steps a capture unit interpolates (03 R88). -/
def State.sxNow (s : State) (ch : Nat) : Time := if ch < 60 then s.mer.now + BitVec.ofNat 64 s.mer.frac else s.sxt.time

/-- The difference of two times in LSB of 1/8 mt, modulo 2^67 around 0 (03 R76). -/
def lsbDiff (a b : Nat) : Int := (BitVec.ofNat 67 a - BitVec.ofNat 67 b).toInt

/-- The channel is available and its clock runs: the sxt PLL, from the first lock of meridian time on (01 R32), or the lodestar PLL. -/
def State.sxRuns (s : State) (ch : Nat) : Bool :=
  if ch < 60 then bit s.boot.clkRun 6 && s.boot.lockedOnce else s.sxt.locked && bit s.boot.clkRun 7

/-! ## Results (03 R96 to R98) -/

/-- A formed result: the start edge in LSB, the interval and its flags [80:73] as one byte. -/
structure Pair where
  start : Nat
  ival  : Int
  flags : Nat
deriving DecidableEq, Repr

/-- The record of Table 3.7. -/
def Pair.record (p : Pair) (ch : Nat) : BitVec 128 :=
  BitVec.ofNat 128 (pack [(0, 64, p.start / 8), (64, 3, p.start % 8), (67, 6, ch), (73, 8, p.flags), (96, 32, twos 32 p.ival)])

/-- The flags that the pair in hand has met: holdover, ana, nolock, brk. -/
def Chan.met (c : Chan) : Nat := 16 * b2n c.fHold + 32 * b2n c.fAna + 64 * b2n c.fLock + 128 * b2n c.fBrk

/-- A pair of a start and a stop edge (03 R94, R96). -/
def Chan.pair (c : Chan) (start stop : Nat) : Pair :=
  let d := lsbDiff stop start
  let m : Int := 2 ^ 31 - 1
  let ov := decide (d > m) || decide (d < -m)
  {
    start := start, ival := if d > m then m else if d < -m then -m else d
    flags := b2n (decide (d < 0)) + 2 * b2n (decide (d = 0)) + 8 * b2n ov + c.met }

/-- Clamp a sum to its signed 64 bits, with its `sat`. -/
def clampS (i : Int) : Int × Bool :=
  if i ≥ 2 ^ 63 - 1 then (2 ^ 63 - 1, true) else if i ≤ -(2 ^ 63) then (-(2 ^ 63), true) else (i, false)

/-- A result joins a channel's statistics (03 R98). -/
def Chan.stat (c : Chan) (p : Pair) : Chan :=
  let c := { c with sFlags := c.sFlags ||| BitVec.ofNat 8 p.flags }
  if p.flags &&& 0x64 ≠ 0 then { c with sLeft := satInc c.sLeft }
  else
    let v := BitVec.ofInt 32 p.ival
    let sum := if c.satS then (c.sSum, true) else clampS (c.sSum + p.ival)
    let sq := c.sSq + p.ival.natAbs ^ 2
    { c with
      sCount := satInc c.sCount, sMin := if c.sCount = 0 || p.ival < c.sMin.toInt then v else c.sMin,
      sMax := if c.sCount = 0 || p.ival > c.sMax.toInt then v else c.sMax, sSum := sum.1, satS := sum.2,
      sSq := if c.satQ then c.sSq else min sq (2 ^ 64 - 1), satQ := c.satQ || decide (sq ≥ 2 ^ 64 - 1) }

/-- Results of read channels move from their FIFOs to the shared buffer while it has room (03 R97). -/
def State.drain (s : State) (ch : Nat) : State :=
  let c := s.chan ch
  if sxDest c.setup || c.owner = .rck then s else
  let n := min c.fifo.length (4096 - s.sxt.buffer.length)
  let s := s.modChan ch (fun c => { c with fifo := c.fifo.drop n, fifoAt := c.fifoAt.drop n })
  { s with sxt := { s.sxt with buffer := s.sxt.buffer ++ c.fifo.take n } }

/-- A packet of a channel's waiting results, 8 at most; without room they wait in the FIFO (15 R351, Table 15.3). -/
def State.sxPacket (s : State) (ch : Nat) : State :=
  let c := s.chan ch
  let rs := c.fifo.take 8
  if rs.isEmpty || !s.roomFor 6 (2 + 2 * rs.length) then s
  else (s.modChan ch (fun c => { c with fifo := c.fifo.drop rs.length, fifoAt := c.fifoAt.drop rs.length })).putPacket 6 ch rs.length s.mer.now (rs.flatMap recFlits)

/-- A start edge lies in the course that runs. -/
def State.inCourse (s : State) (start : Nat) : Bool := decide ((BitVec.ofNat 64 (start / 8) - s.rck.snapAt).toNat < 2 ^ 63)

/-- A pair joins the sample of the course in which it starts: the one that runs, or one that waits for it (07 R206). -/
def State.feedSample (s : State) (ch : Nat) (p : Pair) : State :=
  let bad := decide (p.flags &&& 0xE5 ≠ 0)
  if s.inCourse p.start then s.modChan ch (fun c => { c with aSum := c.aSum + p.ival.toNat, aBad := c.aBad || bad })
  else { s with rck := { s.rck with classes := s.rck.classes.map (fun (x : Cls) => { x with
    sampQ := x.sampQ.map (fun q => if q.open_ && q.ch.toNat == ch then
      { q with sum := q.sum + p.ival.toNat, bad := q.bad || bad, open_ := false } else q) }) } }

/-- A result leaves its pair: to the Reckoner's sample, to the statistics, or into the channel's FIFO, from where it goes on;
a full FIFO drops it, and so does a stale crossing that it would pass (03 R97, R98; 07 R205, R206; 12 Table 12.5). -/
def State.deliver (s : State) (ch : Nat) (p : Pair) : State :=
  let c := s.chan ch
  let s := if c.owner = .rck then s.feedSample ch p else s
  if sxStat c.setup then s.modChan ch (fun c => c.stat p)
  else if c.fifo.length ≥ 16 || !s.xingOk (if ch < 60 then 17 else 19) then s.modChan ch (fun c => { c with drops := satInc c.drops })
  else
    let s := s.modChan ch (fun c => { c with fifo := c.fifo ++ [p.record ch], fifoAt := c.fifoAt ++ [s.boot.uptime] })
    if sxDest c.setup then (if (s.chan ch).fifo.length ≥ 8 then s.sxPacket ch else s) else s.drain ch

/-! ## Setup, arming and disarming (03 R91 to R94) -/

/-- A setup takes effect on a channel that is not armed; under gate arming it is armed at once while its pin is high. -/
def State.applySetup (s : State) (ch : Nat) (w : BitVec 64) (open_ : Time) (len : Word) : State :=
  let hi := sxArm w == 1 && s.sxt.gates.getLsbD (sxPin w) && s.sxRuns ch
  s.modChan ch (fun c => { c with
    setup := w, open_ := open_, len := len, armed := hi, gateUsed := hi, left := sxPairs w, first := false,
    pStart := none, pStop := none, armAt := if hi then s.boot.uptime else c.armAt })

/-- Distinct tile and plumb sources in use in a tile group, with channel `ch` set up as `w` (03 R89). -/
def State.groupSources (s : State) (ch : Nat) (w : BitVec 64) (g : Nat) : Nat :=
  let ws := (enumFrom' 0 s.sxt.chans).map (fun p => if p.1 = ch then w else p.2.setup)
  ((ws.flatMap (fun w => [sxStart w, sxStop w])).filter (fun c => match srcTile c with
    | some i => i / 32 == g
    | none => false)).eraseDups.length

/-- The groups that a setup word's sources tap. -/
def srcGroups (w : BitVec 64) : List Nat := [sxStart w, sxStop w].filterMap (fun c => (srcTile c).map (· / 32))

/-- A setup word on a channel would make a ninth source of some group (03 R89). -/
def State.ninth (s : State) (ch : Nat) (w : BitVec 64) : Bool := (srcGroups w).any (fun g => decide (s.groupSources ch w g > 8))

/-- Setup words reach a channel: the crossing that carries them is not stale (12 R312). -/
def State.setupsPass (s : State) (ch : Nat) : Bool := s.xingOk (if ch < 60 then 16 else 18)

/-- The oldest setup that waits on a channel takes effect, if the channel can take it now, and its command ends with OK; one that would
make a ninth source of a group by now is refused. -/
def State.nextSetup (s : State) (ch : Nat) : State :=
  let c := s.chan ch
  match c.waits with
  | (w, o, l, m) :: r =>
    if c.armed || c.caling || !s.setupsPass ch then s
    else if c.failed || s.ninth ch w then
      (s.modChan ch (fun c => { c with waits := r })).finishO m (notPermR 0xA { item := 5, idx := ch })
    else ((s.modChan ch (fun c => { c with waits := r })).applySetup ch w o l).finishO m (okR [])
  | [] => s

/-- Every setup that can take effect does, oldest first. -/
def State.takeSetups (s : State) (ch : Nat) : State := s.each (s.chan ch).waits (fun s _ => s.nextSetup ch)

/-- The edge left over forms an unpaired result (03 R94). -/
def State.lone (s : State) (ch : Nat) : State × Nat :=
  let c := s.chan ch
  match c.pStart, c.pStop with
  | some t, _ | none, some t =>
    let s := s.modChan ch (fun c => { c with pStart := none, pStop := none, unpaired := satInc c.unpaired })
    (s.deliver ch { start := t, ival := 0, flags := 4 + c.met }, 1)
  | none, none => (s, 0)

/-- A channel disarms; the number of unpaired results that this forms. -/
def State.disarm (s : State) (ch : Nat) : State × Nat :=
  if !(s.chan ch).armed then (s, 0) else
  let x := s.lone ch
  (x.1.modChan ch (fun c => { c with armed := false }), x.2)

/-- A channel disarms and takes the setup that waits. -/
def State.disarmNow (s : State) (ch : Nat) : State := (s.disarm ch).1.takeSetups ch

/-- A channel arms. -/
def State.armNow (s : State) (ch : Nat) : State :=
  s.modChan ch (fun c => { c with
    armed := true, left := sxPairs c.setup, first := false, pStart := none, pStop := none, armAt := s.boot.uptime })

/-- The conditions that a pair meets at an edge. -/
def State.meet (s : State) (ch : Nat) (keep : Bool) (c : Chan) : Chan :=
  { c with
    fHold := (keep && c.fHold) || (decide (ch < 60) && !s.schedulable), fAna := (keep && c.fAna) || !s.boot.vanaLow.isEmpty,
    fLock := (keep && c.fLock) || !c.lock, fBrk := keep && c.fBrk }

/-- A pair is complete: its result leaves, and a channel with a limit of results disarms at the limit (03 R91). -/
def State.complete (s : State) (ch start stop : Nat) (chain : Option Nat) : State :=
  let s := s.modChan ch (s.meet ch true)
  let p := (s.chan ch).pair start stop
  let s := s.modChan ch (fun c => s.meet ch false { c with pStart := chain, pStop := none, left := c.left - 1 })
  let s := s.deliver ch p
  let c := s.chan ch
  if sxPairs c.setup ≠ 0 && c.left = 0 then
    (s.modChan ch (fun c => { c with setup := if sxArm c.setup = 2 then setFld c.setup 29 2 0 else c.setup })).disarmNow ch
  else s

/-- An accepted edge of a unit at time `t` in LSB opens, closes or replaces (03 R94). -/
def State.accept94 (s : State) (ch : Nat) (stop : Bool) (t : Nat) : State :=
  let s := s.modChan ch (fun c => if stop then { c with stops := satInc c.stops, lStop := some t }
    else { c with starts := satInc c.starts, lStart := some t, first := true })
  let c := s.chan ch
  if stop then
    match c.pStart, c.pStop with
    | some a, _ => s.complete ch a t (if sxChain c.setup then some t else none)
    | none, some _ => s.modChan ch (fun c => s.meet ch false { c with pStop := some t, unpaired := satInc c.unpaired })
    | none, none => s.modChan ch (fun c => s.meet ch false { c with pStop := some t })
  else
    match c.pStop, c.pStart with
    | some b, _ => s.complete ch t b none
    | none, some _ => s.modChan ch (fun c => s.meet ch false { c with pStart := some t, unpaired := satInc c.unpaired })
    | none, none => s.modChan ch (fun c => s.meet ch false { c with pStart := some t })

/-- The source of a unit delivers edges: its tile is not fenced (03 R89). -/
def State.srcLive (s : State) (c : Nat) : Bool :=
  match srcTile c with
  | some i => !(s.tile i).fenced
  | none => true

/-- How the comparator of a pin reads a level in mV against its threshold code: above, below, or open within its accuracy of 8 mV and
its hysteresis of 6 mV; above 1.2 V and below 0 V every threshold is passed (02 R67, R68). -/
def pinReads (code : Byte) (mv : Int) : Option Bool :=
  let th : Int := (code.toNat : Int) * 1200
  if mv > 1200 then some true else if mv < 0 then some false
  else if 255 * mv ≥ th + 255 * 14 then some true else if 255 * mv ≤ th - 255 * 14 then some false else none

/-- A slope choice takes an edge of a direction. -/
def Slope.takes (x : Slope) (rise : Bool) : Bool :=
  match x with
  | .rising => rise
  | .falling => !rise
  | .both => true

/-- A movement of a pin's level is an edge of its slope; where the comparator's reading of a level is open, a free choice decides. -/
def State.pinEdge (s : State) (pin : Nat) (lv : PinMove) : Bool × State :=
  let sl := s.sxt.slope.getD pin .rising
  match pinReads (s.sxt.dac.getD pin 0) lv.before, pinReads (s.sxt.dac.getD pin 0) lv.after with
  | some a, some b => (a != b && sl.takes b, s)
  | _, _ => let x := s.take .race 2; (decide (x.1 = 1) && sl.takes (decide (lv.before < lv.after)), x.2)

/-- The edge is one for this source: a pin's comparator decides for its pin, an internal tap brings edges only (02 R67, 03 R89). -/
def State.isEdge (s : State) (src : Nat) (lv : PinMove) : Bool × State := if src ≤ 7 then s.pinEdge src lv else (true, s)

/-- An edge within 1.0 ns after the rise of its gate may or may not be accepted; after the fall none is (03 R92, log 25). -/
def State.gateTakes (s : State) (c : Chan) : Bool × State :=
  if sxArm c.setup == 1 && decide (s.boot.uptime < c.gateAt + 16) then let x := s.take .race 2; (decide (x.1 = 1), x.2) else (true, s)

/-- The unit takes no part in an edge: under a chain with equal source and edge the start unit takes the first edge after arming alone,
and the stop unit every later one (03 R94). -/
def Chan.passes (c : Chan) (stop : Bool) (t : Nat) : Bool :=
  let w := c.setup
  sxChain w && sxStart w == sxStop w && sxStartEdge w == sxStopEdge w && (if stop then !c.first || c.lStart == some t else c.first)

/-- An edge reaches a capture unit of an armed channel (03 R92 to R95). -/
def State.edgeAt (s : State) (ch : Nat) (stop : Bool) (t : Nat) (lv : PinMove) : State :=
  let c := s.chan ch
  let w := c.setup
  let src := if stop then sxStop w else sxStart w
  let inWin := sxArm w != 2 ||
    (decide (0 ≤ lsbDiff t (8 * c.open_.toNat)) && decide (lsbDiff t (8 * c.open_.toNat) < 8 * (c.len.toNat : Int)))
  if !c.armed || !s.sxRuns ch || !s.srcLive src || !inWin || c.passes stop t then s
  else
    let x := s.isEdge src lv
    let y := x.2.gateTakes c
    if !(x.1 && y.1) then y.2
    else
      let s := y.2
      match if stop then c.lStop else c.lStart with
      | some l =>
        if 0 ≤ lsbDiff t l && lsbDiff t l < 256 then s.modChan ch (fun c => { c with dead := satInc c.dead })
        else s.accept94 ch stop t
      | none => s.accept94 ch stop t

/-- A gate pin rises: the channels under gate arming on it arm, a `gate_once` channel the first time only (03 R92). -/
def State.gateRise (s : State) (pin : Nat) : State :=
  let s := { s with sxt := { s.sxt with gates := setFld s.sxt.gates pin 1 1 } }
  s.each (List.range 64) (fun s ch =>
    let c := s.chan ch
    if sxArm c.setup = 1 && sxPin c.setup = pin then
      let s := s.modChan ch (fun c => { c with gateAt := s.boot.uptime })
      if c.armed || !s.sxRuns ch || (sxOnce c.setup && c.gateUsed) then s
      else (s.armNow ch).modChan ch (fun c => { c with gateUsed := true })
    else s)

/-- A gate pin falls: its channels disarm, and take no edge from then on (R92; log 25); the one gate period of a `gate_once` channel is
over. -/
def State.gateFall (s : State) (pin : Nat) : State :=
  let s := { s with sxt := { s.sxt with gates := setFld s.sxt.gates pin 1 0 } }
  s.each (List.range 64) (fun s ch =>
    let c := s.chan ch
    if sxArm c.setup = 1 && sxPin c.setup = pin then
      let s := s.modChan ch (fun c => { c with
        gateAt := s.boot.uptime, setup := if sxOnce c.setup && c.gateUsed then setFld c.setup 29 2 0 else c.setup })
      s.disarmNow ch
    else s)

/-- WINDOW_OPEN: at its open instant a window-armed channel arms; source 0x802 gives its synthetic edge there (03 R93). -/
def State.windowOpen (s : State) (ch : Nat) : State :=
  let c := s.chan ch
  let now := s.sxNow ch
  if sxArm c.setup ≠ 2 || c.armed || !s.sxRuns ch || (now - c.open_).toNat ≥ c.len.toNat then s
  else
    let s := s.armNow ch
    let t := 8 * c.open_.toNat
    let s := if sxStart c.setup = 0x802 then s.edgeAt ch false t {} else s
    if sxStop c.setup = 0x802 then s.edgeAt ch true t {} else s

/-- WINDOW_CLOSE: at open + length the channel disarms, and the window is over. -/
def State.windowClose (s : State) (ch : Nat) : State :=
  let c := s.chan ch
  let d := (s.sxNow ch - c.open_).toNat
  if sxArm c.setup ≠ 2 || d < c.len.toNat || d ≥ 2 ^ 63 then s
  else (s.modChan ch (fun c => { c with setup := setFld c.setup 29 2 0 })).disarmNow ch

/-- The calibration of a channel has ended: its table stands, or fails until the next passing one (03 R99, 18 R403). -/
def State.endCal (s : State) (ch : Nat) (pass : Bool) : State :=
  let s := s.modChan ch (fun c => { c with cal := c.cal || pass, caling := false, failed := !pass, calAge := false, calAt := s.boot.uptime })
  s.takeSetups ch

/-- A channel's claim is released. -/
def State.freeChan (s : State) (ch : Nat) : State :=
  s.modChan ch (fun c => { c with owner := .none, setup := 0, open_ := 0, len := 0, gateUsed := false })

/-- A crystal fault, or the end of lodestar time: channels 60–63 disarm, their pending edges are counted as unpaired, and
session claims are released (03 R104, 17 Table 17.4). `why` answers the setups that waited. -/
def State.lodeOff (s : State) (why : Resp) : State :=
  let s := s.each [60, 61, 62, 63] (fun s ch =>
    let ws := (s.chan ch).waits
    let s := (s.disarm ch).1
    let s := s.modChan ch (fun c => { c with waits := [], lock := false, caling := false })
    let s := s.each ws (fun s w => s.finishO w.2.2.2 why)
    if ch = 63 then s else s.freeChan ch)
  { s with sxt := { s.sxt with locked := false, svc := if s.sxt.svc.any (fun x => decide (60 ≤ x.1)) then none else s.sxt.svc } }

/-! ## The commands -/

/-- The owner that a request speaks for. -/
def reqOwner (q : Req) : Owner := if q.sess = 0 then .host else .session q.sess

/-- Owner codes of Table 14.1. -/
def Owner.code : Owner → Nat
  | .none => 0 | .host => 1 | .rck => 2 | .service => 3 | .session _ => 4 | .helm => 5

/-- NOT_PERMITTED naming a channel and its owner (14 R331, R338). -/
def State.chanR (s : State) (ch : Nat) : Resp := notPermR 0xA { item := 5, idx := ch, aux := (s.chan ch).owner.code }

/-- The sender may name the channel at all: the host 0–59, a session 60–62 (14 R331). -/
def chanFor (q : Req) (ch : Nat) : Bool := if q.sess = 0 then decide (ch < 60) else decide (60 ≤ ch) && decide (ch < 63)

def reqChan (q : Req) : Nat := fld (q.w 1) 0 6

/-- The crystal fault of a lodestar command (02 R58). -/
def xoR : Resp := notPermR 0xA { item := 0x0B, aux := 2 }

/-- The crystal is faulted or the lodestar is off. -/
def State.xoFaulted (s : State) : Bool := !s.sxt.enabled

/-- The refusals of a command on a channel that its sender must own: a crystal fault, which has released the claims of sessions, is named
before the owner (03 R100, R104). -/
def State.ownErrs (s : State) (q : Req) (ch : Nat) : List Resp :=
  (if ch ≥ 60 && chanFor q ch && s.xoFaulted then [xoR] else []) ++
  (if chanFor q ch && (s.chan ch).owner = reqOwner q then [] else [s.chanR ch]) ++
  (if (if ch < 60 then [16, 17] else [18, 19]).any (fun x => (s.xings.main.getD x {}).failed) then [internalR 4] else [])

/-- The form of a setup request (03 R89, R91, R93). -/
def setupForm (s : State) (q : Req) : Option Resp :=
  let ch := reqChan q
  let w := q.w64 2
  let arm := sxArm w
  let o := q.w64 4
  if fld w 44 20 ≠ 0 || arm = 3 || !s.srcOk ch (sxStart w) arm || !s.srcOk ch (sxStop w) arm ||
    !edgeOk (sxStart w) (sxStartEdge w) || !edgeOk (sxStop w) (sxStopEdge w) then some (badArgR 2)
  else if arm = 2 then
    (if ch < 60 && !s.inHorizon o then some (badArgR 4) else if (q.w 6).toNat < 32 then some (badArgR 6) else none)
  else if o ≠ 0 then some (badArgR 4) else if q.w 6 ≠ 0 then some (badArgR 6) else none

/-- The rules of state for a setup request. -/
def State.setupErrs (s : State) (q : Req) : List Resp :=
  let ch := reqChan q
  let w := q.w64 2
  let own := (s.chan ch).owner
  (if ch ≥ 60 && chanFor q ch && s.xoFaulted then [xoR] else []) ++
  (if chanFor q ch && (own = .none || own = reqOwner q) then [] else [s.chanR ch]) ++
  (if ch ≥ 60 && sxDest w then [s.chanR ch] else []) ++
  (if (s.chan ch).failed && !(s.chan ch).caling then [notPermR 0xA { item := 5, idx := ch }] else []) ++
  ([sxStart w, sxStop w].filterMap (fun c => match srcTile c with
    | some i => if (s.tile i).fenced then some (fencedR i) else none
    | none => none)) ++
  (if s.ninth ch w then [notPermR 0xA { item := 5, idx := ch }] else []) ++
  (if ch < 60 && (!s.boot.lockedOnce || (sxArm w = 2 && !s.schedulable)) then [noRefR] else []) ++
  (if (if ch < 60 then [16, 17] else [18, 19]).any (fun x => (s.xings.main.getD x {}).failed) then [internalR 4] else [])

/-- SXT_SETUP 0x50: claims an unclaimed channel; waits while the channel is armed or being calibrated, and while the crossing to it is
stale: its word is sent again after the resync (12 Table 12.5). -/
def cmdSxtSetup : Cmd :=
  {
    op := 0x50, len := lenIs 6, changes := true, masks := [0x3F], sess := true, form := setupForm
    run := fun s q => orElse s (s.setupErrs q)
      (let ch := reqChan q
       let c := s.chan ch
       let s1 := s.modChan ch (fun c => { c with owner := reqOwner q })
       if c.armed || c.caling || !c.waits.isEmpty || !s.setupsPass ch then
         (s1.modChan ch (fun c => { c with waits := c.waits ++ [(q.w64 2, q.w64 4, q.w 6, some q.mbx)] }), .accepted [])
       else (s1.applySetup ch (q.w64 2) (q.w64 4) (q.w 6), .final (okR []))) }

/-- SXT_DISARM 0x51: the channel's `arm` is off from then on, and a setup that waited takes effect. -/
def cmdSxtDisarm : Cmd :=
  {
    op := 0x51, len := lenIs 1, changes := true, masks := [0x3F], sess := true
    run := fun s q => orElse s (s.ownErrs q (reqChan q))
      (let ch := reqChan q
       let x := s.disarm ch
       let s1 := x.1.modChan ch (fun c => { c with setup := setFld c.setup 29 2 0 })
       (s1.takeSetups ch, .final (okR [w32 x.2]))) }

/-- SXT_FREE 0x52. -/
def cmdSxtFree : Cmd :=
  {
    op := 0x52, len := lenIs 1, changes := true, masks := [0x3F], sess := true
    run := fun s q => orElse s (s.ownErrs q (reqChan q) ++ (if (s.chan (reqChan q)).armed then [s.chanR (reqChan q)] else []))
      (s.freeChan (reqChan q), .final (okR [])) }

/-- The channel of a buffered record. -/
def recChan (r : BitVec 128) : Nat := fld r 67 6

/-- The first `n` records that a predicate picks, and the rest of the buffer. -/
def takeRecs (p : BitVec 128 → Bool) : Nat → List (BitVec 128) → List (BitVec 128) × List (BitVec 128)
  | 0, l => ([], l)
  | _, [] => ([], [])
  | n + 1, r :: l =>
    if p r then let x := takeRecs p n l; (r :: x.1, x.2) else let x := takeRecs p (n + 1) l; (x.1, r :: x.2)

/-- SXT_READ 0x53: up to three records of a channel, or the oldest of any channel that the caller owns. -/
def cmdSxtRead : Cmd :=
  {
    op := 0x53, len := lenIs 1, masks := [0x7F], sess := true
    form := fun _ q => let n := fld (q.w 1) 0 7; if n > 63 && n ≠ 0x7F then some (badArgR 1) else none
    run := fun s q =>
      let n := fld (q.w 1) 0 7
      let mine (r : BitVec 128) : Bool := decide ((s.chan (recChan r)).owner = reqOwner q)
      orElse s (if n = 0x7F then [] else s.ownErrs q n)
        (let x := takeRecs (fun r => mine r && (n == 0x7F || recChan r == n)) 3 s.sxt.buffer
         let s1 := { s with sxt := { s.sxt with buffer := x.2 } }
         let s2 := s1.each (List.range 64) State.drain
         let left := (s2.sxt.buffer.filter mine).length
         (s2, .final (okR (w32 (pack [(0, 2, x.1.length), (16, 13, left)]) :: x.1.flatMap (fun r => wordsOf 4 r.toNat))))) }

/-- SXT_STATS 0x54. -/
def cmdSxtStats : Cmd :=
  {
    op := 0x54, len := lenIs 1, masks := [0x13F], sess := true
    run := fun s q => orElse s (s.ownErrs q (reqChan q))
      (let ch := reqChan q
       let c := s.chan ch
       let s1 := if bit (q.w 1) 8 then s.modChan ch (fun c => { c with
           sCount := 0, sMin := 0, sMax := 0, sSum := 0, sSq := 0, satS := false, satQ := false, sFlags := 0, sLeft := 0 }) else s
       (s1, .final (okR ([c.sCount, c.sMin, c.sMax] ++ wordsOf 2 (twos 64 c.sSum) ++ wordsOf 2 c.sSq ++
         [w32 (pack [(0, 1, b2n c.satS), (1, 1, b2n c.satQ), (2, 8, c.sFlags.toNat)]), c.sLeft])))) }

/-- SXT_INFO 0x55. -/
def cmdSxtInfo : Cmd :=
  {
    op := 0x55, len := lenIs 1, masks := [0x3F], sess := true
    run := fun s q => orElse s (s.ownErrs q (reqChan q))
      (let c := s.chan (reqChan q)
       (s, .final (okR [w32 (pack [(0, 3, c.owner.code), (3, 1, b2n c.armed), (4, 1, b2n c.calAge), (5, 1, b2n (!c.lock))]),
         c.starts, c.stops, c.dead, c.unpaired, c.drops]))) }

def execSxtSetup (dt : Nat) (q : Req) (s : State) : Step := .next (postCmd cmdSxtSetup dt q s)
def execSxtDisarm (dt : Nat) (q : Req) (s : State) : Step := .next (postCmd cmdSxtDisarm dt q s)
def execSxtFree (dt : Nat) (q : Req) (s : State) : Step := .next (postCmd cmdSxtFree dt q s)
def execSxtRead (dt : Nat) (q : Req) (s : State) : Step := .next (postCmd cmdSxtRead dt q s)
def execSxtStats (dt : Nat) (q : Req) (s : State) : Step := .next (postCmd cmdSxtStats dt q s)
def execSxtInfo (dt : Nat) (q : Req) (s : State) : Step := .next (postCmd cmdSxtInfo dt q s)

/-- SEXTANT_EDGE: an edge, or a movement of a pin's level, reaches one capture unit of a channel now, at a fraction in LSB. -/
def execSextantEdge (dt : Nat) (ch : BitVec 6) (stop : Bool) (edge : EdgeIn) (s : State) : Step :=
  event dt s (fun s => s.edgeAt ch.toNat stop (8 * (s.sxNow ch.toNat).toNat + edge.frac.toNat) edge.lv)
def execGateEdge (dt : Nat) (pin : BitVec 2) (rise : Bool) (s : State) : Step :=
  event dt s (fun s => if rise then s.gateRise pin.toNat else s.gateFall pin.toNat)
def execWindowOpen (dt : Nat) (ch : BitVec 6) (s : State) : Step := event dt s (fun s => s.windowOpen ch.toNat)
def execWindowClose (dt : Nat) (ch : BitVec 6) (s : State) : Step := event dt s (fun s => s.windowClose ch.toNat)

/-- The rotation begins a pass over a channel whose `arm` is off; the service test holds an unclaimed channel for the pass
(03 R99, R100). -/
def State.serviceBegin (s : State) (ch : Nat) : State :=
  let s := s.modChan ch (fun c => { c with caling := true, owner := if c.owner = .none then .service else c.owner })
  { s with sxt := { s.sxt with svc := some (ch, s.boot.uptime) } }

/-- The rotation's pass ends: a claimed channel keeps its owner, and a setup that waited takes effect. -/
def State.serviceEnd (s : State) (ch : Nat) (pass : Bool) : State :=
  let s := s.modChan ch (fun c => { c with owner := if c.owner = .service then .none else c.owner })
  let s := s.endCal ch pass
  { s with sxt := { s.sxt with svc := none }, tests := { s.tests with rotCh := (ch + 1) % 64 } }

/-- The length of a pass: 2^20 edges at one per 2.0 ns, in mt (03 R99). -/
def passMt : Nat := 33554432

/-- SEXTANT_SERVICE_CAL: the rotation's pass over one channel begins, or ends once its edges have been taken; it takes one channel at a
time, and never an armed one (03 R99, R100). -/
def State.serviceCal (s : State) (ch : Nat) (pass : Bool) : State :=
  if !s.sxRuns ch then s else
  match s.sxt.svc with
  | some (c, t) => if c = ch && decide (s.boot.uptime ≥ t + passMt) then s.serviceEnd ch pass else s
  | none => if !(s.chan ch).off || (s.chan ch).caling then s else s.serviceBegin ch

def execSextantServiceCal (dt : Nat) (ch : BitVec 6) (pass : Bool) (s : State) : Step :=
  event dt s (fun s => s.serviceCal ch.toNat pass)

/-- CAL_AGE: a channel armed for more than 60 s without a break sets its status bit (03 R99). -/
def execCalAge (dt : Nat) (ch : BitVec 6) (s : State) : Step :=
  event dt s (fun s =>
    let c := s.chan ch.toNat
    if c.armed && decide (s.boot.uptime > c.armAt + 960000000000) then s.modChan ch.toNat (fun c => { c with calAge := true }) else s)

end Sys2Proof.Machine
end

