-- ==== Sys2Proof/Machine/Keystone.lean ====
section
/-! DEFINITION. Keystones: the commands 0x40 to 0x47, seals, the launch edge, acknowledgements and the voltage writes that a
rail action makes (08 R214 to R234; 14 R337, Table 14.6). -/

namespace Sys2Proof.Machine

open Sys2Proof

/-! ## Slots (08 R214, R215; 14 R337) -/

def reqSlot (q : Req) : Nat := fld (q.w 1) 0 2

/-- A refusal naming slots by their mask. -/
def slotR (st : Byte) (deny : BitVec 4) (mask : Nat) : Resp := refR st deny { item := 6, idx := mask }

/-- The host may not name slot 3 while the block is a convoy member. -/
def State.slotOwnErrs (s : State) (k : Nat) : List Resp := if k = 3 && s.member then [slotR stNotPermitted 9 8] else []

/-- The slot takes actions: OPEN, with no seal waiting. -/
def Slot.takes (x : Slot) : Bool := decide (x.st = .opened) && !x.sealing

/-- A slot not in the state that a command needs. -/
def slotNeed (k : Nat) (ok : Bool) : List Resp := if ok then [] else [slotR stNotPermitted 0xA (2 ^ k)]

/-- The slots in use, as a mask. -/
def State.slotMask (s : State) : Nat := maskOf (fun x : Slot => decide (x.st ≠ .free)) s.keys.slots

/-- The free slots that the host may open. -/
def State.freeSlots (s : State) : List Nat :=
  (if s.member then [0, 1, 2] else [0, 1, 2, 3]).filter (fun k => decide ((s.slot k).st = .free))

/-- The sequence number after one: 0 is skipped (08 R214, 17 R394). -/
def nextSeq (w : Word) : Word := if w = 0xFFFFFFFF then 1 else w + 1

/-- A keystone is opened in a free slot. -/
def State.openSlot (s : State) (k : Nat) (T : Time) (kind : KsKind) (mseq : Word) : State :=
  let s1 := s.modSlot k (fun _ => { st := .opened, seq := s.keys.next, t := T, kind := kind, mseq := mseq })
  { s1 with keys := { s1.keys with next := nextSeq s.keys.next } }

/-- Actions are staged: the tile actions go to the tiles' shadows, which then have to acknowledge; automatic swaps and standby tests
give way to them (18 Table 18.8). -/
def State.stage (s : State) (k : Nat) (acts : List (BitVec 128)) : State :=
  (State.bookActs k (s.slot k).t (s.slot k).acts acts s).modSlot k (fun x => { x with
    acts := x.acts ++ acts, staged := x.staged ++ acts.map (fun _ => s.mer.now),
    acked := x.acked && !acts.any (fun a => decide (actScope a = 0)) })

/-- KS_OPEN 0x40. -/
def cmdKsOpen : Cmd :=
  {
    op := 0x40, len := lenIs 2, changes := true
    form := fun s q => if s.inHorizon (q.w64 1) && decide (s.key (q.w64 1) ≥ nowK + 32000) then none else some (badArgR 1)
    run := fun s q =>
      match s.freeSlots with
      | [] => orElse s ((if s.schedulable then [] else [noRefR]) ++ [busyR { item := 6, idx := s.slotMask }]) (s, .final noRefR)
      | k :: _ => orElse s (if s.schedulable then [] else [noRefR])
          (s.openSlot k (q.w64 1) .host 0, .final (okR [w32 k, s.keys.next])) }

/-- The action records of a stage command. -/
def reqActs (q : Req) : List (BitVec 128) :=
  (List.range (fld (q.w 1) 2 2)).map (fun j => BitVec.ofNat 128 (natOfWords ((List.range 4).map (fun i => q.w (2 + 4 * j + i)))))

/-- KS_STAGE 0x41: all of the command's actions or none (08 R221). -/
def cmdKsStage : Cmd :=
  {
    op := 0x41, len := fun q => decide (q.args.length = 1 + 4 * fld (q.w 1) 2 2) && !q.args.isEmpty, masks := [0xF], changes := true
    form := fun s q =>
      if fld (q.w 1) 2 2 = 0 then some (badArgR 1)
      else
        let n := (s.slot (reqSlot q)).acts.length + fld (q.w 1) 2 2
        if n > 512 then some (tooLargeR (n - 512) 5) else none
    run := fun s q =>
      let k := reqSlot q
      let x := s.slot k
      orElse s (s.slotOwnErrs k ++ slotNeed k x.takes)
        (match s.firstFail nowK k (s.key x.t) false 0 x.acts (reqActs q) with
         | some (i, a, r) => (s, .final { r with
             words := Detail.words { item := 7, idx := i, aux := actKind a, extra := actTarget a } })
         | none => (s.stage k (reqActs q), .final (okR [w32 (x.acts.length + (reqActs q).length)]))) }

/-- KS_SEAL 0x42: an empty keystone commits at once; else the seal ends once every shadow has acknowledged (08 R222). -/
def cmdKsSeal : Cmd :=
  {
    op := 0x42, len := lenIs 1, masks := [3], changes := true
    run := fun s q =>
      let k := reqSlot q
      let x := s.slot k
      orElse s (s.slotOwnErrs k ++ slotNeed k x.takes)
        (if x.acts.isEmpty then (s.commitKs k, .final (okR []))
         else if x.acked then (s.modSlot k (fun x => { x with st := .sealed }), .final (okR []))
         else (s.modSlot k (fun x => { x with sealing := true, sealMbx := some q.mbx }), .accepted [])) }

/-- KS_ABORT 0x43. -/
def cmdKsAbort : Cmd :=
  {
    op := 0x43, len := lenIs 1, masks := [3], changes := true
    run := fun s q =>
      let k := reqSlot q
      orElse s (s.slotOwnErrs k ++ slotNeed k (s.slot k).live) (s.abortKs k 1 none, .final (okR [])) }

/-- The result of a keystone among the last 16 resolved. -/
def State.ksResult (s : State) (seq : Word) : Option KsRes :=
  if seq = 0 then none else s.keys.results.find? (fun r => r.seq == seq)

/-- KS_RESULT 0x44. -/
def cmdKsResult : Cmd :=
  {
    op := 0x44, len := lenIs 1, form := fun s q => if (s.ksResult (q.w 1)).isSome then none else some (badArgR 1)
    run := fun s q => match s.ksResult (q.w 1) with
      | some r => (s, .final (okR r.words))
      | none => (s, .final (badArgR 1)) }

/-- The slot of an open keystone. -/
def State.ksOpenSlot (s : State) (seq : Word) : Option Nat := [0, 1, 2, 3].find? (fun k => (s.slot k).live && (s.slot k).seq == seq)

/-- KS_WAIT 0x45. -/
def cmdKsWait : Cmd :=
  {
    op := 0x45, len := lenIs 1
    form := fun s q => if (s.ksResult (q.w 1)).isSome || (s.ksOpenSlot (q.w 1)).isSome then none else some (badArgR 1)
    run := fun s q => match s.ksOpenSlot (q.w 1), s.ksResult (q.w 1) with
      | some k, _ => (s.modSlot k (fun x => { x with waits := x.waits ++ [q.mbx] }), .accepted [])
      | none, some r => (s, .final (if r.st = .committed then okR r.words else abortedR r))
      | none, none => (s, .final (badArgR 1)) }

/-- KS_COUNTERS 0x46. -/
def cmdKsCounters : Cmd :=
  {
    op := 0x46, run := fun s _ => (s, .final (okR ([s.keys.committed] ++ s.keys.aborted ++ [s.keys.misses, s.keys.moved]))) }

/-- KS_SLOTS 0x47. -/
def cmdKsSlots : Cmd :=
  {
    op := 0x47
    run := fun s _ =>
      let xs := [0, 1, 2, 3].map s.slot
      (s, .final (okR ([w32 (pack ((enumFrom' 0 xs).map (fun p => (3 * p.1, 3, p.2.st.code))))] ++ xs.map (·.seq) ++
        xs.flatMap (fun x => wordsOf 2 x.t.toNat)))) }

/-! ## Seals and the launch edge (08 R222, R223, R226, R227) -/

/-- KS_SEAL_COMPLETE: every shadow has acknowledged; a seal that waits completes. -/
def State.sealComplete (s : State) (k : Nat) : State :=
  let x := s.slot k
  if !x.live || x.acked then s
  else
    let s := s.modSlot k (fun x => { x with
      acked := true, st := if x.sealing then .sealed else x.st, sealing := false, sealMbx := none })
    s.settleO x.sealMbx (okR [])

/-- KS_SEAL_DEADLINE: 1 µs before T. -/
def State.sealDeadline (s : State) (k : Nat) : State :=
  let x := s.slot k
  if !(x.st = .opened || (x.st = .sealed && !x.acked)) || s.key x.t > nowK + 16000 then s
  else s.abortKs k (if x.sealing || x.st = .sealed then 7 else 6) none

/-- The set point that is expected of a rail at the instant of slot k, before its own action (08 R218). -/
def State.vsetAt (s : State) (k r : Nat) : Nat := s.expVal 10 r (s.key (s.slot k).t) (some k) (s.rail r).vset.toNat

/-- The rail actions of slot k that raise a rail above its expected set point: action index, rail and new set point (08 R224). -/
def State.raises (s : State) (k : Nat) : List (Nat × Nat × Nat) :=
  ((enumFrom' 0 (s.slot k).acts).filter (fun p => decide (actKind p.2 = 10) &&
    decide (actValue p.2 > s.vsetAt k (actTarget p.2)))).map (fun p => (p.1, actTarget p.2, actValue p.2))

/-- The readback of a raised rail, taken after the write, lies within 10 mV of the new set point (08 R224). -/
def State.raiseGood (s : State) (x : Slot) (r v : Nat) : Bool :=
  let rl := s.rail r
  x.raised.any (fun y => y.toNat == r) && rl.fresh &&
  (match rl.mvs.head? with
   | some m => decide (m ≤ v + 10) && decide (v ≤ m + 10)
   | none => false)

/-- A handover for T that an action carries cannot be taken: its standby is not tuned, or its alignment has not completed, and no
failover has carried it out already (04 R116, Table 4.10). -/
def Tile.notAligned (t : Tile) (c : TChg) (T : Time) (late : Bool) : Bool :=
  t.live && isHandover t.exp c && t.hovDone ≠ some T && !(t.hov.any (fun h => h.at_ == T && h.aligning) && !late)

/-- The tile actions of a slot that a predicate picks: action index and tile. -/
def Slot.pick (x : Slot) (p : Nat → TChg → Bool) : List (Nat × Nat) :=
  (enumFrom' 0 x.acts).filterMap (fun a => (actChg a.2).bind (fun c => if p (actTarget a.2) c then some (a.1, actTarget a.2) else none))

/-- The handovers of a slot that cannot be taken; `late` names the tiles whose alignment has not completed. -/
def State.hovFails (s : State) (x : Slot) (late : List (BitVec 8)) : List (Nat × Nat) :=
  x.pick (fun i c => (s.tile i).notAligned c x.t (late.any (fun t => t.toNat == i)))

/-- What keeps the sealed keystone of slot k from its commit at the launch edge: cause, action index and target (08 Table 8.5): a raise
whose check has not passed, a handover that cannot be taken, an enable whose tap check is not done. -/
def State.launchFail (s : State) (k : Nat) (late : List (BitVec 8)) : Option (Nat × Nat × Nat) :=
  let x := s.slot k
  let rail := (s.raises k).filter (fun r => !x.checked.any (fun y => y.toNat == r.2.1) && !s.raiseGood x r.2.1 r.2.2)
  let taps := x.pick (fun i c => c = .enable && (s.tile i).st = .disabled && (s.tile i).tapOk ≠ some x.t)
  match rail, s.hovFails x late, taps with
  | r :: _, _, _ => some (9, r.1, r.2.1)
  | _, f :: _, _ => some (8, f)
  | _, _, f :: _ => some (11, f)
  | [], [], [] => none

/-- A tile that missed the strobe of the keystone `seq` applies its entry from the resolution word and is counted (08 R226). -/
def State.strobeMiss (s : State) (seq : Word) (i : Nat) : State :=
  let s := s.modTile i (fun y => { y with strobes := satInc y.strobes })
  { s with keys := { s.keys with misses := satInc s.keys.misses } }.raise 0x30B i seq.toNat

/-- The sealed keystone of slot k commits or aborts at its launch edge; each handover that it could not take is a miss (04 R116). -/
def State.launchOne (missed late : List (BitVec 8)) (s : State) (k : Nat) : State :=
  let x := s.slot k
  if x.st ≠ .sealed then s
  else match s.launchFail k late with
    | some (cause, f) =>
      let gone := if cause = 8 then (s.hovFails x late).map (·.2) else []
      (s.abortKs k cause (some f)).each gone State.countMiss
    | none => (s.commitKs k).each ((missed.map (·.toNat)).filter (fun t => (x.naming t).isSome)) (fun s t => s.strobeMiss x.seq t)

/-- KS_LAUNCH_EDGE: on the last core edge before T every sealed keystone with that T commits, in slot order (08 R223, R228). -/
def State.launch (s : State) (k : Nat) (missed late : List (BitVec 8)) : State :=
  let T := (s.slot k).t
  if (s.slot k).st ≠ .sealed || s.key T > nowK + 20 then s
  else s.each ([0, 1, 2, 3].filter (fun j => decide ((s.slot j).st = .sealed) && decide ((s.slot j).t = T))) (State.launchOne missed late)

/-- KS_ACK_DEADLINE: the members that have not acknowledged by T + 1 µs are fenced, and the slot frees; it frees before that
once every member has acknowledged. -/
def State.ackDeadline (s : State) (k : Nat) (unacked : List (BitVec 8)) : State :=
  let x := s.slot k
  let late := unacked.filter (fun t => (x.naming t.toNat).isSome)
  if x.st ≠ .committed || s.key x.t > nowK || (!late.isEmpty && s.key x.t + 16000 > nowK) then s
  else
    let s := s.each late (fun s t => s.fence t.toNat 6)
    let s := s.modSlot k (fun _ => {})
    { s with keys := { s.keys with
        results := s.keys.results.map (fun r => if r.seq = x.seq then { r with late := BitVec.ofNat 9 late.length } else r)
        freed3 := if k = 3 then s.mer.now else s.keys.freed3 } }

/-! ## Voltage writes (02 R59; 08 R224, R225; 16 R383) -/

/-- The link of a rail is in its fault state: its writes go over PMBus. -/
def State.onPmbus (s : State) (r : Nat) : Bool := bit s.power.avsBad (linkOf r)

/-- The voltage writes that a link has carried in the sampling interval that runs. -/
def State.writesNow (s : State) (l : Nat) : Nat :=
  let w := s.power.writes.getD l (0, 0)
  if w.1 = s.sampleAt then w.2 else 0

/-- A voltage write to a rail, counted in its link's interval; one above the rail's chart maximum is dropped at the write path
(16 R383). -/
def State.writeRail (s : State) (r v : Nat) : State :=
  if v > s.railMax r then
    ({ s with power := { s.power with chartGuard := satInc s.power.chartGuard } }).raise 0xB05 1 0
  else
    let n := s.writesNow (linkOf r)
    let s := if s.onPmbus r then s
      else { s with power := { s.power with writes := s.power.writes.set (linkOf r) (s.sampleAt, n + 1) } }
    let ops := if s.onPmbus r then pmbOps (s.rail r).map 0x21 (some v) else [avsOp (s.rail r).map r 0 0 (some v)]
    ({ s with power := { s.power with bus := ops } }).modRail r (fun x => { x with written := v, fresh := false })

/-- No set point is written after a coolant stop (09 R261). -/
def State.noWrites (s : State) : Bool := decide (s.boot.cool = .stopped)

/-- The first sampling interval that begins at or after an instant has come; on a faulted link the instant itself (08 R224). -/
def State.writeDue (s : State) (r : Nat) (at_ : Nat) : Bool :=
  if s.onPmbus r then decide (at_ ≤ nowK) else decide (at_ ≤ s.key s.sampleAt)

/-- A slot's raise of a rail is due: from 150 µs before T, or 1 ms on a faulted link. -/
def State.raiseDue (s : State) (x : Slot) (r : Nat) : Bool :=
  !x.raised.any (fun y => y.toNat == r) && s.writeDue r (s.key x.t - (if s.onPmbus r then 16000000 else 2400000))

/-- A committed set point below the written one is due to be written: not while a raise of the rail stands or is to be taken back. -/
def State.lowerDue (s : State) (r : Nat) : Bool :=
  let x := s.rail r
  let raised := s.keys.slots.any (fun k => k.live && k.raised.any (fun y => y.toNat == r))
  x.active && !raised && x.wback.isNone && decide (x.written > x.vset.toNat) && s.writeDue r (s.key x.lowerAt)

/-- A written raise is due to be taken back. -/
def State.backDue (s : State) (r : Nat) : Bool := (s.rail r).wback.isSome && s.writeDue r (s.key (s.rail r).wbackAt)

/-- The voltage writes that are due on a link, each with its place in the order of R225: raises by T and rail, lowers, the rest. -/
def State.dueWrites (s : State) (l : Nat) : List (Nat × Nat × Nat) :=
  let rs := (List.range 8).filter (fun r => linkOf r == l)
  ([0, 1, 2, 3].flatMap (fun k => if (s.slot k).live then
    ((s.raises k).filter (fun a => linkOf a.2.1 == l && (s.rail a.2.1).active && s.raiseDue (s.slot k) a.2.1)).map
      (fun a => (0, s.key (s.slot k).t, a.2.1)) else [])) ++
  (rs.filter s.lowerDue).map (fun r => (1, 0, r)) ++ (rs.filter s.backDue).map (fun r => (2, 0, r))

/-- One place of that order lies before another. -/
def before (a b : Nat × Nat × Nat) : Bool :=
  decide (a.1 < b.1) || (a.1 == b.1 && (decide (a.2.1 < b.2.1) || (a.2.1 == b.2.1 && decide (a.2.2 < b.2.2))))

/-- A due write has its turn in the interval that runs: a link carries four of them, and the rest move to the next interval in the
same order (02 R59, 08 R225). Over PMBus there is no such limit. -/
def State.writeTurn (s : State) (w : Nat × Nat × Nat) : Bool :=
  let l := linkOf w.2.2
  s.onPmbus w.2.2 || decide (s.writesNow l + ((s.dueWrites l).filter (fun d => before d w)).length < 4)

/-- The live slot of the earliest T whose raise of a rail satisfies `p`: slot, action index, set point. -/
def State.raiseOf (s : State) (r : Nat) (p : Slot → Bool) : Option (Nat × Nat × Nat) :=
  let l := (enumFrom' 0 s.keys.slots).flatMap (fun x => if x.2.live && p x.2 then
      ((s.raises x.1).filter (fun a => a.2.1 == r)).map (fun a => (s.key x.2.t, x.1, a.1, a.2.2)) else [])
  ((sortAt (·.1) l).head?).map (fun x => x.2)

/-- KS_RAIL_RAISE_WRITE. -/
def State.raiseWrite (s : State) (r : Nat) : State :=
  match s.raiseOf r (fun x => s.raiseDue x r) with
  | some (k, _, v) =>
    if (s.rail r).active && s.writeTurn (0, s.key (s.slot k).t, r) then
      (s.writeRail r v).modSlot k (fun x => { x with raised := x.raised ++ [BitVec.ofNat 3 r] })
    else s
  | none => s

/-- A voltage readback of a rail in mV. -/
def Rail.read (x : Rail) (mv : Nat) : Rail := { x with mvs := (mv :: x.mvs).take 4, fresh := true }

/-- KS_RAIL_CHECK: 20 µs before T the readback lies within 10 mV, or the keystone aborts with cause rail. -/
def State.raiseCheck (s : State) (r : Nat) : State :=
  match s.raiseOf r (fun x => decide (s.key x.t ≤ nowK + 320000) && !x.checked.any (fun y => y.toNat == r)) with
  | some (k, i, v) =>
    if s.raiseGood (s.slot k) r v then s.modSlot k (fun x => { x with checked := x.checked ++ [BitVec.ofNat 3 r] })
    else s.abortKs k 9 (some (i, r))
  | none => s

/-- KS_RAIL_LOWER_WRITE: the committed set point below the written one is written, and the plumb references move with it. -/
def State.lowerWrite (s : State) (r : Nat) : State :=
  let x := s.rail r
  if !s.lowerDue r || !s.writeTurn (1, 0, r) || s.noWrites then s
  else (s.writeRail r x.vset.toNat).modRail r (fun x => { x with vref := x.vset.toNat })

/-- RAIL_WRITE_BACK: the committed set point is written again after an abort or an override of a written raise; a lower that has been
committed meanwhile is written with it, and the references move (08 R225, 05 R139). -/
def State.writeBack (s : State) (r : Nat) : State :=
  match (s.rail r).wback with
  | some v =>
    if !s.backDue r || !s.writeTurn (2, 0, r) || s.noWrites then s else
    let s := (s.writeRail r v.toNat).modRail r (fun x => { x with wback := none, vref := min x.vref v.toNat })
    { s with power := { s.power with wbacks := satInc s.power.wbacks } }
  | none => s

def execKsOpen (dt : Nat) (q : Req) (s : State) : Step := .next (postCmd cmdKsOpen dt q s)
def execKsStage (dt : Nat) (q : Req) (s : State) : Step := .next (postCmd cmdKsStage dt q s)
def execKsSeal (dt : Nat) (q : Req) (s : State) : Step := .next (postCmd cmdKsSeal dt q s)
def execKsAbort (dt : Nat) (q : Req) (s : State) : Step := .next (postCmd cmdKsAbort dt q s)
def execKsResult (dt : Nat) (q : Req) (s : State) : Step := .next (postCmd cmdKsResult dt q s)
def execKsWait (dt : Nat) (q : Req) (s : State) : Step := .next (postCmd cmdKsWait dt q s)
def execKsCounters (dt : Nat) (q : Req) (s : State) : Step := .next (postCmd cmdKsCounters dt q s)
def execKsSlots (dt : Nat) (q : Req) (s : State) : Step := .next (postCmd cmdKsSlots dt q s)
def execKsSealComplete (dt : Nat) (slot : BitVec 2) (s : State) : Step := event dt s (fun s => s.sealComplete slot.toNat)
def execKsSealDeadline (dt : Nat) (slot : BitVec 2) (s : State) : Step := event dt s (fun s => s.sealDeadline slot.toNat)
def execKsLaunchEdge (dt : Nat) (slot : BitVec 2) (tiles : LaunchTiles) (s : State) : Step :=
  event dt s (fun s => s.launch slot.toNat tiles.missed tiles.unaligned)
def execKsAckDeadline (dt : Nat) (slot : BitVec 2) (unacked : List (BitVec 8)) (s : State) : Step :=
  event dt s (fun s => s.ackDeadline slot.toNat unacked)
def execKsRailRaiseWrite (dt : Nat) (rail : BitVec 3) (s : State) : Step := event dt s (fun s => s.raiseWrite rail.toNat)
def execKsRailCheck (dt : Nat) (rail : BitVec 3) (s : State) : Step := event dt s (fun s => s.raiseCheck rail.toNat)
def execKsRailLowerWrite (dt : Nat) (rail : BitVec 3) (s : State) : Step := event dt s (fun s => s.lowerWrite rail.toNat)
def execRailWriteBack (dt : Nat) (rail : BitVec 3) (s : State) : Step := event dt s (fun s => s.writeBack rail.toNat)

end Sys2Proof.Machine
end

