-- ==== Sys2Proof/Machine/Convoy.lean ====
section
/-! DEFINITION. Convoys: the commands 0x70 to 0x74, the keystones that the convoy logic stages in slot 3, inbound notices, spans,
catch-up, and what a loss of reference or a break does to a member (10 R266 to R287; 02 R50; 14 R340, Table 14.9). -/

namespace Sys2Proof.Machine

open Sys2Proof

/-! ## Convoy keystones (10 R268, R275 to R277) -/

/-- A code action record of a tile. -/
def codeAct (i code : Nat) : BitVec 128 := BitVec.ofNat 128 (pack [(0, 4, 1), (4, 8, i), (64, 64, code)])

/-- The actions of a convoy keystone: every present adaptive tile that is not fenced; in a move, only those whose code differs. -/
def State.convoyActs (s : State) (k : Nat) (T : Time) (code : Nat) (all : Bool) : List (BitVec 128) :=
  (allTiles.filter (fun i => s.adaptive i && !(s.tile i).fenced &&
    (all || decide ((s.expAt i (s.key T) (some k) []).code ≠ code)))).map (fun i => codeAct i code)

/-- The refusal that a convoy keystone meets at staging; `k` 4 judges it behind the keystone that slot 3 holds. -/
def State.convoyRefusal (s : State) (k : Nat) (T : Time) (code : Nat) (all : Bool) : Option Resp :=
  (s.firstFail nowK k (s.key T) true 0 [] (s.convoyActs k T code all)).map (fun f => f.2.2)

/-- A convoy keystone is opened and staged in slot 3, and its seal waits for the shadows' acknowledges; an empty one resolves with its
seal (08 R215, R222). -/
def State.convoyStage (s : State) (T : Time) (kind : KsKind) (code mseq : Nat) (all : Bool) : State :=
  let acts := s.convoyActs 3 T code all
  let s := (s.openSlot 3 T kind (w32 mseq)).stage 3 acts
  let s := s.modSlot 3 (fun x => { x with sealing := true, code := BitVec.ofNat 16 code })
  if acts.isEmpty then s.commitKs 3 else s

/-- Slot 3 is free for the convoy logic. -/
def State.slot3Free (s : State) : Bool := decide ((s.slot 3).st = .free)

/-- Slot 3 holds a live convoy keystone of a kind. -/
def State.slot3Is (s : State) (k : KsKind) : Bool := (s.slot 3).live && decide ((s.slot 3).kind = k)

/-- The join keystone is staged when slot 3 is free and the keystone passes validation; else it stays to be staged. One without an
action, which its seal resolves, is staged at J (10 R268; log 84). -/
def State.stageJoin (s : State) : State :=
  if s.slot3Free && (s.convoyRefusal 3 s.cvy.joinAt s.cvy.code.toNat true).isNone &&
      (s.key s.cvy.joinAt ≤ nowK + 20 || !(s.convoyActs 3 s.cvy.joinAt s.cvy.code.toNat true).isEmpty) then
    s.convoyStage s.cvy.joinAt .join s.cvy.code.toNat 0 true
  else s

/-- A move that is not staged: it is answered at the pilot, a nak is sent, and the member is out of step (R276, R277). -/
def State.failMove (s : State) (m : CvyMove) (reason status cause : Nat) (retry : Bool) : State :=
  let s := s.settleMove m.mseq (convoyGone cause m.t)
  (s.sendNak reason 0 status m.mseq m.t).outOfStep m.mseq retry

/-- Whether a move is taken too late to stage. -/
def State.lateMove (s : State) (m : CvyMove) : Bool := decide (s.key m.t < nowK + 1280000)

/-- A move goes into the free slot 3, or is refused there: above the chart no catch-up follows (R276, R277, Table 10.7). -/
def State.stageMove (s : State) (m : CvyMove) : State :=
  match s.convoyRefusal 3 m.t m.code.toNat false with
  | some r => s.failMove m 2 r.status.toNat 11 (r.status ≠ stChart)
  | none => s.convoyStage m.t .move m.code.toNat m.mseq.toNat false

/-! ## CVY_JOIN 0x70 and its instant -/

/-- The multiple of 160,000 mt at or after an instant that lies so far ahead. -/
def State.spanAfter (s : State) (ahead : Nat) : Time := BitVec.ofNat 64 (alignUp (s.nowN + ahead) 160000)

/-- How far ahead an instant lies, 0 when it is past. -/
def State.ahead (s : State) (t : Time) : Nat := s.key t - nowK

/-- The join instant J: 80 µs after slot 3 became free, or is to become free once its keystone has been acknowledged (R268). -/
def State.joinInst (s : State) (req : Time) : Time :=
  let free := if s.slot3Free then min (s.key s.keys.freed3) nowK + 1280000 - nowK else s.key (s.slot 3).t + 16000 + 1280000 - nowK
  s.spanAfter (max (s.ahead req) (max 1600000 free))

/-- CVY_JOIN. -/
def cmdCvyJoin : Cmd :=
  {
    op := 0x70, len := lenIs 5, masks := [0xFFFFFFFF, 0x003FFFFF, 0xFFFF], changes := true
    form := fun s q =>
      let w := q.w64 1
      let c := fld (q.w 3) 0 16
      if joinId w = 0 || joinMember w > joinN1 w then some (badArgR 1)
      else if joinLead w = 0 || joinLead w > 10 then some (badArgR 2)
      else if c < 2560 || c > 40960 then some (badArgR 3)
      else badOf (instantBad s q 4)
    run := fun s q => orElse s
      ((if fld (q.w 3) 0 16 > (s.trust.charts.getD 0 {}).maxCode.toNat then [chartR 5 {}] else []) ++
       (if s.mer.st = .locked then [] else [noRefR]) ++
       (if !s.mer.epochSet || s.member then [notPermR 9 {}] else []) ++
       (if s.boot.cool = .good then [] else [notPermR 4 { item := 0x0B, aux := 0 }]))
      (let J := s.joinInst (q.w64 4)
       let w := q.w64 1
       let c := { s.cvy with
         st := .joining, join := w, tag := joinTag w, code := BitVec.ofNat 16 (fld (q.w 3) 0 16), joinAt := J, joinMbx := some q.mbx }
       ({ s with cvy := c }.stageJoin, .accepted (wordsOf 2 J.toNat))) }

/-- CVY_JOIN_INSTANT: at J the join keystone commits; a join that could not be staged aborts with cause validation. -/
def State.joinInstant (s : State) : State :=
  if s.cvy.st ≠ .joining then s
  else if s.key s.cvy.joinAt > nowK + 20 then s
  else if s.slot3Is .join then (if (s.slot 3).st = .sealed then s.launch 3 [] [] else s.abortKs 3 7 none)
  else
    let s := s.stageJoin
    if s.cvy.st = .joining then s.cvyFinish 11 else s

/-! ## CVY_LEAVE 0x71 and its instant -/

/-- A join in hand ends with a cause; the member stays one. -/
def State.endJoin (s : State) (cause : Nat) : State :=
  let s := if s.slot3Is .join then
      let s := s.settleO s.cvy.joinMbx (abortedR ((s.slot 3).res 3 .aborted cause none))
      (s.modSlot 3 (fun x => { x with kind := .catchUp })).abortKs 3 cause none
    else s.settleO s.cvy.joinMbx (convoyGone cause s.cvy.joinAt)
  { s with cvy := { s.cvy with joinMbx := none } }

/-- CVY_LEAVE. -/
def cmdCvyLeave : Cmd :=
  {
    op := 0x71, len := lenIs 2, changes := true
    form := fun s q => if s.inHorizon (q.w64 1) && decide (s.key (q.w64 1) ≥ nowK + 32000) then none else some (badArgR 1)
    run := fun s q => orElse s
      ((if !s.member || s.cvy.leaveAt.isSome then [notPermR 0xA {}] else []) ++ (if s.schedulable then [] else [noRefR]))
      (let s1 := if s.cvy.st = .joining then s.endJoin 1 else s
       ({ s1 with cvy := { s1.cvy with
            st := if s1.cvy.st = .suspended then .suspended else .leaving, leaveAt := some (q.w64 1), leaveMbx := some q.mbx } },
        .accepted [])) }

/-- CVY_LEAVE_INSTANT. -/
def State.leaveInstant (s : State) : State :=
  match s.cvy.leaveAt with
  | some T =>
    if !s.due T then s else
    let s := if s.slot3Is .move || s.slot3Is .catchUp then
        let n := b2n (s.slot3Is .move)
        let s := s.abortKs 3 1 none
        { s with cvy := { s.cvy with cWith := satAdd s.cvy.cWith n } }
      else s
    s.leaveSend.cvyFinish 1
  | none => s

/-! ## CVY_MOVE 0x72 -/

/-- Moves staged or queued. -/
def State.movesPending (s : State) : Nat := b2n (s.slot3Is .move) + s.cvy.queued.toList.length

/-- The commit instant of a move asked for now: behind every move still pending (R275). -/
def State.moveInst (s : State) (req : Time) : Time :=
  let pend := (if s.slot3Is .move then [(s.slot 3).t] else []) ++ s.cvy.queued.toList.map (·.t)
  let after := pend.map (fun t => s.key t + 1280000 - nowK)
  s.spanAfter (maxOr (max (s.ahead req) (max 1600000 (joinLead s.cvy.join * 160000 + 1440000))) after)

/-- The pilot takes moves now, for an instant. -/
def State.mayMove (s : State) (T : Time) : Bool :=
  joinMember s.cvy.join == 0 &&
  (match s.cvy.st with
   | .active => true
   | .joining => decide (s.key s.cvy.joinAt < s.key T)
   | .leaving => (match s.cvy.leaveAt with | some L => decide (s.key T ≤ s.key L) | none => true)
   | _ => false)

/-- The instant lies after the leave instant. -/
def State.afterLeave (s : State) (t : Time) : Bool :=
  match s.cvy.leaveAt with
  | some L => decide (s.key L < s.key t)
  | none => false

/-- A move that waits is staged as soon as slot 3 is free: ahead of any later one (R276). -/
def State.nextMove (s : State) : State :=
  match s.cvy.queued with
  | some m =>
    if !(s.slot3Free && (s.cvy.st = .active || s.cvy.st = .leaving)) then s else
    let s := { s with cvy := { s.cvy with queued := none } }
    if s.afterLeave m.t then
      let s := s.settleMove m.mseq (convoyGone 1 m.t)
      { s with cvy := { s.cvy with cWith := satInc s.cvy.cWith } }
    else s.stageMove m
  | none => s

/-- CVY_MOVE. -/
def cmdCvyMove : Cmd :=
  {
    op := 0x72, len := lenIs 3, masks := [0x1FFFF], changes := true
    form := fun s q =>
      let T := s.moveInst (q.w64 2)
      if fld (q.w 1) 0 16 < 2560 || fld (q.w 1) 0 16 > 40960 then some (badArgR 1)
      else if !s.inHorizon (q.w64 2) then some (badArgR 2)
      else if bit (q.w 1) 16 && s.member && T ≠ q.w64 2 then
        some (refR stBadArg 0 { item := 1, idx := 2, extra := T.toNat % 2 ^ 32, limit := T.toNat / 2 ^ 32 })
      else none
    run := fun s q =>
      let s := s.nextMove
      let T := s.moveInst (q.w64 2)
      let code := fld (q.w 1) 0 16
      let room := s.slot3Free && s.cvy.st ≠ .joining
      orElse s
        ((if s.member && s.mayMove T then [] else [notPermR 0xA {}]) ++ (if s.schedulable then [] else [noRefR]) ++
         (if s.movesPending ≥ 2 || (!room && s.cvy.queued.isSome) then [busyR {}] else []) ++
         (s.convoyRefusal (if room then 3 else 4) T code false).toList)
        (let m : CvyMove := { t := T, code := BitVec.ofNat 16 code, mseq := s.cvy.nextSeq }
         let s := { s with cvy := { s.cvy with
           nextSeq := m.mseq + 1, moveMbx := s.cvy.moveMbx ++ [(m.mseq, q.mbx)], latest := some m, seen := m.mseq :: s.cvy.seen } }
         let s := s.sendNotice 1 T.toNat (pack [(0, 16, code), (16, 32, m.mseq.toNat)]) (some T) false
         let s := if room then s.convoyStage T .move code m.mseq.toNat false else { s with cvy := { s.cvy with queued := some m } }
         (s, .accepted (wordsOf 2 T.toNat ++ [m.mseq]))) }

/-! ## CVY_STATUS 0x73 and CVY_COUNTERS 0x74 -/

/-- The convoy status word of Table 10.5. -/
def State.cvyStatus (s : State) : Nat :=
  let c := s.cvy
  pack [(0, 3, c.st.code), (3, 1, b2n c.oos), (4, 1, b2n (s.member && joinMember c.join == 0)), (8, 9, c.rate.toNat),
    (20, 2, s.movesPending), (32, 16, joinId c.join), (48, 16, c.code.toNat), (64, 16, joinMember c.join), (80, 16, c.tag.toNat),
    (96, 32, c.lastSeq.toNat)]

def cmdCvyStatus : Cmd :=
  {
    op := 0x73, run := fun s _ => (s, .final (okR (wordsOf 4 s.cvyStatus))) }

/-- The two pages of the convoy counters (Table 10.6). -/
def Cvy.pages (c : Cvy) : List (List Word) :=
  [[c.cMoves, c.cCatch] ++ c.cNaks ++ [c.cNakRx, c.cFolTx, c.cFolRx, c.cLate, c.cRange, c.cTag, c.cBad, c.cStall, c.cWith],
   [c.dWait, c.dLocal, c.dOos, c.dSusp].flatMap Dur.words]

/-- The page that a request of 15-word pages reads: page 0 takes the snapshot, a later page before any reads zeros (14 R332). -/
def pageOf (snap empty : List (List Word)) (p : Nat) : List Word := snap.getD p ((empty.getD p []).map (fun _ => 0))

def cmdCvyCounters : Cmd :=
  {
    op := 0x74, len := lenIs 1, masks := [0xF]
    form := fun _ q => if fld (q.w 1) 0 4 > 1 then some (badArgR 1) else none
    run := fun s q =>
      let p := fld (q.w 1) 0 4
      let s1 := if p = 0 then { s with cvy := { s.cvy with snap := s.cvy.pages } } else s
      (s1, .final (okR (pageOf s1.cvy.snap (Cvy.pages {}) p))) }

/-! ## Inbound notices (10 R272, R274, R276, R280, R281) -/

/-- Reserved bits of word 2 of a notice kind (Table 10.4). -/
def noticeRsv (kind : Nat) (w2 : Flit) : Bool :=
  match kind with
  | 1 => decide (fld w2 48 16 ≠ 0)
  | 2 => decide (fld w2 14 50 ≠ 0)
  | 3 => decide (fld w2 48 16 ≠ 0)
  | _ => decide (w2 ≠ 0)

/-- A notice that R272 discards. -/
def noticeBad (ws : List Flit) : Bool :=
  let w0 := ws.getD 0 0
  let kind := fld w0 0 4
  decide (ws.length ≠ 3) || kind == 0 || decide (kind > 4) || decide (fld w0 4 4 ≠ 1) || decide (fld w0 56 8 ≠ 0) ||
  noticeRsv kind (ws.getD 2 0) || (kind == 2 && (fld (ws.getD 2 0) 0 9 == 0 || decide (fld (ws.getD 2 0) 0 9 > 256)))

/-- The move is queued, or with the queue full answered with a nak. -/
def State.queueMove (s : State) (m : CvyMove) : State :=
  if s.cvy.queued.isNone then { s with cvy := { s.cvy with queued := some m } } else s.failMove m 3 0 6 true

/-- A move notice (R274, R276). -/
def State.takeMove (s : State) (m : CvyMove) : State :=
  if s.cvy.seen.contains m.mseq then s
  else
    let s := { s with cvy := { s.cvy with seen := m.mseq :: s.cvy.seen, latest := some m } }
    if s.cvy.st = .suspended then s.failMove m 4 0 4 true
    else if s.afterLeave m.t then { s with cvy := { s.cvy with cWith := satInc s.cvy.cWith } }
    else if s.lateMove m then s.failMove m 3 0 6 true
    else if s.cvy.st = .joining then
      if s.key s.cvy.joinAt < s.key m.t then s.queueMove m else s.failMove m 3 0 6 true
    else if s.slot3Free && s.cvy.queued.isNone then s.stageMove m
    else s.queueMove m

/-- The reasons of a follow's `why` field, in THR_CAUSE order. -/
def whyOf (w : Nat) : BitVec 12 :=
  BitVec.ofNat 12 (pack [(3, 1, w), (4, 1, w / 2), (5, 1, w / 4), (2, 1, w / 8), (7, 1, w / 16)])

/-- A follow notice (R280, R281). -/
def State.takeFollow (s : State) (inst : Time) (q : Nat) (why : Nat) : State :=
  let c := { s.cvy with cFolRx := satInc s.cvy.cFolRx }
  let till := inst + 16000000
  if s.key inst > nowK + 16 * 160000 || s.key till ≤ nowK then { s with cvy := { c with cRange := satInc c.cRange } }
  else
    let late := decide (s.key inst < nowK + 32000)
    let l : Lease := {
      from_ := if late then s.spanAfter 32000 else inst, till := till, q := BitVec.ofNat 9 q, why := whyOf why, own := false, inst := inst }
    { s with cvy := { c with leases := c.leases ++ [l], cLate := if late then satInc c.cLate else c.cLate } }

/-- The convoy port receives. -/
def State.cviUp (s : State) : Bool := !s.looping 6 &&
  s.member && !s.ctl.cvyRst && bit s.boot.clkRun 3

/-- The queue of 16 inbound notices is full: `cvi_ready` is 0, and the fabric holds what it has (02 R50). -/
def State.cviFull (s : State) : Bool := decide ((s.cvy.inAt.filter (fun t => decide (s.boot.uptime < t))).length ≥ 16)

/-- A notice enters the queue: it is taken at most 50 ns after the one before it (10 R274; log 85). -/
def State.cviQueue (s : State) : State :=
  let (v, s) := s.take .latency 801
  let q := s.cvy.inAt.filter (fun t => decide (s.boot.uptime < t))
  { s with cvy := { s.cvy with inAt := q ++ [max s.boot.uptime (q.getLastD 0) + v] } }

/-- A notice arrives; in no convoy `cvi_ready` is 0 and nothing arrives (02 R50). -/
def State.takeNotice (s : State) (n : Notice) : State :=
  let w0 := n.words.getD 0 0
  let w2 := n.words.getD 2 0
  let inst : Time := n.words.getD 1 0
  if !s.cviUp || s.cviFull then s
  else
  let s := s.cviQueue
  if (s.xings.main.getD 13 {}).stale then s.modXing 13 0 (fun x => { x with drops := satInc x.drops })
  else if noticeBad n.words then { s with cvy := { s.cvy with cBad := satInc s.cvy.cBad } }
  else if fld w0 8 16 ≠ joinId s.cvy.join || fld w0 40 16 ≠ s.cvy.tag.toNat then
    { s with cvy := { s.cvy with cTag := satInc s.cvy.cTag } }
  else match fld w0 0 4 with
    | 1 => s.takeMove { t := inst, code := BitVec.ofNat 16 (fld w2 0 16), mseq := w32 (fld w2 16 32) }
    | 2 => s.takeFollow inst (fld w2 0 9) (fld w2 9 5)
    | 3 => { s with cvy := { s.cvy with cNakRx := satInc s.cvy.cNakRx } }
    | _ => { s with cvy := { s.cvy with cLeave := satInc s.cvy.cLeave } }

/-! ## Slot 3, spans and catch-up -/

/-- CVY_QUEUED_MOVE_STAGE: slot 3 is free again: the join keystone, else the queued move, is staged. -/
def State.queuedStage (s : State) : State :=
  if !s.slot3Free then s
  else if s.cvy.st = .joining then s.stageJoin
  else s.nextMove

/-- A lease covers the span that runs. -/
def State.leaseNow (s : State) (l : Lease) : Bool :=
  decide (s.key l.from_ ≤ s.key s.boundary) && decide (s.key s.boundary < s.key l.till)

/-- SPAN_START: ended leases go; the follow rate is the least of the span's, and withdrawn own follows act locally (R280, R281). -/
def State.spanStart (s : State) : State :=
  let ls := s.cvy.leases.filter (fun l => decide (nowK < s.key l.till))
  let here := ls.filter s.leaseNow
  let loc := here.filter (·.local_)
  { s with cvy := { s.cvy with
      leases := ls
      rate := BitVec.ofNat 9 (minOr 256 ((here.filter (fun l => !l.local_)).map (fun l => l.q.toNat)))
      localQ := BitVec.ofNat 9 (minOr 256 (loc.map (fun l => l.q.toNat)))
      localWhy := loc.foldl (fun w l => w ||| l.why) 0 } }

/-- The instant at which a catch-up commits (R277). -/
def State.catchInst (s : State) : Time :=
  let far (T : Time) : Bool := s.cvy.queued.toList.all (fun m =>
    decide (s.key m.t + 1280000 ≤ s.key T) || decide (s.key T + 1280000 ≤ s.key m.t))
  let T0 := s.spanAfter 1280000
  (((List.range 64).map (fun j => T0 + BitVec.ofNat 64 (j * 160000))).find? far).getD T0

/-- CATCH_UP: an out-of-step member stages the latest code received. -/
def State.catchUp (s : State) : State :=
  let c := s.cvy
  if !(c.oos && c.retry && s.slot3Free && (c.st = .active || c.st = .leaving)) then s
  else match c.latest with
    | none => s
    | some m =>
      let T := s.catchInst
      if s.afterLeave T then s
      else match s.convoyRefusal 3 T m.code.toNat false with
        | some r => if r.status = stChart || r.status = stNotPermitted then { s with cvy := { c with retry := false } } else s
        | none => s.convoyStage T .catchUp m.code.toNat m.mseq.toNat false

/-- NOTICE_WITHDRAW: notices still unsent at their instant are withdrawn and counted; the member acts locally on its own follow
from I (02 R50; 10 R281). -/
def State.noticeWithdraw (s : State) : State :=
  let gone (n : OutNotice) : Bool := decide (n.words.length = 3) && (match n.until_ with | some t => s.due t | none => false)
  let xs := s.cvy.out.filter gone
  let insts := (xs.filter (·.follow)).filterMap (·.until_)
  { s with cvy := { s.cvy with
      out := s.cvy.out.filter (fun n => !gone n), cWith := satAdd s.cvy.cWith xs.length
      leases := s.cvy.leases.map (fun l => if l.own && insts.contains l.inst then { l with local_ := true } else l) } }

/-! ## Loss of reference and breaks (10 R283) -/

/-- The member is suspended: a queued move is withdrawn and answered with a nak, a join not yet staged ends; a staged move has
aborted with cause reference before. -/
def State.cvySuspend (s : State) : State :=
  match s.cvy.st with
  | .joining => if s.slot3Is .join then s else s.cvyFinish 4
  | .active | .leaving =>
    let q := s.cvy.queued
    let s := { s with cvy := { s.cvy with st := .suspended, queued := none } }
    s.each q.toList (fun s m => s.failMove m 4 0 4 true)
  | _ => s

/-- The member goes back to its state before the suspension. -/
def State.cvyResume (s : State) : State :=
  if s.cvy.st = .suspended then
    { s with cvy := { s.cvy with st := if s.cvy.leaveAt.isSome then .leaving else .active } }
  else s

/-- A break has marked the epoch unset: membership ends. -/
def State.cvyLost (s : State) : State := if s.member then (s.cvyFinish 5).raise0 0x802 0 else s

def execCvyJoin (dt : Nat) (q : Req) (s : State) : Step := .next (postCmd cmdCvyJoin dt q s)
def execCvyLeave (dt : Nat) (q : Req) (s : State) : Step := .next (postCmd cmdCvyLeave dt q s)
def execCvyMove (dt : Nat) (q : Req) (s : State) : Step := .next (postCmd cmdCvyMove dt q s)
def execCvyStatus (dt : Nat) (q : Req) (s : State) : Step := .next (postCmd cmdCvyStatus dt q s)
def execCvyCounters (dt : Nat) (q : Req) (s : State) : Step := .next (postCmd cmdCvyCounters dt q s)
def execCvyMoveNotice (dt : Nat) (n : Notice) (s : State) : Step := event dt s (fun s => s.takeNotice n)
def execCvyFollowNotice (dt : Nat) (n : Notice) (s : State) : Step := event dt s (fun s => s.takeNotice n)
def execCvyNakNotice (dt : Nat) (n : Notice) (s : State) : Step := event dt s (fun s => s.takeNotice n)
def execCvyLeaveNotice (dt : Nat) (n : Notice) (s : State) : Step := event dt s (fun s => s.takeNotice n)
def execCvyQueuedMoveStage (dt : Nat) (s : State) : Step := event dt s State.queuedStage
def execCvyJoinInstant (dt : Nat) (s : State) : Step := event dt s State.joinInstant
def execCvyLeaveInstant (dt : Nat) (s : State) : Step := event dt s State.leaveInstant
def execSpanStart (dt : Nat) (s : State) : Step := event dt s State.spanStart
def execCatchUp (dt : Nat) (s : State) : Step := event dt s State.catchUp
def execNoticeWithdraw (dt : Nat) (s : State) : Step := event dt s State.noticeWithdraw
/-- CVO_READY: the fabric raises `cvo_ready`, for good or for so many words, and held words move (02 R50). -/
def State.cvoReady (s : State) (words : Option Nat) : State :=
  match words with
  | none => { s with cvy := { s.cvy with ready := true } }.cvyPump
  | some k => { s with cvy := { (if s.cvyUp then s.cvy.sendUpTo k else s.cvy).hold with ready := false } }

def execCvoReady (rise : ReadyRise) (s : State) : Step := event rise.dt s (fun s => s.cvoReady rise.words)

end Sys2Proof.Machine
end

