-- ==== Sys2Proof/Machine/Meridian.lean ====
section
/-! DEFINITION. Meridian time: lock, pulses, loss of reference, return, slew and breaks, and the lodestar with its reference check
(03 R75 to R87, R101 to R104; 02 R55 to R58; 18 R403; 04 R137; commands 0x56 to 0x58). -/

namespace Sys2Proof.Machine

open Sys2Proof

/-- One pulse period in mt. -/
def pulseMt : Nat := 16000000

/-! ## States (03 R81) -/

/-- A new meridian state raises `mer_state` (17 Table 17.2). -/
def State.setMer (s : State) (m : MerSt) : State :=
  if s.mer.st = m then s else { s with mer := { s.mer with st := m } }.raise0 0x109 m.code

/-- A new baseline of the reference check starts, and with it the count of the pulses that it is measured over (03 R102). -/
def State.newBaseline (s : State) : State :=
  { s with sxt := { s.sxt with offsets := [], base := none, dev := 0, pulses := none, checkAt := s.boot.uptime } }

/-- LOCKED is entered: a new baseline starts and a suspended member resumes (R84, 10 R283). -/
def State.enterLocked (s : State) : State :=
  let s := s.setMer .locked
  let s := { s with
    mer := { s.mer with offset := 0, aligned := 0, badRun := 0 }
    boot := { s.boot with lockedOnce := true } }
  s.newBaseline.cvyResume

/-! ## Loss of reference (03 R81, R83; 04 R137; 08 Table 8.5) -/

/-- The scheduled changes of a tile that a loss withdraws: enables, handovers and swaps later than now. -/
def State.lossGone (s : State) (i : Nat) (x : Sched) : Bool :=
  !x.ks && decide (nowK < s.key x.at_) &&
  (match x.act with
   | .enable => true
   | .swap => true
   | .code _ => (s.tile i).live && isHandover (s.expAt i (s.key x.at_) none []) x.act.chg
   | _ => false)

/-- A withdrawn change that the Helm schedules again once the reference has returned: a handover or an automatic swap, on which no
command waits (Table 3.3). -/
def Sched.again (x : Sched) : Bool := x.moves && x.mbx.isNone

/-- Scheduled changes of a tile are withdrawn, counted and answered with NO_REFERENCE; a handover under way for one of them
ends (Table 14.15). Those of `keep` are held for the return. -/
def State.withdraw (s : State) (i : Nat) (gone keep : List Sched) : State :=
  if gone.isEmpty then s else
  let s := s.modTile i (fun t => { t with
    sched := t.sched.filter (fun x => !gone.contains x), withdrawn := satAdd t.withdrawn gone.length
    resched := t.resched ++ keep.map (·.act)
    stby := if t.hov.any (fun h => gone.any (fun x => x.at_ == h.at_)) && t.stby ≠ .off then .calibrating else t.stby
    hov := t.hov.filter (fun h => !gone.any (fun x => x.at_ == h.at_)) })
  s.each gone (fun s x => s.settleO x.mbx noRefR)

/-- HOLDOVER is entered from LOCKED or SLEWING. -/
def State.holdover (s : State) : State :=
  let s := { s with mer := { s.mer with epochPend := none, aligned := 0, badRun := 0 } }.setMer .holdover
  let s := s.each [0, 1, 2, 3] (fun s k => if nowK < s.key (s.slot k).t then s.abortKs k 4 none else s)
  let s := s.each allTiles (fun s i =>
    let gone := (s.tile i).sched.filter (s.lossGone i)
    s.withdraw i gone (gone.filter Sched.again))
  s.cvySuspend

/-- A withdrawn handover of tile i is scheduled again: at an instant that the manual leaves to the Helm, where the rules of a new one
admit it (Table 3.3; log 82). -/
def State.reschedule (s : State) (i : Nat) (a : SchedAct) : State :=
  let (v, s) := s.take .latency (2 ^ 40 - 1024000)
  let T := s.mer.now + BitVec.ofNat 64 (1024001 + v)
  let errs := s.tileErrs nowK i (s.key T) (s.expAt i (s.key T) none []) a.chg false false (s.moveTimes i none)
  if !errs.isEmpty || s.moveClash i T then s
  else s.modTile i (fun t => { t with sched := t.sched ++ [{ at_ := T, act := a, auto := decide (a = .swap) }] })

/-- The handovers withdrawn at the loss are scheduled again. -/
def State.rescheduleAll (s : State) : State :=
  s.each allTiles (fun s i =>
    let l := (s.tile i).resched
    if l.isEmpty then s else (s.modTile i (fun t => { t with resched := [] })).each l (fun s a => s.reschedule i a))

/-- Loss of reference is declared, of the reference or of the pulse (02 R55). -/
def State.refLost (s : State) (pulse : Bool) : State :=
  let gone (s : State) : State := { s with
    boot := { s.boot with refOk := false, fallRun := 0 }, mer := { s.mer with refBack := false, plls := false, aligned := 0, badRun := 0 } }
  let old := s.mer.st.code
  match s.mer.st with
  | .unlocked => s
  | .acquiring =>
    let s := ((gone s).raise 0x101 (b2n pulse) old).setMer .unlocked
    { s with mer := { s.mer with now := 0, frac := 0, running := false } }
  | .locked | .slewing => ((gone s).raise 0x101 (b2n pulse) old).holdover
  | .holdover => if s.boot.refOk then (gone s).raise 0x101 (b2n pulse) old else s

/-- REF_VALID: `ref` has been valid for 10 µs. -/
def State.refValid (s : State) : State :=
  if s.boot.refOk then s else
  let s := { s with boot := { s.boot with refOk := true } }
  match s.mer.st with
  | .unlocked => s.setMer .acquiring
  | .holdover => { s with mer := { s.mer with refBack := true } }
  | _ => s

/-- PLL_LOCK: the core, rck and sxt PLLs lock; at the first lock the delay lines of channels 0–59 lock and their bring-up
calibration starts (Table 3.2 step 2, R88; 18 R403; 02 R48). -/
def State.pllLock (s : State) : State :=
  if !s.boot.refOk || s.mer.plls || !(s.mer.st = .acquiring || s.mer.st = .holdover) then s else
  let first := !bit s.boot.clkRun 4
  let s := { s with
    mer := { s.mer with plls := true }
    boot := { s.boot with clkRun := s.boot.clkRun ||| 0x70, hailClk := true } }
  if first then
    { s with sxt := { s.sxt with chans := s.sxt.chans.mapIdx (fun i (c : Chan) =>
        if i < 60 then { c with lock := true, caling := true } else c) } }
  else s

/-! ## Bring-up calibration (18 R403) -/

/-- HARDWARE_BRINGUP_CAL: one part of it has ended, with the tiles, sensors and channels that failed. -/
def State.bringup (s : State) (part : BringupPart) (tiles : List (BitVec 8)) (sens : List (BitVec 8 × Bool))
    (chans : List (BitVec 6)) : State :=
  match part with
  | .mortarThermal =>
    if !bit s.boot.clkRun 4 || s.boot.bootCal then s else
    let bt := tiles.filter (fun t => s.present t.toNat)
    let bs := sens.filter (fun x => s.present x.1.toNat)
    let s := s.each bt (fun s t => s.fence t.toNat 9)
    let s := s.each bs (fun s x =>
      let i := x.1.toNat
      if (if x.2 then (s.tile i).failS1 else (s.tile i).failS0) then s else
      let s := (s.modTile i (fun t => { t with
        failS0 := t.failS0 || !x.2, failS1 := t.failS1 || x.2, senFaults := satInc t.senFaults })).raise 0x306 i (b2n x.2)
      if (s.tile i).failS0 && (s.tile i).failS1 then s.fence i 5 else s)
    { s with boot := { s.boot with bootCal := true, calFail := s.boot.calFail || !bt.isEmpty || !bs.isEmpty } }
  | .sextants =>
    let mine := (List.range 60).filter (fun c => (s.chan c).caling)
    if mine.isEmpty || s.boot.sxtCal then s else
    let bad := mine.filter (fun c => chans.contains (BitVec.ofNat 6 c))
    let s := s.each mine (fun s c => s.endCal c (!bad.contains c))
    { s with boot := { s.boot with sxtCal := true, calFail := s.boot.calFail || !bad.isEmpty } }
  | .lodestar =>
    let mine := [60, 61, 62, 63].filter (fun c => (s.chan c).caling)
    if mine.isEmpty || s.boot.lodeCal then s else
    let bad := mine.filter (fun c => chans.contains (BitVec.ofNat 6 c))
    let s := s.each mine (fun s c => s.endCal c (!bad.contains c))
    { s with boot := { s.boot with lodeCal := true, calFail := s.boot.calFail || !bad.isEmpty } }

/-! ## Breaks (03 R86) -/

/-- The window setups that wait on a channel are withdrawn with their commands: their open instants lie on the old time. -/
def State.dropWindows (s : State) (ch : Nat) : State :=
  let gone := (s.chan ch).waits.filter (fun w => sxArm w.1 == 2)
  (s.modChan ch (fun c => { c with waits := c.waits.filter (fun w => sxArm w.1 != 2) })).each gone (fun s w => s.finishO w.2.2.2 noRefR)

/-- Windows on channels 0–59 close and those that wait, for their open instant or for the channel, are withdrawn; a pair in hand on any
of these channels carries `brk`. -/
def State.breakWindows (s : State) : State :=
  s.each (List.range 60) (fun s ch =>
    let s := s.dropWindows ch
    let c := s.chan ch
    let s := if c.armed then s.modChan ch (fun c => { c with fBrk := true }) else s
    if sxArm c.setup = 2 then (s.modChan ch (fun c => { c with setup := setFld c.setup 29 2 0 })).disarmNow ch else s)

/-- What a break leaves of the plans that are no tile's: none of the domain returns, captures, trace starts, leaves and moves. -/
def State.breakDrop (s : State) : State :=
  let mv := s.cvy.queued.toList
  let c := { s.cvy with
    leaveAt := none, leaveMbx := none, queued := none, leases := [], lastOwn := none, owe := none, st := if s.cvy.st = CvySt.leaving then CvySt.active else s.cvy.st }
  let s1 : State := { s with
    domRet := s.domRet.map (fun _ => none)
    keys := { s.keys with caps := [], recentT := [] }
    log := { s.log with armed := s.log.armed && s.log.runs }
    cvy := c }
  let s2 := if c.st = .joining then s1.cvyFinish 5 else s1
  s2.each mv (fun s m => ((s.settleMove m.mseq (convoyGone 5 m.t)).sendNak 1 5 0 m.mseq m.t).outOfStep m.mseq true)

/-- Every scheduled action other than a Reckoner plan is withdrawn: tile changes not yet committed by a keystone, domain returns,
captures, a trace start, a convoy leave, a queued move, a join not yet staged. -/
def State.breakSched (s : State) : State :=
  let s := s.each allTiles (fun s i => s.withdraw i ((s.tile i).sched.filter (fun x => !x.ks)) [])
  let rets : List (BitVec 3) := s.domRet.filterMap (fun o => o.bind (fun x => x.2))
  let caps : List (BitVec 3) := s.keys.caps.filterMap (fun c => c.mbx)
  (((s.each rets (fun s m => s.settle m noRefR)).each caps (fun s m => s.settle m noRefR)).settleO s.cvy.leaveMbx noRefR).breakDrop

/-- The counter steps to a new value: a break. `unset` marks the epoch unset; an epoch command leaves it set. -/
def State.breakTo (s : State) (new : Time) (unset : Bool) : State :=
  let old := s.mer.now
  let s := s.each [0, 1, 2, 3] (fun s k => s.abortKs k 5 none)
  let s := s.breakSched.breakWindows
  let late := sumN (s.tiles.map (fun t => t.window.length))
  let s := { s with
    tiles := s.tiles.map (fun (t : Tile) => { t with window := [], movedAt := none, hovDone := none, hailed := [] })
    boot := { s.boot with thermAt := none, examAt := none }
    power := { s.power with ivAt := none, capAt := [none, none, none], writes := [(new, 0), (new, 0)] }
    ledger := { s.ledger with snapAt := none }
    rails := s.rails.map (fun (r : Rail) => { r with wbackAt := new, lowerAt := new })
    keys := { s.keys with freed3 := new }
    rck := { s.rck with
      recLate := satAdd s.rck.recLate late, flight := false, snapAt := 0, stepAt := new, unloadAt := new, watchSkip := false
      classes := s.rck.classes.map (fun (c : Cls) => { c with winCnt := 0, winMove := false, winUnder := false }) }
    mer := { s.mer with
      now := new, frac := 0, breaks := satInc s.mer.breaks, epochPend := none, epochSet := s.mer.epochSet && !unset }
    ctl := { s.ctl with brk := true }
    log := { s.log with brks := BitVec.allOnes 32 } }
  let s := s.each allTiles State.abandonRun
  let s : State := s.raiseC 0x104 none (b2n unset) (some (old.toNat, 0))
  let s := s.clearHistory.enterWarmup
  if unset then s.cvyLost else s

/-- The multiple of 16,000,000 mt nearest to the counter. -/
def State.nearest (s : State) : Nat := (s.nowN + pulseMt / 2) / pulseMt * pulseMt

/-- The reference has returned with two aligned pulses: slew a small offset away, or break (R85). -/
def State.refReturn (s : State) : State :=
  let off : Int := (s.nowN : Int) - (s.nearest : Int)
  if off.natAbs ≤ 160000 then
    let s := { s with mer := { s.mer with offset := off, slewMt := 0, aligned := 0, badRun := 0 } }.setMer .slewing
    (if off = 0 then s.enterLocked else if off.natAbs ≤ 16 then s.cvyResume else s).rescheduleAll
  else ((s.breakTo (BitVec.ofNat 64 s.nearest) (decide (off.natAbs > 4000000))).enterLocked).rescheduleAll

/-- The counter with 1 mt added, or dropped from what has passed since it last moved: meridian time never decreases (R76). -/
def Mer.slew (m : Mer) : Mer :=
  if m.offset > 0 then
    { m with
      now := if m.frac = 0 then m.now - 1 else m.now, frac := m.frac - 1, offset := m.offset - 1, slewMt := m.slewMt - 160000 }
  else { m with now := m.now + 1, offset := m.offset + 1, slewMt := m.slewMt - 160000 }

/-- SLEW_STEP: 1 mt is added or dropped once per 1,000 reference periods of 160 mt; a drop needs time to have passed (R76, R85). -/
def State.slewStep (s : State) (dt : Nat) : State :=
  let off := s.mer.offset
  if s.mer.st ≠ .slewing || off = 0 || s.mer.slewMt < 160000 || (decide (off > 0) && s.mer.frac == 0 && dt == 0) then s else
  let s := { s with mer := s.mer.slew }
  if s.mer.offset = 0 then s.enterLocked
  else if s.mer.offset.natAbs ≤ 16 then s.cvyResume else s

/-! ## Pulses (03 R75, R78, R79, R81, R82; 02 R55, R56) -/

/-- The broadcast of the full value: a tile whose copy differs by more than 32 mt loads it, counts, and withholds scheduled
actions until the next that agrees; three in succession fence it (R79). -/
def State.broadcast (s : State) (diffs : List (BitVec 8 × Int)) : State :=
  let off := (diffs.filter (fun d => decide (d.2.natAbs > 32) && s.present d.1.toNat && !(s.tile d.1.toNat).fenced))
  let s := { s with tiles := s.tiles.mapIdx (fun i (t : Tile) =>
    if off.any (fun d => d.1.toNat == i) then { t with mism := t.mism + 1, mismCnt := satInc t.mismCnt, withhold := true }
    else { t with mism := 0, withhold := false }) }
  s.each off (fun s d =>
    let i := d.1.toNat
    let s := s.raise 0x105 i (twos 32 d.2)
    if (s.tile i).mism ≥ 3 then s.fence i 8 else s)

/-- A pending epoch setting at a pulse in LOCKED (R78). -/
def State.epochPulse (s : State) : State :=
  match s.mer.epochPend with
  | none => s
  | some (n, k) =>
    if k > 1 then { s with mer := { s.mer with epochPend := some (n, k - 1) } }
    else
      let new : Time := BitVec.ofNat 64 (n.toNat * pulseMt)
      let s := { s with mer := { s.mer with epochPend := none, epochSet := true } }
      if new = BitVec.ofNat 64 s.nearest then s else s.breakTo new false

/-- A pulse that meets the alignment window, in each state. -/
def State.goodPulse (s : State) (periods : Nat) : State :=
  let s := { s with mer := { s.mer with badRun := 0 } }
  match s.mer.st with
  | .acquiring =>
    if !s.mer.plls then s
    else if s.mer.aligned ≥ 1 && periods == 100000 then
      { s with mer := { s.mer with now := BitVec.ofNat 64 pulseMt, frac := 0, running := true } }.enterLocked
    else { s with mer := { s.mer with aligned := if s.mer.aligned ≥ 1 then 0 else 1 } }
  | .holdover =>
    if !(s.mer.refBack && s.mer.plls) then s
    else if s.mer.aligned ≥ 1 then s.refReturn
    else { s with mer := { s.mer with aligned := 1 } }
  | _ => s

/-- A pulse outside the window: the third in succession is a loss. -/
def State.badPulse (s : State) : State :=
  let n := s.mer.badRun + 1
  let m := { s.mer with badRun := n, aligned := 0, alignCnt := if s.schedulable then satInc s.mer.alignCnt else s.mer.alignCnt }
  let s := { s with mer := m }
  if n ≥ 3 then s.refLost true else s

/-- A swapped pair is corrected: after lock that is a loss first (R56). -/
def State.swapFix (s : State) (mer : Bool) : State :=
  let s := if s.schedulable then s.refLost mer else s
  let s := { s with mer := { s.mer with aligned := 0, badRun := 0 } }
  if mer then { s with boot := { s.boot with merSwap := true, fallRun := 0 } }.raise0 0x103 0
  else { s with boot := { s.boot with refSwap := true, fallRun := 0 } }.raise0 0x102 0

/-- The lodestar measures: it is enabled and its PLL is locked. -/
def State.lodeOk (s : State) : Bool := s.sxt.enabled && s.sxt.locked

/-- Holdover is steered by the lodestar: it is healthy, and a completed baseline of the reference check is in force (R84). -/
def State.assisted (s : State) : Bool := decide (s.mer.st = .holdover) && s.lodeOk && s.sxt.base.isSome

/-- Channel 63 timestamps a meridian pulse in lodestar time and counts it (R102). -/
def State.pulse63 (s : State) : State :=
  if !s.lodeOk then s
  else { s with sxt := { s.sxt with pulseAt := s.sxt.time, pulses := some (match s.sxt.pulses with | some n => n + 1 | none => 0) } }

/-- MERIDIAN_PULSE. A pulse outside the alignment window counts as one of the two after an epoch setting (log 83). -/
def State.meridianPulse (s : State) (periods : Nat) (al : PulseAlign) (longHigh : Bool) (diffs : List (BitVec 8 × Int)) : State :=
  if s.mer.st = .unlocked then s
  else if longHigh then s.swapFix true
  else
    let s := { s.pulse63 with
      boot := { s.boot with fallRun := if al = PulseAlign.refFalling then s.boot.fallRun + 1 else 0 }
      mer := { s.mer with interCnt := if s.mer.st = MerSt.locked && periods ≠ 100000 then satInc s.mer.interCnt else s.mer.interCnt } }
    let s := if s.mer.st = .locked then s.epochPulse else s
    let s := if s.mer.running then s.broadcast diffs else s
    if al = .refFalling && s.boot.fallRun ≥ 2 then s.swapFix false
    else if al = .inWindow then s.goodPulse periods
    else s.badPulse

/-! ## The lodestar (03 R101 to R104, 02 R58) -/

/-- The event of a reference check that suspects. -/
def State.suspect (s : State) : State := { s with sxt := { s.sxt with suspects := satInc s.sxt.suspects } }.raise0 0x106 0

/-- A check of the reference is due: 1,000 pulses since the last, or on the held counter 1 s (R102, R103). -/
def State.checkDue (s : State) : Bool :=
  if s.mer.st = .holdover then decide (s.boot.uptime ≥ s.sxt.checkAt + 16000000000)
  else s.sxt.pulses.any (fun n => decide (1000 ≤ n))

/-- REF_CHECK: the offset of 1,000 pulses, or of 1 s of the held counter, from their lodestar interval in LSB (R102, R103). -/
def State.refCheck (s : State) (delta : Nat) : State :=
  if !s.lodeOk || s.mer.st = .unlocked || s.mer.st = .acquiring || delta = 0 || !s.checkDue then s else
  let off : Int := ((128000000000 - (delta : Int)) * 1000000000).tdiv (delta : Int)
  let offs := if s.sxt.base.isSome then s.sxt.offsets else s.sxt.offsets ++ [off]
  let base := match s.sxt.base with
    | some b => some b
    | none => if offs.length ≥ 16 then some ((offs.foldl (· + ·) 0).tdiv 16) else none
  let dev := match s.sxt.base with
    | some b => if (off - b).natAbs > s.sxt.thr then s.sxt.dev + 1 else 0
    | none => 0
  let x := { s.sxt with offsets := offs, base := base, last := off, dev := if dev ≥ 3 then 0 else dev }
  let s := { s with sxt := { x with pulses := x.pulses.map (· - 1000), checkAt := s.boot.uptime } }
  if dev ≥ 3 || off.natAbs > 120000 then s.suspect else s

/-- Reason code of a crystal fault. -/
def xoWhy : XoFault → Nat
  | .low => 1 | .high => 2 | .freq => 3

/-- The crystal has failed. -/
def State.xoFail (s : State) (k : XoFault) : State :=
  let s := s.lodeOff xoR
  let s := { s with
    boot := { s.boot with xoOk := false, xoWindow := false, xoGoodAt := s.boot.uptime, lodeCal := false, clkRun := s.boot.clkRun &&& 0x7F }
    sxt := { s.sxt with enabled := false } }
  s.raise0 0x107 (xoWhy k)

/-- XO_FAULT: low amplitude counts outside the start-up window only, the frequency only against a locked reference; while the
lodestar is off an amplitude out of range restarts its 10 ms (R58). -/
def State.xoFault (s : State) (k : XoFault) : State :=
  if !s.sxt.enabled then { s with boot := { s.boot with xoGoodAt := if k = .freq then s.boot.xoGoodAt else s.boot.uptime } }
  else if (k = .low && s.boot.xoWindow) || (k = .freq && !(s.schedulable && s.sxt.locked)) then s
  else s.xoFail k

/-- XO_STARTUP_WINDOW_END. -/
def State.xoWindowEnd (s : State) (low : Bool) : State :=
  if !s.boot.xoWindow then s
  else if low then s.xoFail .low
  else { s with boot := { s.boot with xoWindow := false, xoOk := true } }

/-- LODESTAR_PLL_LOCK: lodestar time starts at 0, channels 60–63 lock their delay lines and begin their calibration, and channel
63 begins the reference check with a new baseline. -/
def State.lodeLock (s : State) : State :=
  if !s.sxt.enabled || s.sxt.locked then s else
  let s := { s with
    boot := { s.boot with xoOk := true, clkRun := s.boot.clkRun ||| 0x80 }
    sxt := { s.sxt with
      locked := true, time := 0, rem := 0, ageTick := 0
      chans := s.sxt.chans.mapIdx (fun i (c : Chan) => if i < 60 then c else { c with lock := true, caling := true }) } }
  s.newBaseline

/-- The 1 kHz lodestar ticks that have passed (03 R101). -/
def Sxt.ticks (x : Sxt) : Nat := x.time.toNat / 16000000

/-- LODESTAR_TICK: an adjustment set before the tick takes effect, unless crossing 18 keeps what it took before; at the end of lodestar time its channels disarm (R101, 17 Table 17.4). -/
def State.lodeTick (s : State) : State :=
  if !s.lodeOk then s else
  let s := { s with sxt := { s.sxt with ageNow := if s.sxt.ageTick < s.sxt.ticks && s.xingOk 18 then s.sxt.age else s.sxt.ageNow } }
  if s.sxt.time = BitVec.allOnes 64 then s.each [60, 61, 62, 63] (fun s ch => s.disarmNow ch) else s

/-- The session that a request comes from is an operator's (16 R376). -/
def State.isOperator (s : State) (h : BitVec 3) : Bool :=
  match s.trust.sess.getD h.toNat none with
  | some x => x.operator && !x.half
  | none => false

/-- A refusal of a lodestar command to a role that may not issue it. -/
def State.roleErrs (s : State) (q : Req) : List Resp := if s.isOperator q.sess then [] else [notPermR 0xA {}]

/-- LODE_AGE 0x56. -/
def cmdLodeAge : Cmd :=
  {
    op := 0x56, len := lenIs 1, masks := [0xFFFF], sess := true, needs := [18, 19], changes := true
    run := fun s q => orElse s (s.roleErrs q ++ (if s.xoFaulted then [xoR] else []))
      (let new := BitVec.ofNat 16 (fld (q.w 1) 0 16)
       let old := s.sxt.age
       let s1 := { s with sxt := { s.sxt with age := new, ageChk := 0, ageTick := s.sxt.ticks } }
       (if new = old then s1 else (s1.raise0 0x10A (old.toNat + 65536 * new.toNat)).newBaseline, .final (okR []))) }

/-- LODE_CHECK 0x57. -/
def cmdLodeCheck : Cmd :=
  {
    op := 0x57, len := lenIs 1, masks := [0x1FFFF], sess := true, needs := [18, 19]
    form := fun _ q =>
      let t := fld (q.w 1) 0 17
      if t = 0 || (50 ≤ t && t ≤ 100000) then none else some (badArgR 1)
    run := fun s q => orElse s (s.roleErrs q)
      (let t := fld (q.w 1) 0 17
       let s1 := if t = 0 then s else { s with sxt := { s.sxt with thr := t } }
       (s1, .final (okR [w32 (twos 32 s1.sxt.last), w32 (twos 32 (s1.sxt.base.getD 0)), w32 s1.sxt.thr, w32 s1.sxt.age.toNat]))) }

/-- LODE_ENABLE 0x58: host firmware re-enables the lodestar once the amplitude has held in range for 10 ms. -/
def cmdLodeEnable : Cmd :=
  {
    op := 0x58, needs := [18, 19], changes := true
    run := fun s _ =>
      if s.sxt.enabled then (s, .final (okR []))
      else orElse s (if s.boot.uptime < s.boot.xoGoodAt + 160000000 then [xoR] else [])
        ({ s with
            boot := { s.boot with xoWindow := true }
            sxt := { s.sxt with enabled := true, restarts := satInc s.sxt.restarts } }, .final (okR [])) }

def execLodeEnable (dt : Nat) (q : Req) (s : State) : Step := .next (postCmd cmdLodeEnable dt q s)
def execRefValid (dt : Nat) (s : State) : Step := event dt s State.refValid
def execPllLock (dt : Nat) (s : State) : Step := event dt s State.pllLock
def execHardwareBringupCal (dt : Nat) (part : BringupPart) (bt : List (BitVec 8)) (bs : List (BitVec 8 × Bool))
    (bc : List (BitVec 6)) (s : State) : Step := event dt s (fun s => s.bringup part bt bs bc)
def execMeridianPulse (dt periods : Nat) (al : PulseAlign) (longHigh : Bool) (diffs : List (BitVec 8 × Int)) (s : State) : Step :=
  event dt s (fun s => s.meridianPulse periods al longHigh diffs)
def execRefLoss (dt : Nat) (pulse : Bool) (s : State) : Step := event dt s (fun s => s.refLost pulse)
def execSlewStep (dt : Nat) (s : State) : Step := event dt s (fun s => s.slewStep dt)
def execRefCheck (dt delta : Nat) (s : State) : Step := event dt s (fun s => s.refCheck delta)
def execXoFault (dt : Nat) (k : XoFault) (s : State) : Step := event dt s (fun s => s.xoFault k)
def execXoStartupWindowEnd (dt : Nat) (low : Bool) (s : State) : Step := event dt s (fun s => s.xoWindowEnd low)
def execLodestarPllLock (dt : Nat) (s : State) : Step := event dt s State.lodeLock
def execLodestarTick (dt : Nat) (s : State) : Step := event dt s State.lodeTick

end Sys2Proof.Machine
end

