-- ==== Sys2Proof/Machine/Crypto.lean ====
section
/-! DEFINITION. The algorithms that 16 names by their standards: SHA-384 (FIPS 180-4), HMAC and HKDF (RFC 2104, RFC 5869), ECDSA
on P-384 (FIPS 186-5, SP 800-186). Their content comes from those standards and not from the manual (log 12). -/

namespace Sys2Proof.Machine

open Sys2Proof

/-! ## SHA-384 -/

/-- The largest x below 2^bits with `p x`, for a downward closed predicate. -/
def rootBits (p : Nat → Bool) : Nat → Nat → Nat
  | 0, acc => acc
  | n + 1, acc => rootBits p n (if p (acc + 2 ^ n) then acc + 2 ^ n else acc)

/-- The first 80 primes. -/
def primes80 : List Nat :=
  ((List.range 410).filter (fun n => decide (2 ≤ n) && (List.range 21).all (fun d => decide (d < 2) || decide (d = n) || n % d != 0))).take 80

/-- The first 64 bits of the fractional part of the cube root of a prime. -/
def cubeFrac (p : Nat) : BitVec 64 := BitVec.ofNat 64 (rootBits (fun x => decide (x * x * x ≤ p * 2 ^ 192)) 68 0)

/-- The first 64 bits of the fractional part of the square root of a prime. -/
def sqrtFrac (p : Nat) : BitVec 64 := BitVec.ofNat 64 (rootBits (fun x => decide (x * x ≤ p * 2 ^ 128)) 70 0)

/-- The round constants of SHA-512. -/
def shaK : List (BitVec 64) := primes80.map cubeFrac

/-- The initial value of SHA-384. -/
def shaInit : List (BitVec 64) := ((primes80.drop 8).take 8).map sqrtFrac

/-- The 80 schedule words of a block, newest first. -/
def shaSched : Nat → List (BitVec 64) → List (BitVec 64)
  | 0, w => w
  | n + 1, w =>
    let g (i : Nat) : BitVec 64 := w.getD i 0
    let x15 := g 14
    let x2 := g 1
    let s0 := x15.rotateRight 1 ^^^ x15.rotateRight 8 ^^^ (x15 >>> 7)
    let s1 := x2.rotateRight 19 ^^^ x2.rotateRight 61 ^^^ (x2 >>> 6)
    shaSched n ((g 15 + s0 + g 6 + s1) :: w)

/-- One round. -/
def shaRound (h : List (BitVec 64)) (kw : BitVec 64 × BitVec 64) : List (BitVec 64) :=
  let g (i : Nat) : BitVec 64 := h.getD i 0
  let a := g 0
  let e := g 4
  let s1 := e.rotateRight 14 ^^^ e.rotateRight 18 ^^^ e.rotateRight 41
  let ch := (e &&& g 5) ^^^ (~~~e &&& g 6)
  let t1 := g 7 + s1 + ch + kw.1 + kw.2
  let s0 := a.rotateRight 28 ^^^ a.rotateRight 34 ^^^ a.rotateRight 39
  let maj := (a &&& g 1) ^^^ (a &&& g 2) ^^^ (g 1 &&& g 2)
  [t1 + s0 + maj, a, g 1, g 2, g 3 + t1, e, g 5, g 6]

/-- The number that bytes spell, first byte highest. -/
def natOfBE (bs : List Byte) : Nat := bs.foldl (fun n b => n * 256 + b.toNat) 0

/-- `k` bytes of a number, highest first. -/
def bytesBE (k n : Nat) : List Byte := (bytesOf k n).reverse

/-- One block of 128 bytes. -/
def shaBlock (h : List (BitVec 64)) (blk : List Byte) : List (BitVec 64) :=
  let w := ((List.range 16).map (fun i => BitVec.ofNat 64 (natOfBE ((blk.drop (8 * i)).take 8)))).reverse
  let ws := (shaSched 64 w).reverse
  List.zipWith (· + ·) h ((shaK.zip ws).foldl shaRound h)

/-- The blocks of a padded message, at most `n` of them. -/
def shaBlocks : Nat → List (BitVec 64) → List Byte → List (BitVec 64)
  | 0, h, _ => h
  | n + 1, h, bs => if bs.isEmpty then h else shaBlocks n (shaBlock h (bs.take 128)) (bs.drop 128)

/-- SHA-384 of a message, as 48 bytes. -/
def sha384 (m : List Byte) : List Byte :=
  let z := (239 - m.length % 128) % 128
  let padded := m ++ [0x80] ++ List.replicate z 0 ++ bytesBE 16 (8 * m.length)
  ((shaBlocks (padded.length / 128) shaInit padded).take 6).flatMap (fun w => bytesBE 8 w.toNat)

/-! ## HMAC and HKDF -/

def xorBytes (a : List Byte) (c : Byte) : List Byte := a.map (fun b => b ^^^ c)

/-- HMAC-SHA-384. -/
def hmac384 (key msg : List Byte) : List Byte :=
  let k := if key.length > 128 then sha384 key else key
  let k := k ++ List.replicate (128 - k.length) 0
  sha384 (xorBytes k 0x5C ++ sha384 (xorBytes k 0x36 ++ msg))

/-- HKDF-Expand: `n` blocks of output. -/
def hkdfBlocks (prk info : List Byte) : Nat → Nat → List Byte → List Byte
  | 0, _, _ => []
  | n + 1, i, prev => let t := hmac384 prk (prev ++ info ++ [BitVec.ofNat 8 i]); t ++ hkdfBlocks prk info n (i + 1) t

/-- HKDF-SHA-384 with an output length in bytes. -/
def hkdf384 (ikm salt info : List Byte) (len : Nat) : List Byte :=
  let prk := hmac384 (if salt.isEmpty then List.replicate 48 0 else salt) ikm
  (hkdfBlocks prk info (cdiv len 48) 1 []).take len

/-! ## P-384 -/

def p384P : Nat := 2 ^ 384 - 2 ^ 128 - 2 ^ 96 + 2 ^ 32 - 1
def p384N : Nat := 0xFFFFFFFFFFFFFFFFFFFFFFFFFFFFFFFFFFFFFFFFFFFFFFFFC7634D81F4372DDF581A0DB248B0A77AECEC196ACCC52973
def p384B : Nat := 0xB3312FA7E23EE7E4988E056BE3F82D19181D9C6EFE8141120314088F5013875AC656398D8A2ED19D2A85C8EDD3EC2AEF
def p384G : Nat × Nat :=
  (0xAA87CA22BE8B05378EB1C71EF320AD746E1D3B628BA79B9859F741E082542A385502F25DBF55296C3A545E3872760AB7,
   0x3617DE4A96262C6F5D9E98BF9292DC29F8F41DBD289A147CE9DA3113B5F0B8C00A60B1CE1D7E819D7A431D7C90EA0E5F)

/-- b to the power of the low `n` bits of e, modulo m. -/
def powMod (m : Nat) : Nat → Nat → Nat → Nat → Nat
  | 0, _, _, acc => acc
  | n + 1, b, e, acc => powMod m n (b * b % m) (e / 2) (if e % 2 = 1 then acc * b % m else acc)

/-- The inverse modulo a prime of 384 bits. -/
def invMod (m a : Nat) : Nat := powMod m 384 (a % m) (m - 2) 1

/-- The sum of two points of P-384; none is the point at infinity. -/
def ecAdd (a b : Option (Nat × Nat)) : Option (Nat × Nat) :=
  match a, b with
  | none, q => q
  | p, none => p
  | some (x1, y1), some (x2, y2) =>
    let m := p384P
    if x1 = x2 ∧ (y1 + y2) % m = 0 then none
    else
      let l := if x1 = x2 then (3 * x1 * x1 + (m - 3)) * invMod m (2 * y1) % m else ((y2 + (m - y1)) * invMod m (x2 + (m - x1))) % m
      let x3 := (l * l + 2 * m - x1 - x2) % m
      some (x3, (l * (x1 + (m - x3)) + (m - y1)) % m)

/-- The low `n` bits of k times a point. -/
def ecMul : Nat → Nat → Option (Nat × Nat) → Option (Nat × Nat) → Option (Nat × Nat)
  | 0, _, _, acc => acc
  | n + 1, k, p, acc => ecMul n (k / 2) (ecAdd p p) (if k % 2 = 1 then ecAdd acc p else acc)

/-- k times a point. -/
def ecTimes (k : Nat) (p : Nat × Nat) : Option (Nat × Nat) := ecMul 384 k (some p) none

/-- The point lies on the curve. -/
def onCurve (q : Nat × Nat) : Bool :=
  decide (q.1 < p384P) && decide (q.2 < p384P) &&
  decide (q.2 * q.2 % p384P = (q.1 * q.1 * q.1 + (p384P - 3) * q.1 + p384B) % p384P)

/-- ECDSA P-384: (r, s) is a signature of the digest under the public key. -/
def ecdsaOk (q : Nat × Nat) (digest : List Byte) (r s : Nat) : Bool :=
  let n := p384N
  if !onCurve q || r = 0 || r ≥ n || s = 0 || s ≥ n then false
  else
    let w := invMod n s
    match ecAdd (ecTimes (natOfBE digest * w % n) p384G) (ecTimes (r * w % n) q) with
    | none => false
    | some x => x.1 % n == r

/-- The signature that a secret number k makes, with a private key. -/
def ecdsaSign (d : Nat) (digest : List Byte) (k : Nat) : Nat × Nat :=
  let n := p384N
  let kk := k % (n - 1) + 1
  match ecTimes kk p384G with
  | none => (0, 0)
  | some x => let r := x.1 % n; (r, invMod n kk * (natOfBE digest + r * d) % n)

/-- A private key from 448 bits: FIPS 186-5, Appendix A.2.1 (16 R371). -/
def scalarOf (bs : List Byte) : Nat := natOfBE bs % (p384N - 1) + 1

/-- The bytes of an ASCII string. -/
def ascii (s : String) : List Byte := s.toList.map (fun c => BitVec.ofNat 8 c.toNat)

end Sys2Proof.Machine
end

