-- ==== Sys2Proof/Machine/Trust.lean ====
section
/-! DEFINITION. Fuses and lifecycle, keys, the check of a firmware image, the chart and its tightening, and what reset and the
stages of the Helm do with them (16 R364 to R374, R382 to R384; 11 R295; 13 R315, R316; commands 0x00, 0x01, 0x02, 0xB2, 0xB3). -/

namespace Sys2Proof.Machine

open Sys2Proof

/-! ## Fuses (16 R364, Table 16.1; R365, Table 16.2) -/

/-- The fuse array as read: the bitwise majority of its three copies. -/
def Trust.fuses (t : Trust) : BitVec 3776 := (t.fuse0 &&& t.fuse1) ||| (t.fuse0 &&& t.fuse2) ||| (t.fuse1 &&& t.fuse2)

/-- The bits whose copies are not all equal. -/
def Trust.splits (t : Trust) : BitVec 3776 := (t.fuse0 ^^^ t.fuse1) ||| (t.fuse0 ^^^ t.fuse2)

/-- The fields of Table 16.1: lowest bit and width. -/
def fuseFields : List (Nat × Nat) :=
  [(0, 384), (384, 8), (392, 64), (456, 1536), (1992, 4), (1996, 768), (2764, 2), (2766, 768), (3534, 2), (3536, 216), (3752, 24)]

/-- The number of bits set among the low `n`. -/
def popcount : Nat → Nat → Nat
  | 0, _ => 0
  | n + 1, x => x % 2 + popcount n (x / 2)

/-- A field holds more than one split bit at every read: a fuse read failure. -/
def Trust.fuseFail (t : Trust) : Bool := fuseFields.any (fun f => decide (popcount f.2 (fld t.splits f.1 f.2) > 1))

/-- The lifecycle code: the highest blown bit of `lc`. -/
def Trust.lcCode (t : Trust) : Nat :=
  let f := t.fuses
  if bit f 386 then 4 else if bit f 385 then 3 else if bit f 384 then 2 else 1

/-- The anti-rollback count. -/
def Trust.arbCount (t : Trust) : Nat := popcount 64 (fld t.fuses 392 64)

def Trust.fwRev (t : Trust) : Nat := fld t.fuses 1992 4
def Trust.progRev (t : Trust) : Nat := fld t.fuses 2764 2
def Trust.opRev (t : Trust) : Nat := fld t.fuses 3534 2

/-- A key hash matches a live slot: not empty, not revoked. -/
def slotLive (f : BitVec 3776) (base n rev slot hash : Nat) : Bool :=
  decide (slot < n) && decide (hash ≠ 0) && !bit f (rev + slot) && decide (fld f (base + 384 * slot) 384 = hash)

/-- The three copies with bits blown. -/
def Trust.blow (t : Trust) (m : BitVec 3776) : Trust :=
  { t with fuse0 := t.fuse0 ||| m, fuse1 := t.fuse1 ||| m, fuse2 := t.fuse2 ||| m }

/-- The chart of a fused record (16 Table 16.8). -/
def chartOf (r : Nat) : Chart :=
  let x : BitVec 72 := BitVec.ofNat 72 r
  {
    maxCode := BitVec.ofNat 16 (fld x 0 16), head := BitVec.ofNat 5 (fld x 16 5), vmax := BitVec.ofNat 10 (fld x 21 10),
    peak := w32 (1000 * fld x 32 12), burst := w32 (1000 * fld x 44 12), sus := w32 (1000 * fld x 56 12) }

/-- The charts of classes 1–3 as fused. -/
def Trust.fusedCharts (t : Trust) : List Chart := [0, 1, 2].map (fun c => chartOf (fld t.fuses (3536 + 72 * c) 72))

/-! ## The key engine (16 R371) -/

/-- The `uds` that the key engine sees, masked in RMA. -/
def Trust.uds (t : Trust) : List Byte := bytesOf 48 (if t.lcCode = 4 then 0 else fld t.fuses 0 384)

/-- The DeviceID private key. -/
def Trust.deviceKey (t : Trust) : Nat := scalarOf (hkdf384 t.uds [] (ascii "BRN-256 DeviceID") 56)

/-- The alias private key for a firmware measurement. -/
def Trust.aliasOf (t : Trust) (meas : List Byte) : Nat :=
  scalarOf (hkdf384 (hkdf384 t.uds [] (ascii "BRN-256 CDI") 48) meas (ascii "BRN-256 Alias") 56)

/-! ## Signature blocks (16 Table 16.6) -/

def sigSlot (b : List Byte) : Nat := (b.getD 0 0).toNat
/-- The public key's coordinates and the scalars of the signature. -/
def sigNum (b : List Byte) (i : Nat) : Nat := natOfBE ((b.drop (16 + 48 * i)).take 48)
/-- The SHA-384 hash over 0x04, `qx`, `qy`, as a field's number. -/
def sigKeyHash (b : List Byte) : Nat := natOfBytes (sha384 (0x04 :: (b.drop 16).take 96))
/-- The reserved bits of the block are 0. -/
def sigRsv (b : List Byte) : Bool := ((b.drop 1).take 15).any (· ≠ 0) || ((b.drop 208).take 48).any (· ≠ 0)
/-- The signature holds over a digest. -/
def sigOk (b digest : List Byte) : Bool := ecdsaOk (sigNum b 0, sigNum b 1) digest (sigNum b 2) (sigNum b 3)

/-! ## The image check (16 R367, R368, Table 16.5) -/

/-- The header as a register-format value. -/
def imgHeader (img : List Byte) : BitVec 2048 := BitVec.ofNat 2048 (natOfBytes (img.take 256))

/-- Reasons 4 and 5: the key and the signature. -/
def Trust.keyReason (t : Trust) (img : List Byte) : Nat :=
  let n := img.length - 256
  let blk := img.drop n
  if !slotLive t.fuses 456 4 1992 (sigSlot blk) (sigKeyHash blk) then 4
  else if !sigOk blk (sha384 (img.take n)) then 5 else 0

/-- The reason code of an image of the length that FW_LOAD named, 0 when it passes. -/
def Trust.imageReason (t : Trust) (img : List Byte) (len : Nat) : Nat :=
  let h := imgHeader img
  let blk := img.drop (img.length - 256)
  if fld h 0 32 ≠ 0x4D4C4548 || fld h 32 8 ≠ 1 || fld h 40 24 ≠ 0 || fld h 135 9 ≠ 0 || fld h 148 12 ≠ 0 ||
    fld h 192 1856 ≠ 0 || sigRsv blk then 1
  else if fld h 64 32 ≠ 0x00040002 then 2
  else if 256 + fld h 160 32 + 256 ≠ len then 3
  else
    let k := t.keyReason img
    if k ≠ 0 then k
    else if fld h 128 7 < t.arbCount then 6
    else if fld h 128 7 > 64 then 7
    else if !bit h (144 + t.lcCode - 1) then 8
    else if t.fuseFail then 10
    else 0

/-- FW_LOAD's refusal for a reason. -/
def imageR (reason : Nat) : Resp :=
  notPermR 0xA (if reason = 4 || reason = 5 then { item := 0x10 } else if reason = 6 || reason = 7 then { item := 0x12 }
    else { item := 0x0A, idx := reason })

/-! ## Stages (13 R315, R316; 16 R366, R370) -/

/-- Every entry to ROM: the alias key goes, the DeviceID key is released to the ROM, intake is open. -/
def State.enterRom (s : State) : State :=
  { s with
    helm := { s.helm with stage := .rom, open_ := true, fwVer := 0, svn := 0 }
    trust := { s.trust with aliasKey := none, devLock := false, chain := [] } }

/-- RUN is entered with the image that code SRAM holds: the firmware measurement, the alias key, the DeviceID lock; a tightening
taken in ROM takes effect then (R384). -/
def State.enterRun (s : State) (fresh : Bool) : State :=
  let h := imgHeader s.helm.image
  let m := sha384 (s.helm.image.take (s.helm.image.length - 256))
  let t := s.trust
  { s with
    helm := { s.helm with
      stage := .run, open_ := true, fwVer := w32 (fld h 96 32), svn := fld h 128 7, runAt := s.boot.uptime,
      meas := if fresh then BitVec.ofNat 384 (natOfBytes m) else s.helm.meas, codeBad := false }
    trust := if fresh then { t with
        aliasKey := if t.lcCode = 4 then none else some (BitVec.ofNat 384 (t.aliasOf m)), devLock := true }
      else t }

/-- Every energy counter's rounding generator is seeded (09 R256). -/
def State.seedLedger (s : State) : State :=
  s.each (List.range 26) (fun s a =>
    let x := s.takeSeed
    { x.2 with ledger := { x.2.ledger with accts := x.2.ledger.accts.modify a (fun y => { y with lfsr := x.1 }) } })

/-- ROM_START: 64 boot cycles after the release the ROM starts, reads the fuses and derives the DeviceID key; the retention
register is read (R366, R371, R381). -/
def State.romStart (s : State) : State :=
  if s.helm.stage ≠ .reset then s else
  let t := s.trust
  let s := { s with trust := { t with devKey := if t.lcCode = 4 then none else some (BitVec.ofNat 384 t.deviceKey) } }
  let s := { s with helm := { s.helm with romUp := true, reason := if t.fuseFail then 10 else s.helm.reason } }
  let s := s.enterRom.seedLedger
  if s.sxt.ageChk ≠ 0 then { s with sxt := { s.sxt with age := 0, ageChk := 0 } }.raise0 0x108 0 else s

/-! ## Charts in force (16 R382 to R384, Table 16.9) -/

/-- A class's chart words 1–6 of a tightening. -/
def tightChart (q : Req) : Chart :=
  {
    maxCode := BitVec.ofNat 16 (fld (q.w 2) 0 16), head := BitVec.ofNat 5 (fld (q.w 3) 0 5), vmax := BitVec.ofNat 10 (fld (q.w 4) 0 10),
    peak := q.w 5, burst := q.w 6, sus := q.w 7, tight := true }

/-- The first word of a tightening that breaks a range or an order (R384). -/
def tightBad (cls : Nat) (c : Chart) : Option Nat :=
  if c.maxCode.toNat < 2560 then some 2
  else if (cls = 2 && c.head ≠ 0) || c.head.toNat > classLim cls then some 3
  else if c.vmax.toNat < 500 then some 4
  else if c.peak.toNat < 10000 then some 5
  else if c.burst.toNat > c.peak.toNat then some 6
  else if c.sus.toNat > c.burst.toNat then some 7
  else none

/-- The first word of a tightening that widens a field. -/
def tightWide (old c : Chart) : Option Nat :=
  if c.maxCode.toNat > old.maxCode.toNat then some 2
  else if c.head.toNat < old.head.toNat then some 3
  else if c.vmax.toNat > old.vmax.toNat then some 4
  else if c.peak.toNat > old.peak.toNat then some 5
  else if c.burst.toNat > old.burst.toNat then some 6
  else if c.sus.toNat > old.sus.toNat then some 7
  else none

/-- A staged action lies beyond the charts in force. -/
def State.beyondChart (s : State) (a : BitVec 128) : Bool :=
  let i := actTarget a
  let c := s.chart i
  match actChg a with
  | some (.code n) => decide (n > c.maxCode.toNat) && decide (n ≠ (s.tile i).code.toNat)
  | some (.policy w) => (decide (fld w 0 16 > c.maxCode.toNat) && decide (fld w 0 16 ≠ (s.tile i).code.toNat)) ||
      decide (fld w 16 5 < fld w 21 5 + c.head.toNat)
  | some _ => false
  | none =>
    if actKind a = 10 then decide (actValue a > s.railMax i)
    else if actKind a = 11 then decide (actValue a > s.ceiling i) else false

/-- A present tile of the class takes the clamps of a tightening. -/
def Tile.tighten (t : Tile) (c : Chart) (cls : Nat) : Tile :=
  let lim := max t.reactLim.toNat c.head.toNat
  let rl := if cls = 2 then t.reactLim.toNat else lim
  { t with
    learn := if t.learn.toNat > c.maxCode.toNat then c.maxCode else t.learn
    reactLim := BitVec.ofNat 5 rl, planLim := BitVec.ofNat 5 (min t.planLim.toNat (rl - c.head.toNat)) }

/-- A tightening takes effect as a whole: clamps, the abort of keystones beyond it, the withdrawal of scheduled code changes
beyond it, the lowering of limits (Table 16.9). -/
def State.tighten (s : State) (cls : Nat) (c : Chart) : State :=
  let s := { s with
    trust := { s.trust with charts := s.trust.charts.set (cls - 1) c }
    tiles := s.tiles.mapIdx (fun i (t : Tile) => if s.clsOf i = cls then t.tighten c cls else t) }
  let s := s.each [0, 1, 2, 3] (fun s k =>
    match (enumFrom' 0 (s.slot k).acts).find? (fun a => s.beyondChart a.2) with
    | some (n, a) => s.abortKs k 3 (some (n, actTarget a))
    | none => s)
  let past (i : Nat) (x : Sched) : Bool := match x.act with
    | .code n => !x.ks && decide (n.toNat > (s.chart i).maxCode.toNat) && decide (n ≠ (s.tile i).code)
    | _ => false
  let s := s.each (allTiles.filter (fun i => s.clsOf i == cls)) (fun s i =>
    let gone := (s.tile i).sched.filter (past i)
    if gone.isEmpty then s else
    let s := s.modTile i (fun t =>
      let mine := t.hov.any (fun h => gone.any (fun x => x.at_ == h.at_))
      { t with
        sched := t.sched.filter (fun x => !gone.contains x), hov := if mine then none else t.hov
        stby := if mine && t.stby ≠ .off then .calibrating else t.stby })
    s.each gone (fun s x => s.settleO x.mbx (tileR stChart 5 i)))
  let s := s.each [0, 1, 2] (fun s w =>
    let m := s.ceiling w
    if (s.power.limits.getD w 0).toNat > m then
      { s with power := { s.power with limits := s.power.limits.set w (w32 m) } }.raise 0x70A w m
    else s)
  s.raise0 0xB06 cls

/-- The class a request names. -/
def reqCls (q : Req) : Nat := fld (q.w 1) 0 2

/-- CHART_READ 0xB2. -/
def Chart.words (c : Chart) : List Word :=
  [w32 c.maxCode.toNat, w32 c.head.toNat, w32 c.vmax.toNat, c.peak, c.burst, c.sus, w32 (b2n c.tight)]

def cmdChartRead : Cmd :=
  {
    op := 0xB2, len := lenIs 1, masks := [3], sess := true, rom := true
    form := fun _ q => if reqCls q = 0 then some (badArgR 1) else none
    run := fun s q => (s, .final (okR (s.trust.charts.getD (reqCls q - 1) {}).words)) }

/-- CHART_TIGHTEN 0xB3: in ROM it is kept and takes effect on entry to RUN. -/
def cmdChartTighten : Cmd :=
  {
    op := 0xB3, len := lenIs 7, masks := [3, 0xFFFF, 0x1F, 0x3FF], rom := true, changes := true
    form := fun _ q => if reqCls q = 0 then some (badArgR 1) else (tightBad (reqCls q) (tightChart q)).map badArgR
    run := fun s q =>
      let k := reqCls q
      let c := tightChart q
      let old := ((s.trust.tightWait.find? (fun x => x.1 == k)).map (·.2)).getD (s.trust.charts.getD (k - 1) {})
      match tightWide old c with
      | some n => (s, .final (chartR 5 { item := 1, idx := n }))
      | none =>
        if s.helm.stage = .rom then
          ({ s with trust := { s.trust with tightWait := s.trust.tightWait.filter (fun x => x.1 != k) ++ [(k, c)] } }, .final (okR []))
        else (s.tighten k c, .final (okR [])) }

/-- The tightenings taken in ROM take effect. -/
def State.tightenHeld (s : State) : State :=
  let l := s.trust.tightWait
  { s.each l (fun s x => s.tighten x.1 x.2) with trust := { (s.each l (fun s x => s.tighten x.1 x.2)).trust with tightWait := [] } }

/-! ## IDENTIFY 0x00, CAPS 0x02 and FW_LOAD 0x01 (14 Table 14.2) -/

/-- IDENTIFY. -/
def cmdIdentify : Cmd :=
  {
    op := 0x00, sess := true, rom := true
    run := fun s _ => (s, .final (okR ([0x00040002, if s.helm.stage = .run then s.helm.fwVer else 0, w32 s.trust.arbCount,
      w32 (s.trust.lcCode + 8 * s.helm.reason.toNat)] ++ wordsOf 2 s.rck.progId.toNat))) }

/-- CAPS. -/
def cmdCaps : Cmd :=
  {
    op := 0x02, rom := true
    run := fun s _ =>
      let n (c : Nat) : Nat := (allTiles.filter (fun i => s.clsOf i == c)).length
      (s, .final (okR [w32 (pack [(0, 9, n 1), (9, 9, n 2), (18, 9, n 3)]), w32 s.ties.mfr.toNat])) }

/-- A transfer is asked for: it opens now, or waits its turn (15 R361). -/
def State.openInbound (s : State) (x : Inbound) : State :=
  { s with log := { s.log with inbound := s.log.inbound ++ [x] } }

/-- FW_LOAD: ROM only; the length lies within 512 to 524,800 bytes. -/
def cmdFwLoad : Cmd :=
  {
    op := 0x01, len := lenIs 1, rom := true
    form := fun _ q =>
      if (q.w 1).toNat < 512 then some (badArgR 1)
      else if (q.w 1).toNat > 524800 then some (tooLargeR ((q.w 1).toNat - 524800) 0) else none
    run := fun s q =>
      if s.helm.stage ≠ .rom then (s, .final (notPermR 0xA { item := 0x0C, idx := s.helm.stage.code }))
      else if s.log.inbound.any (fun x => x.kind = .image) then (s, .final (busyR {}))
      else (s.openInbound { kind := .image, mbx := q.mbx, tag := q.tag, bytes := (q.w 1).toNat, lastAt := s.boot.uptime }, .accepted []) }

def execIdentify (dt : Nat) (q : Req) (s : State) : Step := .next (postCmd cmdIdentify dt q s)
def execFwLoad (dt : Nat) (q : Req) (s : State) : Step := .next (postCmd cmdFwLoad dt q s)
def execCaps (dt : Nat) (q : Req) (s : State) : Step := .next (postCmd cmdCaps dt q s)
def execChartRead (dt : Nat) (q : Req) (s : State) : Step := .next (postCmd cmdChartRead dt q s)
def execChartTighten (dt : Nat) (q : Req) (s : State) : Step := .next (postCmd cmdChartTighten dt q s)
/-- ROM_START. -/
def execRomStart (dt : Nat) (s : State) : Step := event dt s State.romStart

end Sys2Proof.Machine
end

