-- ==== Sys2Proof/Machine/Policy.lean ====
section
/-! DEFINITION. The policy commands 0x10 to 0x15 (14 R334, Table 14.3; 03 R78; 05 R154; 11 R291; 09 R260, R262). -/

namespace Sys2Proof.Machine

open Sys2Proof

/-- SET_EPOCH 0x10: pending until the second pulse after it completes. -/
def cmdSetEpoch : Cmd :=
  {
    op := 0x10, len := lenIs 2, masks := [0xFFFFFFFF, 0xFF], changes := true
    run := fun s q => orElse s
      ((if s.mer.st = .locked then [] else [noRefR]) ++ (if s.member then [notPermR 9 {}] else []))
      (let n : BitVec 40 := BitVec.ofNat 40 (q.w64 1).toNat
       let at_ := (s.nowN / pulseMt + 2) * pulseMt
       ({ s with mer := { s.mer with epochPend := some (n, 2) } }, .final (okR (wordsOf 2 at_)))) }

/-- SET_HOST_Q 0x11. -/
def cmdSetHostQ : Cmd :=
  {
    op := 0x11, len := lenIs 1, masks := [0xFF], changes := true
    form := fun _ q => if (q.w 1).toNat = 0 || (q.w 1).toNat > 192 then some (badArgR 1) else none
    run := fun s q => (s.setHostRate (q.w 1).toNat, .final (okR [])) }

/-- SET_FLOOR 0x12: the word in force changes at the next emission. -/
def cmdSetFloor : Cmd :=
  {
    op := 0x12, len := lenIs 2, masks := [0x01FF01FF, 0], changes := true
    form := fun _ q =>
      let w := q.w64 1
      if floorA w = 0 || floorA w > 256 || floorS w = 0 || floorS w > 256 then some (badArgR 1) else none
    run := fun s q => ({ s with power := { s.power with floorW := q.w64 1 } }, .final (okR [])) }

/-- SET_SAFE_Q 0x13. -/
def cmdSetSafeQ : Cmd :=
  {
    op := 0x13, len := lenIs 1, masks := [0x7F], changes := true
    form := fun _ q => if (q.w 1).toNat < 8 || (q.w 1).toNat > 64 then some (badArgR 1) else none
    run := fun s q => orElse s (if s.safeFloor then [notPermR 3 {}] else [])
      ({ s with power := { s.power with safeQ := BitVec.ofNat 7 (q.w 1).toNat } }, .final (okR [])) }

/-- The first rail that is active. -/
def State.firstActive (s : State) : Option Nat := (List.range 8).find? (fun r => (s.rail r).active)

/-- SET_PMBUS 0x14. -/
def cmdSetPmbus : Cmd :=
  {
    op := 0x14, len := lenIs 1, masks := [0xFFFF], changes := true
    form := fun _ q => if fld (q.w 1) 8 8 < 0xD0 || fld (q.w 1) 8 8 > 0xFD then some (badArgR 1) else none
    run := fun s q => orElse s (match s.firstActive with | some r => [notPermR 0xA { item := 3, idx := r }] | none => [])
      ({ s with power := { s.power with pmbus := q.w 1 } }, .final (okR [])) }

/-- READ_POLICY 0x15. -/
def cmdReadPolicy : Cmd :=
  {
    op := 0x15
    run := fun s _ => (s, .final (okR ([w32 s.power.hostQ.toNat] ++ wordsOf 2 s.power.floorW.toNat ++
      [w32 s.power.safeQ.toNat, s.power.pmbus, s.power.cfg]))) }

def execSetEpoch (dt : Nat) (q : Req) (s : State) : Step := .next (postCmd cmdSetEpoch dt q s)
def execSetHostQ (dt : Nat) (q : Req) (s : State) : Step := .next (postCmd cmdSetHostQ dt q s)
def execSetFloor (dt : Nat) (q : Req) (s : State) : Step := .next (postCmd cmdSetFloor dt q s)
def execSetSafeQ (dt : Nat) (q : Req) (s : State) : Step := .next (postCmd cmdSetSafeQ dt q s)
def execSetPmbus (dt : Nat) (q : Req) (s : State) : Step := .next (postCmd cmdSetPmbus dt q s)
def execReadPolicy (dt : Nat) (q : Req) (s : State) : Step := .next (postCmd cmdReadPolicy dt q s)

end Sys2Proof.Machine
end

