-- ==== Sys2Proof/Machine/Power.lean ====
section
/-! DEFINITION. The power controller's intervals: readbacks, die power, the filters and cap rates, the estimate against the
measurement, the energy ledger and its rounding (09 R238 to R257; 07 R208; 15 Table 15.6). Powers are held in units of
2^−16 mW, energies of one interval in 2^−16 µJ. -/

namespace Sys2Proof.Machine

open Sys2Proof

/-- Units of 2^−16 in one. -/
def unit16 : Nat := 65536

/-! ## Readbacks (09 R238, R241) -/

/-- One voltage readback judged against the chart maximum: three above it by more than 20 mV raise `rail_over`, three at or
below it end it (R238). -/
def State.overCheck (s : State) (r mv : Nat) : State :=
  let mx := s.railMax r
  let x := s.rail r
  if mv > mx + 20 then
    let s := s.modRail r (fun x => { x with overRun := x.overRun + 1, underRun := 0 })
    if x.overRun + 1 ≥ 3 && !x.isOver then
      (s.modRail r (fun x => { x with isOver := true, cOver := satInc x.cOver })).raise 0x703 r 0
    else s
  else if mv ≤ mx then
    s.modRail r (fun x => { x with underRun := x.underRun + 1, overRun := 0, isOver := x.isOver && decide (x.underRun + 1 < 3) })
  else s.modRail r (fun x => { x with underRun := 0, overRun := 0 })

/-- A voltage readback is taken. -/
def State.takeVolt (s : State) (r mv : Nat) : State := (s.modRail r (fun x => x.read mv)).overCheck r mv

/-- A current readback is taken. -/
def State.takeCurrent (s : State) (r ma : Nat) : State := s.modRail r (fun x => { x with mas := (ma :: x.mas).take 4 })

/-- A PMBus transaction ends: one that failed packet error checking `bad` times has been retried up to twice, and fails for good, and is
counted, at the third (02 R61). -/
def State.pmbus (s : State) (bad : Nat) (ops : List BusOp) (f : State → State) : State :=
  let s := { s with power := { s.power with bus := ops } }
  if bad ≥ 3 then { s with power := { s.power with pmbBad := satInc s.power.pmbBad } } else f s

/-- KS_RAIL_PMBUS_READ: the dedicated read on a faulted link, from 200 µs before T (08 R224). -/
def State.raiseRead (s : State) (r mv bad : Nat) : State :=
  match s.raiseOf r (fun x => decide (s.key x.t ≤ nowK + 3200000) && x.raised.any (fun y => y.toNat == r)) with
  | some _ => if s.onPmbus r then s.pmbus bad (pmbOps (s.rail r).map 0x8B none) (fun s => s.takeVolt r mv) else s
  | none => s

/-- The power of a rail: the product of its last voltage and current readings (R241). -/
def Rail.power (x : Rail) : Nat := x.mvs.headD 0 * x.mas.headD 0 * unit16 / 1000

/-- The active rails. -/
def State.activeRails (s : State) : List Nat := (List.range 8).filter (fun r => (s.rail r).active)

/-! ## The estimate (09 R247) -/

/-- The rail's estimate is valid for the interval. -/
def State.estValid (s : State) (r : Nat) : Bool :=
  let x := s.rail r
  !(decide (s.rck.mode = .off) || decide (s.rck.mode = .loading)) && !x.estBad && decide (x.estCnt > 0)

/-- The rail's estimate, the mean over the courses of the interval. -/
def Rail.estimate (x : Rail) : Nat := x.estSum / x.estCnt

/-- One active rail is compared: invalid intervals break its runs; more than 100 intervals above distrust the estimator, more
than 100 below make the rail telemetry-suspect (R248). -/
def State.compareRail (s : State) (r : Nat) : State :=
  let x := s.rail r
  if !s.estValid r then s.modRail r (fun x => { x with above := 0, below := 0, cInvalid := satInc x.cInvalid })
  else
    let e := x.estimate
    if e = 0 then s.modRail r (fun x => { x with above := 0, below := 0 })
    else
      let p := x.power
      let up := decide (100 * p > e * (100 + cfgEst s.power.cfgNow))
      let dn := decide (100 * p < e * (100 - cfgTel s.power.cfgNow))
      let s := s.modRail r (fun x => { x with above := if up then x.above + 1 else 0, below := if dn then x.below + 1 else 0 })
      let s := if (s.rail r).above > 100 && !s.power.distrust then
          ({ s with
              power := { s.power with
              distrust := true, trustRun := 0, distrusts := satInc s.power.distrusts } }).raise 0x705 r 0
        else s
      if (s.rail r).below > 100 && !x.suspect then
        (s.modRail r (fun x => { x with suspect := true, cSuspect := satInc x.cSuspect })).raise 0x707 r 0
      else s

/-- The estimator is trusted again (R249). -/
def State.trustAgain (s : State) : State :=
  if !s.power.distrust then s else
  ({ s with power := { s.power with distrust := false, trustRun := 0, trusts := satInc s.power.trusts } }).raise0 0x706 0

/-- A rail's measurement lies within the estimate's margin. -/
def State.inMargin (s : State) (r : Nat) : Bool :=
  let x := s.rail r
  let e := x.estimate
  let m := cfgEst s.power.cfgNow
  decide (100 * x.power ≤ e * (100 + m)) && decide (e * (100 - m) ≤ 100 * x.power)

/-- While distrusted, 10,000 valid intervals in a row in which every compared rail is within its margin bring trust back
(R249). `dist`: distrusted since before this interval. -/
def State.trustStep (s : State) (dist : Bool) : State :=
  if !(dist && s.power.distrust) then s else
  let rs := s.activeRails
  let cmp := rs.filter (fun r => s.estValid r && decide ((s.rail r).estimate ≠ 0))
  let good := rs.all s.estValid && !cmp.isEmpty && cmp.all s.inMargin
  let n := if good then s.power.trustRun + 1 else 0
  let s := { s with power := { s.power with trustRun := n } }
  if n ≥ 10000 then s.trustAgain else s

/-- The die's measured power and the filters' input (R241). -/
def State.dieInput (s : State) : Nat × Nat :=
  let rs := s.activeRails
  let p := sumN (rs.map (fun r => (s.rail r).power))
  let e := sumN (rs.map (fun r => if s.estValid r then (s.rail r).estimate else (s.rail r).power))
  (p, if !s.power.distrust && rs.any s.estValid then max p e else p)

/-! ## Limits and caps (09 R242 to R246) -/

/-- A filter's value: peak over the intervals kept, burst and sustained over the 1-ms means; none without data. -/
def Power.filter (p : Power) (which : Nat) : Option Frac :=
  let mean (l : List Frac) : Option Frac :=
    if l.isEmpty then none
    else let t := l.foldl Frac.add {}; some (Frac.mk' t.num (t.den * l.length))
  if which = 0 then (if p.hist.isEmpty then none else some (Frac.mk' (sumN p.hist) p.hist.length))
  else mean (p.means.take (if which = 1 then 10 else 1000))

/-- The cap rate after an evaluation with margin `m` in %: the loop of R244. -/
def capStep (q lim up m : Nat) (f : Frac) : Nat :=
  let le := lim * (100 - m) * unit16
  if 100 * f.num > le * f.den then max 8 (q * le * f.den / (100 * f.num))
  else if 10000 * f.num < 95 * le * f.den then min 256 (q + up) else q

/-- The step up of a limit (Table 9.4). -/
def capUp (which : Nat) : Nat := if which = 0 then 8 else if which = 1 then 4 else 2

/-- The interval's fast guard: above 5/4 of the peak limit the peak rate is halved, at most every ten intervals. -/
def State.fastGuard (s : State) (p' : Nat) : State :=
  let p := s.power
  let ready := match p.kGuard with
    | none => true
    | some g => decide (p.k ≥ g + 10)
  if 4 * p' > 5 * (p.limits.getD 0 0).toNat * unit16 && ready then
    { s with
        power := { p with
        caps := p.caps.modify 0 (fun q => BitVec.ofNat 9 (max 8 (q.toNat / 2))), kGuard := some p.k, guards := satInc p.guards } }
  else s

/-- The evaluation period of a limit in mt (Table 9.4). -/
def capPeriod (which : Nat) : Nat := if which = 0 then 1600000 else if which = 1 then 16000000 else 160000000

/-- CAP_EVALUATION of one limit, once for each multiple of its period. -/
def State.capEval (s : State) (which : Nat) : State :=
  let at_ := s.multAt (capPeriod which)
  if s.power.capAt.getD which none = some at_ then s else
  let s := { s with power := { s.power with capAt := s.power.capAt.set which (some at_) } }
  match s.power.filter which with
  | none => s
  | some f =>
    let p := s.power
    let lim := (p.limits.getD which 0).toNat
    let brk := decide (f.num > lim * unit16 * f.den)
    let s := { s with
        power := { p with
        caps := p.caps.modify which (fun q => BitVec.ofNat 9 (capStep q.toNat lim (capUp which) s.margin f))
        breach := if brk then p.breach.modify which satInc else p.breach } }
    s.followCheck

/-- The interval's input joins the filters; at the end of a millisecond its mean is formed (R242). -/
def Power.feed (p : Power) (p' : Nat) (last : Bool) : Power :=
  let acc := p' :: p.msAcc
  { p with
    hist := (p' :: p.hist).take 100, k := p.k + 1, msAcc := if last then [] else acc
    means := if last then (Frac.mk' (sumN acc) acc.length :: p.means).take 1000 else p.means }

/-! ## The ledger (09 R254 to R257) -/

/-- One step of the 32-bit Galois generator (07 R208). -/
def lfsrStep (x : Word) : Word := if bit x 0 then (x >>> 1) ^^^ 0x80200003#32 else x >>> 1

/-- A draw: 16 steps, then bits [15:0]. -/
def lfsrDraw (x : Word) : Nat × Word :=
  let y := (List.range 16).foldl (fun y _ => lfsrStep y) x
  (fld y 0 16, y)

/-- A counter takes an increment in 2^−16 µJ: the integer part exactly, the fraction by `sr` (R256). -/
def Account.add (a : Account) (d : Nat) : Account :=
  let f := d % unit16
  let x := lfsrDraw a.lfsr
  let n := d / unit16 + (if f ≠ 0 ∧ x.1 < f then 1 else 0)
  let e := satAdd a.energy n
  { energy := e, sat := a.sat || decide (e = BitVec.allOnes 64), lfsr := if f = 0 then a.lfsr else x.2 }

/-- The partition of a tile. -/
def State.partOf (s : State) (i : Nat) : Option Nat :=
  let b := s.ledger.map.getD i 0
  if bit b 7 then some (fld b 0 4) else none

/-- What one rail's interval adds: energy, shares by tile, whether it took the estimate, and the tiles whose partition counts a
fallback. -/
structure Split where
  rail   : Nat
  energy : Nat
  shares : List (Nat × Nat)
  est    : Bool
  fall   : List Nat
deriving DecidableEq, Repr

/-- The weights of a rail's tiles in split mode estimate: the tile's own mean, else `p_fill`, over running tiles (R255). -/
def State.estWeight (s : State) (r i : Nat) : Frac :=
  let t := s.tile i
  if t.st ≠ .running then {}
  else if t.estCnt > 0 then Frac.mk' t.estSum t.estCnt
  else Frac.ofNat (rmPFill (s.rail r).map * 10 * unit16)

/-- The split of a rail's energy in the interval. -/
def State.split (s : State) (missing : List Nat) (r : Nat) : Split :=
  let x := s.rail r
  let on := allTiles.filter (fun i => s.present i && s.railOf i == r)
  let est := x.fault && s.estValid r
  let e := (if est then x.estimate else x.power) / 100
  let byEst := cfgSplit s.power.cfgNow && s.estValid r && !s.power.distrust
  let fall := cfgSplit s.power.cfgNow && !byEst
  let w (i : Nat) : Frac :=
    if byEst then s.estWeight r i
    else Frac.ofNat (if missing.contains i then (s.tile i).passLast else (s.tile i).passIv)
  let ws := (on.map (fun i => (i, w i))).filter (fun p => p.2.num ≠ 0)
  let tot := ws.foldl (fun a p => a.add p.2) {}
  {
    rail := r, energy := e, shares := ws.map (fun p => (p.1, (p.2.mul e).quot tot)), est := est
    fall := if fall then on else if byEst then [] else on.filter (fun i => missing.contains i) }

/-- The interval's energies enter the accounts, and the partition records count estimates and fallbacks. -/
def State.integrate (s : State) (sp : List Split) : State :=
  let sh := sp.flatMap (·.shares)
  let part (p : Nat) : Nat := sumN ((sh.filter (fun x => s.partOf x.1 == some p)).map (·.2))
  let die := sumN (sp.map (·.energy))
  let given := sumN ((List.range 16).map part)
  let inc (a : Nat) : Nat :=
    if a < 16 then part a
    else if a = 16 then die
    else if a = 17 then die - given
    else sumN ((sp.filter (fun x => x.rail == a - 18)).map (·.energy))
  let estP (p : Nat) : Bool := sp.any (fun x => x.est && x.shares.any (fun y => y.2 ≠ 0 && s.partOf y.1 == some p))
  let fbP (p : Nat) : Bool := sp.any (fun x => x.fall.any (fun i => s.partOf i == some p))
  { s with
    ledger := { s.ledger with
      accts := s.ledger.accts.mapIdx (fun a (x : Account) => x.add (inc a))
      parts := s.ledger.parts.mapIdx (fun p (x : Part) => { x with
        est := x.est || estP p, estIv := if estP p then satInc x.estIv else x.estIv, fbIv := if fbP p then satInc x.fbIv else x.fbIv }) } }

/-- The tiles of a partition under a map. -/
def partTiles (m : List Byte) (p : Nat) : List Nat := positions (fun (b : Byte) => bit b 7 && fld b 0 4 == p) m

/-- The partition map that waited takes effect; each partition whose tiles change counts one in `map_epoch` (R254). -/
def State.takeMap (s : State) : State :=
  let l := s.ledger
  { s with
    ledger := { l with
      map := l.mapNext
      parts := l.parts.mapIdx (fun p (x : Part) =>
        if partTiles l.map p = partTiles l.mapNext p then x else { x with epoch := satInc x.epoch }) } }

/-- What a partition record shows (Table 9.8). -/
def ledgerRec (p : Nat) (a : Account) (x : Part) (n : Nat) (t : Time) : Nat :=
  pack [(0, 4, p), (4, 1, b2n a.sat), (5, 1, b2n x.est), (8, 9, n), (32, 32, x.epoch.toNat), (64, 64, a.energy.toNat),
    (128, 64, t.toNat), (192, 32, x.estIv.toNat), (224, 32, x.fbIv.toNat)]

/-- Partition p of the latest snapshot. -/
def Ledger.record (l : Ledger) (p : Nat) : Nat :=
  ledgerRec p (l.sAccts.getD p {}) (l.sParts.getD p {}) (l.sTiles.getD p 0) l.tSnap

/-- LEDGER_SNAPSHOT: every counter and record at the millisecond, once for each, and its packet (R257; 15 R351). -/
def State.ledgerSnap (s : State) : State :=
  let l := s.ledger
  let t : Time := s.multAt 16000000
  if l.snapAt = some t then s else
  let l := { l with
    sAccts := l.accts, sParts := l.parts, sTiles := (List.range 16).map (fun p => (partTiles l.map p).length), tSnap := t
    snapAt := some t }
  let die := l.sAccts.getD 16 {}
  let un := l.sAccts.getD 17 {}
  let s := { s with ledger := l }
  s.logPacket 5 0 16 t ((List.range 16).flatMap (fun p => flitsOf 4 (l.record p)) ++
    [die.energy, un.energy, BitVec.ofNat 64 (b2n die.sat + 2 * b2n un.sat)])

/-! ## Throttle records (15 Table 15.6) -/

/-- The waiting throttle records form a packet (15 R351). -/
def State.formThrottle (s : State) : State :=
  if s.log.thrWait.isEmpty then s else
  let w := s.log.thrWait
  let s := { s with log := { s.log with thrWait := [] } }
  s.sendRecs 13 0 w.length s.log.thrStamp (w.flatMap recFlits)

/-- The interval's throttle record, formed when a reason acted or the reasons changed. -/
def State.throttleRec (s : State) (idx : Nat) : State :=
  let now := s.thrCause s.movers
  let p := s.power
  let all := p.causeOr ||| now
  let cap (k : Nat) : Nat := (p.caps.getD k 256).toNat
  let rec_ : BitVec 128 := BitVec.ofNat 128 (pack [(0, 12, all.toNat), (12, 12, now.toNat), (24, 2, s.boot.cool.code), (32, 9, cap 0),
    (41, 9, cap 1), (50, 9, cap 2), (64, 9, s.cvy.rate.toNat), (73, 5, s.margin), (78, 1, b2n p.distrust), (80, 16, idx),
    (96, 32, p.pDie / unit16)])
  let form := decide (all ≠ 0) || decide (now ≠ p.causeEnd)
  let s := { s with power := { p with causeOr := 0, causeEnd := now } }
  if !form || !s.selected 13 then s
  else
    let stamp := if s.log.thrWait.isEmpty then BitVec.ofNat 64 (idx * 160000) else s.log.thrStamp
    let s := { s with log := { s.log with
      thrWait := s.log.thrWait ++ [rec_], thrStamp := stamp, thrAt := if s.log.thrWait.isEmpty then s.boot.uptime else s.log.thrAt } }
    if s.log.thrWait.length ≥ 16 then s.formThrottle else s

/-! ## The sampling interval (09 R241) -/

/-- The readings of the interval: a voltage and a current frame to each active rail whose link is in service (02 R59, Table 9.2). -/
def State.takeReadings (s : State) (rs : List RailReading) : State :=
  let on := s.activeRails.filter (fun r => !s.onPmbus r)
  let s := { s with power := { s.power with
    bus := on.flatMap (fun r => [avsOp (s.rail r).map r 3 0 none, avsOp (s.rail r).map r 3 2 none]) } }
  s.each rs (fun s x =>
    let r := x.rail.toNat
    if (s.rail r).active && !s.onPmbus r then (s.takeVolt r x.mv).takeCurrent r x.ma else s)

/-- What the interval leaves behind: sums restart, the words that waited take effect (R254, R255; 14 0x63). -/
def State.closeInterval (s : State) (missing : List Nat) : State :=
  let s := s.takeMap
  { s with
    tiles := s.tiles.mapIdx (fun i (t : Tile) => { t with
      passLast := if missing.contains i then t.passLast else t.passIv, passIv := 0, estSum := 0, estCnt := 0 })
    rails := s.rails.map (fun r => { r with estSum := 0, estCnt := 0, estBad := false })
    power := { s.power with cfgNow := s.power.cfg } }

/-- SAMPLING_INTERVAL: the interval that ended at the latest multiple of 160,000 mt is closed, once. The voltage writes of the interval
that begins there have rows of their own, which `writeTurn` holds to four for each link (02 R59). -/
def State.sample (s : State) (rs : List RailReading) (missing : List Nat) : State :=
  if !s.mer.running || s.power.ivAt = some s.sampleAt then s else
  let idx := s.nowN / 160000 - 1
  let s := { s with power := { s.power with ivAt := some s.sampleAt } }
  let s := s.takeReadings rs
  let act := s.activeRails
  let dist := s.power.distrust
  let s := if act.isEmpty then { s with power := { s.power with pDie := 0 } } else
    let s := s.each act State.compareRail
    let s := s.trustStep dist
    let x := s.dieInput
    let s := (s.fastGuard x.2)
    { s with power := { s.power with pDie := x.1 }.feed x.2 (decide (idx % 100 = 99)) }
  let s := s.integrate (act.map (s.split missing))
  let s := s.throttleRec idx
  (s.closeInterval missing).followCheck

def execSamplingInterval (dt : Nat) (rs : List RailReading) (missing : List (BitVec 8)) (s : State) : Step :=
  event dt s (fun s => s.sample rs (missing.map (·.toNat)))
def execCapEvaluation (dt : Nat) (lim : BitVec 2) (s : State) : Step :=
  event dt s (fun s => if lim.toNat = 3 || !s.mer.running then s else s.capEval lim.toNat)
def execKsRailPmbusRead (dt : Nat) (rail : BitVec 3) (mv : Tried Nat) (s : State) : Step :=
  event dt s (fun s => s.raiseRead rail.toNat mv.val mv.bad.toNat)
def execLedgerSnapshot (dt : Nat) (s : State) : Step := event dt s (fun s => if s.mer.running then s.ledgerSnap else s)

end Sys2Proof.Machine
end

