-- ==== Sys2Proof/Machine/PowerCmd.lean ====
section
/-! DEFINITION. The power and ledger commands 0x60 to 0x69, rail activation, the plausibility check, the AVSBus and PMBus events,
the coolant monitor and the latching of captures (14 R339, Table 14.8; 09 R236 to R263; 02 R60 to R64; 08 R229; 15 R357). -/

namespace Sys2Proof.Machine

open Sys2Proof

/-- The rail a request names. -/
def reqRail (q : Req) : Nat := fld (q.w 1) 0 3

/-- A refusal naming a rail. -/
def railR (st : Byte) (deny : BitVec 4) (r : Nat) : Resp := refR st deny { item := 3, idx := r }

/-- The form of a rail map word (09 R237). -/
def State.mapBad (s : State) (r : Nat) (w : BitVec 64) : Bool :=
  if rmPresent w then rmILsb w = 7 || rmVInit w < 500 || rmVInit w > 950
  else allTiles.any (fun i => s.present i && s.railOf i == r)

/-- RAIL_MAP 0x60. -/
def cmdRailMap : Cmd :=
  {
    op := 0x60, len := lenIs 3, masks := [7, 0xFFF7FFFF, 0x00FFFFFF], changes := true
    form := fun s q => if s.mapBad (reqRail q) (q.w64 2) then some (badArgR 2) else none
    run := fun s q => orElse s (if s.power.mapLock then [railR stNotPermitted 0xA (reqRail q)] else [])
      (s.modRail (reqRail q) (fun x => { x with map := q.w64 2 }), .final (okR [])) }

/-- What refuses an activation of a rail (09 R237). -/
def State.actRefusals (s : State) (r : Nat) : List Resp :=
  (if s.boot.lockedOnce then [] else [noRefR]) ++
  (if !rmPresent (s.rail r).map || (s.rail r).active then [railR stNotPermitted 0xA r] else []) ++
  (if rmVInit (s.rail r).map > s.railMax r then [railR stChart 5 r] else []) ++
  (if s.power.pmbFail ≥ 3 then [internalR 3] else [])

/-- A mailbox waits on an operation. -/
def State.setWait (s : State) (n : BitVec 3) (w : Wait) : State := s.modMbx n (fun m => { m with wait := w })

/-- An activation begins; the first takes the map for good (09 R236). -/
def State.actStart (s : State) (r : Nat) (n : BitVec 3) : State :=
  let s := (s.modRail r (fun x => { x with acting := some n })).setWait n (.railAct (BitVec.ofNat 3 r))
  { s with power := { s.power with mapLock := true } }

/-- RAIL_ACT 0x61: runs now, or after the activation of the same rail that runs. -/
def cmdRailAct : Cmd :=
  {
    op := 0x61, len := lenIs 1, masks := [7], changes := true
    run := fun s q =>
      let r := reqRail q
      if (s.rail r).acting.isSome then (s.setWait q.mbx (.railQueued (BitVec.ofNat 3 r)), .accepted [])
      else orElse s (s.actRefusals r) (s.actStart r q.mbx, .accepted []) }

/-- The rail is active, and `v_init` is its set point (09 R237; 05 R139). -/
def State.railOn (s : State) (r : Nat) : State :=
  let v := rmVInit (s.rail r).map
  s.modRail r (fun x => { x with active := true, vset := BitVec.ofNat 12 v, vref := v, fresh := false, overRun := 0, underRun := 0 })

/-- The transactions of an activation up to its step k (09 R237, R239). -/
def State.actOps (s : State) (r k reads : Nat) : List BusOp :=
  let m := (s.rail r).map
  let p := s.onPmbus r
  (pmbOps m 0x01 none ++ pmbOps m 0x20 none) ++
  (if k ≥ 2 then pmbOps m 0x24 (some (s.railMax r)) ++ pmbOps m 0x24 none else []) ++
  (if k ≥ 3 then (if p then pmbOps m 0x79 none else [avsOp m r 3 14 none]) else []) ++
  (if k ≥ 4 then (if p then pmbOps m 0x21 (some (rmVInit m)) else [avsOp m r 0 0 (some (rmVInit m))]) else []) ++
  (if k ≥ 5 && p then (List.replicate reads (pmbOps m 0x8B none)).flatten else [])

/-- A readback of step 5: within 2 ms of the write, and within 10 mV of `v_init`. -/
def actGood (v : Nat) (x : Nat × Nat) : Bool := decide (x.1 ≤ 32000000) && decide (x.2 ≤ v + 10) && decide (v ≤ x.2 + 10)

/-- The step of an activation that fails on what the regulator answered, none if the rail comes up (09 R237). A set point above the chart
maximum is dropped at the write path (16 R383), and none is written after a coolant stop. -/
def State.actStep (s : State) (r : Nat) (a : RailAnswer) : Option Nat :=
  let v := rmVInit (s.rail r).map
  if !a.on then some 1
  else if a.voutMax ≠ s.railMax r then some 2
  else if !a.status then some 3
  else if s.noWrites || v > s.railMax r then some 4
  else if a.reads.any (actGood v) then none
  else some 5

/-- What an activation has written when it ends at step k, or with all five done. -/
def State.actWrites (s : State) (r : Nat) (k : Option Nat) (reads : List (Nat × Nat)) : State :=
  let v := rmVInit (s.rail r).map
  let s1 := if k.getD 6 ≥ 4 && !s.noWrites then s.writeRail r v else s
  let s1 := { s1 with power := { s1.power with bus := s.actOps r (k.getD 5) reads.length } }
  if k.isSome then s1
  else (s1.railOn r).modRail r (fun x => match reads.find? (actGood v) with
    | some y => x.read y.2
    | none => x)

/-- An activation has ended: its answer, and the next activation of the rail that waits (09 R237). -/
def State.railActDone (s : State) (r : Nat) (x : OpResult) : State :=
  match (s.rail r).acting with
  | none => s
  | some n =>
    let s := s.modRail r (fun y => { y with acting := none })
    let fails (s : State) (k : Nat) : State := s.settle n (notPermR 0xA { item := 0x0A, idx := k })
    let s := match x with
      | .rail a => match s.actStep r a with
        | none => (s.actWrites r none a.reads).settle n (okR [])
        | some k => fails (s.actWrites r (some k) a.reads) k
      | .failStep k =>
        let s := if k ≤ 2 || s.onPmbus r then { s with power := { s.power with pmbBad := satInc s.power.pmbBad } } else s
        fails (s.actWrites r (some k) []) k
      | .pmbusDead => s.settle n (internalR 3)
      | _ => fails (s.actWrites r (some 5) []) 5
    let next := ([0, 1, 2, 3, 4, 5, 6, 7] : List (BitVec 3)).find? (fun m =>
      decide ((s.mbx m).held = .accepted) && decide ((s.mbx m).wait = .railQueued (BitVec.ofNat 3 r)))
    match next with
    | none => s
    | some m =>
      match pickR (s.actRefusals r) with
      | some e => s.settle m e
      | none => s.actStart r m

/-- The limits in force. -/
def State.limitsN (s : State) : List Nat := s.power.limits.map (·.toNat)

/-- POWER_LIMIT 0x62. -/
def cmdPowerLimit : Cmd :=
  {
    op := 0x62, len := lenIs 2, masks := [3, 0xFFFFFFFF], changes := true
    form := fun s q => if fld (q.w 1) 0 2 = 3 then some (badArgR 1) else badOf (s.limitErrs (fld (q.w 1) 0 2) (q.w 2).toNat s.limitsN)
    run := fun s q =>
      let k := fld (q.w 1) 0 2
      orElse s (s.limitErrs k (q.w 2).toNat s.limitsN)
        (({ s with power := { s.power with limits := s.power.limits.set k (q.w 2) } }).revalidate 4 nowK [(2, 0), (2, 1), (2, 2)],
          .final (okR [])) }

/-- POWER_CFG 0x63: in force from the next interval. -/
def cmdPowerCfg : Cmd :=
  {
    op := 0x63, len := lenIs 1, masks := [0x3FFF], changes := true
    form := fun _ q => if cfgEst (q.w 1) < 5 || cfgEst (q.w 1) > 50 || cfgTel (q.w 1) < 20 || cfgTel (q.w 1) > 80 then some (badArgR 1)
      else none
    run := fun s q => ({ s with power := { s.power with cfg := q.w 1 } }, .final (okR [])) }

/-- First tile, count and entries of a map command (14 0x33, 0x64). -/
def mapFirst (q : Req) : Nat := fld (q.w 1) 0 8
def mapCount (q : Req) : Nat := fld (q.w 1) 8 6
def mapEntries (q : Req) : List Byte := (bytesOf 56 (natOfWords (q.args.drop 1))).take (mapCount q)

/-- The length of a map command fits its count. -/
def mapLen (q : Req) : Bool := decide (q.args.length = 1 + cdiv (mapCount q) 4)

/-- What is wrong with a map command before its entries are judged: count, span, reserved bits, bytes past the last entry. -/
def mapFormBad (q : Req) : Option Resp :=
  let n := mapCount q
  if n = 0 || n > 56 || mapFirst q + n > 256 then some (badArgR 1)
  else
    let bs := bytesOf 56 (natOfWords (q.args.drop 1))
    ((enumFrom' 0 bs).find? (fun p => if p.1 < n then fld p.2 4 3 ≠ 0 else p.2 ≠ 0)).map (fun p => badArgR (2 + p.1 / 4))

/-- The map with a command's entries in it. -/
def mapWith (m : List Byte) (q : Req) : List Byte := m.take (mapFirst q) ++ mapEntries q ++ m.drop (mapFirst q + mapCount q)

/-- The first entry that assigns an absent tile (01 R26). -/
def State.mapAbsent (s : State) (q : Req) : Option Resp :=
  ((enumFrom' (mapFirst q) (mapEntries q)).find? (fun p => bit p.2 7 && !s.present p.1)).map (fun p => tileBad p.1)

/-- PART_MAP 0x64: all or nothing, at the next interval boundary. -/
def cmdPartMap : Cmd :=
  {
    op := 0x64, len := mapLen, masks := [0x3FFF], changes := true
    form := fun s q => match mapFormBad q with
      | some r => some r
      | none => s.mapAbsent q
    run := fun s q => ({ s with ledger := { s.ledger with mapNext := mapWith s.ledger.mapNext q } }, .final (okR [])) }

/-- LEDGER_READ 0x65: from the latest snapshot. -/
def cmdLedgerRead : Cmd :=
  {
    op := 0x65, len := lenIs 1, masks := [0x1F], sess := true
    form := fun _ q => if (q.w 1).toNat > 25 then some (badArgR 1) else none
    run := fun s q =>
      let a := (q.w 1).toNat
      let x := s.ledger.sAccts.getD a {}
      (s, .final (okR (if a < 16 then wordsOf 8 (s.ledger.record a)
        else wordsOf 2 x.energy.toNat ++ wordsOf 2 s.ledger.tSnap.toNat ++ [w32 (b2n x.sat)]))) }

/-- CAPTURE_AT 0x66. -/
def cmdCaptureAt : Cmd :=
  {
    op := 0x66, len := lenIs 2
    form := fun s q => badOf (captureErrs s q 1 false)
    run := fun s q => orElse s (captureErrs s q 1 false) (s.addCapture none (q.w64 1) q.mbx, .accepted []) }

/-- The two pages of REASONS: THR_CAUSE, then six durations. -/
def State.reasonPages (s : State) : List (List Word) :=
  let c := w32 (s.thrCause s.movers).toNat
  [c :: (s.power.reasons.take 6).flatMap Dur.words, c :: (s.power.reasons.drop 6).flatMap Dur.words]

/-- REASONS 0x67. -/
def cmdReasons : Cmd :=
  {
    op := 0x67, len := lenIs 1, masks := [1]
    run := fun s q =>
      let p := (q.w 1).toNat
      let s1 := if p = 0 then { s with power := { s.power with snapRea := s.reasonPages } } else s
      (s1, .final (okR (s1.power.snapRea.getD p (List.replicate 13 0)))) }

/-- The words of Table 9.11 in row order, per-rail counters rail by rail. -/
def State.powerWords (s : State) : List Word :=
  let p := s.power
  p.breach ++ [p.guards] ++ s.rails.map (·.cInvalid) ++ [p.distrusts, p.trusts] ++ p.dDistrust.words ++
  s.rails.flatMap (fun r => [r.cSuspect, r.cRun, r.cConf, r.cClear, r.cWait]) ++ s.rails.map (·.cOver) ++ [p.wbacks] ++
  s.rails.map (·.cAlert) ++ [s.boot.wires, s.boot.trayBad] ++ s.boot.wireTime.words

/-- Words cut into pages of 15 (14 R332). -/
def pagesOf : Nat → List Word → List (List Word)
  | 0, _ => []
  | n + 1, l => l.take 15 :: pagesOf n (l.drop 15)

/-- POWER_COUNTERS 0x68: six pages. -/
def cmdPowerCounters : Cmd :=
  {
    op := 0x68, len := lenIs 1, masks := [0xF]
    form := fun _ q => if (q.w 1).toNat > 5 then some (badArgR 1) else none
    run := fun s q =>
      let p := (q.w 1).toNat
      let s1 := if p = 0 then { s with power := { s.power with snapPow := pagesOf 6 s.powerWords } } else s
      (s1, .final (okR (pageOf s1.power.snapPow (pagesOf 6 (List.replicate 77 0)) p))) }

/-- POWER_STATUS 0x69. -/
def cmdPowerStatus : Cmd :=
  {
    op := 0x69
    run := fun s _ =>
      let p := s.power
      let cap (k : Nat) : Nat := (p.caps.getD k 256).toNat
      (s, .final (okR ([w32 (pack [(0, 9, cap 0), (9, 9, cap 1), (18, 9, cap 2)]),
        w32 (pack [(0, 5, s.margin), (5, 1, b2n p.distrust), (6, 2, s.boot.cool.code), (8, 8, maskOf (·.suspect) s.rails),
          (16, 8, maskOf (·.fault) s.rails)]),
        w32 (pack [(0, 8, maskOf (·.active) s.rails), (8, 2, p.avsBad.toNat)])] ++ p.limits))) }

/-! ## The plausibility check (09 R250, R251) -/

/-- The lowest enabled plumb of a tile whose removal leaves the tile within R142. -/
def State.spare (s : State) (i : Nat) : Option Nat :=
  let w := (s.tile i).plumbW
  let near (p : Nat) : Bool := plumbEn w p && decide (plumbThr w p ≤ 40)
  [0, 1, 2, 3].find? (fun p => plumbEn w p && decide ((([0, 1, 2, 3].filter near).filter (fun x => x != p)).length ≥ 2))

/-- The tile and plumb that a check of a rail takes. -/
def State.checkTile (s : State) (r : Nat) : Option (Nat × Nat) :=
  (allTiles.filter (fun i => (s.adaptive i || s.service i) && s.railOf i == r && (s.tile i).st = .running)).findSome?
    (fun i => (s.spare i).map (fun p => (i, p)))

/-- The setup word of a check: start on the plumb's rise, stop on its fall, with `stat`. -/
def checkSetup (i p : Nat) : BitVec 64 :=
  let src := 0x400 + 4 * i + p
  BitVec.ofNat 64 (pack [(0, 12, src), (12, 12, src), (24, 2, 1), (26, 2, 2), (43, 1, 1)])

/-- A channel that a check on a plumb can take: unclaimed, fit for service, and no ninth source of the plumb's group (03 R89, R100). -/
def State.checkChan (s : State) (i p : Nat) : Option Nat :=
  (List.range 60).find? (fun ch =>
    let c := s.chan ch
    decide (c.owner = .none) && !c.failed && !c.caling && !s.ninth ch (checkSetup i p))

/-- Less than `d` of uptime has passed since an instant, if there was one. -/
def State.within (s : State) (at_ : Option Nat) (d : Nat) : Bool := at_.any (fun t => decide (s.boot.uptime < t + d))

/-- PLAUSIBILITY_CHECK of a rail: start, or count the wait, which ends in the next try 1 ms later. -/
def State.checkStart (s : State) (r : Nat) : State :=
  let x := s.rail r
  if !x.suspect || x.fault || x.check.isSome || rmRGrid x.map = 0 || s.within x.clearedAt 160000000000 || s.within x.plWaitAt 16000000 then s
  else match (s.checkTile r).bind (fun c => (s.checkChan c.1 c.2).map (fun ch => (c.1, c.2, ch))) with
    | some (i, p, ch) =>
      let s := s.modRail r (fun x => { x with
        check := some { tile := BitVec.ofNat 8 i, plumb := BitVec.ofNat 2 p, ch := BitVec.ofNat 6 ch, t0 := s.boot.uptime } })
      let s := s.modChan ch (fun c => { c with owner := .service, setup := checkSetup i p, armed := true, armAt := s.boot.uptime })
      s.modPlumb i p (fun y => { y with masked := true })
    | none => s.modRail r (fun x => { x with cWait := satInc x.cWait, plWaitAt := some s.boot.uptime })

/-- The last step's judgement: the drop from the readback to the located tap voltage against the current (Table 9.6). -/
def Rail.drops (x : Rail) (code : Nat) : Bool :=
  let tap : Int := (x.vset.toNat : Int) - 5 * (code : Int)
  let d : Int := (x.mvs.headD 0 : Int) - tap
  let g := rmRGrid x.map
  decide (g ≠ 0) && decide (d > 0) && decide (d * 1000000 > 2 * (x.mas.headD 0 : Int) * (g : Int))

/-- PLAUSIBILITY_SEARCH_STEP of a rail with the droop time measured in 320,000 mt. -/
def State.checkStep (s : State) (r droop : Nat) : State :=
  match (s.rail r).check with
  | none => s
  | some c =>
    let i := c.tile.toNat
    if (s.tile i).st ≠ .running then s.dropCheck i
    else if s.boot.uptime < c.t0 + 320800 * (c.steps + 1) then s
    else
      let code := if 2 * droop ≥ 320000 then c.probe else c.code
      if c.steps < 5 then s.modRail r (fun x => { x with check := some { c with code := code, steps := c.steps + 1 } })
      else
        let bad := (s.rail r).drops code
        let s := s.dropCheck i
        let s := s.modRail r (fun x => { x with cRun := satInc x.cRun })
        if bad then (s.modRail r (fun x => { x with fault := true, cConf := satInc x.cConf })).raise 0x709 r 0
        else (s.modRail r (fun x => { x with
          suspect := false, cClear := satInc x.cClear, clearedAt := some s.boot.uptime })).raise 0x708 r 0

/-! ## AVSBus and PMBus (02 R60, R61; 09 R240) -/

def State.avsFault (s : State) (l : Nat) : State :=
  if bit s.power.avsBad l then s
  else ({ s with power := { s.power with
    avsBad := s.power.avsBad ||| BitVec.ofNat 2 (1 <<< l), avsAt := s.power.avsAt.set l s.boot.uptime } }).raise 0x701 l 0

/-- AVS_LINK_RETRY: the attempt on a faulted link, 100 ms after the fault or the attempt before; 16 good frames return it (02 R60). -/
def State.avsRetry (s : State) (l good : Nat) : State :=
  if !bit s.power.avsBad l || decide (s.boot.uptime < s.power.avsAt.getD l 0 + 1600000000) then s
  else if good < 16 then { s with power := { s.power with avsAt := s.power.avsAt.set l s.boot.uptime } }
  else ({ s with power := { s.power with avsBad := s.power.avsBad &&& ~~~(BitVec.ofNat 2 (1 <<< l)) } }).raise 0x702 l 0

/-- The time between two fallback reads of a rail, in mt: a current with one link faulted every 500 µs, at 400 kHz every 1.25 ms; with
both faulted half as often; a voltage at a quarter of the rate (02 Table 2.11, 09 R240). -/
def State.fallbackMt (s : State) (volt : Bool) : Nat :=
  (if volt then 4 else 1) * (if s.power.avsBad = 3 then 2 else 1) * (if bit s.power.pmbus 0 then 20000000 else 8000000)

/-- A fallback read is due: the rate's time has passed since the one before. -/
def State.fallbackDue (s : State) (r : Nat) (volt : Bool) : Bool :=
  match if volt then (s.rail r).pmVolt else (s.rail r).pmCurr with
  | some t => decide (s.boot.uptime ≥ t + s.fallbackMt volt)
  | none => true

/-- PMBUS_FALLBACK_READ: a read of a rail on a faulted link, at the fallback rates. -/
def State.fallbackRead (s : State) (r : Nat) (volt : Bool) (v bad : Nat) : State :=
  if !(s.rail r).active || !s.onPmbus r || !s.fallbackDue r volt then s
  else State.pmbus (s.modRail r (fun x => { x with
    pmVolt := if volt then some s.boot.uptime else x.pmVolt, pmCurr := if volt then x.pmCurr else some s.boot.uptime })) bad (pmbOps (s.rail r).map (if volt then 0x8B else 0x8C) none) (fun s => if volt then s.takeVolt r v else s.takeCurrent r v)

/-- An alert: STATUS_WORD is read and logged, then CLEAR_FAULTS is sent (09 Table 9.3). -/
def State.pmbAlert (s : State) (r : Nat) (st : BitVec 16) (bad : Nat) : State :=
  let m := (s.rail r).map
  s.pmbus bad (pmbOps m 0x79 none) (fun s =>
    let s := { s with power := { s.power with bus := s.power.bus ++ pmbOps m 0x03 none } }
    (s.modRail r (fun x => { x with cAlert := satInc x.cAlert })).raise 0x704 r st.toNat)

def State.pmbRecover (s : State) (ok : Bool) : State :=
  { s with power := { s.power with pmbRec := satInc s.power.pmbRec, pmbFail := if ok then 0 else s.power.pmbFail + 1 } }

/-! ## The coolant monitor (02 R62 to R64; 09 R258 to R262) -/

/-- A wire fault: the event and its count always; the safe floor and the 30 s wait from FLOW_GOOD (Table 9.9). -/
def State.wireFault (s : State) : State :=
  let b := { s.boot with wires := satInc s.boot.wires }
  let b := if b.cool = .good then { b with cool := .wireFault, waitAt := b.uptime, trayOk := false, pollAt := some b.uptime } else b
  ({ s with boot := b }).raise0 0x70B 0

/-- STOPPED: the halt and its event (Table 9.10). -/
def State.coolStop (s : State) (cause : Nat) : State :=
  if s.boot.cool = .stopped then s
  else
    let s := { s with boot := { s.boot with cool := .stopped } }
    (if s.boot.chipStop then s else s.halt cause).raise0 0x70C cause

/-- Two lost periods in a row. -/
def State.flowLost (s : State) : State :=
  match s.boot.cool with
  | .unknown => s.raise0 0x70D 0
  | .good | .wireFault => s.coolStop 1
  | .stopped => s

/-- Four good periods in a row (R63). -/
def State.flowGood (s : State) : State :=
  match s.boot.cool with
  | .unknown | .wireFault => { s with boot := { s.boot with
      cool := .good, flowOnce := true, trayOk := false, pollAt := s.boot.pollAt.filter (fun t => decide (t ≤ s.boot.uptime)) } }
  | .good | .stopped => s

/-- FLOW_HB_EDGE: a rising edge of a pulse at least 1 µs long ends a period, which Table 2.14 classifies. -/
def State.flowEdge (s : State) (high : Nat) : State :=
  if high < 16000 then s else
  let b := s.boot
  match b.hbLast with
  | none => { s with boot := { b with hbLast := some b.uptime, hbDc := false } }
  | some t =>
    let p := b.uptime - t
    let b := { b with hbLast := some b.uptime, hbDc := false }
    if 1440000 ≤ p ∧ p ≤ 1760000 then
      let s := { s with boot := { b with hbGood := b.hbGood + 1, hbLost := 0, hbOdd := 0 } }
      if b.hbGood + 1 ≥ 4 then s.flowGood else s
    else if 5760000 ≤ p ∧ p ≤ 7040000 then
      if b.hbLost + 1 ≥ 2 then ({ s with boot := { b with hbGood := 0, hbLost := 0, hbOdd := 0 } }).flowLost
      else { s with boot := { b with hbGood := 0, hbLost := b.hbLost + 1, hbOdd := 0 } }
    else if b.hbOdd + 1 ≥ 4 then ({ s with boot := { b with hbGood := 0, hbLost := 0, hbOdd := 0 } }).wireFault
    else { s with boot := { b with hbGood := 0, hbLost := 0, hbOdd := b.hbOdd + 1 } }

/-- FLOW_HB_DC_TIMEOUT: no rising edge for 1 ms, declared once until the next edge. -/
def State.flowDc (s : State) : State :=
  let b := s.boot
  if b.hbDc || b.uptime < b.hbLast.getD 0 + 16000000 then s
  else ({ s with boot := { b with hbDc := true, hbGood := 0, hbLost := 0, hbOdd := 0 } }).wireFault

/-- A tray poll ends now: one that is due every 10 ms in WIRE_FAULT, or one that was under way when the heartbeat became good again. -/
def Boot.polls (b : Boot) : Bool :=
  b.pollAt.any (fun t => decide (b.cool = .good) || (decide (b.cool = .wireFault) && decide (t ≤ b.uptime)))

/-- TRAY_POLL: the byte read, or nothing when the poll failed (R259, R262). A poll may still end once the heartbeat is good again, and
its report of loss stops the chip all the same (Table 9.12). -/
def State.trayPoll (s : State) (a : Option Byte) : State :=
  if !s.boot.polls then s else
  let w := s.power.pmbus
  let s := { s with boot := { s.boot with pollAt := if s.boot.cool = CoolSt.good then none else some (s.boot.uptime + 160000000) } }
  let s := { s with power := { s.power with bus := [.pmb (BitVec.ofNat 7 (pmTray w)) (BitVec.ofNat 8 (pmTrayCmd w)) none] } }
  match a with
  | none => { s with
      boot := { s.boot with trayBad := satInc s.boot.trayBad }, power := { s.power with pmbBad := satInc s.power.pmbBad } }
  | some b =>
    if !bit b 0 then s
    else if bit b 2 then s.coolStop 2
    else if bit b 1 then { s with boot := { s.boot with trayOk := true, trayAt := s.boot.uptime } }
    else s

/-- WIRE_FAULT_WAIT_EXPIRY: 30 s without a confirmation. -/
def State.wireExpiry (s : State) : State :=
  if s.safeFloor && decide (s.boot.uptime ≥ s.boot.waitAt + 480000000000) then s.coolStop 3 else s

/-- TRAY_CONFIRM_LAPSE: 1 s since the last confirmation. -/
def State.trayLapse (s : State) : State :=
  if s.boot.cool = .wireFault && s.boot.trayOk && decide (s.boot.uptime ≥ s.boot.trayAt + 16000000000) then
    { s with boot := { s.boot with trayOk := false, waitAt := s.boot.uptime } }
  else s

/-! ## Captures (08 R229; 09 R263; 15 R353, R357) -/

/-- A packet that is never dropped: it joins its class queue, or waits in its source with those of its kind. -/
def State.keepPacket (s : State) (ty src nrec : Nat) (stamp : Time) (body : List Flit) : State :=
  if s.log.capWait.isEmpty && s.roomFor ty (2 + body.length) then s.putPacket ty src nrec stamp body
  else
    let p : Packet := {
      ptype := BitVec.ofNat 5 ty, src := BitVec.ofNat 8 src, nrec := BitVec.ofNat 8 nrec, seq := 0, mst := 0, brk := false, gap := false,
      epoch := 0, stamp := stamp, body := body }
    { s with log := { s.log with capWait := s.log.capWait ++ [p] } }

/-- The tile capture record of Table 15.7. -/
def State.captureRec (s : State) (mv : List (Nat × Nat × Nat)) (i : Nat) : BitVec 128 :=
  BitVec.ofNat 128 (pack [(0, 64, (s.statusWord mv i).toNat), (64, 8, i), (72, 9, s.qTarget mv i), (81, 12, twos 12 (s.tile i).temp),
    (93, 12, (s.reasonsAt mv i).toNat)])

/-- Two words to a flit, low word first. -/
def pairFlits : List Word → List Flit
  | a :: b :: r => BitVec.ofNat 64 (a.toNat + b.toNat * 2 ^ 32) :: pairFlits r
  | [a] => [BitVec.ofNat 64 a.toNat]
  | [] => []

/-- The packets of one capture (15 R357). -/
def State.captureOut (s : State) (c : Capture) : State :=
  match c.groups with
  | none =>
    let why := s.thrCause s.movers
    let s := s.keepPacket 4 0 0 c.at_ (s.ledger.accts.map (·.energy) ++ s.power.reasons.map (fun d => BitVec.ofNat 64 d.n.toNat) ++
      [BitVec.ofNat 64 why.toNat])
    s.keepPacket 4 1 0 c.at_ (pairFlits s.powerWords)
  | some g =>
    let mv := s.movers
    let gs := if g.toNat = 8 then List.range 8 else [g.toNat]
    s.each gs (fun s k =>
      let ts := allTiles.filter (fun i => s.present i && i / 32 == k)
      s.keepPacket 3 k ts.length c.at_ (ts.flatMap (fun i => recFlits (s.captureRec mv i))))

/-- A capture's instant has come, and no sealed keystone can still move it (R229). -/
def State.capReady (s : State) (c : Capture) : Bool :=
  s.due c.at_ && !s.keys.slots.any (fun k => k.live && decide (s.key k.t ≤ s.key c.at_ + 64) && decide (s.key c.at_ < s.key k.t + 160))

/-- CAPTURE_LATCH: every capture whose instant has come is latched, sent and answered with its instant. -/
def State.capLatch (s : State) : State :=
  let now := s.keys.caps.filter s.capReady
  let s := { s with
    keys := { s.keys with
      caps := s.keys.caps.filter (fun c => !s.capReady c), recentT := s.keys.recentT.filter (fun t => decide (nowK < s.key t + 160)) } }
  s.each now (fun s c => (s.captureOut c).settleO c.mbx (okR (wordsOf 2 c.at_.toNat)))

def execRailMap (dt : Nat) (q : Req) (s : State) : Step := .next (postCmd cmdRailMap dt q s)
def execRailAct (dt : Nat) (q : Req) (s : State) : Step := .next (postCmd cmdRailAct dt q s)
def execPowerLimit (dt : Nat) (q : Req) (s : State) : Step := .next (postCmd cmdPowerLimit dt q s)
def execPowerCfg (dt : Nat) (q : Req) (s : State) : Step := .next (postCmd cmdPowerCfg dt q s)
def execPartMap (dt : Nat) (q : Req) (s : State) : Step := .next (postCmd cmdPartMap dt q s)
def execLedgerRead (dt : Nat) (q : Req) (s : State) : Step := .next (postCmd cmdLedgerRead dt q s)
def execCaptureAt (dt : Nat) (q : Req) (s : State) : Step := .next (postCmd cmdCaptureAt dt q s)
def execReasons (dt : Nat) (q : Req) (s : State) : Step := .next (postCmd cmdReasons dt q s)
def execPowerCounters (dt : Nat) (q : Req) (s : State) : Step := .next (postCmd cmdPowerCounters dt q s)
def execPowerStatus (dt : Nat) (q : Req) (s : State) : Step := .next (postCmd cmdPowerStatus dt q s)
def execPlausibilityCheck (dt : Nat) (rail : BitVec 3) (s : State) : Step := event dt s (fun s => s.checkStart rail.toNat)
def execPlausibilitySearchStep (dt : Nat) (rail : BitVec 3) (droopMt : Nat) (s : State) : Step :=
  event dt s (fun s => s.checkStep rail.toNat droopMt)
def execAvsLinkFault (dt : Nat) (link : BitVec 1) (s : State) : Step := event dt s (fun s => s.avsFault link.toNat)
def execAvsLinkRetry (dt : Nat) (link : BitVec 1) (goodFrames : Nat) (s : State) : Step :=
  event dt s (fun s => s.avsRetry link.toNat goodFrames)
def execPmbusFallbackRead (dt : Nat) (rail : BitVec 3) (volt : Bool) (val : Tried Nat) (s : State) : Step :=
  event dt s (fun s => s.fallbackRead rail.toNat volt val.val val.bad.toNat)
def execPmbusAlert (dt : Nat) (rail : BitVec 3) (status : Tried (BitVec 16)) (s : State) : Step :=
  event dt s (fun s => s.pmbAlert rail.toNat status.val status.bad.toNat)
def execPmbusBusRecovery (dt : Nat) (recovered : Bool) (s : State) : Step := event dt s (fun s => s.pmbRecover recovered)
def execFlowHbEdge (dt : Nat) (highMt : Nat) (s : State) : Step := event dt s (fun s => s.flowEdge highMt)
def execFlowHbDcTimeout (dt : Nat) (s : State) : Step := event dt s State.flowDc
def execTrayPoll (dt : Nat) (answer : Option Byte) (s : State) : Step := event dt s (fun s => s.trayPoll answer)
def execWireFaultWaitExpiry (dt : Nat) (s : State) : Step := event dt s State.wireExpiry
def execTrayConfirmLapse (dt : Nat) (s : State) : Step := event dt s State.trayLapse
def execCaptureLatch (dt : Nat) (s : State) : Step := event dt s State.capLatch

end Sys2Proof.Machine
end

