-- ==== Sys2Proof/Machine/Net.lean ====
section
/-! DEFINITION. The evaluation of a model on a tile: the feature vector, delayed scaling, the dot product with its special values,
the tensor watch's counts and the plan word (06 R163, R430; 07 R187 to R203). -/

namespace Sys2Proof.Machine

open Sys2Proof

/-! ## Features (06 Tables 6.4, 6.4a) -/

/-- A tile is active: enabled, not fenced, in a domain reported on, and assigned a model class (01 R37). -/
def State.active (s : State) (i : Nat) : Bool :=
  let t := s.tile i
  s.present i && bit (s.rck.map.getD i 0) 7 && (t.st = .running || t.st = .gated || t.st = .starting)

/-- Course length in mt (06 R172). -/
def courseLen (c : BitVec 2) : Nat := 3200 * 2 ^ c.toNat

/-- The feature count of a `feat` mask (Table 6.4a). -/
def featCount (feat : BitVec 16) : Nat :=
  sumN ((enumFrom' 0 [56, 24, 64, 2, 9, 10, 10, 6, 4]).map (fun p => if bit feat p.1 then p.2 else 0))

/-- 2^(work/8) in units of 2^−96, rounded down; 0 for `work` 0. -/
def workUnits (w : Nat) : Nat :=
  if w = 0 then 0 else Nat.sqrt (Nat.sqrt (Nat.sqrt (2 ^ (w % 8 + 768)))) * 2 ^ (w / 8)

/-- Planned end of an OP record. -/
def OpRec.stop (o : OpRec) : Time := o.start + BitVec.ofNat 64 (32 * o.dur.toNat)

/-- Host work of a set of tiles in the course [C, C + L), as binary32. -/
def State.forecast (s : State) (tiles : List Nat) (c : Time) (len : Nat) : BitVec 32 :=
  let ops := tiles.flatMap (fun i => (s.tile i).window)
  let on := ops.filter (fun o => decide (s.key o.start < s.key c + len) && decide (s.key o.stop > s.key c))
  (rnDy { m := (sumN (on.map (fun o => workUnits o.work.toNat)) : Nat), e := -96 }).1

/-- A list cut or filled with zeros to n elements. -/
def padTo (n : Nat) (l : List (BitVec 32)) : List (BitVec 32) := (l ++ List.replicate n 0).take n

/-- One feature group of a tile at the snapshot C of courses of length L. -/
def State.group (s : State) (mv : List (Nat × Nat × Nat)) (i : Nat) (c : Time) (len : Nat) (g : Nat) : List (BitVec 32) :=
  let t := s.tile i
  let r := s.rail (s.railOf i)
  let f (n : Nat) : BitVec 32 := f32OfInt n
  match g with
  | 0 => padTo 56 ((t.window.take 8).flatMap (fun o =>
      [f 1, f o.cls.toNat, f32OfInt ((s.key o.start : Int) - (s.key c : Int)), f o.dur.toNat, f o.work.toNat, f o.fmt.toNat, f o.tag.toNat]))
  | 1 => t.stats.flatMap (fun x =>
      let k (v : Byte) : BitVec 32 := if x.known then f v.toNat else 0
      [k x.zero, k x.sat, k x.nonfin, k x.mag, f (b2n !x.known), f (min 255 x.age)])
  | 2 => t.plumbs.flatMap (fun p => padTo 16 (p.hist.map f))
  | 3 =>
    let now := t.temps.headD (Tile.temp t)
    [(rnDy { m := now, e := -2 }).1, (rnDy { m := now - t.temps.getLastD now, e := -2 }).1]
  | 4 => padTo 4 (r.mas.map f) ++ padTo 4 (r.mvs.map f) ++ [f r.vset.toNat]
  | 5 | 6 =>
    let on := allTiles.filter (fun j => s.active j && (if g = 5 then s.railOf j == s.railOf i else s.domOf j == s.domOf i))
    (List.range 10).map (fun k => s.forecast on (c + BitVec.ofNat 64 ((k + 1) * len)) len)
  | 7 => [f (t.runCode.toNat - t.dip.toNat), f t.lastK.toNat, f (s.passTile mv i).1, f (s.qTarget mv i), f t.dip.toNat, f t.pendingEvents.length]
  | 8 => padTo 4 t.samples
  | _ => []

/-- The selected groups of a tile, in ascending order. -/
def State.features (s : State) (mv : List (Nat × Nat × Nat)) (i : Nat) (feat : BitVec 16) (c : Time) (len : Nat) : List (BitVec 32) :=
  (List.range 9).flatMap (fun g => if bit feat g then s.group mv i c len g else [])

/-! ## The dot product (07 R190 to R196) -/

/-- A term of a dot product: NaN, 0 × ∞, an infinity (an overflowing product among them), or exact. -/
inductive Term where
  | nan
  | zinf
  | inf (neg over_ : Bool)
  | fin (neg : Bool) (d : Dy)
deriving DecidableEq, Repr

/-- The product of a weight and an input under scale codes ew and ex (R193). -/
def termOf (w x : Num) (ew ex : Nat) : Term :=
  let neg := w.neg != x.neg
  if w.isNan || x.isNan || ew = 255 || ex = 255 then .nan
  else if w.isInf || x.isInf then (if w.isZero || x.isZero then .zinf else .inf neg false)
  else
    let d : Dy := { m := ((w.dy.mul x.dy).m.natAbs : Int), e := (w.dy.mul x.dy).e + (ew : Int) + (ex : Int) - 254 }
    if d.lt { m := 2 ^ 25 - 1, e := 103 } then .fin neg d else .inf neg true

/-- The bias as a term ahead of term 0. -/
def biasTerm (b : BitVec 32) : Term :=
  match num32 b with
  | .nan => .nan
  | .inf n => .inf n false
  | .fin n m e => .fin n { m := (m : Int), e := e }

/-- What a dot product gives: value, flags, the invalid operation (kind, term, xblk), and the free values taken so far. -/
structure DotOut where
  v     : BitVec 32
  nanIn : Bool := false
  nv    : Bool := false
  of_   : Bool := false
  ecc   : Bool := false
  cap   : Option (Nat × Nat × Nat) := none
  fresh : Nat
deriving DecidableEq, Repr

/-- Binary32 patterns by a signed ordinal; both zeros for 0. -/
def ofOrd (o : Int) : List (BitVec 32) :=
  if o = 0 then [0x00000000#32, 0x80000000#32] else [BitVec.ofNat 32 (o.natAbs + if o < 0 then 2 ^ 31 else 0)]

def ordOf (b : BitVec 32) : Int := if bit b 31 then -(fld b 0 31 : Int) else (fld b 0 31 : Int)

/-- The finite binary32 values within 2 ulp(r) of r (R191). -/
def nearValues (r : BitVec 32) : List (BitVec 32) :=
  let d := (num32 r).dy
  let lim := (ulp d).mul { m := 2, e := 0 }
  ([-4, -3, -2, -1, 0, 1, 2, 3, 4] : List Int).flatMap (fun k =>
    (ofOrd (ordOf r + k)).filter (fun v => match num32 v with
      | .fin _ _ _ => ((num32 v).dy.sub d).abs.le lim
      | _ => false))

/-- The value of a block of finite terms: the exact sum rounded once, or any value of its bound; whether it overflows. -/
def blockSum (ts : List (Bool × Dy)) (fresh : Nat) : BitVec 32 × Bool × Nat :=
  let sum := ts.foldl (fun (a : Dy) t => if t.1 then a.sub t.2 else a.add t.2) {}
  if sum.m = 0 then
    (if !ts.isEmpty && ts.all (fun t => t.1 && t.2.m == 0) then 0x80000000#32 else 0#32, false, fresh)
  else
    let r := rnDy sum
    if r.2 then (r.1, true, fresh)
    else
      let c := nearValues r.1
      (c.getD (Config.free .dotError fresh % c.length) r.1, false, fresh + 1)

/-- acc + blk (R190, R193, R198): the sum, `nv`, `of`. -/
def add32 (a b : BitVec 32) : BitVec 32 × Bool × Bool :=
  match num32 a, num32 b with
  | .nan, _ => (nan32, false, false)
  | _, .nan => (nan32, false, false)
  | .inf n, .inf k => if n = k then (a, false, false) else (nan32, true, false)
  | .inf _, _ => (a, false, false)
  | _, .inf _ => (b, false, false)
  | .fin n m e, .fin k m' e' =>
    let d := (Num.fin n m e).dy.add (Num.fin k m' e').dy
    if d.m = 0 then (if m = 0 ∧ m' = 0 ∧ n ∧ k then 0x80000000#32 else 0#32, false, false)
    else let r := rnDy d; (r.1, false, r.2)

/-- The least term index at which an invalid operation among the terms first holds, the bias ahead of term 0: kind and index (R194). -/
def firstInvalid : List (Nat × Term) → Bool → Bool → Option (Nat × Nat)
  | [], _, _ => none
  | (i, t) :: r, pos, neg =>
    match t with
    | .zinf => some (0, i)
    | .inf true _ => if pos then some (1, i) else firstInvalid r pos true
    | .inf false _ => if neg then some (1, i) else firstInvalid r true neg
    | _ => firstInvalid r pos neg

/-- The sign of an infinite term. -/
def Term.infSign : Term → Option Bool
  | .inf n _ => some n
  | _ => none

/-- What an invalid operation among the terms captures: kind, term and `xblk`. An infinite bias that meets infinite terms of the other
sign only is an addition of R190, named by the block that makes it (R194; log 91). -/
def invalidAt (bias : Option Term) (ts : List Term) : Option (Nat × Nat × Nat) :=
  let terms := firstInvalid (enumFrom' 0 ts) false false
  match terms, bias.bind Term.infSign, positions (fun t : Term => t.infSign.isSome) ts with
  | none, some n, i :: _ => if (ts.getD i .nan).infSign = some n then none else some (1, 32 * (i / 32), 1)
  | some (0, z), some n, i :: _ =>
    if (ts.getD i .nan).infSign = some n then some (0, z, 0)
    else if ts.all (fun t => t.infSign ≠ some n) then (if z ≤ 32 * (i / 32) then some (0, z, 0) else some (1, 32 * (i / 32), 1))
    else some (0, min z i, 0)
  | some (_, _), some n, _ => (firstInvalid (enumFrom' 0 ts) (!n) n).map (fun x => (x.1, x.2, 0))
  | x, _, _ => x.map (fun y => (y.1, y.2, 0))

/-- One block added to the running value. -/
def dotBlock (o : DotOut) (have_ : Bool) (b : Nat) (ts : List Term) : DotOut :=
  let infs := ts.filterMap (fun t => match t with | .inf n _ => some n | _ => none)
  let blk : BitVec 32 × Bool × Nat := match infs with
    | n :: _ => (inf32 n, false, o.fresh)
    | [] => blockSum (ts.filterMap (fun t => match t with | .fin n d => some (n, d) | _ => none)) o.fresh
  if !have_ then { o with v := blk.1, of_ := o.of_ || blk.2.1, fresh := blk.2.2 }
  else
    let x := add32 o.v blk.1
    { o with
      v := x.1, of_ := o.of_ || blk.2.1 || x.2.2, nv := o.nv || x.2.1, fresh := blk.2.2
      cap := if x.2.1 && o.cap.isNone then some (1, 32 * b, 1) else o.cap }

/-- Blocks in ascending order. -/
def dotBlocks : Nat → DotOut → Bool → Nat → List Term → DotOut
  | 0, o, _, _, _ => o
  | _, o, _, _, [] => o
  | n + 1, o, have_, b, ts => dotBlocks n (dotBlock o have_ b (ts.take 32)) true (b + 1) (ts.drop 32)

/-- A dot product with its bias (Table 7.4). -/
def dot (bias : Option (BitVec 32)) (ts : List Term) (fresh : Nat) : DotOut :=
  let all := (match bias with | some b => [(0xFFF, biasTerm b)] | none => []) ++ enumFrom' 0 ts
  let nanIn := all.any (fun t => t.2 == Term.nan)
  let of_ := all.any (fun t => match t.2 with | .inf _ o => o | _ => false)
  let bad := invalidAt (bias.map biasTerm) ts
  if nanIn || bad.isSome then
    { v := nan32, nanIn := nanIn, nv := bad.isSome, of_ := of_, cap := bad, fresh := fresh }
  else
    dotBlocks (cdiv ts.length 32) { v := bias.getD 0, of_ := of_, fresh := fresh } bias.isSome 0 ts

/-! ## Weights in SRAM (07 R187) -/

/-- Bytes of one block of 32 elements. -/
def blkBytes (fmt : Nat) : Nat := if fmt = 3 then 16 else if fmt = 4 then 128 else 32

/-- The code of element i of row j of a matrix at an address. -/
def elemAt (m : List Host.Cell) (base nin fmt j i : Nat) : Nat :=
  let blk := base + (j * cdiv nin 32 + i / 32) * blkBytes fmt
  let k := i % 32
  if fmt = 3 then fld (memRead m (blk + k / 2)) (4 * (k % 2)) 4
  else if fmt = 4 then natOfBytes (memReadList m (blk + 4 * k) 4)
  else (memRead m (blk + k)).toNat

/-- Address of the scale byte of block b of row j. -/
def scaleAddr (base nin nout fmt j b : Nat) : Nat := base + nout * cdiv nin 32 * blkBytes fmt + j * cdiv nin 32 + b

/-- A byte range of weight SRAM holds an uncorrectable word. -/
def State.weightBad (s : State) (a n : Nat) : Bool :=
  s.faults.bad.any (fun x => x.1 == .weight && decide (a / 8 ≤ x.2) && decide (x.2 * 8 < a + n))

/-- Bias j of a layer. -/
def State.biasAt (s : State) (l : Layer) (j : Nat) : Option (BitVec 32) :=
  if l.bias then some (BitVec.ofNat 32 (natOfBytes (memReadList s.log.wmem (l.bAt + 4 * j) 4))) else none

/-- Row j of a layer reads an uncorrectable word (R196). -/
def State.rowBad (s : State) (l : Layer) (j : Nat) : Bool :=
  let f := l.wFmt.toNat
  let nb := cdiv l.nin 32
  s.weightBad (l.wAt + j * nb * blkBytes f) (nb * blkBytes f) || s.weightBad (scaleAddr l.wAt l.nin l.nout f j 0) nb ||
    (l.bias && s.weightBad (l.bAt + 4 * j) 4)

/-- Output j of a layer before its activation. -/
def State.output (s : State) (l : Layer) (ex : Nat) (xs : List Nat) (j : Nat) : DotOut :=
  if s.rowBad l j then { v := nan32, ecc := true, fresh := s.fresh }
  else
    let f := l.wFmt.toNat
    let ts := (enumFrom' 0 xs).map (fun p =>
      termOf (numOf f (elemAt s.log.wmem l.wAt l.nin f j p.1)) (numOf l.inFmt.toNat p.2)
        (memRead s.log.wmem (scaleAddr l.wAt l.nin l.nout f j (p.1 / 32))).toNat ex)
    dot (s.biasAt l j) ts s.fresh

/-! ## Flags, capture and watch (07 R194, R195, R203) -/

/-- A numeric flag of a class is set; the first setting of `nan_in`, `of` or `sat` raises `rck_num` (R195). -/
def State.setFlag (s : State) (c b : Nat) : State :=
  match s.cls c with
  | none => s
  | some x =>
    if bit x.flags b then s
    else
      let s := s.modCls c (fun x => { x with flags := setFld x.flags b 1 1 })
      if b = 0 ∨ b = 2 ∨ b = 3 then s.raise 0x504 c b else s

/-- `nan_in` set by so many operations. -/
def State.countNan (s : State) (c n : Nat) : State :=
  if n = 0 then s else (s.modCls c (fun x => { x with nanIn := satAdd x.nanIn n })).setFlag c 0

/-- What a dot product reports: counters, flags, and the first invalid operation into the capture register. -/
def State.noteDot (s : State) (c tile layer j : Nat) (at_ : Time) (o : DotOut) : State :=
  let s := { s with fresh := o.fresh }
  let s := if o.nanIn then s.countNan c 1 else s
  let s := if o.of_ then (s.modCls c (fun x => { x with of_ := satInc x.of_ })).setFlag c 2 else s
  let s := if o.ecc then s.setFlag c 4 else s
  if !o.nv then s
  else
    let s := (s.modCls c (fun x => { x with nv := satInc x.nv })).setFlag c 1
    match o.cap with
    | some (k, term, x) =>
      if bit s.rck.capture 0 then s
      else
        let reg := pack [(0, 1, 1), (1, 1, k), (2, 4, c), (6, 4, layer), (14, 8, tile), (22, 12, j), (34, 12, term), (46, 1, x),
          (64, 64, at_.toNat)]
        ({ s with rck := { s.rck with capture := BitVec.ofNat 128 reg } }).raise 0x503 tile c
    | none => s

/-- What one tile's evaluation adds to a tensor's counts of the course. -/
def Tensor.count (t : Tensor) (elem nz sat nonfin : Nat) : Tensor :=
  { t with cElem := t.cElem + elem, cZero := t.cZero + nz, cSat := t.cSat + sat, cNonfin := t.cNonfin + nonfin }

/-- The largest finite magnitude joins the course's amax (R200). -/
def Tensor.seen (t : Tensor) (xs : List (BitVec 32)) : Tensor :=
  xs.foldl (fun t x => match num32 x with
    | .fin _ _ _ =>
      let m : BitVec 32 := x &&& 0x7FFFFFFF#32
      { t with cAmax := some (match t.cAmax with | some a => if a.toNat < m.toNat then m else a | none => m) }
    | _ => t) t

def isNonfin (v : BitVec 32) : Bool := (num32 v).isNan || (num32 v).isInf

def Cls.modTensor (x : Cls) (k : Nat) (f : Tensor → Tensor) : Cls := { x with tensors := x.tensors.modify k f }

/-! ## Delayed scaling (07 R201) -/

/-- The reference amax of a tensor for course n: entry n − 8, else the newest of n − 9 to n − 15. -/
def Tensor.ref (t : Tensor) (n : Nat) : Option (BitVec 32) :=
  [8, 9, 10, 11, 12, 13, 14, 15].findSome? (fun k => t.ring.getD ((n + 16 - k) % 16) none)

/-- The tensor scale code for course n and whether it is the fused one; `fused` gives the code of a format. -/
def scaleFor (t : Tensor) (n fmt margin : Nat) (fused : Nat → Nat) : Nat × Bool :=
  match t.ref n with
  | some a =>
    if (num32 a).isZero then (fused fmt, true)
    else ((min 254 (max 0 (log2Of a - emaxOf fmt + (margin : Int) + 127))).toNat, false)
  | none => (fused fmt, true)

/-- The fused scale code of a format, as the fuses hold it (07 Table 7.7, 16 Table 16.1). -/
def State.fusedCode (s : State) (fmt : Nat) : Nat := fld s.trust.fuses (3752 + 8 * fmt) 8

/-- The scales of a class's input tensors for course n: each tensor converted with a fused scale counts once. -/
def State.setScales (s : State) (c n : Nat) : State :=
  match s.cls c with
  | none => s
  | some x =>
    s.each (enumFrom' 0 x.layers) (fun s p =>
      let r := scaleFor (x.tensors.getD (2 * p.1) {}) n p.2.inFmt.toNat p.2.margin s.fusedCode
      let s := s.modCls c (fun y => { y.modTensor (2 * p.1) (fun t => { t with scale := BitVec.ofNat 8 r.1, fb := t.fb || r.2 }) with
        fallback := if r.2 then satInc y.fallback else y.fallback })
      if r.2 then s.setFlag c 6 else s)

/-! ## One model on one tile -/

/-- A layer over a tile: its outputs, and its converted inputs as binary32. -/
def State.evalLayer (s : State) (c tile li : Nat) (at_ : Time) (l : Layer) (xs : List (BitVec 32)) :
    State × List (BitVec 32) × List (BitVec 32) :=
  let fmt := l.inFmt.toNat
  let ex := (match s.cls c with | some x => (x.tensors.getD (2 * li) {}).scale | none => 0).toNat
  let cv := xs.map (conv fmt ex)
  let codes := cv.map (·.1)
  let sat := (cv.filter (fun p => p.2 == ConvNote.sat)).length
  let nanI := (cv.filter (fun p => p.2 == ConvNote.nanInt)).length
  let nz := (cv.filter (fun p => p.2 != ConvNote.nanInt && (numOf fmt p.1).isZero)).length
  let s := s.modCls c (fun x => x.modTensor (2 * li) (fun t => (t.count xs.length nz sat (xs.filter isNonfin).length).seen xs))
  let s := if sat ≠ 0 then s.setFlag c 3 else s
  let s := if nanI ≠ 0 then s.setFlag c 0 else s
  let r := (List.range l.nout).foldl (fun (a : State × List (BitVec 32)) j =>
      let o := a.1.output l ex codes j
      let s := a.1.noteDot c tile li j at_ o
      let y := activate l.act.toNat l.lo l.hi o.v
      (s.countNan c y.2, a.2 ++ [y.1])) (s, [])
  let ys := r.2
  let s := r.1.modCls c (fun x => x.modTensor (2 * li + 1) (fun t =>
    t.count ys.length (ys.filter (fun v => (num32 v).isZero)).length 0 (ys.filter isNonfin).length))
  (s, ys, codes.map (scaled fmt ex))

/-- Layers from number li on: the last layer's outputs and its converted inputs. -/
def State.evalLayers (c tile : Nat) (at_ : Time) : Nat → List Layer → State → List (BitVec 32) → List (BitVec 32) →
    State × List (BitVec 32) × List (BitVec 32)
  | _, [], s, xs, cx => (s, xs, cx)
  | li, l :: r, s, xs, _ =>
    let x := s.evalLayer c tile li at_ l xs
    State.evalLayers c tile at_ (li + 1) r x.1 x.2.1 x.2.2

/-- The field of a plan word that each of the first seven entries of `out_map` fills: lowest bit and width (Table 6.9a). -/
def planFields : List (Nat × Nat) := [(0, 4), (4, 8), (12, 5), (17, 6), (23, 8), (31, 13), (44, 8)]

/-- The output that an entry of `out_map` names. -/
def mapped (om : List Byte) (ys : List (BitVec 32)) (k : Nat) : Option (BitVec 32) :=
  let i := (om.getD k 0xFF).toNat
  if i = 255 then none else ys[i]?

/-- The plan word that outputs spell and the number of clamps; none where a plan output is NaN (R199). -/
def planOf (om : List Byte) (ys : List (BitVec 32)) : Option (BitVec 64 × Nat) :=
  if (List.range 9).any (fun k => match mapped om ys k with | some v => (num32 v).isNan | none => false) then none
  else
    let fs := (enumFrom' 0 planFields).map (fun p => match mapped om ys p.1 with
      | some v => let r := toField v 1 (2 ^ p.2.2 - 1); (p.2.1, p.2.2, r.1, r.2)
      | none => (p.2.1, p.2.2, 0, false))
    let hail := match mapped om ys 7 with | some v => !less32 v 0x3F000000#32 | none => false
    let cf := match mapped om ys 8 with | some v => toField v 127 127 | none => (0, false)
    some (BitVec.ofNat 64 (pack (fs.map (fun f => (f.1, f.2.1, f.2.2.1)) ++ [(52, 1, b2n hail), (53, 7, cf.1)])),
      (fs.filter (fun f => f.2.2.2)).length + b2n cf.2)

/-! ## Lookup rows (06 R430; 07 R187) -/

/-- The rows of n elements that a table segment holds. -/
def LookTable.rows (t : LookTable) (n : Nat) : Nat := t.len / (cdiv n 32 * (blkBytes t.fmt + 1))

/-- Row r of a table of rows of n elements: each element times its block scale. -/
def State.tableRow (s : State) (t : LookTable) (n r : Nat) : List (BitVec 32) :=
  let m := if t.spill then s.log.mem else s.log.wmem
  let base := (if t.spill then 8388608 - 65536 * s.rck.spill else 0) + t.dst
  (List.range n).map (fun i =>
    scaled t.fmt (memRead m (scaleAddr base n (t.rows n) t.fmt r (i / 32))).toNat (elemAt m base n t.fmt r i))

/-- An uncorrectable word lies in that row or its scales (17 Table 17.3). -/
def State.tableBad (s : State) (t : LookTable) (n r : Nat) : Bool :=
  let nb := cdiv n 32
  let hit (a k : Nat) : Bool := s.faults.bad.any (fun b =>
    b.1 == (if t.spill then MemRegion.spill else MemRegion.weight) && decide (a / 8 ≤ b.2) && decide (b.2 * 8 < a + k))
  hit (t.dst + r * nb * blkBytes t.fmt) (nb * blkBytes t.fmt) || hit (scaleAddr t.dst n (t.rows n) t.fmt r 0) nb

/-- Elements that nothing in the program gives. -/
def State.freeElems (s : State) (n : Nat) : State × List (BitVec 32) :=
  (List.range n).foldl (fun a _ => let v := a.1.take .element (2 ^ 32); (v.2, a.2 ++ [BitVec.ofNat 32 v.1])) (s, [])

/-- The rows that tables give, in the order of their segments, to fill n elements. The manual says neither how long a table's rows are
nor which of them is fetched: both are free, the last table filling what is left (log 88). -/
def State.lookRows (c : Nat) : List LookTable → Nat → State → State × List (BitVec 32)
  | [], n, s => s.freeElems n
  | t :: ts, n, s =>
    let k := if ts.isEmpty then (n, s) else s.take .element (n + 1)
    let row : State × List (BitVec 32) :=
      if k.1 = 0 then (k.2, [])
      else if t.rows k.1 = 0 then k.2.freeElems k.1
      else
        let r := k.2.take .element (t.rows k.1)
        if r.2.tableBad t k.1 r.1 then (r.2.setFlag c 4, List.replicate k.1 nan32) else (r.2, r.2.tableRow t k.1 r.1)
    if ts.isEmpty then row
    else
      let rest := State.lookRows c ts (n - k.1) row.1
      (rest.1, row.2 ++ rest.2)

/-- Elements of layer 0 beyond the feature count: the class's lookup rows. -/
def State.lookups (s : State) (c : Nat) (x : Cls) (n : Nat) : State × List (BitVec 32) :=
  if n = 0 then (s, []) else State.lookRows c x.tables n s

/-- The tile's model is evaluated in the course with snapshot C: its plan word, its estimate and what adaptation keeps. -/
def State.evalTile (s : State) (mv : List (Nat × Nat × Nat)) (i : Nat) (at_ : Time) (len : Nat) : State :=
  let c := s.classOf i
  match s.cls c with
  | none => s
  | some x =>
    let fs := s.features mv i x.feat at_ len
    let n0 := match x.layers.head? with | some l => l.nin | none => 0
    let lk := s.lookups c x (n0 - fs.length)
    let r := State.evalLayers c i at_ 0 x.layers lk.1 (fs ++ lk.2) []
    let s := r.1
    let ys := r.2.1
    match x.layers.getLast? with
    | none => s
    | some l =>
      let est := (mapped l.outMap ys 9).getD 0
      let p := planOf l.outMap ys
      let s := match p with
        | some (_, k) => if k = 0 then s else
          (s.modCls c (fun x => x.modTensor (2 * x.layers.length - 1) (fun t => t.count 0 0 k 0))).setFlag c 3
        | none => (s.modCls c (fun x => { x with planNonfin := satInc x.planNonfin })).setFlag c 5
      s.modTile i (fun t => { t with
        plan := (match p with | some (w, _) => w | none => 0), est := if x.pwr then est else 0, estSkip := false, skips := (false :: t.skips).take 11
        lastX := (r.2.2 :: t.lastX).take 11, lastY := (ys.getD l.mOut nan32 :: t.lastY).take 11 })

/-- A tile that the course does not evaluate. -/
def Tile.skipCourse (t : Tile) : Tile :=
  { t with
    plan := 0, est := 0, estSkip := true, skips := (true :: t.skips).take 11, lastX := ([] :: t.lastX).take 11
    lastY := (nan32 :: t.lastY).take 11 }

end Sys2Proof.Machine
end

