-- ==== Sys2Proof/Machine/Course.lean ====
section
/-! DEFINITION. The courses of the Reckoner: emissions, events and their resolution, hails, plan logs, telemetry and trace records,
length changes and the snapshot (06 R172 to R182; 11 R292; 15 R351, R355, R359). -/

namespace Sys2Proof.Machine

open Sys2Proof

/-! ## The plan word (06 Table 6.9a) -/

def plD (w : BitVec 64) : Nat := fld w 0 4
def plOfs (w : BitVec 64) : Nat := fld w 4 8
def plPreK (w : BitVec 64) : Nat := fld w 12 5
def plLead (w : BitVec 64) : Nat := fld w 17 6
def plPreLen (w : BitVec 64) : Nat := fld w 23 8
def plDip (w : BitVec 64) : Nat := fld w 31 13
def plDipLen (w : BitVec 64) : Nat := fld w 44 8
def plHail (w : BitVec 64) : Bool := bit w 52

/-- An empty plan names no event. -/
def plEmpty (w : BitVec 64) : Bool := plPreK w == 0 && plDip w == 0 && !plHail w

/-- The lead of the event that a word names, from its course's snapshot (R174). -/
def plEventLead (w : BitVec 64) (len : Nat) : Nat := plD w * len + 64 * plOfs w

/-- The word passes R175 on its tile: its ranges, and an action left after the clearing on a steady or service tile. -/
def State.planKept (s : State) (i len : Nat) (w : BitVec 64) : Bool :=
  decide (2 * len ≤ plEventLead w len) && decide (plEventLead w len ≤ 32000) && decide (64 * plOfs w < len) && fld w 60 4 == 0 &&
  (s.adaptive i || plHail w)

/-! ## Lengths (R173) -/

/-- The budget of a course in MAC. -/
def budget (len : Nat) : Nat := 245760 * len / 3200

/-- The length code of the course that starts at the boundary B: twice as long after an over-budget course, half as long after
1 ms in which every course kept within the smaller budget. -/
def State.nextCourse (s : State) (b : Nat) : BitVec 2 :=
  let c := s.rck.course
  if s.rck.grow && decide (c.toNat < 2) && decide (b % (2 * courseLen c) = 0) then c + 1
  else if decide (0 < c.toNat) && decide ((if c.toNat = 1 then s.rck.over2 else s.rck.over4) + 16000000 ≤ s.boot.uptime) then c - 1
  else c

/-! ## Events at an emission (R176 to R180) -/

/-- What an emission knows: its course's snapshot and length, its own instant and the next emission's, the instant by which its
words are at the tiles, and whether the mode is ACTIVE. -/
structure Emit where
  cn   : Time
  len  : Nat
  at_  : Time
  next : Time
  arr  : Time
  live : Bool
deriving DecidableEq, Repr

/-- A hail joins those of the emission, and is counted. -/
def State.hail (s : State) (i kind : Nat) (inst : Time) : State :=
  let h : HailReq := { tile := BitVec.ofNat 8 i, kind := BitVec.ofNat 2 kind, inst := inst }
  let r := { s.rck with hailQ := s.rck.hailQ ++ [h] }
  let r : Rck := match kind with
    | 1 => { r with intents := satInc r.intents }
    | 2 => { r with commits := satInc r.commits }
    | _ => { r with cancels := satInc r.cancels }
  { s with rck := r }

/-- The hails of one lane leave, in the order in which the emission formed them, each in a `hail_clk` cycle of its own among the 80 that
follow the emission; the lead of a hail counts from its sampling edge (R172, R180, 02 R48). `last`: the cycle of the hail before. -/
def laneHails (at_ : Time) : Nat → List HailReq → State → State
  | _, [], s => s
  | last, h :: r, s =>
    let x := s.take .latency (max 1 (80 - last - r.length))
    let cyc := last + 1 + x.1
    let edge := at_ + BitVec.ofNat 64 (40 * cyc)
    laneHails at_ cyc r { x.2 with rck := { x.2.rck with
      hails := x.2.rck.hails ++ [{ tile := h.tile, kind := h.kind, ofs := BitVec.ofNat 16 (h.inst - edge).toNat }] } }

/-- The hails of an emission leave on the eight lanes. -/
def State.sendHails (s : State) (at_ : Time) : State :=
  let q := s.rck.hailQ
  let s := s.each (List.range 8) (fun s g => laneHails at_ 0 (q.filter (fun h => h.tile.toNat / 32 == g)) s)
  { s with rck := { s.rck with hailQ := [] } }

/-- The start of a new action with its least lead after arrival, and whether it was clipped (R177). -/
def State.clipStart (s : State) (m : Emit) (start : Time) (lead : Nat) : Time × Bool :=
  let lo := m.arr + BitVec.ofNat 64 lead
  if s.key start < s.key lo then (lo, true) else (start, false)

/-- A window that a confirmation changes: an earlier start and a later end; one that is empty or over is replaced. A start that
would break its lead is not taken (R176). -/
def State.growWindow (s : State) (m : Emit) (lead : Nat) (over_ : Bool) (a b a' b' : Time) : Option (Time × Time) :=
  let ok := decide (s.key (m.arr + BitVec.ofNat 64 lead) ≤ s.key a')
  if over_ then (if ok && decide (s.key a' < s.key b') then some (a', b') else none)
  else some (if ok && decide (s.key a' < s.key a) then a' else a, if s.key b < s.key b' then b' else b)

/-- The event confirms a pending one, which keeps its instant (R176). -/
def State.confirm (s : State) (m : Emit) (k d : Nat) (w : BitVec 64) (start : Time) (e : Event) : Event :=
  let e := { e with confs := if e.committed then e.confs else e.confs + 1 }
  let e := if k = 0 then e else
    match s.growWindow m 800 (e.preDone || (!e.preOn && s.due e.preEnd)) e.preStart e.preEnd start (start + BitVec.ofNat 64 (64 * plPreLen w)) with
    | some (a, b) => { e with preStart := a, preEnd := b, preDone := false, preK := BitVec.ofNat 5 (max e.preK.toNat k) }
    | none => e
  if d = 0 then e else
    match s.growWindow m 1600 (e.dipDone || (!e.dipOn && s.due e.dipEnd)) e.dipStart e.dipEnd start (start + BitVec.ofNat 64 (256 * plDipLen w)) with
    | some (a, b) => { e with dipStart := a, dipEnd := b, dipDone := false, dip := BitVec.ofNat 16 (max e.dip.toNat d) }
    | none => e

/-- A new event of a tile with the number of its late clips (R177). -/
def State.newEvent (s : State) (m : Emit) (inst : Time) (k d need : Nat) (w : BitVec 64) (start : Time) : Event × Nat :=
  let p := s.clipStart m start 800
  let q := s.clipStart m start 1600
  let pe := start + BitVec.ofNat 64 (64 * plPreLen w)
  let de := start + BitVec.ofNat 64 (256 * plDipLen w)
  ({
    inst := inst, preStart := p.1, preEnd := pe, dipStart := q.1, dipEnd := de, preK := BitVec.ofNat 5 k, dip := BitVec.ofNat 16 d
    hail := plHail w, need := need, sent := m.live, preDone := k == 0 || !decide (s.key p.1 < s.key pe)
    dipDone := d == 0 || !decide (s.key q.1 < s.key de) },
   b2n (decide (k ≠ 0) && p.2) + b2n (decide (d ≠ 0) && q.2))

def State.modRck (s : State) (f : Rck → Rck) : State := { s with rck := f s.rck }

/-- A word that names an event and passed R175: the floor clips it, then it confirms the pending event nearest to it or forms a new one,
which sends no intent within L of an earlier one (R176, R182). -/
def State.takePlan (s : State) (m : Emit) (i : Nat) (w : BitVec 64) : State :=
  let t := s.tile i
  let c := s.classOf i
  let need := match s.cls c with | some x => x.confirm | none => 0
  let inst := m.cn + BitVec.ofNat 64 (plEventLead w m.len)
  let k0 := if s.adaptive i then plPreK w else 0
  let d0 := if s.adaptive i then plDip w else 0
  let kd := floorClip (s.floorOf i) t.code.toNat k0 d0
  let s := if kd = (k0, d0) then s else s.modCls c (fun x => { x with clips := satInc x.clips })
  let start := inst - BitVec.ofNat 64 (256 * plLead w)
  let far (a : Time) : Nat := (a - inst).toInt.natAbs
  let near := sortAt (fun e : Event => far e.inst) (t.events.filter (fun e => !e.dead && decide (far e.inst < m.len)))
  match near.head? with
  | some e =>
    (s.modTile i (fun t => { t with events := t.events.map (fun x => if x = e then s.confirm m kd.1 kd.2 w start x else x) })).redip i
  | none =>
    let early := decide (s.key m.at_ + 6400 ≤ s.key inst)
    if t.pendingEvents.length ≥ 4 then s.modRck (fun r => { r with evFull := satInc r.evFull })
    else if !early && need ≠ 0 then s
    else
      let x := s.newEvent m inst kd.1 kd.2 need w start
      let old := t.hailed.filter (fun a => decide (nowK ≤ s.key a + 12800))
      let send := x.1.hail && m.live && early && old.all (fun a => decide (m.len ≤ far a))
      let e := { x.1 with committed := !early, intent := send }
      let s := s.modTile i (fun t => { t with events := t.events ++ [e], hailed := if send then old ++ [inst] else old })
      let s := s.modRck (fun r => { r with
        late := satAdd r.late x.2, evCommit := if early then r.evCommit else satInc r.evCommit
        hailShort := if !early && e.hail && m.live then satInc r.hailShort else r.hailShort })
      if send then s.hail i 1 inst else s

/-- An event is resolved: committed, or cancelled with the cancel on its way to the tile (R178, R180). -/
def State.resolveEvent (s : State) (m : Emit) (i : Nat) (e : Event) (commit : Bool) : State :=
  let s := s.modTile i (fun t => { t with events := t.events.map (fun x =>
    if x = e then (if commit then { x with committed := true } else s.killed m.arr x) else x) })
  let s := s.modRck (fun r => if commit then { r with evCommit := satInc r.evCommit } else { r with evCancel := satInc r.evCancel })
  let s := if e.intent && m.live then s.hail i (if commit then 2 else 3) e.inst else s
  (s.redip i).sweepEvents i

/-- The emission resolves each event whose last emission before its resolution instant it is, and cancels each that can no longer
be confirmed often enough (R178). -/
def State.resolveTile (s : State) (m : Emit) (i : Nat) : State :=
  let step := (m.next - m.at_).toNat
  s.each ((s.tile i).events.filter (fun e => !e.dead && !e.committed)) (fun s e =>
    let r := s.key e.inst - 6400
    if s.key m.next > r then s.resolveEvent m i e (decide (e.need ≤ e.confs))
    else if e.confs + (r - s.key m.next) / step + 1 < e.need then s.resolveEvent m i e false
    else s)

/-! ## Plan log and estimates (15 Table 15.8; 06 R179, 09 R247) -/

/-- A list in pieces of at most n. -/
def chunks {α : Type} (n : Nat) : Nat → List α → List (List α)
  | 0, _ => []
  | _, [] => []
  | k + 1, l => l.take n :: chunks n k (l.drop n)

/-- The words of an emission go to the log, 16 to a packet. -/
def State.logPlans (s : State) (m : Emit) (ws : List (Nat × BitVec 64)) : State :=
  s.each (chunks 16 ws.length ws) (fun s l =>
    s.logPacket (if m.live then 9 else 8) (l.head?.map (·.1) |>.getD 0) l.length m.cn
      (l.flatMap (fun p => [BitVec.ofNat 64 (pack [(0, 8, p.1), (8, 3, s.rck.mode.code), (11, 2, s.rck.course.toNat),
        (13, 1, b2n (s.planKept p.1 m.len p.2))]), p.2])))

/-- A power output in units of 2^−16 mW, rounded down; none for NaN, infinities, negative values and those above 2,000 W (R247). -/
def estUnits (v : BitVec 32) : Option Nat :=
  match num32 v with
  | .fin n m e =>
    let w : Dy := { m := 65536000 * m, e := e }
    if n && m ≠ 0 then none
    else if Dy.lt (Dy.ofInt (2000 * 65536000)) w then none
    else some (if e ≥ 0 then 65536000 * m * pow2 e else 65536000 * m / pow2 (-e))
  | _ => none

/-- The tile has an estimate of its own in the course that ends. -/
def State.ownEst (s : State) (i : Nat) : Bool :=
  bit (s.rck.map.getD i 0) 7 && !(s.tile i).estSkip && (match s.cls (s.classOf i) with | some x => x.pwr | none => false)

/-- The emission passes each rail's sum to the power controller. -/
def State.estimates (s : State) : State :=
  let run (r i : Nat) : Bool := s.present i && s.railOf i == r && decide ((s.tile i).st = .running)
  let s := s.each allTiles (fun s i =>
    if s.present i && decide ((s.tile i).st = .running) && s.ownEst i then
      match estUnits (s.tile i).est with
      | some u => s.modTile i (fun t => { t with estSum := t.estSum + u, estCnt := t.estCnt + 1 })
      | none => s
    else s)
  { s with rails := s.rails.mapIdx (fun r (x : Rail) =>
      let on := allTiles.filter (run r)
      let own := on.filter s.ownEst
      let us := own.map (fun i => estUnits (s.tile i).est)
      { x with
        estSum := x.estSum + sumN (us.map (·.getD 0)) + (on.length - own.length) * (rmPFill x.map * 10 * 65536)
        estCnt := x.estCnt + 1, estBad := x.estBad || us.any (·.isNone) }) }

/-- The emission of the course that ends at B: its plan words, its events and its estimates. Through a stale crossing 14 or 15 no
plan word comes and events are resolved at the next emission (12 Table 12.5). -/
def State.emission (s : State) (b : Time) : State :=
  let (v, s) := s.take .latency 1121
  let m : Emit := {
    cn := s.rck.snapAt, len := courseLen s.rck.course, at_ := b, next := b + BitVec.ofNat 64 (courseLen (s.nextCourse b.toNat))
    arr := b + BitVec.ofNat 64 v, live := s.rck.mode = .active }
  let ws := (allTiles.filter s.active).map (fun i => (i, (s.tile i).plan))
  let up := s.xingOk 14 && s.xingOk 15
  let ws := if up then ws.filter (fun p => !plEmpty p.2) else []
  let s := s.logPlans m ws
  let s := s.each allTiles State.sweepEvents
  let s := s.each ws (fun s p => if s.planKept p.1 m.len p.2 then s.takePlan m p.1 p.2
    else s.modRck (fun r => { r with planRange := satInc r.planRange }))
  let s := (if up then s.each allTiles (fun s i => s.resolveTile m i) else s).sendHails b
  if s.xingOk 15 then s.estimates else s

/-! ## Tensor watch (07 R203, R204) -/

/-- A share in 1/256, rounded down, 255 for all that is more. -/
def share256 (n all : Nat) : Nat := if all = 0 then 0 else min 255 (256 * n / all)

/-- A course's entry joins the history (R200). -/
def Tensor.closeRing (t : Tensor) (n : Nat) (input : Bool) : Tensor := { t with ring := if input then t.ring.set (n % 16) t.cAmax else t.ring }

/-- A course's counts join the window (R203). -/
def Tensor.closeCourse (t : Tensor) : Tensor :=
  { t with
    wElem := satAdd t.wElem t.cElem, wZero := satAdd t.wZero t.cZero, wSat := satAdd t.wSat t.cSat
    wNonfin := satAdd t.wNonfin t.cNonfin, mZero := max t.mZero (share256 t.cZero t.cElem)
    mSat := max t.mSat (share256 t.cSat t.cElem), mNonfin := max t.mNonfin (share256 t.cNonfin t.cElem) }

/-- The report of a tensor (Table 7.8). -/
def Tensor.reportOf (t : Tensor) (c k n fmt : Nat) (end_ : Time) : Nat :=
  let input := k % 2 == 0
  pack [(0, 4, c), (4, 4, k / 2), (8, 1, k % 2), (9, 2, if input then fmt else 3), (11, 1, b2n t.fb),
    (16, 8, if input then t.scale.toNat else 0), (24, 8, t.mZero), (32, 8, t.mSat), (40, 8, t.mNonfin), (64, 32, t.wElem.toNat),
    (96, 32, t.wZero.toNat), (128, 32, t.wSat.toNat), (160, 32, t.wNonfin.toNat),
    (192, 32, if input then ((t.ring.getD (n % 16) none).getD 0).toNat else 0), (224, 64, end_.toNat)]

/-- A tensor whose window begins. -/
def Tensor.newWindow (t : Tensor) : Tensor :=
  { t with wElem := 0, wZero := 0, wSat := 0, wNonfin := 0, mZero := 0, mSat := 0, mNonfin := 0, fb := false }

/-- The watch window closes: every tensor's report, the packets, and one event for a window with non-finite values. -/
def State.closeWatch (s : State) (n : Nat) (end_ : Time) : State :=
  let bad := s.rck.classes.flatMap (fun c => (positions (fun (t : Tensor) => decide (t.wNonfin ≠ 0)) c.tensors).map (fun k => (c.id, k)))
  let close (c : Cls) (k : Nat) (t : Tensor) : Tensor :=
    { t.newWindow with report := BitVec.ofNat 288 (t.reportOf c.id k n ((c.layers.getD (k / 2) default).inFmt.toNat) end_) }
  let s := { s with rck := { s.rck with
    watchCnt := 0, classes := s.rck.classes.map (fun (c : Cls) => { c with tensors := c.tensors.mapIdx (close c) }) } }
  let s := s.each s.rck.classes (fun s c => s.each (chunks 8 c.tensors.length c.tensors) (fun s l =>
    s.logPacket 7 c.id l.length s.mer.now (l.flatMap (fun t => flitsOf 5 t.report.toNat))))
  match bad with
  | (c, k) :: _ => s.raise 0x505 c (k / 2 + 16 * (k % 2))
  | [] => s

/-- The course that ends joins the history rings, and the watch unless its window begins with a later one (R204). -/
def State.closeCourse (s : State) : State :=
  let n := s.rck.n - 1
  let skip := s.rck.watchSkip
  let s := { s with rck := { s.rck with
    watchCnt := if skip then 0 else s.rck.watchCnt + 1, watchSkip := false
    classes := s.rck.classes.map (fun (c : Cls) => { c with tensors := c.tensors.mapIdx (fun k (t : Tensor) =>
      (if skip then t else t.closeCourse).closeRing n (k % 2 == 0)) }) } }
  if s.rck.watchCnt ≥ 2 ^ s.rck.watchW then s.closeWatch n s.rck.snapAt else s

/-! ## Tile records (15 Table 15.5, R355, R359) -/

/-- A tile record over a span: its sums, the droop time of each plumb in mt, and the entries into droop. -/
def State.tileRecord (s : State) (mv : List (Nat × Nat × Nat)) (i : Nat) (x : Telem) (droop : List Nat) (ent : List Bool) : Nat :=
  let t := s.tile i
  let pt := s.passTile mv i
  let len := courseLen s.rck.course
  pack ([(0, 8, i), (8, 3, t.st.code), (11, 1, b2n t.actB), (12, 4, pt.1), (16, 16, t.runCode.toNat - t.dip.toNat),
    (32, 32, x.tCourse.toNat), (64, 8, x.courses), (72, 5, t.lastK.toNat), (77, 5, x.kMax.toNat),
    (82, 9, min x.qMin.toNat (s.qTarget mv i)), (91, 1, b2n t.single),
    (92, 1, b2n (decide (t.settle = 0) && (decide (t.st = .running) || decide (t.st = .gated)))), (93, 1, b2n (x.floor_ || pt.2.2)),
    (94, 1, b2n x.gap), (95, 1, b2n x.skip), (96, 24, x.periods), (120, 24, x.passed), (144, 24, x.react), (168, 24, x.plan),
    (192, 24, x.thr)] ++ (enumFrom' 0 droop).map (fun p => (216 + 12 * p.1, 12, 16 * p.2 / len)) ++
    [(264, 12, twos 12 t.temp)] ++ (enumFrom' 0 ent).map (fun p => (276 + p.1, 1, b2n p.2)) ++
    [(280, 64, if !s.rck.flight || !s.active i || plEmpty t.plan then 0 else t.plan.toNat), (344, 3, s.rck.mode.code), (347, 3, t.pendingEvents.length),
    (352, 32, t.est.toNat), (384, 12, (x.why ||| s.reasonsAt mv i).toNat), (396, 2, s.rck.course.toNat)])

/-- The trace capacity in bytes: 8 MiB less the spill partition and, while a load is in progress, less the staging area
(15 R358, 06 R167). -/
def State.traceCap (s : State) : Nat :=
  8388608 - 65536 * s.rck.spill - (if s.rck.loading then 3145728 else 0)

/-- A course's tile records of the selected groups go into the trace SRAM, or are dropped when it is full (R359). -/
def State.traceCourse (s : State) (mv : List (Nat × Nat × Nat)) : State :=
  if !s.log.runs then s else
  s.each (allTiles.filter (fun i => s.present i && bit s.log.groups (i / 32))) (fun s i =>
    if s.log.held + 64 > s.traceCap then { s with log := { s.log with traceDrops := satInc s.log.traceDrops } }
    else
      let t := s.tile i
      let x := { t.trace with courses := 1, gap := false, tCourse := BitVec.ofNat 32 s.rck.snapAt.toNat, skip := s.rck.flight && t.estSkip && s.active i }
      let r := s.tileRecord mv i x (t.plumbs.map (·.acc)) (t.plumbs.map (·.cEnt))
      { s with
          faults := { s.faults with bad := s.faults.bad.filter (fun b => !(b.1 == .trace && b.2 / 8 == s.log.held / 64)) }
          log := { s.log with mem := memWriteList s.log.mem s.log.held (bytesOf 64 r), held := s.log.held + 64 } })

/-- A tile's telemetry sums begin again. -/
def State.clearTelem (s : State) (i : Nat) (gap : Bool) : State :=
  s.modTile i (fun t => { t with
    telem := { gap := gap }, plumbs := t.plumbs.map (fun p => { p with tAcc := 0, tEnt := false }) })

/-- The course that ends joins a tile's telemetry span; a span that would exceed 255 courses is dropped (R355). -/
def State.telemCourse (s : State) (i : Nat) : State :=
  let s := if (s.tile i).telem.courses ≥ 255 then (s.dropRecs 10 1).clearTelem i true else s
  let sk := s.rck.flight && (s.tile i).estSkip && s.active i
  s.modTile i (fun t => { t with telem := { t.telem with
    courses := t.telem.courses + 1, skip := t.telem.skip || sk
    tCourse := if t.telem.courses = 0 then BitVec.ofNat 32 s.rck.snapAt.toNat else t.telem.tCourse } })

/-- The telemetry packet of the 16 tile positions from `f` on, if the queue has room. -/
def State.telemPacket (s : State) (mv : List (Nat × Nat × Nat)) (b : Time) (f : Nat) : State :=
  let on := ((List.range 16).map (· + f)).filter (fun i => s.present i && decide ((s.tile i).telem.courses ≠ 0))
  if on.isEmpty then s
  else if !s.roomFor 10 (2 + 8 * on.length) then { s with log := { s.log with defer := s.log.defer ++ [f] } }
  else
    let body := on.flatMap (fun i =>
      let t := s.tile i
      flitsOf 8 (s.tileRecord mv i t.telem (t.plumbs.map (·.tAcc)) (t.plumbs.map (·.tEnt))))
    let s := s.putPacket 10 f on.length b body
    s.each on (fun s i => s.clearTelem i false)

/-- Telemetry at a course boundary: every D-th forms its packets, the deferred ones first (R355, R356). -/
def State.telemetry (s : State) (mv : List (Nat × Nat × Nat)) (b : Time) : State :=
  let on := allTiles.filter s.present
  if !s.selected 10 then (s.each on (fun s i => s.clearTelem i false))
  else
    let s := s.each on State.telemCourse
    let cnt := if s.log.decNew then 0 else s.log.decCnt + 1
    let s := { s with log := { s.log with decNew := false, decCnt := cnt } }
    if cnt < s.log.dec.toNat then s
    else
      let first := s.log.defer
      let s := { s with log := { s.log with decCnt := 0, defer := [] } }
      s.each (first ++ ((List.range 16).map (16 * ·)).filter (fun f => !first.contains f)) (fun s f => s.telemPacket mv b f)

/-- The trace capture starts with the first snapshot at or after its instant. -/
def State.traceStart (s : State) (b : Time) : State :=
  if s.log.armed && !s.log.runs && decide (s.key s.log.armAt ≤ s.key b) then { s with log := { s.log with runs := true } } else s

/-! ## Boundaries -/

/-- A change of course length, with its event (R173). -/
def State.relen (s : State) (b : Time) : State :=
  let c := s.nextCourse b.toNat
  if c = s.rck.course then s
  else (s.modRck (fun r => { r with course := c, grow := false })).raise0 0x502 c.toNat

/-- The course's droop of each plumb joins its history in 1/16 of the course, and statistics age (06 Table 6.4, R161). -/
def Tile.endCourse (t : Tile) (len : Nat) : Tile :=
  { t with
    plumbs := t.plumbs.map (fun p => { p with hist := (min 16 (16 * p.acc / len) :: p.hist).take 16, acc := 0, cEnt := false })
    stats := t.stats.map (fun x => { x with age := min 255 (x.age + 1), known := x.known && decide (x.age < 63) }), trace := {} }

/-- The class map of the snapshot: a tile whose class changes loses its events, its window and its statistics (R162, R164, R181). -/
def State.takeClassMap (s : State) : State :=
  let ch := allTiles.filter (fun i => s.rck.map.getD i 0 ≠ s.rck.mapNext.getD i 0)
  let s := s.each ch (fun s i => (s.abandonRun i).modTile i (fun t => { t with
    window := [], stats := List.replicate 4 {}, plan := 0, skips := [], lastX := [], lastY := [] }))
  s.modRck (fun r => { r with map := r.mapNext })

/-- Base stages in rotating order while the budget lasts: the tiles reached, the budget left, and the first tile not reached. -/
def baseStages (cost : Nat → Nat) : Nat → List Nat → List Nat × Nat × Option Nat
  | left, [] => ([], left, none)
  | left, i :: r =>
    if cost i > left then ([], left, some i)
    else let x := baseStages cost (left - cost i) r; (i :: x.1, x.2.1, x.2.2)

/-- Per-operation stages while the budget lasts: how many are not reached. -/
def opStages (cost : Nat → Nat) : Nat → List Nat → Nat
  | _, [] => 0
  | left, i :: r => if cost i > left then r.length + 1 else opStages cost (left - cost i) r

/-- The tiles that the course evaluates, with the skips of an over-budget one counted: its operations that no stage reaches are those of
the tiles not reached and those that the remaining budget does not hold (R173). -/
def State.schedule (s : State) (act : List Nat) (len : Nat) : State × List Nat :=
  let cost (f : Cls → Nat) (i : Nat) : Nat := match s.cls (s.classOf i) with | some x => f x | none => 0
  let demand := sumN (act.map (fun i => cost (·.baseMac) i + cost (·.opMac) i * (s.tile i).window.length))
  let s := s.modRck (fun r => { r with
    over2 := if demand > budget 3200 then s.boot.uptime + len else r.over2
    over4 := if demand > budget 6400 then s.boot.uptime + len else r.over4 })
  if demand ≤ budget len then (s, act)
  else
    let order := act.filter (fun i => decide (s.rck.rot ≤ i)) ++ act.filter (fun i => decide (i < s.rck.rot))
    let x := baseStages (cost (·.baseMac)) (budget len) order
    let ops := sortAt (fun p : Nat × Nat => p.1) (x.1.flatMap (fun i => (s.tile i).window.map (fun o => (256 * s.key o.start + i, i))))
    let lost := opStages (cost (·.opMac)) x.2.1 (ops.map (·.2)) +
      sumN ((act.filter (fun i => !x.1.contains i)).map (fun i => (s.tile i).window.length))
    (s.modRck (fun r => { r with
      grow := true, rot := x.2.2.getD r.rot, tileSkip := satAdd r.tileSkip (act.length - x.1.length), opSkip := satAdd r.opSkip lost }),
     act.filter (fun i => x.1.contains i))

/-- The snapshot at B: windows age, the course is scheduled, and every tile it reaches is evaluated (R162, R172, R173). -/
def State.snapshot (s : State) (b : Time) : State :=
  let len := courseLen s.rck.course
  let s := s.takeClassMap
  let s := { s with
    tiles := s.tiles.map (fun (t : Tile) => { t with window := t.window.filter (fun o => decide (s.key b ≤ s.key o.stop)) })
    rck := { s.rck with classes := s.rck.classes.map (fun (c : Cls) => { c with
      tensors := c.tensors.map (fun (t : Tensor) => { t with cElem := 0, cZero := 0, cSat := 0, cNonfin := 0, cAmax := none }) }) } }
  let x := s.schedule (allTiles.filter s.active) len
  let s := x.1
  let ids := (x.2.map s.classOf).eraseDups
  let s := s.each ids (fun s c => s.setScales c s.rck.n)
  let mv := s.movers
  let s := s.each allTiles (fun s i =>
    if x.2.contains i then s.evalTile mv i b len else s.modTile i (fun t => { t.skipCourse with estSkip := true }))
  s.modRck (fun r => { r with
    n := r.n + 1, courses := satInc r.courses, warm := if r.mode = RckMode.warmup then r.warm - 1 else r.warm, flight := true })

/-- A mode in which courses are evaluated. -/
def RckMode.runs (m : RckMode) : Bool := decide (m = .warmup) || decide (m = .active) || decide (m = .advisory)

end Sys2Proof.Machine
end

