-- ==== Sys2Proof/Machine/Adapt.lean ====
section
/-! DEFINITION. Online adaptation of a class's last layer, the course boundary as a whole, the starts and ends of predicted actions,
and the manifest port (06 R160 to R162, R172, R177; 07 R205 to R212; 02 R47). -/

namespace Sys2Proof.Machine

open Sys2Proof

/-! ## The arithmetic of an update (07 R206 to R209) -/

/-- A quotient of naturals rounded once to binary32. -/
def ratio32 (n d : Nat) : BitVec 32 :=
  let q := n * 2 ^ 60 / d
  (rnDy { m := (2 * q + b2n (decide (q * d ≠ n * 2 ^ 60)) : Nat), e := -61 }).1

/-- The sample of a course: droop in LSB of 1/8 mt over a course of `len` mt, at most 1 (R206). -/
def sampleOf (lsb len : Nat) : BitVec 32 := ratio32 (min lsb (8 * len)) (8 * len)

/-- What one master update leaves: the word, the generator, whether it could change the word, underflowed, was held. -/
structure Upd where
  m     : BitVec 32
  lfsr  : Word
  moved : Bool
  under : Bool
  held  : Bool
deriving DecidableEq, Repr

/-- m := sr(m + u), with `exact` the exact value that u rounds; a sum that no finite u gives is held at the largest finite value
(R207 to R209; log 92). -/
def update (m u : BitVec 32) (exact : Dy) (lfsr : Word) : Upd :=
  let x := (num32 m).dy.add (num32 u).dy
  if (num32 u).isInf then
    { m := if (num32 u).neg then 0xFF7FFFFF#32 else 0x7F7FFFFF#32, lfsr := lfsr, moved := true, under := false, held := true }
  else if exact.m = 0 then { m := m, lfsr := lfsr, moved := false, under := false, held := false }
  else if (num32 u).isZero then { m := m, lfsr := lfsr, moved := false, under := true, held := false }
  else if representable x then
    let r := sr x 0
    { m := r.1, lfsr := lfsr, moved := true, under := false, held := r.2 }
  else
    let d := lfsrDraw lfsr
    let r := sr x d.1
    let stuck := srFrac x == 0 && (sr x 65535).1 == m
    { m := r.1, lfsr := d.2, moved := !stuck, under := stuck, held := r.2 }

/-- The updates of a row, element by element: words, generator, and how many moved, underflowed and were held. -/
def updateRow (c : BitVec 32) : List (BitVec 32) → List (BitVec 32) → Word → List (BitVec 32) × Word × Nat × Nat × Nat
  | m :: ms, x :: xs, l =>
    let ex := (num32 c).dy.mul (num32 x).dy
    let r := update m (rnDy ex).1 ex l
    let t := updateRow c ms xs r.lfsr
    (r.m :: t.1, t.2.1, t.2.2.1 + b2n r.moved, t.2.2.2.1 + b2n r.under, t.2.2.2.2 + b2n r.held)
  | ms, _, l => (ms, l, 0, 0, 0)

/-- A class takes a sample with its prediction y, target t and last-layer inputs; none where e, c or an input is not finite. -/
def Cls.learn (x : Cls) (l : Layer) (y t : BitVec 32) (xs : List (BitVec 32)) : Option Cls :=
  let e := (rnDy ((num32 y).dy.sub (num32 t).dy)).1
  let cx := ((num32 l.eta).dy.mul (num32 e).dy).neg
  let c := (rnDy cx).1
  if isNonfin y || isNonfin e || isNonfin c || xs.any isNonfin then none
  else
    let r := updateRow c x.masters xs x.lfsr
    let b := if l.bias then update x.mBias c cx r.2.1 else { m := x.mBias, lfsr := r.2.1, moved := false, under := false, held := false }
    let moved := r.2.2.1 + b2n b.moved
    let under := r.2.2.2.1 + b2n b.under
    some { x with
      masters := r.1, mBias := b.m, lfsr := b.lfsr, used := satInc x.used, updates := satAdd x.updates (xs.length + b2n l.bias)
      unders := satAdd x.unders under, adaptSat := satAdd x.adaptSat (r.2.2.2.2 + b2n b.held)
      winMove := x.winMove || decide (moved ≠ 0), winUnder := x.winUnder || decide (under ≠ 0) }

/-! ## Samples and windows (07 R205, R206, R210, R211) -/

/-- The adapting layer of a class: its last, when it adapts. -/
def Cls.adapting (x : Cls) : Option Layer := x.layers.getLast?.filter (·.adapt)

/-- The sample of one channel for the course that ends: open while a pair whose start lies in the course still runs (R206). -/
def State.sampleOfChan (s : State) (l : Layer) (p : BitVec 6 × BitVec 8 × BitVec 2) (len : Nat) : Sample :=
  let ch := s.chan p.1.toNat
  let t := s.tile p.2.1.toNat
  let y := t.lastY.getD l.mLag nan32
  {
    ch := p.1, tile := p.2.1, plumb := p.2.2, len := len, sum := ch.aSum, bad := ch.aBad, open_ := ch.pStart.any s.inCourse
    skip := t.skips.getD l.mLag true || (num32 y).isNan || decide (t.st ≠ .running), y := y, xs := t.lastX.getD l.mLag [] }

/-- A sample that its pairs have completed updates the class, or is skipped and counted (R206, R207). -/
def State.useSample (s : State) (c : Nat) (l : Layer) (x : Sample) : State :=
  let tgt := sampleOf x.sum x.len
  let skip := s.modCls c (fun y => { y with skipped := satInc y.skipped })
  if x.bad || x.skip then skip
  else match (s.cls c).bind (fun y => y.learn l x.y tgt x.xs) with
    | some y => (s.modCls c (fun _ => y)).modTile x.tile.toNat (fun t => { t with samples := t.samples.set x.plumb.toNat tgt })
    | none => skip

/-- The samples that are complete are used in the order of their courses and tiles: none overtakes one whose pair still runs (R207). -/
def State.drainSamples (s : State) (c : Nat) (l : Layer) : State :=
  let q := match s.cls c with | some x => x.sampQ | none => []
  let done := q.takeWhile (fun x => !x.open_ || (s.chan x.ch.toNat).pStart.isNone)
  let s := s.modCls c (fun x => { x with sampQ := q.drop done.length })
  s.each done (fun s x => s.useSample c l x)

/-- The words of weight SRAM that a write covers whole are good again (17 R389). -/
def State.writeWeight (s : State) (a : Nat) (bs : List Byte) : State :=
  { s with
    log := { s.log with wmem := memWriteList s.log.wmem a bs }
    faults := { s.faults with
      bad := s.faults.bad.filter (fun b => !(b.1 == .weight && decide (a ≤ 8 * b.2) && decide (8 * b.2 + 8 ≤ a + bs.length))) } }

/-- A master converted into an element of a segment format with a block scale code, and whether it saturated (R188, R210). -/
def toElem (fmt scale : Nat) (v : BitVec 32) : Nat × Bool :=
  if fmt = 3 then
    match num32 v with
    | .fin n m e =>
      let k := roundAt m (e + 127 - (scale : Int)) 0
      let k' := min k 7
      (if n then (16 - k') % 16 else k', decide (k > 7))
    | _ => (0, false)
  else
    let r := conv fmt scale v
    (r.1, r.2 == ConvNote.sat)

/-- The scale code of a block rebuilt from its masters (R210). -/
def blockScale (fmt : Nat) (ms : List (BitVec 32)) : Nat :=
  if fmt = 4 then 127
  else
    let mx := ms.foldl (fun a v => if !isNonfin v && less32 a (v &&& 0x7FFFFFFF#32) then v &&& 0x7FFFFFFF#32 else a) 0
    if (num32 mx).isZero then 0 else (min 254 (max 0 (log2Of mx - emaxOf fmt + 127))).toNat

/-- The bytes of a block of elements: 32 of them, the missing ones 0. -/
def blockBytes (fmt : Nat) (es : List Nat) : List Byte :=
  let all := (es ++ List.replicate 32 0).take 32
  if fmt = 3 then (List.range 16).map (fun k => BitVec.ofNat 8 (all.getD (2 * k) 0 + 16 * all.getD (2 * k + 1) 0))
  else if fmt = 4 then all.flatMap (bytesOf 4)
  else all.map (BitVec.ofNat 8)

/-- One block of row `m_out` rebuilt from its masters; the number of saturations. -/
def State.rebuildBlock (s : State) (l : Layer) (b : Nat) (ms : List (BitVec 32)) : State × Nat :=
  let f := l.wFmt.toNat
  let sc := blockScale f ms
  let es := ms.map (fun v => if f = 4 then (v.toNat, false) else toElem f sc v)
  let at_ := l.wAt + (l.mOut * cdiv l.nin 32 + b) * blkBytes f
  ((s.writeWeight at_ (blockBytes f (es.map (·.1)))).writeWeight (scaleAddr l.wAt l.nin l.nout f l.mOut b) [BitVec.ofNat 8 sc],
    (es.filter (·.2)).length)

/-- The operand weights and the bias of row `m_out` are rebuilt from the masters (R210). -/
def State.rebuild (s : State) (c : Nat) (l : Layer) : State :=
  match s.cls c with
  | none => s
  | some x =>
    let r := (List.range (cdiv l.nin 32)).foldl (fun (a : State × Nat) b =>
      let y := a.1.rebuildBlock l b ((x.masters.drop (32 * b)).take 32); (y.1, a.2 + y.2)) (s, 0)
    let s := if l.bias then r.1.writeWeight (l.bAt + 4 * l.mOut) (bytesOf 4 x.mBias.toNat) else r.1
    if r.2 = 0 then s
    else (s.modCls c (fun x => x.modTensor (2 * (x.layers.length - 1)) (fun t => { t with wSat := satAdd t.wSat r.2 }))).setFlag c 3

/-- The setup word of a channel that watches a plumb for adaptation: start rising, stop falling, statistics kept (R205). -/
def watchWord (i p : Nat) : BitVec 64 :=
  let src := 0x400 + 4 * i + p
  BitVec.ofNat 64 (pack [(0, 12, src), (12, 12, src), (24, 2, 1), (26, 2, 2), (43, 1, 1)])

/-- A channel is set to watch a pair, armed from now on. -/
def State.watchPair (s : State) (ch : Nat) (p : Option (BitVec 8 × BitVec 2)) : State :=
  let s := (s.lone ch).1
  match p with
  | some x => (s.modChan ch (fun c => { c with setup := watchWord x.1.toNat x.2.toNat })).armNow ch
  | none => s.modChan ch (fun c => { c with setup := 0, armed := false })

/-- The pairs of a class, in ascending order of tile and then plumb. -/
def State.pairsOf (s : State) (c : Nat) : List (BitVec 8 × BitVec 2) :=
  (allTiles.filter (fun i => s.active i && s.classOf i == c)).flatMap (fun i =>
    [0, 1, 2, 3].map (fun p => (BitVec.ofNat 8 i, BitVec.ofNat 2 p)))

/-- A pair stays within the group limit of R89. -/
def State.pairFits (s : State) (ch : Nat) (x : BitVec 8 × BitVec 2) : Bool :=
  decide (s.groupSources ch (watchWord x.1.toNat x.2.toNat) (x.1.toNat / 32) ≤ 8)

/-- The pair after a channel's own, in turn, that the group limit allows. -/
def State.nextPair (s : State) (c ch : Nat) (cur : Option (BitVec 8 × BitVec 2)) : Option (BitVec 8 × BitVec 2) :=
  let ps := s.pairsOf c
  let k (x : BitVec 8 × BitVec 2) : Nat := 4 * x.1.toNat + x.2.toNat
  let after := match cur with
    | some x => ps.filter (fun y => decide (k x < k y)) ++ ps.filter (fun y => decide (k y ≤ k x))
    | none => ps
  after.find? (s.pairFits ch)

/-- Each channel of a class moves to its next pair (R205). -/
def State.movePairs (s : State) (c : Nat) : State :=
  match s.cls c with
  | none => s
  | some x => s.each x.chans (fun s p =>
      let n := s.nextPair c p.1.toNat p.2
      (s.modCls c (fun y => { y with chans := y.chans.map (fun q => if q.1 = p.1 then (q.1, n) else q) })).watchPair p.1.toNat n)

/-- The stall counter at the end of a window (R211). -/
def State.stallStep (s : State) (c : Nat) : State :=
  match s.cls c with
  | none => s
  | some x =>
    let n := if x.winMove then 0 else if x.winUnder then min 1024 (x.stall + 1) else x.stall
    let s := s.modCls c (fun x => { x with stall := n, winCnt := 0, winMove := false, winUnder := false, windows := satInc x.windows })
    if n = 1024 && x.stall < 1024 then (s.setFlag c 7).raise 0x506 c 0 else s

/-- The course that ends for an adapting class: its samples in ascending order of tile, then its window (R206, R210). -/
def State.adaptClass (s : State) (c : Nat) (len : Nat) : State :=
  match s.cls c with
  | none => s
  | some x =>
    match x.adapting with
    | none => s
    | some l =>
      let ps := x.chans.filterMap (fun p => p.2.map (fun y => (p.1, y.1, y.2)))
      let new := (sortAt (fun (p : BitVec 6 × BitVec 8 × BitVec 2) => 4 * p.2.1.toNat + p.2.2.toNat) ps).map (fun p => s.sampleOfChan l p len)
      let s := (s.modCls c (fun x => { x with sampQ := x.sampQ ++ new })).drainSamples c l
      let s := s.modCls c (fun x => { x with winCnt := x.winCnt + 1 })
      if x.winCnt + 1 < 2 ^ l.win then s else ((s.rebuild c l).stallStep c).movePairs c

/-- Adaptation over the course that ends: in ACTIVE and ADVISORY. -/
def State.adapt (s : State) (len : Nat) : State :=
  let s := if s.rck.mode = .active || s.rck.mode = .advisory then
      s.each (s.rck.classes.map (·.id)) (fun s c => s.adaptClass c len) else s
  { s with sxt := { s.sxt with chans := s.sxt.chans.map (fun (c : Chan) => { c with aSum := 0, aBad := false }) } }

/-! ## The course boundary -/

/-- COURSE_BOUNDARY: the course that ends emits, is logged and learned from; the length and the mode that follow take effect; the
next course's snapshot is taken and evaluated (R159, R172, R173). -/
def State.courseBoundary (s : State) : State :=
  let b : Time := BitVec.ofNat 64 (s.nowN / courseLen s.rck.course * courseLen s.rck.course)
  if !s.mer.running || b = s.rck.snapAt then s else
  let len := courseLen s.rck.course
  let s := { s with power := { s.power with floorNow := s.power.floorW } }
  let ended := s.rck.flight && s.rck.mode.runs
  let s := if ended then (s.emission b).closeCourse else s
  let mv := s.movers
  let s := ((s.traceCourse mv).telemetry mv b).traceStart b
  let s := if ended then s.adapt len else s
  let s := { s with tiles := s.tiles.map (fun (t : Tile) => t.endCourse len) }
  let s := s.each allTiles State.redip
  let s := if s.rck.mode = .warmup && s.rck.warm = 0 then s.modRck (fun r => { r with mode := r.endMode }) else s
  let s := (s.relen b).modRck (fun r => { r with flight := false })
  let s := if s.rck.mode.runs then s.snapshot b else s
  s.modRck (fun r => { r with snapAt := b })

/-! ## Predicted actions at a tile (06 R177; 04 R111, Table 4.10) -/

/-- PRESTRETCH_START: pre-stretches whose start has come are in force, unless the tile withholds its planned changes (03 R79). -/
def State.preStart (s : State) (i : Nat) : State :=
  if (s.tile i).withhold then s else
  (s.modTile i (fun t => { t with events := t.events.map (fun e =>
    if e.sent && !e.preDone && s.due e.preStart && !s.due e.preEnd then { e with preOn := true } else e) })).redip i

/-- PRESTRETCH_END: those whose end has come are not. -/
def State.preStop (s : State) (i : Nat) : State :=
  ((s.modTile i (fun t => { t with events := t.events.map (fun e =>
    if e.sent && !e.preDone && s.due e.preEnd then { e with preOn := false, preDone := true } else e) })).redip i).sweepEvents i

/-- DIP_START: dips whose start has come slide the clock down, unless the tile withholds its planned changes (03 R79); on a tile that is
not RUNNING they are discarded. -/
def State.dipBegin (s : State) (i : Nat) : State :=
  if (s.tile i).withhold then s else
  (s.modTile i (fun t => { t with events := t.events.map (fun e =>
    if e.sent && !e.dipDone && !e.dipOn && s.due e.dipStart && !s.due e.dipEnd then
      (if t.st = .running then { e with dipOn := true } else { e with dipDone := true }) else e) })).redip i

/-- DIP_END: dips whose end has come slide back. -/
def State.dipStop (s : State) (i : Nat) : State :=
  ((s.modTile i (fun t => { t with events := t.events.map (fun e =>
    if e.sent && !e.dipDone && s.due e.dipEnd then { e with dipOn := false, dipDone := true } else e) })).redip i).sweepEvents i

/-! ## The manifest port (06 R160 to R162; 02 R47) -/

/-- Insertion by planned start, behind those that start no later. -/
def insertOp (key : OpRec → Nat) (o : OpRec) : List OpRec → List OpRec
  | [] => [o]
  | a :: r => if key a ≤ key o then a :: insertOp key o r else o :: a :: r

/-- The snapshot of the next course to begin. -/
def State.nextSnap (s : State) : Nat :=
  let len := courseLen s.rck.course
  (s.nowN / len + 1) * len

/-- MANIFEST_RECORD: the record is used, or discarded and counted under the first case of R162 that it meets. -/
def State.manifest (s : State) (w : Flit) : State :=
  let kind := fld w 0 2
  let i := fld w 2 8
  let t := s.tile i
  let usable := s.present i && bit (s.rck.map.getD i 0) 7 && !(t.fenced || t.st = .domainOff || t.st = .disabled)
  let stamp := if (s.xings.main.getD 10 {}).stale then s.rck.manStamp else s.mer.now
  let start := stamp + BitVec.ofNat 64 (16 * fld w 16 16)
  let late := kind == 1 && decide (s.key start ≤ s.key (BitVec.ofNat 64 s.nextSnap))
  let badRec := kind == 0 || kind == 3 || (kind == 2 && (fld w 12 4 != 0 || fld w 48 16 != 0))
  if s.ctl.manRst || !bit s.boot.clkRun 2 || s.looping 2 then s
  else if (s.xings.main.getD 11 {}).stale then s.modXing 11 0 (fun x => { x with drops := satInc x.drops })
  else if s.rck.mode = .off then s.modRck (fun r => { r with recOff := satInc r.recOff })
  else if !usable then s.modRck (fun r => { r with recTile := satInc r.recTile })
  else if late then s.modRck (fun r => { r with recLate := satInc r.recLate })
  else if badRec then s.modRck (fun r => { r with recBad := satInc r.recBad })
  else if kind = 2 then
    let st : Stat := {
      known := true, zero := BitVec.ofNat 8 (fld w 16 8), sat := BitVec.ofNat 8 (fld w 24 8), nonfin := BitVec.ofNat 8 (fld w 32 8),
      mag := BitVec.ofNat 8 (fld w 40 8) }
    (s.modTile i (fun t => { t with stats := t.stats.set (fld w 10 2) st })).modRck (fun r => { r with stTaken := satInc r.stTaken })
  else
    let o : OpRec := {
      start := start, dur := BitVec.ofNat 16 (fld w 32 16), cls := BitVec.ofNat 6 (fld w 10 6), work := BitVec.ofNat 8 (fld w 48 8)
      fmt := BitVec.ofNat 4 (fld w 56 4), tag := BitVec.ofNat 4 (fld w 60 4) }
    let l := insertOp (fun x => s.key x.start) o t.window
    let s := s.modTile i (fun t => { t with window := l.take 8 })
    let taken := decide (l.length ≤ 8) || l.getLast? ≠ some o
    s.modRck (fun r => { r with
      winOvf := if l.length > 8 then satInc r.winOvf else r.winOvf, opTaken := if taken then satInc r.opTaken else r.opTaken })

def execCourseBoundary (dt : Nat) (s : State) : Step := event dt s State.courseBoundary
def execPrestretchStart (dt : Nat) (tile : BitVec 8) (s : State) : Step := event dt s (fun s => s.preStart tile.toNat)
def execPrestretchEnd (dt : Nat) (tile : BitVec 8) (s : State) : Step := event dt s (fun s => s.preStop tile.toNat)
def execDipStart (dt : Nat) (tile : BitVec 8) (s : State) : Step := event dt s (fun s => s.dipBegin tile.toNat)
def execDipEnd (dt : Nat) (tile : BitVec 8) (s : State) : Step := event dt s (fun s => s.dipStop tile.toNat)
def execManifestRecord (dt : Nat) (rec_ : Flit) (s : State) : Step := event dt s (fun s => s.manifest rec_)

end Sys2Proof.Machine
end

