-- ==== Sys2Proof/Machine/Load.lean ====
section
/-! DEFINITION. Reckoner programs: the course format 3 container and its checks, the load and the unload, the class map, and the
Reckoner commands 0x30 to 0x3B (06 R164 to R171, R183, R184; 07 R189, R194, R195, R201, R202, R204, R205, R212; 16 R374; 14 R336). -/

namespace Sys2Proof.Machine

open Sys2Proof

/-! ## The container (06 Tables 6.5 to 6.7, 07 Table 7.3) -/

/-- `n` bytes of a container from an offset, as a number. -/
def ctField (c : List Byte) (at_ n : Nat) : Nat := natOfBytes ((c.drop at_).take n)

def ctHeader (c : List Byte) : BitVec 1024 := BitVec.ofNat 1024 (ctField c 0 128)
def hdMask (h : BitVec 1024) : Nat := fld h 48 16
def hdLength (h : BitVec 1024) : Nat := fld h 64 32
def hdRes (h : BitVec 1024) : Nat := fld h 192 32
def hdSpill (h : BitVec 1024) : Nat := fld h 224 32
def hdClaim (h : BitVec 1024) : Nat := fld h 288 64
def hdSegs (h : BitVec 1024) : Nat := fld h 352 16
def hdDefMap (h : BitVec 1024) : Bool := bit h 368
def hdSegOfs (h : BitVec 1024) : Nat := fld h 384 32
def hdMapOfs (h : BitVec 1024) : Nat := fld h 416 32
def hdSigOfs (h : BitVec 1024) : Nat := fld h 448 32

/-- The classes that a container holds, ascending. -/
def hdClasses (h : BitVec 1024) : List Nat := (List.range 16).filter (fun c => (hdMask h).testBit c)

/-- One segment entry. -/
structure Seg where
  kind  : Nat
  spill : Bool
  fmt   : Nat
  cls   : Nat
  layer : Nat
  rsv   : Nat
  src   : Nat
  len   : Nat
  dst   : Nat
deriving DecidableEq, Repr

def segOf (w : BitVec 128) : Seg :=
  { kind := fld w 0 2, spill := bit w 2, fmt := fld w 3 3, cls := fld w 6 4, layer := fld w 10 4, rsv := fld w 14 18
    src := fld w 32 32, len := fld w 64 32, dst := fld w 96 32 }

/-- The segment table. -/
def ctSegs (c : List Byte) : List Seg :=
  let h := ctHeader c
  (List.range (hdSegs h)).map (fun k => segOf (BitVec.ofNat 128 (ctField c (hdSegOfs h + 16 * k) 16)))

/-- The descriptors in ascending class order. -/
def ctDescs (c : List Byte) : List (BitVec 512) :=
  (List.range (hdClasses (ctHeader c)).length).map (fun k => BitVec.ofNat 512 (ctField c (128 + 64 * k) 64))

def deKinds (d : BitVec 512) : Nat := fld d 4 3
def deLayers (d : BitVec 512) : Nat := fld d 88 4
def deFirst (d : BitVec 512) : Nat := fld d 176 16
def deCount (d : BitVec 512) : Nat := fld d 192 16

/-- The segments of a class. -/
def deSegs (segs : List Seg) (d : BitVec 512) : List Seg := (segs.drop (deFirst d)).take (deCount d)

/-- A layer with its record as loaded. -/
structure RawLayer where
  lay : Layer
  word : BitVec 384
  vec : Seg
  mat : Seg
deriving DecidableEq, Repr

/-- Layer j of a class: its vector segment, whose first 48 bytes are the layer record, and its matrix segment. -/
def rawLayer (c : List Byte) (segs : List Seg) (j : Nat) : Option RawLayer :=
  match segs.find? (fun x => x.kind == 2 && x.layer == j), segs.find? (fun x => x.kind == 0 && x.layer == j) with
  | some v, some m =>
    let r : BitVec 384 := BitVec.ofNat 384 (ctField c v.src 48)
    some { word := r, vec := v, mat := m, lay := {
      nin := fld r 0 12, nout := fld r 12 12, inFmt := BitVec.ofNat 3 (fld r 24 3), act := BitVec.ofNat 2 (fld r 27 2), bias := bit r 29
      margin := fld r 30 2, adapt := bit r 32, win := fld r 33 4, mLag := fld r 37 4, lo := BitVec.ofNat 32 (fld r 64 32)
      hi := BitVec.ofNat 32 (fld r 96 32), eta := BitVec.ofNat 32 (fld r 128 32), mOut := fld r 160 8
      outMap := bytesOf 10 (fld r 192 80), wAt := m.dst, wFmt := BitVec.ofNat 3 m.fmt, bAt := v.dst + 48 } }
  | _, _ => none

/-! ## The checks (06 R166, R168; 07 R189; 16 R374) -/

/-- A layer record breaks R189; `top` is the last layer's `out`. -/
def layerBad (x : RawLayer) (last : Bool) (top : Nat) : Bool :=
  let l := x.lay
  let eta := num32 l.eta
  l.nin == 0 || l.nout == 0 || (last && decide (l.nout > 255)) || decide (l.inFmt.toNat > 2) || l.act == 3 || fld x.word 41 23 != 0 ||
  fld x.word 168 24 != 0 || fld x.word 272 112 != 0 || (l.adapt && !last) ||
  l.outMap.any (fun b => b != 0xFF && decide (min l.nout top ≤ b.toNat)) ||
  (l.adapt && (decide (l.win < 4) || decide (l.win > 12) || decide (l.mLag < 2) || decide (l.mLag > 10) || decide (l.nout ≤ l.mOut) ||
    eta.isNan || eta.isInf || eta.isZero || eta.neg)) ||
  decide (x.vec.len < 48 + (if l.bias then 4 * l.nout else 0)) ||
  decide (x.mat.len < l.nout * cdiv l.nin 32 * (blkBytes x.mat.fmt + 1))

/-- A chain of layers whose widths do not meet. -/
def chainBad : List RawLayer → Bool
  | a :: b :: r => decide (a.lay.nout ≠ b.lay.nin) || chainBad (b :: r)
  | _ => false

/-- The layers of a class, none when one is missing. -/
def classLayers (c : List Byte) (segs : List Seg) (d : BitVec 512) : Option (List RawLayer) :=
  (List.range (deLayers d)).foldr (fun j r => match r, rawLayer c (deSegs segs d) j with
    | some l, some x => some (x :: l)
    | _, _ => none) (some [])

/-- A class's descriptor, its segments or its layers are refused. -/
def classBad (c : List Byte) (segs : List Seg) (id : Nat) (d : BitVec 512) : Bool :=
  decide (fld d 0 4 ≠ id) || fld d 11 5 != 0 || fld d 81 7 != 0 || fld d 208 304 != 0 || deLayers d == 0 ||
  decide (deFirst d + deCount d > segs.length) || (deSegs segs d).any (fun x => x.cls != id) ||
  (match classLayers c segs d with
   | none => true
   | some ls =>
     let n := ls.length
     let top := (ls.getLast?.map (·.lay.nout)).getD 0
     chainBad ls || (enumFrom' 0 ls).any (fun p => layerBad p.2 (p.1 + 1 == n) top) ||
     (match ls.head?, ls.getLast? with
      | some a, some z => decide (a.lay.nin < featCount (BitVec.ofNat 16 (fld d 72 16))) || decide (z.lay.nin ≠ fld d 92 12) ||
          decide (z.lay.nout ≠ fld d 104 8) || (bit d 7 && z.lay.outMap.getD 9 0xFF == 0xFF)
      | _, _ => true))

/-- Two segments overlap at their destination. -/
def segsClash (a b : Seg) : Bool := a.spill == b.spill && decide (a.dst < b.dst + b.len) && decide (b.dst < a.dst + a.len)

/-- Any two of a list. -/
def anyPair {α : Type} (p : α → α → Bool) : List α → Bool
  | [] => false
  | a :: r => r.any (p a) || anyPair p r

/-- Whole granules of 64 KiB that a spill takes (R167). -/
def granules (bytes : Nat) : Nat := cdiv bytes 65536

/-- A segment entry is refused: values, place, and bounds. -/
def segBad (h : BitVec 1024) (x : Seg) : Bool :=
  x.kind == 3 || decide (x.fmt > 4) || x.rsv != 0 || (x.spill && x.kind != 1) || (x.kind == 1 && x.layer != 0) ||
  decide (x.src + x.len > hdLength h) || decide (x.dst + x.len > (if x.spill then 65536 * granules (hdSpill h) else 2097152))

/-- The BAD_ARG cases that the header alone decides. -/
def headerBad (h : BitVec 1024) (len : Nat) : Bool :=
  decide (fld h 0 32 ≠ 0x33535243) || fld h 32 8 != 3 || fld h 40 8 != 0 || hdMask h == 0 || hdLength h != len ||
  decide (hdClaim h ≥ 2 ^ 60) || fld h 369 15 != 0 || fld h 480 544 != 0 || (!hdDefMap h && hdMapOfs h != 0) ||
  (hdDefMap h && decide (hdMapOfs h + 256 > hdLength h)) || decide (hdSigOfs h + 256 ≠ hdLength h) || decide (hdRes h > 2097152)

/-- Refused for the container's own structure, no item named. -/
def structR : Resp := refR stBadArg 0 {}

/-- TOO_LARGE for a limit of R168. -/
def limitR (n over_ : Nat) : Resp := refR stTooLarge 0 { item := 0x0E, idx := n, extra := over_, limit := n }

/-- The first channel of a claim mask that another owner holds. -/
def State.claimHeld (s : State) (claim : Nat) : Option Nat :=
  (List.range 60).find? (fun ch => claim.testBit ch && !((s.chan ch).owner = .none || (s.chan ch).owner = .rck))

/-- The header pass (R166, R168, R169 step 2). -/
def State.headerPass (s : State) (c : List Byte) (len : Nat) : Option Resp :=
  let h := ctHeader c
  if headerBad h len then some structR
  else if hdSpill h > 262144 || hdRes h + hdSpill h > 2359296 then some (limitR 1 (max (hdSpill h - 262144) (hdRes h + hdSpill h - 2359296)))
  else if hdLength h > 3145728 then some (limitR 4 (hdLength h - 3145728))
  else match s.claimHeld (hdClaim h) with
    | some ch => some (notPermR 0xA { item := 5, idx := ch, aux := (s.chan ch).owner.code })
    | none => none

/-- The default class map. -/
def ctMap (c : List Byte) : List Byte := (c.drop (hdMapOfs (ctHeader c))).take 256

/-- The BAD_ARG cases of the final pass. -/
def finalBad (c : List Byte) : Bool :=
  let h := ctHeader c
  let segs := ctSegs c
  let ids := hdClasses h
  decide (hdSegOfs h + 16 * hdSegs h > hdLength h) || decide (128 + 64 * ids.length > hdLength h) ||
  segs.any (segBad h) || anyPair segsClash segs ||
  decide (hdRes h ≠ sumN ((segs.filter (fun x => !x.spill)).map (·.len))) ||
  decide (hdSpill h ≠ sumN ((segs.filter (·.spill)).map (·.len))) ||
  (ids.zip (ctDescs c)).any (fun p => classBad c segs p.1 p.2) ||
  (hdDefMap h && (ctMap c).any (fun b => fld b 4 3 != 0)) || sigRsv (c.drop (hdSigOfs h))

/-- An entry of a class map stands with a program whose classes have these `kinds` (R164, R171). -/
def State.entryStands (s : State) (kinds : Nat → Option Nat) (i : Nat) (e : Byte) : Bool :=
  s.present i && (match kinds (fld e 0 4) with | some k => k.testBit (s.clsOf i - 1) | none => false)

/-- The class map after a load and the number of entries cleared (R171). -/
def State.mapAfter (s : State) (kinds : Nat → Option Nat) (m : List Byte) : List Byte × Nat :=
  let bad (i : Nat) (e : Byte) : Bool := bit e 7 && !s.entryStands kinds i e
  (m.mapIdx (fun i e => if bit e 7 && s.entryStands kinds i e then e else 0), ((enumFrom' 0 m).filter (fun p => bad p.1 p.2)).length)

/-- The `kinds` of a container's classes. -/
def ctKinds (c : List Byte) (id : Nat) : Option Nat :=
  (((hdClasses (ctHeader c)).zip (ctDescs c)).find? (fun p => p.1 == id)).map (fun p => deKinds p.2)

/-- The class map that a container leaves. -/
def State.ctMapAfter (s : State) (c : List Byte) : List Byte × Nat :=
  s.mapAfter (ctKinds c) (if hdDefMap (ctHeader c) then ctMap c else s.rck.mapNext)

/-- Limits 2 and 3 of R168 over the tiles that a map assigns. -/
def mapLimits (shared : Nat) (stateB mac : Nat → Nat) (m : List Byte) : List Resp :=
  let ids := (m.filter (fun e => bit e 7)).map (fun e => fld e 0 4)
  let st := shared + sumN (ids.map stateB)
  let mc := sumN (ids.map mac)
  (if st > 524288 then [limitR 2 (st - 524288)] else []) ++ (if mc > 983040 then [limitR 3 (mc - 983040)] else [])

/-- The descriptor of a class. -/
def ctDesc (c : List Byte) (id : Nat) : BitVec 512 :=
  ((((hdClasses (ctHeader c)).zip (ctDescs c)).find? (fun p => p.1 == id)).map (·.2)).getD 0

/-- The signature of a container and its key (16 R374). -/
def State.progSigOk (s : State) (c : List Byte) : Bool :=
  let n := hdSigOfs (ctHeader c)
  let blk := c.drop n
  (s.trust.lcCode ≠ 3 || slotLive s.trust.fuses 1996 2 2764 (sigSlot blk) (sigKeyHash blk)) && sigOk blk (sha384 (c.take n))

/-- The final pass: structure, limits 2 and 3, the signature. -/
def State.finalPass (s : State) (c : List Byte) : Option Resp :=
  if finalBad c then some structR
  else match mapLimits (fld (ctHeader c) 256 32) (fun k => fld (ctDesc c k) 56 16)
      (fun k => fld (ctDesc c k) 16 24 + 8 * fld (ctDesc c k) 40 16) (s.ctMapAfter c).1 with
    | r :: _ => some r
    | [] => if s.progSigOk c then none else some (notPermR 0xA { item := 0x10 })

/-! ## Class map commands (06 R164, R168; 14 Table 14.15) -/

/-- The refusals of the entries of a RCK_MAP request. -/
def State.rckMapErrs (s : State) (q : Req) : List Resp :=
  let es := enumFrom' (mapFirst q) (mapEntries q)
  let m := mapWith s.rck.mapNext q
  let on := es.filter (fun p => bit p.2 7)
  (s.mapAbsent q).toList ++
  ((on.find? (fun p => (s.cls (fld p.2 0 4)).isNone)).map (fun p => refR stBadArg 0 { item := 8, idx := fld p.2 0 4 })).toList ++
  mapLimits s.rck.shared (fun k => match s.cls k with | some x => x.stateB | none => 0)
    (fun k => match s.cls k with | some x => x.baseMac + 8 * x.opMac | none => 0) m ++
  ((on.find? (fun p => (match s.cls (fld p.2 0 4) with | some x => !x.kinds.getLsbD (s.clsOf p.1 - 1) | none => false))).map
    (fun p => notPermR 0xA { item := 8, idx := fld p.2 0 4 })).toList

/-- RCK_MAP 0x33: all or nothing, from the next snapshot; during a load it waits for its end. -/
def cmdRckMap : Cmd :=
  {
    op := 0x33, len := mapLen, masks := [0x3FFF], changes := true, needs := [14, 15], form := fun _ q => mapFormBad q
    run := fun s q =>
      if s.rck.loading then (s.modRck (fun r => { r with mapWaits := r.mapWaits ++ [q.mbx] }), .accepted [])
      else orElse s (s.rckMapErrs q) (s.modRck (fun r => { r with mapNext := mapWith r.mapNext q }), .final (okR [])) }

/-- The load has ended: the map commands that wait run, oldest first. -/
def State.runMaps (s : State) : State :=
  let ws := s.rck.mapWaits
  let s := s.modRck (fun r => { r with mapWaits := [] })
  s.each ws (fun s n =>
    if (s.mbx n).held ≠ .accepted then s else
    match cmdRckMap.handle false s (reqOfWords n (s.mbx n).cmd) with
    | (s, .final r) => s.settle n r
    | (s, .accepted _) => s)

/-! ## Loading (06 R169 to R171) -/

/-- Trace bytes held beyond the capacity are discarded, their records counted as trace drops (15 R358). -/
def State.trimTrace (s : State) : State :=
  let cap := s.traceCap
  if s.log.held ≤ cap then s
  else { s with log := { s.log with
    held := cap, traceDrops := satAdd s.log.traceDrops ((s.log.held - cap) / 64), mem := memClear s.log.mem cap s.log.held } }

/-- A load ends with a refusal: the running program goes on (R169). -/
def State.loadFail (s : State) (r : Resp) : State :=
  let n := s.rck.loadMbx
  let s := s.modRck (fun x => { x with loading := false, loadStep := 0, staging := [], refusals := satInc x.refusals })
  (s.settleO n r).runMaps

/-- The last byte of the container has come: the final pass, and step 4 waits for its boundary. -/
def State.loadBytesDone (s : State) : State :=
  if s.faults.bad.any (fun x => x.1 == .staging) then s.loadFail (notPermR 0xA { item := 0x0A, idx := 3 }) else
  match s.finalPass s.rck.staging with
  | some r => s.loadFail r
  | none => s.modRck (fun x => { x with loadStep := 3, stepAt := s.mer.now })

def loadLen (q : Req) : Nat := (q.w 1).toNat
def loadMode (q : Req) : Nat := fld (q.w 2) 0 3

/-- RCK_LOAD 0x30: step 1 of Table 6.8. A refusal here counts, but for BUSY. -/
def cmdRckLoad : Cmd :=
  {
    op := 0x30, len := lenIs 2, masks := [0xFFFFFFFF, 0xF], changes := true, needs := [14, 15]
    form := fun _ q => if loadLen q = 0 then some (badArgR 1) else if loadMode q ≠ 3 && loadMode q ≠ 4 then some (badArgR 2) else none
    run := fun s q =>
      let no (r : Resp) : State × Ans := (s.modRck (fun x => { x with refusals := satInc x.refusals }), .final r)
      if loadLen q > 3145728 then no (limitR 4 (loadLen q - 3145728))
      else if s.rck.loading then (s, .final (busyR {}))
      else if (match s.tests.grant with | some g => g.rck || g.trace | none => false) then
        no (s.grantR (fun t => decide (t.id.toNat < 0x12)))
      else if !s.boot.lockedOnce then no noRefR
      else
        let s := { s with faults := { s.faults with bad := s.faults.bad.filter (fun b => b.1 != MemRegion.staging) } }
        let s := s.modRck (fun x => { x with
          loading := true, loadStep := 1, loadMode := if loadMode q = 3 then .active else .advisory, carry := bit (q.w 2) 3
          loadMbx := some q.mbx, cleared := 0, staging := [] })
        ((s.trimTrace).openInbound { kind := .container, mbx := q.mbx, tag := q.tag, bytes := loadLen q, lastAt := s.boot.uptime },
          .accepted []) }

/-- The class's counters and flags as they stand, on a record that is loaded anew. -/
def Cls.keepCounts (x old : Cls) : Cls :=
  { x with
    flags := old.flags, nv := old.nv, nanIn := old.nanIn, of_ := old.of_, planNonfin := old.planNonfin, fallback := old.fallback
    used := old.used, skipped := old.skipped, updates := old.updates, unders := old.unders, windows := old.windows
    adaptSat := old.adaptSat, reloads := old.reloads, clips := old.clips }

/-- The exact value of a loaded weight as binary32: element times block scale. -/
def State.weight32 (s : State) (l : Layer) (j i : Nat) : BitVec 32 :=
  let f := l.wFmt.toNat
  scaled f (memRead s.log.wmem (scaleAddr l.wAt l.nin l.nout f j (i / 32))).toNat (elemAt s.log.wmem l.wAt l.nin f j i)

/-- A class as its container gives it. -/
def classOfCt (c : List Byte) (id : Nat) : Cls :=
  let d := ctDesc c id
  let segs := ctSegs c
  let ls := ((classLayers c segs d).getD []).map (·.lay)
  {
    id := id, kinds := BitVec.ofNat 3 (deKinds d), pwr := bit d 7, confirm := fld d 8 2, keep := bit d 10, baseMac := fld d 16 24
    opMac := fld d 40 16, stateB := fld d 56 16, feat := BitVec.ofNat 16 (fld d 72 16), lastIn := fld d 92 12, lastOut := fld d 104 8
    fprint := BitVec.ofNat 64 (fld d 112 64), layers := ls, tensors := List.replicate (2 * ls.length) {}
    tables := ((deSegs segs d).filter (fun x => x.kind == 1)).map (fun x => { spill := x.spill, dst := x.dst, len := x.len, fmt := x.fmt }) }

/-- A class's last layer carries across the load (R171, R212). -/
def Cls.carries (x old : Cls) : Bool := x.keep && x.fprint == old.fprint && x.adapting.isSome && old.adapting.isSome

/-- The masters of a class: those that carry, or the container's weights, with a new generator (07 R207, R208, R212). -/
def State.startMasters (s : State) (x : Cls) (old : Option Cls) : State :=
  match x.adapting with
  | none => s
  | some l =>
    let sd := s.takeSeed
    let s := sd.2
    let ms := (List.range l.nin).map (s.weight32 l l.mOut)
    let b := (s.biasAt l l.mOut).getD 0
    let s := s.modCls x.id (fun y => { y with
      lfsr := sd.1, masters := (match old with | some o => o.masters | none => ms), mBias := (match old with | some o => o.mBias | none => b) })
    s

/-- The bytes of row `m_out` and its bias that a carried class keeps: elements, scales, bias. -/
def State.carriedRow (s : State) (x : Cls) : Option (List Byte × List Byte × List Byte) :=
  x.adapting.map (fun l =>
    let f := l.wFmt.toNat
    let nb := cdiv l.nin 32
    (memReadList s.log.wmem (l.wAt + l.mOut * nb * blkBytes f) (nb * blkBytes f),
     memReadList s.log.wmem (scaleAddr l.wAt l.nin l.nout f l.mOut 0) nb, memReadList s.log.wmem (l.bAt + 4 * l.mOut) 4))

/-- The carried row is put in place; where the segment format has changed it is rebuilt from the masters. -/
def State.putRow (s : State) (x old : Cls) (row : List Byte × List Byte × List Byte) : State :=
  match x.adapting, old.adapting with
  | some l, some o =>
    if l.wFmt ≠ o.wFmt then s.rebuild x.id l
    else
      let f := l.wFmt.toNat
      let nb := cdiv l.nin 32
      let s := (s.writeWeight (l.wAt + l.mOut * nb * blkBytes f) row.1).writeWeight (scaleAddr l.wAt l.nin l.nout f l.mOut 0) row.2.1
      if l.bias then s.writeWeight (l.bAt + 4 * l.mOut) row.2.2 else s
  | _, _ => s

/-- The segments of a container go to weight SRAM and to the spill partition. -/
def State.copySegs (s : State) (c : List Byte) (base : Nat) : State :=
  s.each (ctSegs c) (fun s x =>
    let bs := (c.drop x.src).take x.len
    if x.spill then { s with
      log := { s.log with mem := memWriteList s.log.mem (base + x.dst) bs }
      faults := { s.faults with
        bad := s.faults.bad.filter (fun b => !(b.1 == .spill && decide (x.dst ≤ 8 * b.2) && decide (8 * b.2 + 8 ≤ x.dst + x.len))) } }
    else s.writeWeight x.dst bs)

/-- The claims of the running program are released. -/
def State.dropClaims (s : State) : State :=
  s.each (List.range 60) (fun s ch => if (s.chan ch).owner = .rck then ((s.disarm ch).1).freeChan ch else s)

/-- The channels of a program are claimed and dealt in turn to the classes that adapt (R100, 07 R205). -/
def State.takeClaims (s : State) (claim : Nat) : State :=
  let chs := (List.range 60).filter (fun ch => claim.testBit ch && (s.chan ch).owner = .none)
  let s := s.each chs (fun s ch => s.modChan ch (fun c => { c with owner := .rck, setup := 0, aSum := 0, aBad := false }))
  let ids := (s.rck.classes.filter (fun x => x.adapting.isSome)).map (·.id)
  if ids.isEmpty then s else
  s.each (enumFrom' 0 chs) (fun s p =>
    let c := ids.getD (p.1 % ids.length) 0
    let cur := match s.cls c with | some x => (x.chans.getLast?.bind (·.2)) | none => none
    let n := s.nextPair c p.2 cur
    (s.modCls c (fun x => { x with chans := x.chans ++ [(BitVec.ofNat 6 p.2, n)] })).watchPair p.2 n)

/-- The class records that no program holds any more keep their counters (17 R392). -/
def State.retire (s : State) : State :=
  s.modRck (fun r => { r with
    retired := r.classes ++ r.retired.filter (fun o => !r.classes.any (fun x => x.id == o.id)), classes := [] })

/-- A tile whose class changes loses its window and its statistics (R162). -/
def State.setClassMap (s : State) (m : List Byte) : State :=
  let ch := allTiles.filter (fun i => s.rck.map.getD i 0 ≠ m.getD i 0)
  let s := s.each ch (fun s i => s.modTile i (fun t => { t with window := [], stats := List.replicate 4 {} }))
  s.modRck (fun r => { r with map := m, mapNext := m })

/-- What State SRAM holds for a tile begins anew. -/
def Tile.newProgram (t : Tile) : Tile :=
  { t with plan := 0, est := 0, estSkip := true, skips := [], lastX := [], lastY := [], samples := List.replicate 4 0 }

/-- The program goes: claims, class map and state, and the mode is OFF (R170). -/
def State.dropProgram (s : State) : State :=
  let s := (s.each allTiles State.abandonRun).dropClaims.retire
  let s := s.setClassMap (List.replicate 256 0)
  let s := { s with tiles := s.tiles.map Tile.newProgram, trust := { s.trust with progDig := 0, progKey := 0 } }
  s.modRck (fun r => { r with
    mode := .off, flight := false, unload := false, spill := 0, progId := 0, joest := 0, mask := 0, shared := 0, warm := 0 })

/-- The staging area is lost at step 5 (17 Table 17.3). -/
def State.stageLost (s : State) : State := (s.dropProgram).loadFail (notPermR 0xA { item := 0x0A, idx := 5 })

/-- A course boundary has come since an instant. -/
def State.boundarySince (s : State) (t : Time) : Bool :=
  s.mer.running && decide (s.key t < s.key (s.multAt (courseLen s.rck.course)))

/-- PROGRAM_LOAD_SWAP: at C_s, the first course boundary after step 3, the old program stops and the new one is copied in (steps 4 and 5
of Table 6.8). -/
def State.loadSwap (s : State) : State :=
  if !s.rck.loading || s.rck.loadStep ≠ 3 || !s.boundarySince s.rck.stepAt then s
  else if s.faults.bad.any (fun x => x.1 == .staging) then s.stageLost else
  let c := s.rck.staging
  let h := ctHeader c
  let s := s.each allTiles State.abandonRun
  let old := s.rck.classes
  let rows := old.map (fun x => (x, s.carriedRow x))
  let m := s.ctMapAfter c
  let s := s.dropClaims.retire
  let g := granules (hdSpill h)
  let retired := s.rck.retired
  let new := (hdClasses h).map (fun id =>
    let x := classOfCt c id
    match retired.find? (fun o => o.id == id) with | some o => x.keepCounts o | none => x)
  let s := s.modRck (fun r => { r with
    mode := .loading, flight := false, spill := g, loadStep := 5, stepAt := s.mer.now, classes := new, progId := BitVec.ofNat 64 (fld h 96 64)
    joest := w32 (fld h 160 32), mask := BitVec.ofNat 16 (hdMask h), shared := fld h 256 32, cleared := m.2, watchCnt := 0, watchSkip := false, n := 0 })
  let s := s.trimTrace.copySegs c (8388608 - 65536 * g)
  let s := { s with tiles := s.tiles.map Tile.newProgram }
  let s := s.setClassMap m.1
  let carry := s.rck.carry
  let s := s.each new (fun s x =>
    let o := (rows.find? (fun p => p.1.id == x.id)).filter (fun p => carry && x.carries p.1)
    let s := s.startMasters x (o.map (·.1))
    match o with
    | some (y, some row) => s.putRow x y row
    | _ => s)
  let s := s.clearHistory.takeClaims (hdClaim h)
  let n := hdSigOfs h
  let s := { s with trust := { s.trust with
    progDig := BitVec.ofNat 384 (natOfBytes (sha384 (c.take n))), progKey := BitVec.ofNat 384 (sigKeyHash (c.drop n)) } }
  if g = 0 then s else s.raise0 0x501 (64 * g)

/-- LOAD_COMPLETE: at the first course boundary after step 5 WARMUP follows, and the load ends with OK (steps 6 and 7). -/
def State.loadComplete (s : State) : State :=
  if !s.rck.loading || s.rck.loadStep ≠ 5 || !s.boundarySince s.rck.stepAt then s else
  let r := s.rck
  let s := s.modRck (fun r => { r with
    mode := .warmup, warm := 16, endMode := r.loadMode, warmups := satInc r.warmups, loads := satInc r.loads, loading := false
    loadStep := 0, staging := [] })
  ((s.trustAgain).settleO r.loadMbx (okR ([w32 r.cleared, w32 (64 * r.spill)] ++ wordsOf 2 r.progId.toNat))).runMaps

/-- RCK_UNLOAD 0x31. -/
def cmdRckUnload : Cmd :=
  {
    op := 0x31, changes := true, needs := [14, 15]
    run := fun s _ => if s.rck.loading then (s, .final (busyR {})) else (s.modRck (fun r => { r with unload := true, unloadAt := s.mer.now }), .final (okR [])) }

/-- UNLOAD_EFFECT: at the next course boundary the program goes (R170). -/
def State.unloadEffect (s : State) : State := if s.rck.unload && s.boundarySince s.rck.unloadAt then s.dropProgram else s

/-! ## The other Reckoner commands (14 Table 14.5) -/

/-- RCK_MODE 0x32. -/
def cmdRckMode : Cmd :=
  {
    op := 0x32, len := lenIs 1, masks := [7], changes := true, needs := [14, 15]
    form := fun _ q => if (q.w 1).toNat ≠ 3 && (q.w 1).toNat ≠ 4 then some (badArgR 1) else none
    run := fun s q =>
      let m : RckMode := if (q.w 1).toNat = 3 then .active else .advisory
      match s.rck.mode with
      | .off => (s, .final (notPermR 0xA {}))
      | .loading => (s, .final (notPermR 0xA {}))
      | .warmup => (s.modRck (fun r => { r with endMode := m }), .final (okR []))
      | .active => (if m = .active then s else (s.each allTiles State.abandonRun).modRck (fun r => { r with mode := .advisory }), .final (okR []))
      | .advisory => (if m = .advisory then s else s.modRck (fun r => { r with
          mode := .warmup, warm := 16, endMode := .active, warmups := satInc r.warmups }), .final (okR [])) }

/-- The Reckoner status word (06 Table 6.9). -/
def Rck.status (r : Rck) : Nat :=
  pack [(0, 3, r.mode.code), (3, 2, r.course.toNat), (5, 5, if r.mode = .warmup then r.warm else 0), (10, 1, b2n (decide (r.spill ≠ 0))),
    (11, 9, 64 * r.spill), (20, 16, r.mask.toNat), (36, 1, b2n r.loading)]

/-- RCK_STATUS 0x34. -/
def cmdRckStatus : Cmd :=
  {
    op := 0x34, needs := [14, 15]
    run := fun s _ => (s, .final (okR (wordsOf 2 s.rck.status ++ wordsOf 2 s.rck.progId.toNat ++ [s.rck.joest]))) }

/-- The counters of Table 6.10 in row order. -/
def Rck.words (r : Rck) : List Word :=
  [r.opTaken, r.stTaken, r.recOff, r.recTile, r.recLate, r.recBad, r.winOvf, r.courses, r.tileSkip, r.opSkip] ++ r.d400.words ++
  r.d800.words ++ [r.planRange, r.evFull, r.late, r.evCommit, r.evCancel, r.evAband, r.intents, r.commits, r.cancels, r.wilds,
    r.hailShort, r.warmups, r.loads, r.refusals]

/-- RCK_COUNTERS 0x35: two pages. -/
def cmdRckCounters : Cmd :=
  {
    op := 0x35, len := lenIs 1, masks := [0xF], needs := [14, 15]
    form := fun _ q => if (q.w 1).toNat > 1 then some (badArgR 1) else none
    run := fun s q =>
      let p := (q.w 1).toNat
      let s1 := if p = 0 then s.modRck (fun r => { r with snap := pagesOf 2 r.words }) else s
      (s1, .final (okR (pageOf s1.rck.snap (pagesOf 2 (List.replicate 28 0)) p))) }

def reqClassId (q : Req) : Nat := fld (q.w 1) 0 4
def clsBad (c : Nat) : Resp := refR stBadArg 0 { item := 8, idx := c }

/-- A class's words as RCK_CLASS gives them: flags, the counters of Table 7.9 in row order, `floor_clip`. -/
def Cls.words (x : Cls) : List Word :=
  [w32 x.flags.toNat, x.nv, x.nanIn, x.of_, x.planNonfin, x.fallback, x.used, x.skipped, x.updates, x.unders, x.windows, w32 x.stall,
    x.adaptSat, x.reloads, x.clips]

/-- RCK_CLASS 0x36. -/
def cmdRckClass : Cmd :=
  {
    op := 0x36, len := lenIs 1, masks := [0xFF0F], needs := [14, 15]
    form := fun s q => if (s.cls (reqClassId q)).isNone then some (clsBad (reqClassId q)) else none
    run := fun s q => match s.cls (reqClassId q) with
      | none => (s, .final (clsBad (reqClassId q)))
      | some x => (s.modCls x.id (fun y => { y with flags := y.flags &&& ~~~BitVec.ofNat 64 (fld (q.w 1) 8 8) }), .final (okR x.words)) }

/-- RCK_NV 0x37. -/
def cmdRckNv : Cmd :=
  {
    op := 0x37, len := lenIs 1, masks := [1], needs := [14, 15]
    run := fun s q =>
      let s1 := if bit (q.w 1) 0 then s.modRck (fun r => { r with capture := setFld r.capture 0 1 0 }) else s
      (s1, .final (okR (wordsOf 4 s.rck.capture.toNat))) }

/-- RCK_HISTORY 0x38: the history is cleared, and WARMUP follows (07 R202). -/
def cmdRckHistory : Cmd :=
  {
    op := 0x38, changes := true, needs := [14, 15]
    run := fun s _ => (s.clearHistory.enterWarmup, .final (okR [])) }

/-- WATCH_SET 0x39: a window starts with the next course (07 R204). -/
def cmdWatchSet : Cmd :=
  {
    op := 0x39, len := lenIs 1, masks := [0x1F], changes := true, needs := [14, 15]
    form := fun _ q => if (q.w 1).toNat < 8 || (q.w 1).toNat > 16 then some (badArgR 1) else none
    run := fun s q => (s.modRck (fun r => { r with
      watchW := (q.w 1).toNat, watchCnt := 0, watchSkip := r.flight, classes := r.classes.map (fun (c : Cls) => { c with tensors := c.tensors.map Tensor.newWindow }) }),
      .final (okR [])) }

/-- The tensor that a WATCH_READ names. -/
def reqTensor (q : Req) : Nat := 2 * fld (q.w 1) 4 4 + fld (q.w 1) 8 1

def watchMiss (s : State) (q : Req) : Option Resp :=
  match s.cls (reqClassId q) with
  | none => some (clsBad (reqClassId q))
  | some x => if reqTensor q < x.tensors.length then none else some (badArgR 1)

/-- WATCH_READ 0x3A. -/
def cmdWatchRead : Cmd :=
  {
    op := 0x3A, len := lenIs 1, masks := [0x1FF], needs := [14, 15], form := watchMiss
    run := fun s q => match s.cls (reqClassId q) with
      | none => (s, .final (clsBad (reqClassId q)))
      | some x => (s, .final (okR (wordsOf 9 (x.tensors.getD (reqTensor q) {}).report.toNat))) }

/-- RCK_SCALES 0x3B. -/
def cmdRckScales : Cmd :=
  {
    op := 0x3B, needs := [14, 15]
    run := fun s _ => (s, .final (okR [w32 (pack [(0, 8, s.fusedCode 0), (8, 8, s.fusedCode 1), (16, 8, s.fusedCode 2)])])) }

def execRckLoad (dt : Nat) (q : Req) (s : State) : Step := .next (postCmd cmdRckLoad dt q s)
def execRckUnload (dt : Nat) (q : Req) (s : State) : Step := .next (postCmd cmdRckUnload dt q s)
def execRckMode (dt : Nat) (q : Req) (s : State) : Step := .next (postCmd cmdRckMode dt q s)
def execRckMap (dt : Nat) (q : Req) (s : State) : Step := .next (postCmd cmdRckMap dt q s)
def execRckStatus (dt : Nat) (q : Req) (s : State) : Step := .next (postCmd cmdRckStatus dt q s)
def execRckCounters (dt : Nat) (q : Req) (s : State) : Step := .next (postCmd cmdRckCounters dt q s)
def execRckClass (dt : Nat) (q : Req) (s : State) : Step := .next (postCmd cmdRckClass dt q s)
def execRckNv (dt : Nat) (q : Req) (s : State) : Step := .next (postCmd cmdRckNv dt q s)
def execRckHistory (dt : Nat) (q : Req) (s : State) : Step := .next (postCmd cmdRckHistory dt q s)
def execWatchSet (dt : Nat) (q : Req) (s : State) : Step := .next (postCmd cmdWatchSet dt q s)
def execWatchRead (dt : Nat) (q : Req) (s : State) : Step := .next (postCmd cmdWatchRead dt q s)
def execRckScales (dt : Nat) (q : Req) (s : State) : Step := .next (postCmd cmdRckScales dt q s)
def execProgramLoadSwap (dt : Nat) (s : State) : Step := event dt s State.loadSwap
def execLoadComplete (dt : Nat) (s : State) : Step := event dt s State.loadComplete
def execUnloadEffect (dt : Nat) (s : State) : Step := event dt s State.unloadEffect

end Sys2Proof.Machine
end

