-- ==== Sys2Proof/Machine/Log.lean ====
section
/-! DEFINITION. The log port outbound and the trace: selection, capture, dump, credits, the sending of packets, and the log commands
0x80 to 0x84 (15 R348, R351 to R360; 14 R341). -/

namespace Sys2Proof.Machine

open Sys2Proof

/-! ## Sending (15 R348, R352) -/

/-- The log port is out of reset and its clock runs. -/
def State.logUp (s : State) : Bool := !s.ctl.logRst && bit s.boot.clkRun 1

/-- LO_CREDIT: one credit more, or `log_credit` at 1,023 (R348). -/
def State.addCredit (s : State) : State :=
  if !s.logUp || !s.xingOk 9 then s
  else if s.tests.loopOut ≠ 0 then { s with tests := { s.tests with loopOut := s.tests.loopOut - 1 } }
  else if s.log.credits ≥ 1023 then s.raise0 0xB07 0
  else { s with log := { s.log with credits := s.log.credits + 1 } }

/-- The class whose oldest packet goes next: one that holds the port, class 2 after 32 packets of classes 0 and 1 while it
waited, else the highest that holds one (R352). -/
def Log.nextClass (l : Log) : Option Nat :=
  match l.hold with
  | some h => some h.toNat
  | none =>
    if l.run01 ≥ 32 && !l.q2.isEmpty then some 2
    else [0, 1, 2].find? (fun c => !(l.queue c).isEmpty)

/-- The data of one dump packet: a 64-byte record that holds an uncorrectable word is sent as all-ones bytes (17 Table 17.3). -/
def State.dumpBytes (s : State) (at_ n : Nat) : List Byte :=
  (List.range (n / 64)).flatMap (fun k =>
    let a := at_ + 64 * k
    if s.faults.bad.any (fun x => x.1 == .trace && decide (a / 8 ≤ x.2) && decide (x.2 < a / 8 + 8)) then List.replicate 64 0xFF
    else memReadList s.log.mem a 64)

/-- One dump packet of the oldest dump with data left, when its class has room (R360). -/
def State.formDump (s : State) : State :=
  match s.log.dumps.find? (fun d => decide (d.1 < d.2.1)) with
  | none => s
  | some d =>
    let n := min 512 (d.2.1 - d.1)
    if !s.roomFor 11 (3 + n / 8) then s
    else
      let s := s.putPacket 11 0 0 s.mer.now (BitVec.ofNat 64 (d.1 + n * 2 ^ 32) :: flitsOfBytes (s.dumpBytes d.1 n))
      { s with log := { s.log with dumps := s.log.dumps.map (fun x => if x == d then (d.1 + n, d.2.1, d.2.2) else x) } }

/-- Captures and SPDM responses that wait in their source join their queue, in order, while it has room. -/
def State.drainCaps : Nat → State → State
  | 0, s => s
  | n + 1, s =>
    match s.log.capWait with
    | [] => s
    | p :: r =>
      if !s.roomFor p.ptype.toNat p.flits then s
      else
        let s := { s with log := { s.log with capWait := r } }
        State.drainCaps n (s.putPacket p.ptype.toNat p.src.toNat p.nrec.toNat p.stamp p.body)

/-- A class has room again: captures, sextant channels with eight results, and dumps form their packets (Table 15.3). -/
def State.refill (s : State) : State :=
  let s := State.drainCaps s.log.capWait.length s
  let s := s.each (List.range 60) (fun s ch => if sxDest (s.chan ch).setup && (s.chan ch).fifo.length ≥ 8 then s.sxPacket ch else s)
  s.each (List.range 63) (fun s _ => s.formDump)

/-- A packet has left: a dump whose last packet it was is answered (R360). -/
def State.dumpSent (s : State) (p : Packet) : State :=
  if p.ptype ≠ 11 then s else
  match s.log.dumps with
  | [] => s
  | d :: r =>
    let w : Flit := p.body.headD 0
    if fld w 0 32 + fld w 32 32 = d.2.1 then ({ s with log := { s.log with dumps := r } }).settleO d.2.2 (okR []) else s

/-- PACKET_SEND: the packet that is next leaves once the credits cover it; until then it holds the port. While
crossing 7 is stale the log side discards its flits and counts them in `xing_drop`, and the credits stay frozen (12 R312, Table 12.5). -/
def State.sendPacket (s : State) : State :=
  if !s.logUp || s.looping 1 then s else
  match s.log.nextClass with
  | none => s
  | some c =>
    match s.log.queue c with
    | [] => s
    | p :: r =>
      if !s.xingOk 7 then
        let s := { s with log := { s.log.setQueue c r with hold := none } }
        ((s.modXing 7 0 (fun x => { x with drops := satAdd x.drops p.flits })).dumpSent p).refill
      else if s.log.credits < p.flits then { s with log := { s.log with hold := some (BitVec.ofNat 2 c) } }
      else
        let l := s.log.setQueue c r
        let s := { s with log := { l with
          credits := l.credits - p.flits, hold := none, sent := some p, sentAt := s.boot.uptime
          run01 := if c = 2 || l.q2.isEmpty then 0 else l.run01 + 1 } }
        (s.dumpSent p).refill

/-- The waiting time of a packet is over: 200 ns for events, 1 µs for a channel's results, 100 µs for throttle records (R351). -/
def State.formDue (s : State) (ty ch : Nat) : Bool :=
  if ty = 1 then decide (s.boot.uptime ≥ s.log.evAt + 3200)
  else if ty = 13 then decide (s.boot.uptime ≥ s.log.thrAt + 1600000)
  else decide (s.boot.uptime ≥ (s.chan ch).fifoAt.headD 0 + 16000)

/-- PACKET_FORM_TIMEOUT: the waiting time of an event, sextant or throttle packet is over. -/
def State.formTimeout (s : State) (ty ch : Nat) : State :=
  if !s.formDue ty ch then s
  else if ty = 1 then s.formEvents
  else if ty = 13 then s.formThrottle
  else if ty = 6 && ch < 60 && sxDest (s.chan ch).setup then s.sxPacket ch
  else s

/-! ## Commands (14 Table 14.10) -/

/-- LOG_SELECT 0x80: mask and decimation; a deselected type 10 loses its sums (R351, R355, R356). -/
def cmdLogSelect : Cmd :=
  {
    op := 0x80, len := lenIs 2, masks := [0xFFFFFFFF, 0xFF], changes := true
    form := fun _ q => if (q.w 2).toNat = 0 then some (badArgR 2) else none
    run := fun s q =>
      let s := { s with log := { s.log with mask := q.w 1, dec := BitVec.ofNat 8 (q.w 2).toNat, decNew := true } }
      if bit (q.w 1) 10 then (s, .final (okR []))
      else
        let s := { s with log := { s.log with defer := [] } }
        (s.each allTiles (fun s i => s.clearTelem i false), .final (okR [])) }

/-- A trace command is refused under a grant that covers the trace SRAM (R343). -/
def State.traceErrs (s : State) : List Resp :=
  match s.tests.grant with
  | some g => if g.trace then [s.grantR (fun t => decide (t.id.toNat = 0x11))] else []
  | none => []

/-- TRACE_ARM 0x81 (R359). -/
def cmdTraceArm : Cmd :=
  {
    op := 0x81, len := lenIs 3, masks := [0xFF], changes := true
    form := fun s q => badOf (instantBad s q 2)
    run := fun s q => orElse s
      (instantBad s q 2 ++ (if s.log.armed || s.log.runs then [notPermR 0xA {}] else []) ++ s.traceErrs ++
        (if s.schedulable then [] else [noRefR]))
      ({ s with log := { s.log with
          armed := true, runs := false, groups := BitVec.ofNat 8 (q.w 1).toNat, armAt := q.w64 2, held := 0
          mem := memClear s.log.mem 0 s.log.held } }, .final (okR [])) }

/-- TRACE_STOP 0x82. -/
def cmdTraceStop : Cmd :=
  {
    op := 0x82, changes := true
    run := fun s _ => orElse s s.traceErrs
      ({ s with log := { s.log with armed := false, runs := false } }, .final (okR [w32 s.log.held])) }

/-- The refusals of a dump: form and bytes held; then a capture that runs, and a span above the capacity (R360). -/
def dumpBad (s : State) (q : Req) : Option Resp :=
  if (q.w 1).toNat % 64 ≠ 0 then some (badArgR 1)
  else if (q.w 2).toNat % 64 ≠ 0 || (q.w 1).toNat + (q.w 2).toNat > s.log.held then some (badArgR 2) else none

/-- TRACE_DUMP 0x83: accepted until its last flit has left; a dump of no bytes is over at once. -/
def cmdTraceDump : Cmd :=
  {
    op := 0x83, len := lenIs 2, changes := true, form := dumpBad
    run := fun s q =>
      let a := (q.w 1).toNat
      let n := (q.w 2).toNat
      orElse s ((if s.log.runs || a + n > s.traceCap then [notPermR 0xA {}] else []) ++ s.traceErrs)
        (if n = 0 then (s, .final (okR []))
         else
           let s := { s with log := { s.log with dumps := s.log.dumps ++ [(a, a + n, some q.mbx)] } }
           (s.each (List.range 63) (fun s _ => s.formDump), .accepted [])) }

/-- LOG_STATUS 0x84. -/
def cmdLogStatus : Cmd :=
  {
    op := 0x84
    run := fun s _ => (s, .final (okR [w32 s.traceCap, w32 s.log.held, s.log.drops, s.log.traceDrops, s.log.discards])) }

def execLogSelect (dt : Nat) (q : Req) (s : State) : Step := .next (postCmd cmdLogSelect dt q s)
def execTraceArm (dt : Nat) (q : Req) (s : State) : Step := .next (postCmd cmdTraceArm dt q s)
def execTraceStop (dt : Nat) (q : Req) (s : State) : Step := .next (postCmd cmdTraceStop dt q s)
def execTraceDump (dt : Nat) (q : Req) (s : State) : Step := .next (postCmd cmdTraceDump dt q s)
def execLogStatus (dt : Nat) (q : Req) (s : State) : Step := .next (postCmd cmdLogStatus dt q s)
def execLoCredit (dt : Nat) (s : State) : Step := event dt s State.addCredit
def execPacketSend (dt : Nat) (s : State) : Step := event dt s State.sendPacket
def execPacketFormTimeout (dt : Nat) (ty : BitVec 5) (ch : BitVec 6) (s : State) : Step :=
  event dt s (fun s => s.formTimeout ty.toNat ch.toNat)

end Sys2Proof.Machine
end

