-- ==== Sys2Proof/Machine/Testing.lean ====
section
/-! DEFINITION. Calibration and test: the commands 0x90 to 0x95, grants, destructive tests, loop-backs and the test port (14 R342,
R343; 18 R408 to R416; 02 R72; 16 R365). -/

namespace Sys2Proof.Machine

open Sys2Proof

def State.modTests (s : State) (f : Tests → Tests) : State := { s with tests := f s.tests }

/-! ## Handles (14 R343) -/

/-- A test is requested: its handle, and its record among the last 32. -/
def State.newTest (s : State) (id : Nat) (target : Word) : BitVec 16 × State :=
  let h := s.tests.nextH
  (h, s.modTests (fun t => { t with
    nextH := h + 1, list := ({ handle := h, id := BitVec.ofNat 8 id, target := target, res := 0, detail := 0 } :: t.list).take 32 }))

def State.findTest (s : State) (h : BitVec 16) : Option Test := s.tests.list.find? (fun t => t.handle == h)

/-- A test's result is recorded. -/
def State.setTest (s : State) (h : BitVec 16) (res : BitVec 2) (detail : Word) : State :=
  s.modTests (fun t => { t with list := t.list.map (fun x => if x.handle == h then { x with res := res, detail := detail } else x) })

/-- The trace SRAM is in use: a capture armed or running, a spill partition, a staging area, a dump (14 Table 14.12). -/
def State.traceBusy (s : State) : Bool :=
  s.log.armed || s.log.runs || decide (s.rck.spill ≠ 0) || s.rck.loading || !s.log.dumps.isEmpty

/-- The tiles of a group. -/
def groupTiles (g : Nat) : List Nat := (List.range 32).map (· + 32 * g)

/-- A tile of the group is RUNNING. -/
def State.groupRuns (s : State) (g : Nat) : Bool := (groupTiles g).any (fun i => decide ((s.tile i).st = .running))

/-- The tile has a standby for test 0x02: a running tile that is not single, its standby warm or under test. -/
def State.stbyReady (s : State) (i : Nat) : Bool :=
  let t := s.tile i
  decide (t.st = .running) && !t.single && t.hov.isNone && (decide (t.stby = .warm) || decide (t.stby = .testing))

/-- A test cannot run now: its resource is in service (14 Table 14.12). -/
def State.testBusy (s : State) (id : Nat) (target : Nat) : Bool :=
  if id = 0x02 then !s.stbyReady target || decide ((s.tile target).stby ≠ .warm)
  else if id = 0x10 then decide (s.rck.mode ≠ .off) || s.rck.loading
  else if id = 0x11 then s.traceBusy
  else if id = 0x12 || id = 0x13 || id = 0x14 then s.groupRuns target
  else false

/-- What a test that runs needs has gone meanwhile: a standby test has been stopped, or its resource has come into service (18 R416). -/
def State.testGone (s : State) (id : Nat) (target : Nat) : Bool :=
  if id = 0x02 then !s.stbyReady target || decide ((s.tile target).stby ≠ .testing) else s.testBusy id target

/-- A destructive test has ended or was stopped: its resource holds its reset contents (18 R411). -/
def State.testReset (s : State) (id : Nat) (target : Nat) : State :=
  let good (s : State) (p : MemRegion → Bool) : State := { s with faults := { s.faults with bad := s.faults.bad.filter (fun b => !p b.1) } }
  if id = 0x10 then
    good { s with log := { s.log with wmem := [] }, tiles := s.tiles.map Tile.newProgram } (· == .weight)
  else if id = 0x11 then
    good { s with log := { s.log with mem := [], held := 0 } } (fun r => r == .trace || r == .spill || r == .staging)
  else if id = 0x12 then
    s.each (groupTiles target) (fun s i => s.modTile i (fun t => { t with calA := false, calB := false, actCal := t.actCal || t.st = .gated }))
  else s

/-- A grant covers a test's resource. -/
def Grant.covers (g : Grant) (t : Test) : Bool :=
  let id := t.id.toNat
  if id = 0x10 then g.rck
  else if id = 0x11 then g.trace
  else if id = 0x12 || id = 0x13 || id = 0x14 then bit g.groups t.target.toNat
  else id == 0x91 && bit g.groups (t.target.toNat / 32)

/-- A deferred destructive test that a grant covers. -/
def State.covered (s : State) (t : Test) : Bool :=
  match s.tests.grant with
  | some g => t.res == 0 && g.covers t
  | none => false

/-- Every enabled plumb of a tile is trimmed, or a trim finds a faulty tap (05 R149, 18 R408). -/
def State.trimTile (s : State) (i : Nat) (x : OpResult) : State :=
  match x with
  | .test false d => s.tapFault i (d.toNat % 4)
  | _ =>
    let ps := [0, 1, 2, 3].filter (plumbEn (s.tile i).plumbW)
    let s := s.modTile i (fun t => { t with trimWait := false })
    s.each ps (fun s p => s.plumbCal i p true)

/-- A test has run: what it leaves, and its result. -/
def State.ranTest (s : State) (t : Test) (pass : Bool) (detail : Word) : State :=
  let id := t.id.toNat
  let s := s.setTest t.handle (if pass then 1 else 2) (if pass then 0 else detail)
  if id = 0x02 then s.standbyTest t.target.toNat pass
  else if id = 0x03 then
    (let ch := t.target.toNat
     if ch < 64 && (s.chan ch).off && !(s.chan ch).caling then s.endCal ch pass else s)
  else if id = 0x91 then s.trimTile t.target.toNat (.test pass detail)
  else s.testReset id t.target.toNat

/-- The grant ends: what it covers and has not run reads "not run" and is re-initialised; QUIESCE is answered with the tests run
(14 R343). -/
def State.endGrant (s : State) : State :=
  match s.tests.grant with
  | none => s
  | some g =>
    let left := s.tests.list.filter (fun t => s.covered t && t.id != 0x91)
    let s := s.each left (fun s t => (s.setTest t.handle 3 0).testReset t.id.toNat t.target.toNat)
    (s.modTests (fun t => { t with grant := none })).settle g.mbx (okR [w32 g.ran])

/-- TEST_DONE: a deferred test ends within its grant, or once what it waited for is there; the last one of a grant ends it. -/
def State.testDone (s : State) (h : BitVec 16) (pass : Bool) (detail : Word) : State :=
  match s.findTest h with
  | none => s
  | some t =>
    if t.res ≠ 0 || s.haltedB then s
    else if s.covered t then
      let s := s.ranTest t pass detail
      let s := s.modTests (fun x => { x with grant := x.grant.map (fun g => { g with ran := g.ran + 1 }) })
      if s.tests.list.any s.covered then s else s.endGrant
    else if t.id = 0x02 && !s.testBusy 2 t.target.toNat then s.ranTest t pass detail
    else if t.id = 0x91 && decide ((s.tile t.target.toNat).st ≠ .running) then s.ranTest t pass detail
    else s

/-- GRANT_END: the longest time is over, or the block has halted (R343, 18 R416). -/
def State.grantEnd (s : State) : State :=
  match s.tests.grant with
  | some g => if decide (s.boot.uptime ≥ g.till) || s.haltedB then s.endGrant else s
  | none => s

/-! ## Commands 0x90 to 0x94 (14 Table 14.11) -/

/-- CAL_SEXTANT 0x90. -/
def cmdCalSextant : Cmd :=
  {
    op := 0x90, len := lenIs 1, masks := [0x3F], changes := true, needs := [16, 17]
    run := fun s q =>
      let ch := reqChan q
      let c := s.chan ch
      orElse s (if c.armed || c.caling || ch ≥ 60 || !(c.owner = .none || c.owner = .host) then [s.chanR ch] else [])
        ((s.modChan ch (fun c => { c with caling := true })).setWait q.mbx (.calSextant (BitVec.ofNat 6 ch)), .accepted []) }

/-- CAL_PLUMB 0x91: the trims run now, or at the tile's next stop or grant when R149 holds a plumb back. -/
def cmdCalPlumb : Cmd :=
  {
    op := 0x91, len := lenIs 1, masks := [0xFF], changes := true, form := formPresent
    run := fun s q =>
      let i := reqTile q
      orElse s (fenceErrs s i)
        (if [0, 1, 2, 3].all (fun p => !plumbEn (s.tile i).plumbW p || s.trimOk i p) then
          (s.setWait q.mbx (.calPlumb (BitVec.ofNat 8 i)), .accepted [])
        else
          let x := s.newTest 0x91 (w32 i)
          (x.2.modTile i (fun t => { t with trimWait := true }), .final (deferredR x.1))) }

def reqTest (q : Req) : Nat := fld (q.w 1) 0 8

/-- The identifier and target of a TEST_RUN that Table 14.12 does not have. -/
def testBad (s : State) (q : Req) : Option Resp :=
  let id := reqTest q
  let n := (q.w 2).toNat
  if !(id = 1 || id = 2 || id = 3 || (0x10 ≤ id && id ≤ 0x14)) then some (badArgR 1)
  else if id = 2 then (if n ≥ 256 then some (badArgR 2) else if s.present n then none else some (tileBad n))
  else if (id = 3 && n ≥ 64) || (0x12 ≤ id && n ≥ 8) then some (badArgR 2)
  else none

/-- TEST_RUN 0x92: a test whose resource is free runs; one whose resource is in service, or whose standby another test holds, is
deferred (18 R416, 04 R108). -/
def cmdTestRun : Cmd :=
  {
    op := 0x92, len := lenIs 2, masks := [0xFF], changes := true, form := testBad
    run := fun s q =>
      let id := reqTest q
      let n := (q.w 2).toNat
      if id = 2 && !s.stbyReady n then (s, .final (tileR stNotPermitted 0xA n))
      else
        let x := s.newTest id (q.w 2)
        if s.testBusy id n then (x.2, .final (deferredR x.1))
        else
          let s := if id = 2 then (x.2.modTile n (fun t => { t with stby := .testing })).modRot (n / 32) (fun r => { r with runs := false }) else x.2
          (s.setWait q.mbx (.test x.1), .accepted []) }

/-- The first RUNNING tile of a granted group, and the first that a live keystone names. -/
def State.quiesceTile (s : State) (groups : Nat) : Option Nat :=
  allTiles.find? (fun i => groups.testBit (i / 32) && s.present i &&
    (decide ((s.tile i).st = .running) || s.keys.slots.any (fun k => k.live && (k.naming i).isSome)))

/-- QUIESCE 0x93 (R343). A grant that covers no deferred test ends at once. -/
def cmdQuiesce : Cmd :=
  {
    op := 0x93, len := lenIs 2, masks := [0x3FF, 0x3FF], changes := true
    form := fun _ q => if (q.w 2).toNat = 0 || (q.w 2).toNat > 1000 then some (badArgR 2) else none
    run := fun s q =>
      let g := fld (q.w 1) 0 8
      let rck := bit (q.w 1) 8
      let trace := bit (q.w 1) 9
      orElse s
        ((if s.tests.grant.isSome then [busyR {}] else []) ++
         ((s.quiesceTile g).map (tileR stNotPermitted 0xA)).toList ++
         (if (rck && (decide (s.rck.mode ≠ .off) || s.rck.loading)) || (trace && s.traceBusy) then [notPermR 0xA {}] else []))
        (let s := s.modTests (fun t => { t with grant := some {
            groups := BitVec.ofNat 8 g, rck := rck, trace := trace, till := s.boot.uptime + 16000000 * (q.w 2).toNat, mbx := q.mbx } })
         if s.tests.list.any s.covered then (s, .accepted [])
         else (s.modTests (fun t => { t with grant := none }), .final (okR [0]))) }

/-- TEST_RESULT 0x94. -/
def cmdTestResult : Cmd :=
  {
    op := 0x94, len := lenIs 1, masks := [0xFFFF]
    form := fun s q => if (s.findTest (BitVec.ofNat 16 (q.w 1).toNat)).isNone then some (badArgR 1) else none
    run := fun s q => match s.findTest (BitVec.ofNat 16 (q.w 1).toNat) with
      | some t => (s, .final (okR [w32 t.res.toNat, t.detail]))
      | none => (s, .final (badArgR 1)) }

/-! ## Loop-backs (18 R412, R413) -/

/-- Interface i is in use (Table 18.5), or another loop-back runs. -/
def State.ifBusy (s : State) (i : Nat) : Bool :=
  s.tests.loop.isSome ||
  (match i with
   | 1 => !s.log.inbound.isEmpty || !s.log.dumps.isEmpty
   | 2 => decide (s.rck.mode ≠ .off)
   | 3 => !bit s.power.avsBad 0 && [0, 1, 2, 3].any (fun r => (s.rail r).active)
   | 4 => !bit s.power.avsBad 1 && [4, 5, 6, 7].any (fun r => (s.rail r).active)
   | 5 => !s.lodeOk
   | 6 => s.member
   | _ => false)

/-- The `aux` that names an interface's signal (14 Table 14.1). -/
def ifAux (i : Nat) : Nat := if i = 3 then 3 else if i = 4 then 4 else if i = 5 then 2 else 0

/-- The largest depth of an interface. -/
def ifDepth (i : Nat) : Nat := if i = 0 || i = 1 then 2 else if i = 5 then 0 else 1

/-- The words that a loop-back compares. -/
def ifWords (i : Nat) : Nat := if i = 0 then 256 else if i = 3 || i = 4 then 64 else if i = 5 then 8 else 1024

def reqIf (q : Req) : Nat := fld (q.w 1) 0 4
def reqDepth (q : Req) : Nat := fld (q.w 1) 4 4

/-- LOOPBACK 0x95. On the control interface the Helm presents its first pattern word; on the log, returned flits spend the
outbound credits there are. -/
def cmdLoopback : Cmd :=
  {
    op := 0x95, len := lenIs 2, masks := [0xFF], changes := true
    form := fun _ q =>
      if reqIf q > 6 || reqDepth q > ifDepth (reqIf q) || (reqIf q = 0 && reqDepth q ≠ 2) then some (badArgR 1)
      else if q.w 2 = 0 then some (badArgR 2) else none
    run := fun s q =>
      let i := reqIf q
      if s.ifBusy i then (s, .final (notPermR 0xA { item := 0x0B, aux := ifAux i }))
      else
        let s := s.modTests (fun t => { t with loop := some (BitVec.ofNat 4 i, BitVec.ofNat 4 (reqDepth q), q.w 2, q.mbx) })
        let s := s.setWait q.mbx .loopback
        if i = 0 then ({ s with ctl := { s.ctl with helm := q.w 2, helmLeft := 256, helmTaken := 0 } }, .accepted [])
        else if i = 1 then
          let n := min 1024 s.log.credits
          ({ s with log := { s.log with credits := s.log.credits - n }, tests := { s.tests with loopOut := 1024 - n } }, .accepted [])
        else (s, .accepted []) }

/-- A loop-back has ended: words compared and mismatches. -/
def State.loopDone (s : State) (x : OpResult) : State :=
  match s.tests.loop with
  | none => s
  | some (i, _, _, n) =>
    let mis : Nat := match x with | .loop _ m => min m.toNat (ifWords i.toNat) | _ => 0
    let r := if i = 0 then okR [w32 s.ctl.helmTaken, 0] else okR [w32 (ifWords i.toNat), w32 mis]
    let s := s.modTests (fun t => { t with loop := none, loopOut := 0 })
    let s := if i = 0 then { s with ctl := { s.ctl with helm := 0, helmLeft := 0 } } else s
    s.settle n r

/-! ## The end of an operation (14 R329) -/

/-- A test that a mailbox waits on has run; where its resource has come into service meanwhile it is deferred (18 R416). A scrub pass
passes only while no word is known to be uncorrectable (18 Table 18.3). -/
def State.testEnds (s : State) (n : BitVec 3) (h : BitVec 16) (x : OpResult) : State :=
  match s.findTest h with
  | none => s.settle n (okR [3, 0])
  | some t =>
    if s.testGone t.id.toNat t.target.toNat then s.settle n (deferredR h)
    else
      let clean := t.id ≠ 0x01 || s.faults.bad.isEmpty
      let r : Bool × Word := match x with | .test p d => (p && clean, d) | _ => (clean, 0)
      (s.ranTest t r.1 r.2).settle n (okR (if r.1 then [1, 0] else [2, r.2]))

/-- INSTANT_COMPLETION: the bound of an ACCEPTED command is reached; what it waited on ends, and its final status is written. -/
def State.instantDone (s : State) (n : BitVec 3) (x : OpResult) : State :=
  let m := s.mbx n
  if m.held ≠ .accepted then s else
  let s := if m.final.isSome then s else
    match m.wait with
    | .railAct r => s.railActDone r.toNat x
    | .calSextant ch =>
      (s.endCal ch.toNat (match x with | .test p _ => p | _ => true)).settle n (okR [])
    | .calPlumb i => (s.trimTile i.toNat x).settle n (okR [])
    | .test h => s.testEnds n h x
    | .loopback => s.loopDone x
    | _ => s
  match (s.mbx n).final with
  | some r => s.finish n r
  | none => s

/-! ## The test port (18 R415, 02 R72) -/

/-- A TAP instruction is loaded, with what its data register captures. -/
def State.tap (s : State) (ir : Byte) (dr : Nat) : State :=
  s.modTests (fun t => { t with ir := ir, dr := BitVec.ofNat 66 dr })

/-- A test port access: time passes; the port works in reset too. -/
def tapStep (dt : Nat) (s : State) (f : State → State) : Step := .next (f (s.tick dt))

/-- An instruction that the lifecycle does not offer acts as BYPASS; through a stale crossing 22 the test controller has no effect
(12 Table 12.5). -/
def State.tapIf (s : State) (ok : Bool) (f : State → State) : State := if !ok then s.tap 0xFF 0 else if s.xingOk 22 then f s else s

/-- IDCODE (R72). -/
def State.idcodeWord (s : State) : Nat := pack [(0, 1, 1), (1, 11, s.ties.mfr.toNat), (12, 16, 0xB256), (28, 4, 4)]

/-- LBK_RUN: the loop-back that LBK_CFG configured runs, or is refused (Tables 18.5, 18.7). -/
def State.lbkRun (s : State) (mis : Nat) : State :=
  let c := s.tests.lbkCfg
  let i := fld c 0 4
  let d := fld c 4 4
  let bad := i = 0 || i > 6 || d > min 1 (ifDepth i) || fld c 8 32 = 0 || s.ifBusy i || s.boot.inReset || !s.xingOk 22
  let w := ifWords i
  let r := if bad then pack [(65, 1, 1)] else pack [(0, 32, w), (32, 32, min mis w), (64, 1, 1)]
  (s.tap 0x11 0).modTests (fun t => { t with lbkRes := BitVec.ofNat 66 r })

/-- MBIST: tests 0x10 and 0x11 while the Helm is in ROM. -/
def State.mbist (s : State) (p10 p11 : Bool) : State :=
  s.tapIf (decide (s.trust.lcCode ≤ 2) && decide (s.helm.stage = .rom)) (fun s =>
    ((s.testReset 0x10 0).testReset 0x11 0).tap 0x21 (b2n p10 + 2 * b2n p11))

/-- First bit and width of a fuse field that FUSE_WRITE may blow; `arb` is none. -/
def fusePlace : FuseField → Option (Nat × Nat)
  | .uds => some (0, 384)
  | .lc => some (384, 8)
  | .arb => none
  | .fwKey k => some (456 + 384 * k.toNat, 384)
  | .fwRev => some (1992, 4)
  | .progKey k => some (1996 + 384 * k.toNat, 384)
  | .progRev => some (2764, 2)
  | .opKey k => some (2766 + 384 * k.toNat, 384)
  | .opRev => some (3534, 2)
  | .chart => some (3536, 216)
  | .scales => some (3752, 24)

/-- FUSE_WRITE: in MANUFACTURE a field whose bits are all 0 is blown; `uds` is drawn from the entropy source. -/
def State.fuseWrite (s : State) (f : FuseField) (v : Nat) : State :=
  s.tapIf (decide (s.trust.lcCode = 1)) (fun s =>
    let s := s.tap 0x22 0
    match fusePlace f with
    | none => s
    | some (lo, w) =>
      if fld s.trust.fuses lo w ≠ 0 then s
      else
        let x := if f = .uds then s.take .nonce (2 ^ 384) else (v, s)
        { x.2 with trust := x.2.trust.blow (BitVec.ofNat 3776 ((x.1 % 2 ^ w) * 2 ^ lo)) })

/-- LC_ADVANCE: the next lifecycle bit, from MANUFACTURE or DEV. -/
def State.lcAdvance (s : State) : State :=
  s.tapIf (decide (s.trust.lcCode ≤ 2)) (fun s =>
    let s := s.tap 0x23 0
    { s with trust := s.trust.blow (BitVec.ofNat 3776 (2 ^ (383 + s.trust.lcCode))) })

/-- RMA_TOKEN: in FIELD a good token advances the lifecycle; then the key engine masks the seed (16 R365). -/
def State.rmaToken (s : State) (tok : BitVec 768) : State :=
  s.tapIf (decide (s.trust.lcCode = 3)) (fun s =>
    let s := s.tap 0x24 0
    if Config.tokenOk tok then
      { s with trust := { (s.trust.blow (BitVec.ofNat 3776 (2 ^ 386))) with devKey := none, aliasKey := none } }
    else s)

def execCalSextant (dt : Nat) (q : Req) (s : State) : Step := .next (postCmd cmdCalSextant dt q s)
def execCalPlumb (dt : Nat) (q : Req) (s : State) : Step := .next (postCmd cmdCalPlumb dt q s)
def execTestRun (dt : Nat) (q : Req) (s : State) : Step := .next (postCmd cmdTestRun dt q s)
def execQuiesce (dt : Nat) (q : Req) (s : State) : Step := .next (postCmd cmdQuiesce dt q s)
def execTestResult (dt : Nat) (q : Req) (s : State) : Step := .next (postCmd cmdTestResult dt q s)
def execLoopback (dt : Nat) (q : Req) (s : State) : Step := .next (postCmd cmdLoopback dt q s)
def execInstantCompletion (dt : Nat) (mbx : BitVec 3) (r : OpResult) (s : State) : Step := event dt s (fun s => s.instantDone mbx r)
def execGrantEnd (dt : Nat) (s : State) : Step := event dt s State.grantEnd
def execTestDone (dt : Nat) (handle : BitVec 16) (pass : Bool) (detail : Word) (s : State) : Step :=
  event dt s (fun s => s.testDone handle pass detail)
def execIdcode (dt : Nat) (s : State) : Step := tapStep dt s (fun s => s.tap 0x01 s.idcodeWord)
def execLbkCfg (dt : Nat) (v : BitVec 40) (s : State) : Step :=
  tapStep dt s (fun s => (s.tap 0x10 v.toNat).modTests (fun t => { t with lbkCfg := v }))
def execLbkRun (dt : Nat) (_compared mismatches : Word) (s : State) : Step := tapStep dt s (fun s => s.lbkRun mismatches.toNat)
def execLbkRes (dt : Nat) (s : State) : Step := tapStep dt s (fun s => s.tap 0x12 s.tests.lbkRes.toNat)
/-- SCAN: internal scan, in MANUFACTURE and under reset only; what it shifts is not architectural state. -/
def execScan (dt : Nat) (s : State) : Step :=
  tapStep dt s (fun s => s.tapIf (decide (s.trust.lcCode = 1) && s.boot.inReset) (fun s => s.tap 0x20 0))
def execMbist (dt : Nat) (pass10 pass11 : Bool) (s : State) : Step := tapStep dt s (fun s => s.mbist pass10 pass11)
def execFuseWrite (dt : Nat) (f : FuseField) (v : Nat) (s : State) : Step := tapStep dt s (fun s => s.fuseWrite f v)
def execLcAdvance (dt : Nat) (s : State) : Step := tapStep dt s State.lcAdvance
def execRmaToken (dt : Nat) (tok : BitVec 768) (s : State) : Step := tapStep dt s (fun s => s.rmaToken tok)
def execBypass (dt : Nat) (s : State) : Step := tapStep dt s (fun s => s.tap 0xFF 0)

end Sys2Proof.Machine
end

