-- ==== Sys2Proof/Machine/Faults.lean ====
section
/-! DEFINITION. Faults and fencing: the commands 0xA0 to 0xA6, the scrubber and what an uncorrectable word does outside the Helm
(17 R386 to R400; 14 R344). -/

namespace Sys2Proof.Machine

open Sys2Proof

/-! ## Fences (17 R395, R400) -/

/-- FENCE 0xA0. -/
def cmdFence : Cmd :=
  {
    op := 0xA0, len := lenIs 1, masks := [0xFF], changes := true, form := formPresent
    run := fun s q => (s.fence (reqTile q) 1, .final (okR [])) }

/-- A crossing after a reset of its group: both sides in the epoch `e`, nothing stale (12 R310, R313). -/
def Xing.fresh (x : Xing) (e : BitVec 8) : Xing :=
  { x with own := e, other := e, stale := false, gap := false, fails := 0 }

/-- A fenced tile whose latest trial passed an oscillator is released (R400 steps 2 to 5). -/
def State.unfence (s : State) (i : Nat) : State :=
  let t := s.tile i
  let s := s.modXing 23 i (fun x => x.fresh (x.own + 1))
  let s := s.modXing 24 i (fun x => x.fresh (x.own + 1))
  let off := !s.domOn i
  let code := if s.ownsCode i then s.cvy.code else t.code
  let s := s.modTile i (fun t => { t with
    st := if off then .domainOff else .disabled, ret := .disabled, recEn := false, cause := 0, failA := !t.trialA, failB := !t.trialB
    failS0 := t.failS0 && !t.trialS0, failS1 := t.failS1 && !t.trialS1, learn := (s.chart i).maxCode, code := code })
  s.raise 0x402 i (b2n t.trialA + 2 * b2n t.trialB)

/-- FENCE_RELEASE 0xA1. -/
def cmdFenceRelease : Cmd :=
  {
    op := 0xA1, len := lenIs 1, masks := [0xFF], changes := true, form := formPresent
    run := fun s q =>
      let i := reqTile q
      let t := s.tile i
      if !t.fenced || !t.trialRun || !(t.trialA || t.trialB) then (s, .final (tileR stNotPermitted 0xA i))
      else (s.unfence i, .final (okR [])) }

/-! ## Reports (14 Table 14.13) -/

/-- FAULT_SUMMARY 0xA2: the read clears the classes. -/
def cmdFaultSummary : Cmd :=
  {
    op := 0xA2
    run := fun s _ =>
      ({ s with faults := { s.faults with raised := 0 } }, .final (okR (w32 s.faults.raised.toNat :: s.faults.ecc))) }

/-- The whole events that a read of `n` records returns, and what stays queued: the oldest event always (15 R354). -/
def readEvents (n : Nat) (q : List (BitVec 128)) : List (BitVec 128) × List (BitVec 128) :=
  match q with
  | a :: b :: r => if bit a 13 && n < 2 then ([a, b], r) else wholeEvents n q
  | _ => wholeEvents n q

/-- EVENT_READ 0xA3. -/
def cmdEventRead : Cmd :=
  {
    op := 0xA3, len := lenIs 1, masks := [3]
    form := fun _ q => if q.w 1 = 0 then some (badArgR 1) else none
    run := fun s q =>
      let x := readEvents (q.w 1).toNat s.faults.queue
      let s := { s with faults := { s.faults with queue := x.2 } }
      (s.evqFlush, .final (okR (w32 (x.1.length + 4 * x.2.length) :: x.1.flatMap (fun r => wordsOf 4 r.toNat)))) }

/-- A crossing's counters, state and epochs (12 R314). -/
def Xing.words (x : Xing) : List Word :=
  [x.tos, x.drops, x.stales, w32 (pack [(0, 1, b2n x.stale), (1, 1, b2n x.gap), (2, 1, b2n x.failed), (3, 8, x.own.toNat),
    (11, 8, x.other.toNat)])]

/-- XING_READ 0xA4. -/
def cmdXingRead : Cmd :=
  {
    op := 0xA4, len := lenIs 1, masks := [0xFF1F]
    form := fun s q =>
      let x := fld (q.w 1) 0 5
      let i := fld (q.w 1) 8 8
      if x > 24 then some (badArgR 1) else if x ≥ 23 && !s.present i then some (tileBad i) else none
    run := fun s q => (s, .final (okR (s.xing (fld (q.w 1) 0 5) (fld (q.w 1) 8 8)).words)) }

/-- HELM_COUNTERS 0xA6. -/
def cmdHelmCounters : Cmd :=
  {
    op := 0xA6
    run := fun s _ => (s, .final (okR (s.mbxs.map (·.misuse) ++ [s.helm.wdogs, s.helm.restarts]))) }

/-! ## Memories (17 R389 to R391, Table 17.3) -/

/-- The number of Table 17.3 of a region's memory. -/
def memIdx : MemRegion → Nat
  | .weight => 0
  | .history => 1
  | .master => 1
  | .tileState => 1
  | .trace => 2
  | .spill => 3
  | .staging => 4
  | .helmCode => 5
  | .helmData => 6

/-- The place of a region's correctable count among the six of FAULT_SUMMARY; the Helm's memories have none. -/
def eccPlace : MemRegion → Option Nat
  | .weight => some 0
  | .trace => some 2
  | .spill => some 2
  | .staging => some 2
  | .history => some 4
  | .master => some 4
  | .tileState => some 4
  | .helmCode => none
  | .helmData => none

/-- Words of 64 bits in the SRAM that holds a region. -/
def regionWords (r : MemRegion) : Nat :=
  match eccPlace r with
  | some 0 => 262144
  | some 2 => 1048576
  | some _ => 65536
  | none => 65536

/-- SCRUB: the word is read and, where a symbol had flipped, corrected and counted; a second successive pass that corrects it
raises `ecc_sticky` once (R390). An uncorrectable word stays as it is. -/
def State.scrub (s : State) (r : MemRegion) (idx : Nat) (corrected : Bool) : State :=
  let f := s.faults
  let w := (r, idx)
  match eccPlace r with
  | none => s
  | some k =>
    if idx ≥ regionWords r || f.bad.contains w then s
    else if !corrected then { s with faults := { f with once := f.once.filter (· != w) } }
    else
      let again := f.once.contains w
      let sticks := again && !f.sticky.contains w
      let s := { s with faults := { f with
        ecc := f.ecc.modify k satInc, once := if again then f.once else w :: f.once
        sticky := if sticks then w :: f.sticky else f.sticky } }
      if sticks then s.raise 0xA02 (memIdx r) idx else s

/-- The master words of a class in order: its row, then its bias (07 R207). -/
def Cls.masterWords (x : Cls) : Nat := x.masters.length + (match x.adapting with | some l => b2n l.bias | none => 0)

/-- The master words that a word of State SRAM holds, two to a word over the adapting classes in order: class and first index. -/
def masterPlace : List Cls → Nat → Option (Nat × Nat)
  | [], _ => none
  | x :: r, k =>
    let n := cdiv x.masterWords 2
    if k < n then some (x.id, 2 * k) else masterPlace r (k - n)

/-- Master words are replaced with their operand weights, the bias with the bias in force, each counted (07 R212). -/
def State.reloadMaster (s : State) (idx : Nat) : State :=
  match masterPlace s.rck.classes idx with
  | none => s
  | some (c, k) => match (s.cls c).bind Cls.adapting with
    | none => s
    | some l => s.modCls c (fun x => { x with
        reloads := satAdd x.reloads (([k, k + 1].filter (fun i => decide (i < x.masterWords))).length)
        mBias := if l.bias && (x.masters.length == k || x.masters.length == k + 1) then (s.biasAt l l.mOut).getD x.mBias else x.mBias
        masters := x.masters.mapIdx (fun i m => if i = k || i = k + 1 then s.weight32 l l.mOut i else m) })

/-- What an uncorrectable word of a region outside the Helm does (Table 17.3). -/
def State.eccEffect (s : State) (r : MemRegion) (idx : Nat) : State :=
  match r with
  | .history => s.clearHistory.enterWarmup
  | .master => s.reloadMaster idx
  | .tileState => s.modTile (idx / 256) Tile.newProgram
  | .staging => if s.rck.loading && s.rck.loadStep = 5 then s.stageLost else s
  | _ => s

/-- The regions whose word stays uncorrectable until it is written. -/
def staysBad : MemRegion → Bool
  | .weight => true
  | .trace => true
  | .spill => true
  | .staging => true
  | _ => false

/-- A word found uncorrectable is counted and reported. -/
def State.eccCount (s : State) (r : MemRegion) (idx : Nat) : State :=
  let f := s.faults
  let f := { f with
    ecc := match eccPlace r with | some k => f.ecc.modify (k + 1) satInc | none => f.ecc
    bad := if staysBad r && !f.bad.contains (r, idx) then (r, idx) :: f.bad else f.bad }
  { s with faults := f }.raise 0xA01 (memIdx r) idx

def execFence (dt : Nat) (q : Req) (s : State) : Step := .next (postCmd cmdFence dt q s)
def execFenceRelease (dt : Nat) (q : Req) (s : State) : Step := .next (postCmd cmdFenceRelease dt q s)
def execFaultSummary (dt : Nat) (q : Req) (s : State) : Step := .next (postCmd cmdFaultSummary dt q s)
def execEventRead (dt : Nat) (q : Req) (s : State) : Step := .next (postCmd cmdEventRead dt q s)
def execXingRead (dt : Nat) (q : Req) (s : State) : Step := .next (postCmd cmdXingRead dt q s)
def execHelmCounters (dt : Nat) (q : Req) (s : State) : Step := .next (postCmd cmdHelmCounters dt q s)
def execScrub (dt : Nat) (r : MemRegion) (idx : Nat) (corrected : Bool) (s : State) : Step :=
  event dt s (fun s => s.scrub r idx corrected)

end Sys2Proof.Machine
end

