-- ==== Sys2Proof/Machine/Boot.lean ====
section
/-! DEFINITION. Resets, supplies and the stages of the Helm: the image check, RESTART, the anti-rollback count, sessions that end,
and uncorrectable words in the Helm's memories (02 R41, R70, R71; 13 R315, R316; 16 R366 to R376; 17 R391; 19 R421). -/

namespace Sys2Proof.Machine

open Sys2Proof

/-! ## Resets (02 R41, R70; 12 Table 12.4; 16 R381, R382) -/

/-- The die ceiling of a limit under a set of charts: over the classes that have present tiles, or over all three. -/
def ceilingsOf (cls : List (BitVec 2)) (charts : List Chart) : List Word :=
  let has (c : Nat) : Bool := cls.any (fun x => x.toNat == c)
  let ks := [1, 2, 3].filter has
  let cs := (if ks.isEmpty then [1, 2, 3] else ks).map (fun c => charts.getD (c - 1) {})
  let least (f : Chart → Word) : Word := w32 (minOr (2 ^ 32 - 1) (cs.map (fun c => (f c).toNat)))
  [least (·.peak), least (·.burst), least (·.sus)]

/-- The block in reset: every register takes its reset value. What is fused, written once or retained stays, and so do the levels
of the pins and supplies, the ports' own resets among them, and the set-up of the `sx_in` pins (log 76); the charts, the learned codes
and the limits start from the fuses, and `react_lim` from the class limit (04 Table 4.7). -/
def State.inBlockReset (s : State) (por : Bool) : State :=
  let cs := s.trust.fusedCharts
  let cls (i : Nat) : Nat := (s.ties.cls.getD i 0).toNat
  let z := State.reset
  { z with
    ties := s.ties
    boot := { z.boot with
      inReset := true, rstPor := por, vddbDip := s.boot.vddbDip && !por, vanaLow := if por then [] else s.boot.vanaLow
      thrPin := s.boot.thrPin }
    ctl := { z.ctl with
      rst := s.ctl.rst && !bit s.ctl.rel 0, logRst := s.ctl.logRst && !bit s.ctl.rel 1, manRst := s.ctl.manRst && !bit s.ctl.rel 2
      cvyRst := s.ctl.cvyRst && !bit s.ctl.rel 3 }
    tiles := z.tiles.mapIdx (fun i (t : Tile) =>
      { t with
        st := if cls i = 0 then .absent else .disabled, learn := (cs.getD (cls i - 1) {}).maxCode
        reactLim := BitVec.ofNat 5 (classLim (cls i)) })
    power := { z.power with limits := ceilingsOf s.ties.cls cs }
    sxt := { z.sxt with
      gates := s.sxt.gates, dac := s.sxt.dac, slope := s.sxt.slope
      age := if por then 0 else s.sxt.age, ageChk := if por then 0 else s.sxt.ageChk }
    trust := { z.trust with fuse0 := s.trust.fuse0, fuse1 := s.trust.fuse1, fuse2 := s.trust.fuse2, otp := s.trust.otp, charts := cs }
    cvy := { z.cvy with ready := s.cvy.ready }
    fresh := s.fresh, pending := s.pending }

/-- The release: the block's time starts, with the presence monitors and the crystal's start-up window; a `thr_req_n` that is held low
throttles from then on (02 R65, R73). -/
def State.release (s : State) : State :=
  if !s.boot.inReset then s else
  let s := { s with boot := { s.boot with inReset := false, uptime := 0 } }
  if s.boot.thrPin then s.thrConfirm else s

/-! ## Supplies (02 R70, R71; 16 R373) -/

/-- 1 ms in mt. -/
def msMt : Nat := 16000000

/-- VDDB dips below 0.70 V. -/
def State.vddbLow (s : State) : State :=
  if s.boot.vddbDip then s
  else { s with boot := { s.boot with vddbDip := true, vddbCnt := satInc s.boot.vddbCnt } }.raise0 0x201 0

/-- VDDB is back in range. -/
def State.vddbOk (s : State) : State :=
  if !s.boot.vddbDip then s
  else { s with boot := { s.boot with vddbDip := false, vddbBack := s.boot.uptime, signHold := s.boot.uptime + msMt } }

/-- VANA of an instance falls low: results whose pair it meets are marked (02 Table 2.17). -/
def State.vanaFall (s : State) (inst : BitVec 16) : State :=
  if s.boot.vanaLow.contains inst then s
  else
    let s := { s with
      boot := { s.boot with vanaLow := inst :: s.boot.vanaLow }
      sxt := { s.sxt with chans := s.sxt.chans.map (fun (c : Chan) => if c.pStart.isSome || c.pStop.isSome then { c with fAna := true } else c) } }
    s.raise 0x202 inst.toNat 0

/-- VANA of an instance is back in range. -/
def State.vanaOk (s : State) (inst : BitVec 16) : State :=
  if !s.boot.vanaLow.contains inst then s
  else { s with boot := { s.boot with vanaLow := s.boot.vanaLow.filter (· != inst), signHold := s.boot.uptime + msMt } }

/-! ## Sessions (16 R376, R377; 03 R100; 14 Table 14.15) -/

/-- A session's claim on a channel is released: the channel disarms, and its setups that wait are refused. -/
def State.dropClaim (s : State) (ch : Nat) : State :=
  let ws := (s.chan ch).waits
  let s := ((s.disarm ch).1).modChan ch (fun c => { c with waits := [] })
  let s := s.each ws (fun s w => s.finishO w.2.2.2 (notPermR 0xA { item := 5, idx := ch, aux := 4 }))
  s.freeChan ch

/-- Session h ends: it is reported, unless its FINISH had not come. -/
def State.endSess (s : State) (h : BitVec 3) : State :=
  match s.trust.sess.getD h.toNat none with
  | none => s
  | some x =>
    let s := { s with trust := { s.trust with sess := s.trust.sess.set h.toNat none } }
    let s := s.each ([60, 61, 62].filter (fun ch => decide ((s.chan ch).owner = .session h))) State.dropClaim
    if x.half then s else s.raise 0xB04 h.toNat 0

/-- SESSION_TIMEOUT: 30 s have passed without a secured message. -/
def State.sessTimeout (s : State) (h : BitVec 3) : State :=
  match s.trust.sess.getD h.toNat none with
  | some x => if x.lastAt + 30000 * msMt ≤ s.boot.uptime then s.endSess h else s
  | none => s

/-! ## RESTART (13 R316, 16 R370) -/

/-- What a mailbox's command waits on is given up with it: a calibration's channel is free again, a test reads "not run". -/
def State.dropWait (s : State) (n : BitVec 3) : State :=
  match (s.mbx n).wait with
  | .calSextant ch => (s.modChan ch.toNat (fun c => { c with caling := false })).takeSetups ch.toNat
  | .test h => match s.findTest h with
    | some t => (s.setTest h 3 0).testReset t.id.toNat t.target.toNat
    | none => s
  | _ => s

/-- The mailboxes. -/
def allMbx : List (BitVec 3) := [0, 1, 2, 3, 4, 5, 6, 7]

/-- Every mailbox in POSTED or ACCEPTED completes with INTERNAL and a reason; a setup that waits is given up with its command. -/
def State.failAll (s : State) (reason : Nat) : State :=
  let s := { s with sxt := { s.sxt with chans := s.sxt.chans.map (fun (c : Chan) => { c with waits := [] }) } }
  s.each (allMbx.filter (fun n => decide ((s.mbx n).held = .posted) || decide ((s.mbx n).held = .accepted)))
    (fun s n => (s.dropWait n).finish n (internalR reason))

/-- The Helm enters RESTART: commands in hand fail, every session ends, transfers in progress are dropped. -/
def State.restart (s : State) (reason : Nat) : State :=
  let lvl := s.evtPend
  let s := s.failAll reason
  let s := (s.endGrant).dropAnswers
  let s := if s.rck.loading && decide (s.rck.loadStep < 3) then s.loadFail (internalR reason) else s
  let s := s.each [1, 2, 3, 4, 5, 6, 7] State.endSess
  { s with
    helm := { s.helm with stage := .restart, open_ := false, reopen := 0, queue := [] }
    ctl := { s.ctl with evtHeld := lvl, helm := 0, helmLeft := 0 }
    trust := { s.trust with conn := 0, vca := [], certT := [], measT := [] } }

/-- HELM_WDOG. -/
def State.wdogExpires (s : State) : State :=
  if s.helm.stage ≠ .run then s
  else ({ s with helm := { s.helm with wdogs := satInc s.helm.wdogs } }.raise0 0xB01 0).restart 1

/-- A requested restart, in RUN. -/
def State.askRestart (s : State) : State :=
  if s.helm.stage ≠ .run then s
  else { s with helm := { s.helm with restarts := satInc s.helm.restarts } }.restart 2

/-- RESTART_CHECK_DONE: the image in code SRAM is checked under reasons 4 and 5 and against its measurement. -/
def State.restartDone (s : State) : State :=
  if s.helm.stage ≠ .restart then s
  else
    let img := s.helm.image
    let same := natOfBytes (sha384 (img.take (img.length - 256))) == s.helm.meas.toNat
    if s.trust.keyReason img = 0 && same && !s.helm.codeBad then s.enterRun false
    else { s.enterRom with helm := { s.enterRom.helm with reason := 11 } }

/-! ## The image check (16 R368, Table 16.3) -/

/-- So many free bytes (log 13). -/
def State.takeBytes (s : State) (n : Nat) : List Byte × State :=
  let x := s.take .nonce (2 ^ (8 * n))
  (bytesOf n x.1, x.2)

/-- The certificate chain of slot 0: its length, the root hash, the certificates of the one-time region, the alias certificate;
the manual gives no byte of it. A part in RMA has none (R365, R372). -/
def State.makeChain (s : State) : State :=
  if s.trust.aliasKey.isNone then s else
  let (root, s) := s.takeBytes 48
  let (len, s) := s.take .nonce 2048
  let (crt, s) := s.takeBytes len
  let n := 52 + s.trust.otp.length + len
  { s with trust := { s.trust with chain := bytesOf 4 n ++ root ++ s.trust.otp ++ crt } }

/-- The mailbox that holds FW_LOAD. -/
def State.fwMbx (s : State) : Option (BitVec 3) :=
  allMbx.find? (fun n => decide ((s.mbx n).held = .accepted) && (s.mbx n).op == 0x01)

/-- IMAGE_CHECK_DONE. -/
def State.imageDone (s : State) : State :=
  if s.helm.stage ≠ .check then s
  else
    let r := s.trust.imageReason s.helm.image s.helm.image.length
    let n := s.fwMbx
    let s := { s with helm := { s.helm with reason := BitVec.ofNat 8 r } }
    if r = 0 then (((s.enterRun true).makeChain).tightenHeld).settleO n (okR [])
    else s.enterRom.settleO n (imageR r)

/-! ## The anti-rollback count (16 R369) -/

/-- ARB_ADVANCE: the count goes up to `svn` after 60 s of RUN, with VDDB in range and back for 1 s; or a blow fails. -/
def State.arbAdvance (s : State) (blown : Bool) : State :=
  let old := s.trust.arbCount
  let b := s.boot
  let soon := decide (b.uptime < s.helm.runAt + 60000 * msMt) || b.vddbDip || (b.vddbCnt ≠ 0 && decide (b.uptime < b.vddbBack + 1000 * msMt))
  if s.helm.stage ≠ .run || s.helm.svn ≤ old || soon then s
  else if blown then
    { s with trust := s.trust.blow (BitVec.ofNat 3776 ((2 ^ s.helm.svn - 1) * 2 ^ 392)) }.raise0 0xB02 (old + 256 * s.helm.svn)
  else s.raise0 0xB03 (392 + old)

/-! ## Uncorrectable words (17 Table 17.3) -/

/-- ECC_UNC: counted, reported, and the effect of the memory that holds the word. -/
def State.eccUnc (s : State) (r : MemRegion) (idx : Nat) : State :=
  if idx ≥ regionWords r then s else
  let s := s.eccCount r idx
  match r with
  | .helmCode =>
    if s.helm.stage = .run || s.helm.stage = .restart then { s with helm := { s.helm with codeBad := true } }.askRestart else s
  | .helmData =>
    if s.helm.stage = .run || s.helm.stage = .rom then (s.failAll 5).askRestart else s
  | _ => s.eccEffect r idx

/-! ## Accesses through crossing 4 (12 Table 12.3, R312; 19 R421) -/

/-- The core clock is declared stopped. -/
def State.coreStopped (s : State) : Bool := bit s.boot.clkStopped 4

/-- A wait at a crossing has expired: counted, and reported once for each stop of the other side's clock (12 R309). -/
def State.waitExpired (s : State) (x tile : Nat) : State :=
  let seen := (s.xing x tile).toSeen
  let s := s.modXing x tile (fun x => { x with tos := satInc x.tos, toSeen := true })
  if seen then s else s.raise 0x901 x (if x ≥ 23 then tile else 0)

/-- An access through crossing 4 with the core stopped ends with `ctl_err`. -/
def State.cross4Fail (s : State) : State :=
  { (s.waitExpired 4 0) with ctl := { (s.waitExpired 4 0).ctl with rdata := 0, err := true } }

/-- The control port ends an access without error. -/
def State.noErr (s : State) : State := { s with ctl := { s.ctl with err := false } }

/-- HELM_RESTART: a write of 1 to `helm_restart`. -/
def State.writeHelm (s : State) : State :=
  if !s.portUp then s
  else if s.coreStopped then s.cross4Fail
  else if !s.xingOk 4 then s.noErr
  else s.noErr.askRestart

def execHelmRestart (dt : Nat) (s : State) : Step := event dt s State.writeHelm
/-- BRN_RST_ASSERT. -/
def execBrnRstAssert (dt : Nat) (s : State) : Step := .next ((s.tick dt).inBlockReset false)
/-- BRN_RST_RELEASE. -/
def execBrnRstRelease (dt : Nat) (s : State) : Step := .next (s.tick dt).release
/-- POWER_ON_MONITOR. -/
def execPowerOnMonitor (dt : Nat) (s : State) : Step := .next ((s.tick dt).inBlockReset true)
/-- A supply's level changes: a block held in reset notes the level alone. -/
def supply (dt : Nat) (s : State) (level f : State → State) : Step :=
  .next (if s.boot.inReset then level (s.tick dt) else f (s.tick dt))

def execVddbLow (dt : Nat) (s : State) : Step :=
  supply dt s (fun s => { s with boot := { s.boot with vddbDip := true } }) State.vddbLow
def execVddbBackInRange (dt : Nat) (s : State) : Step :=
  supply dt s (fun s => { s with boot := { s.boot with vddbDip := false } }) State.vddbOk
def execVanaLow (dt : Nat) (inst : BitVec 16) (s : State) : Step :=
  supply dt s (fun s => { s with boot := { s.boot with vanaLow := inst :: s.boot.vanaLow.filter (· != inst) } }) (fun s => s.vanaFall inst)
def execVanaBackInRange (dt : Nat) (inst : BitVec 16) (s : State) : Step :=
  supply dt s (fun s => { s with boot := { s.boot with vanaLow := s.boot.vanaLow.filter (· != inst) } }) (fun s => s.vanaOk inst)
def execImageCheckDone (dt : Nat) (s : State) : Step := event dt s State.imageDone
def execHelmWdog (dt : Nat) (s : State) : Step := event dt s State.wdogExpires
def execRestartCheckDone (dt : Nat) (s : State) : Step := event dt s State.restartDone
def execArbAdvance (dt : Nat) (blown : Bool) (s : State) : Step := event dt s (fun s => s.arbAdvance blown)
def execSessionTimeout (dt : Nat) (h : BitVec 3) (s : State) : Step := event dt s (fun s => s.sessTimeout h)
def execEccUnc (dt : Nat) (r : MemRegion) (idx : Nat) (s : State) : Step := event dt s (fun s => s.eccUnc r idx)

end Sys2Proof.Machine
end

