-- ==== Sys2Proof/Machine/Spdm.lean ====
section
/-! DEFINITION. Attestation: the measurements, the SPDM responder and command 0xB0 (16 R373 to R380; 14 R345). The manual gives what is
answered, signed and measured; message codes and formats are those of DSP0274 1.2 (PRESUMED, log 13), and a session's messages are
their plaintext. -/

namespace Sys2Proof.Machine

open Sys2Proof

/-! ## The commands that a request may name (14) -/

/-- Every command of Helm firmware 4.2 but 0xB0. -/
def baseCmds : List Cmd :=
  [cmdIdentify, cmdFwLoad, cmdCaps, cmdSetEpoch, cmdSetHostQ, cmdSetFloor, cmdSetSafeQ, cmdSetPmbus, cmdReadPolicy, cmdTileInfo,
   cmdTilePolicy, cmdTilePlumb, cmdTileDroop, cmdTileState, cmdTileStatus, cmdDomainPower, cmdTileCounters, cmdFloorOver,
   cmdLearnReset, cmdTileCapture] ++
  [cmdRckLoad, cmdRckUnload, cmdRckMode, cmdRckMap, cmdRckStatus, cmdRckCounters, cmdRckClass, cmdRckNv, cmdRckHistory, cmdWatchSet,
   cmdWatchRead, cmdRckScales, cmdKsOpen, cmdKsStage, cmdKsSeal, cmdKsAbort, cmdKsResult, cmdKsWait, cmdKsCounters, cmdKsSlots] ++
  [cmdSxtSetup, cmdSxtDisarm, cmdSxtFree, cmdSxtRead, cmdSxtStats, cmdSxtInfo, cmdLodeAge, cmdLodeCheck, cmdLodeEnable, cmdRailMap,
   cmdRailAct, cmdPowerLimit, cmdPowerCfg, cmdPartMap, cmdLedgerRead, cmdCaptureAt, cmdReasons, cmdPowerCounters, cmdPowerStatus] ++
  [cmdCvyJoin, cmdCvyLeave, cmdCvyMove, cmdCvyStatus, cmdCvyCounters, cmdLogSelect, cmdTraceArm, cmdTraceStop, cmdTraceDump,
   cmdLogStatus, cmdCalSextant, cmdCalPlumb, cmdTestRun, cmdQuiesce, cmdTestResult, cmdLoopback, cmdFence, cmdFenceRelease,
   cmdFaultSummary, cmdEventRead, cmdXingRead, cmdHelmCounters, cmdChartRead, cmdChartTighten]

/-- A request with an opcode, by a list of commands. -/
def State.runCmd (s : State) (l : List Cmd) (inSess : Bool) (op : Byte) (q : Req) : State × Ans :=
  match l.find? (fun c => c.op == op) with
  | some c => c.handle inSess s q
  | none => unknownOp s

/-! ## Measurements (16 Table 16.7, R378, R379) -/

def wordsBytes (ws : List Word) : List Byte := ws.flatMap (fun w => bytesOf 4 w.toNat)

/-- The raw block of measurement 3. -/
def State.meas3 (s : State) : List Byte :=
  let t := s.trust
  [BitVec.ofNat 8 t.lcCode, BitVec.ofNat 8 t.arbCount, BitVec.ofNat 8 t.fwRev, BitVec.ofNat 8 t.progRev, BitVec.ofNat 8 t.opRev, 0, 0, 0]

/-- The raw block of measurement 5: zeros with no program loaded. -/
def State.meas5 (s : State) : List Byte :=
  if s.rck.classes.isEmpty then List.replicate 105 0
  else bytesOf 8 s.rck.progId.toNat ++ bytesOf 48 s.trust.progDig.toNat ++ bytesOf 48 s.trust.progKey.toNat ++
    [BitVec.ofNat 8 s.rck.mode.code]

/-- The raw block of measurement 6. -/
def State.meas6 (s : State) : List Byte :=
  s.rails.flatMap (fun r => bytesOf 8 r.map.toNat) ++ [BitVec.ofNat 8 (b2n (cfgSplit s.power.cfg))] ++ s.ledger.map ++
  s.ledger.parts.flatMap (fun p => bytesOf 4 p.epoch.toNat)

/-- The raw block of measurement 7: the latest snapshot. -/
def State.meas7 (s : State) : List Byte :=
  (List.range 16).flatMap (fun p => bytesOf 32 (s.ledger.record p)) ++ bytesOf 8 (s.ledger.sAccts.getD 16 {}).energy.toNat ++
  bytesOf 8 (s.ledger.sAccts.getD 17 {}).energy.toNat ++ bytesOf 8 s.ledger.tSnap.toNat

/-- The raw block of measurement 8. -/
def State.meas8 (s : State) : List Byte :=
  let x := s.sxt
  bytesOf 4 (twos 32 x.last) ++ bytesOf 4 (twos 32 (x.base.getD 0)) ++ bytesOf 4 x.thr ++ bytesOf 4 (twos 32 x.age.toInt) ++
  bytesOf 4 x.suspects.toNat ++ bytesOf 4 x.restarts.toNat

/-- The value type and the content of a measurement. -/
def State.measValue (s : State) (k : Nat) : Nat × List Byte :=
  match k with
  | 1 => (0x00, bytesOf 48 Config.romDigest.toNat)
  | 2 => (0x01, bytesOf 48 s.helm.meas.toNat)
  | 3 => (0x82, s.meas3)
  | 4 => (0x82, wordsBytes (s.trust.charts.flatMap Chart.words))
  | 5 => (0x83, s.meas5)
  | 6 => (0x83, s.meas6)
  | 7 => (0x83, s.meas7)
  | _ => (0x83, s.meas8)

/-- The measurement block of an index. -/
def State.measBlock (s : State) (k : Nat) : List Byte :=
  let v := s.measValue k
  [BitVec.ofNat 8 k, 1] ++ bytesOf 2 (3 + v.2.length) ++ [BitVec.ofNat 8 v.1] ++ bytesOf 2 v.2.length ++ v.2

/-- The indices that a context admits: ROM 1 and 3, a session all, else all but 8. -/
def State.measIndices (s : State) (inSess : Bool) : List Nat :=
  if s.helm.stage ≠ .run then [1, 3] else if inSess then [1, 2, 3, 4, 5, 6, 7, 8] else [1, 2, 3, 4, 5, 6, 7]

/-- The hash over measurements that CHALLENGE and KEY_EXCHANGE may ask for. -/
def State.measSummary (s : State) (ty : Nat) : List Byte :=
  if ty = 0 then [] else sha384 ((if ty = 1 then [1, 2, 3] else s.measIndices false).flatMap s.measBlock)

/-! ## Signing (16 R371, R373) -/

/-- The key engine refuses to sign: a supply event is in force, or was within 1 ms. -/
def State.signBusy (s : State) : Bool :=
  s.boot.vddbDip || !s.boot.vanaLow.isEmpty || decide (s.boot.uptime < s.boot.signHold)

/-- The public key of a private one. -/
def pubOf (d : Nat) : Nat × Nat := (ecTimes d p384G).getD (0, 0)

/-- What is signed: the prefix of a context, and the hash of the transcript. -/
def signInput (ctx : String) (msg : List Byte) : List Byte :=
  let c := ascii ctx
  let p := ascii "dmtf-spdm-v1.2.*"
  p ++ p ++ p ++ p ++ List.replicate (36 - c.length) 0 ++ c ++ sha384 msg

/-- A signature with the alias key, checked before it is released and made again where it fails. -/
def State.signTry : Nat → Nat → List Byte → State → (Nat × Nat) × State
  | 0, _, _, s => ((0, 0), s)
  | n + 1, d, dig, s =>
    let x := s.take .nonce p384N
    let g := ecdsaSign d dig x.1
    if ecdsaOk (pubOf d) dig g.1 g.2 then (g, x.2)
    else State.signTry n d dig { x.2 with trust := { x.2.trust with retries := satInc x.2.trust.retries } }

/-- The 96 signature bytes over a transcript. While the engine works the Helm may close its intake (13 R323). -/
def State.sign (s : State) (ctx : String) (msg : List Byte) : List Byte × State :=
  let d := match s.trust.aliasKey with | some k => k.toNat | none => 0
  let x := State.signTry 4 d (sha384 (signInput ctx msg)) s
  let (shut, s) := x.2.take .race 2
  let (re, s) := s.take .reopen 2001
  let s := if shut = 1 && s.helm.queue.isEmpty then { s with helm := { s.helm with open_ := false, reopen := BitVec.ofNat 16 re } } else s
  (bytesBE 48 x.1.1 ++ bytesBE 48 x.1.2, s)

/-! ## Messages -/

/-- What a message is answered with: the bytes, and a session handle that FINISH assigns. -/
abbrev Reply := State × List Byte × Nat

def spdmError (code data : Nat) : List Byte := [0x12, 0x7F, BitVec.ofNat 8 code, BitVec.ofNat 8 data]
def State.err (s : State) (code : Nat) : Reply := (s, spdmError code 0, 0)

/-- A byte and a little-endian field of a message. -/
def mb (m : List Byte) (i : Nat) : Nat := (m.getD i 0).toNat
def mf (m : List Byte) (i n : Nat) : Nat := natOfBytes ((m.drop i).take n)

def State.modTrust (s : State) (f : Trust → Trust) : State := { s with trust := f s.trust }

/-- GET_VERSION: version 1.2 only; the negotiation begins. -/
def State.spVersion (s : State) (m : List Byte) : Reply :=
  let r : List Byte := [0x10, 0x04, 0, 0, 0, 1, 0x00, 0x12]
  (s.modTrust (fun t => { t with conn := 1, vca := m ++ r, certT := [], measT := [], reqCaps := 0 }), r, 0)

/-- GET_CAPABILITIES: the flags of R375. -/
def State.spCaps (s : State) (m : List Byte) : Reply :=
  if m.length < 20 then s.err 1 else
  let (ct, s) := s.take .element 32
  let r : List Byte := [0x12, 0x61, 0, 0, 0, BitVec.ofNat 8 ct, 0, 0] ++ bytesOf 4 0x33F6 ++ bytesOf 4 4096 ++ bytesOf 4 4096
  (s.modTrust (fun t => { t with conn := 2, vca := t.vca ++ m ++ r, reqCaps := w32 (mf m 8 4) }), r, 0)

/-- The selection of one algorithm table that a request holds at an offset. -/
def algSel (m : List Byte) (at_ : Nat) : List Byte :=
  let ty := mb m at_
  let offer : Nat := if ty = 2 then 0x10 else if ty = 3 then 0x02 else if ty = 4 then 0x80 else if ty = 5 then 0x01 else 0
  [BitVec.ofNat 8 ty, 0x20] ++ bytesOf 2 (mf m (at_ + 2) 2 &&& offer)

/-- NEGOTIATE_ALGORITHMS: the algorithms of R375, where the requester offers them. -/
def State.spAlgs (s : State) (m : List Byte) : Reply :=
  let n := mb m 2
  if m.length < 32 + 4 * n || mf m 8 4 &&& 0x80 = 0 || mf m 12 4 &&& 0x02 = 0 then s.err 1 else
  let spec := mb m 6 &&& 1
  let tabs := (List.range n).flatMap (fun k => algSel m (m.length - 4 * n + 4 * k))
  let r : List Byte := [0x12, 0x63, BitVec.ofNat 8 n, 0] ++ bytesOf 2 (36 + 4 * n) ++ [BitVec.ofNat 8 spec, 0] ++
    bytesOf 4 (if spec = 1 then 4 else 0) ++ bytesOf 4 0x80 ++ bytesOf 4 0x02 ++ List.replicate 16 0 ++ tabs
  (s.modTrust (fun t => { t with conn := 3, vca := t.vca ++ m ++ r }), r, 0)

/-- GET_DIGESTS and GET_CERTIFICATE: slot 0 only. -/
def State.spDigests (s : State) (m : List Byte) : Reply :=
  let r : List Byte := [0x12, 0x01, 0, 1] ++ sha384 s.trust.chain
  (s.modTrust (fun t => { t with certT := t.certT ++ m ++ r }), r, 0)

def State.spCert (s : State) (m : List Byte) : Reply :=
  let ch := s.trust.chain
  let at_ := mf m 4 2
  if m.length < 8 || mb m 2 % 16 ≠ 0 || at_ ≥ ch.length then s.err 1 else
  let n := min (mf m 6 2) (min 4088 (ch.length - at_))
  let r : List Byte := [0x12, 0x02, 0, 0] ++ bytesOf 2 n ++ bytesOf 2 (ch.length - at_ - n) ++ (ch.drop at_).take n
  (s.modTrust (fun t => { t with certT := t.certT ++ m ++ r }), r, 0)

/-- CHALLENGE: signed with the alias key. -/
def State.spChallenge (s : State) (m : List Byte) : Reply :=
  if m.length < 36 || mb m 2 ≠ 0 then s.err 1
  else if s.signBusy then s.err 3
  else
    let (nonce, s) := s.takeBytes 32
    let r : List Byte := [0x12, 0x03, 0, 1] ++ sha384 s.trust.chain ++ nonce ++ s.measSummary (mb m 3) ++ [0, 0]
    let g := s.sign "responder-challenge_auth signing" (s.trust.vca ++ s.trust.certT ++ m ++ r)
    (g.2.modTrust (fun t => { t with certT := [] }), r ++ g.1, 0)

/-- GET_MEASUREMENTS: one index, all that the context admits, or their number; signed when asked. -/
def State.spMeas (s : State) (inSess : Bool) (m : List Byte) : Reply :=
  let signed := mb m 2 % 2 = 1
  let k := mb m 3
  let ok := s.measIndices inSess
  if s.helm.stage ≠ .run && (signed || !(k = 0 || k = 255 || ok.contains k)) then (s, spdmError 7 0xE0, 0)
  else if k ≠ 0 && k ≠ 255 && k > 8 then s.err 1
  else if signed && (m.length < 37 || mb m 36 % 16 ≠ 0) then s.err 1
  else if signed && s.trust.aliasKey.isNone then s.err 5
  else if signed && s.signBusy then s.err 3
  else
    let ks := if k = 255 then ok else ok.filter (· == k)
    let rec_ := ks.flatMap s.measBlock
    let (nonce, s) := s.takeBytes 32
    let r : List Byte := [0x12, 0x60, BitVec.ofNat 8 (if k = 0 then ok.length else 0), 0, BitVec.ofNat 8 ks.length] ++
      bytesOf 3 rec_.length ++ rec_ ++ nonce ++ [0, 0]
    if signed then
      let g := s.sign "responder-measurements signing" (s.trust.vca ++ s.trust.measT ++ m ++ r)
      (g.2.modTrust (fun t => { t with measT := [] }), r ++ g.1, 0)
    else (s.modTrust (fun t => { t with measT := t.measT ++ m ++ r }), r, 0)

/-! ## Key exchange and sessions (16 R376) -/

def State.modSess (s : State) (h : Nat) (f : Sess → Sess) : State :=
  s.modTrust (fun t => { t with sess := t.sess.modify h (fun o => o.map f) })

/-- The handle of the session whose FINISH is still to come. -/
def State.halfSess (s : State) : Option (Nat × Sess) :=
  [1, 2, 3, 4, 5, 6, 7].findSome? (fun h => match s.trust.sess.getD h none with
    | some x => if x.half then some (h, x) else none
    | none => none)

/-- One secret of the key schedule. -/
def expand (secret : List Byte) (label : String) (ctx : List Byte) : List Byte :=
  (hkdfBlocks secret (bytesOf 2 48 ++ ascii "spdm1.2 " ++ ascii label ++ ctx) 1 1 []).take 48

/-- KEY_EXCHANGE: a session opens its handshake; with seven open, or one in its handshake, the requester asks again. -/
def State.spKeyEx (s : State) (m : List Byte) : Reply :=
  let peer := (natOfBE ((m.drop 40).take 48), natOfBE ((m.drop 88).take 48))
  if m.length < 138 || mb m 3 % 16 ≠ 0 || !onCurve peer then s.err 1
  else if s.signBusy || s.halfSess.isSome then s.err 3
  else match [1, 2, 3, 4, 5, 6, 7].find? (fun h => (s.trust.sess.getD h none).isNone) with
    | none => s.err 3
    | some h =>
      let (rnd, s) := s.takeBytes 32
      let (e, s) := s.take .nonce (p384N - 1)
      let own := pubOf (e + 1)
      let z := match ecTimes (e + 1) peer with | some x => x.1 | none => 0
      let mut_ := bit s.trust.reqCaps 8 && bit s.trust.reqCaps 12
      let r : List Byte := [0x12, 0x64, 10, 0] ++ bytesOf 2 h ++ [if mut_ then 2 else 0, 0] ++ rnd ++ bytesBE 48 own.1 ++ bytesBE 48 own.2 ++
        s.measSummary (mb m 2) ++ [0, 0]
      let th := s.trust.vca ++ sha384 s.trust.chain ++ m ++ r
      let g := s.sign "responder-key_exchange_rsp signing" th
      let s := g.2
      let th := th ++ g.1
      let hs := hmac384 (List.replicate 48 0) (bytesBE 48 z)
      let key (l : String) : List Byte := expand (expand hs l (sha384 th)) "finished" []
      let ver := hmac384 (key "rsp hs data") (sha384 th)
      let x : Sess := {
        operator := false, half := true, lastAt := s.boot.uptime, th := th ++ ver, fin := key "req hs data", encap := if mut_ then 1 else 0 }
      (s.modTrust (fun t => { t with sess := t.sess.set h (some x) }), r ++ g.1 ++ ver, 0)

/-- Encapsulated requests of the handshake: GET_DIGESTS, then GET_CERTIFICATE until the requester's chain is whole. -/
def State.spEncap (s : State) (m : List Byte) : Reply :=
  match s.halfSess with
  | none => s.err 4
  | some (h, x) =>
    let askCert (n : Nat) : List Byte := [0x12, 0x82, 0, 0] ++ bytesOf 2 n ++ bytesOf 2 1024
    if mb m 1 = 0xEA then
      if x.encap ≠ 1 then s.err 4
      else (s.modSess h (fun x => { x with encap := 2 }), [0x12, 0x6A, 1, 0, 0x12, 0x81, 0, 0], 0)
    else
      let ack (p : List Byte) (k : Nat) : List Byte := [0x12, 0x6B, 2, BitVec.ofNat 8 k, m.getD 2 0, 0, 0, 0] ++ p
      let r := m.drop 4
      if x.encap = 2 && mb r 1 = 0x01 then (s.modSess h (fun x => { x with encap := 3 }), ack (askCert 0) 1, 0)
      else if x.encap = 3 && mb r 1 = 0x02 && r.length ≥ 8 + mf r 4 2 then
        let got := x.peer ++ (r.drop 8).take (mf r 4 2)
        if mf r 6 2 = 0 || mf r 4 2 = 0 then (s.modSess h (fun x => { x with peer := got, encap := 4 }), ack [0] 2, 0)
        else (s.modSess h (fun x => { x with peer := got }), ack (askCert got.length) 1, 0)
      else s.err 1

/-- The requester's key belongs to a live operator slot (16 R376). -/
def Trust.isOpKey (t : Trust) (q : Nat × Nat) : Bool :=
  let k := natOfBytes (sha384 (0x04 :: (bytesBE 48 q.1 ++ bytesBE 48 q.2)))
  [0, 1].any (fun i => slotLive t.fuses 2766 2 3534 i k)

/-- FINISH: the handshake's proof holds, and the session is open with the role of R376; else the handshake is over. -/
def State.spFinish (s : State) (m : List Byte) : Reply :=
  match s.halfSess with
  | none => s.err 4
  | some (h, x) =>
    let mut_ := x.encap ≠ 0
    let th := x.th ++ (if mut_ then sha384 x.peer else []) ++ m.take 4
    let key := if x.encap = 4 then Config.certKey x.peer else none
    let sig := (m.drop 4).take 96
    let n := if mut_ then 100 else 4
    let proof := !mut_ || (mb m 2 % 2 = 1 && (match key with
      | some q => ecdsaOk q (sha384 (signInput "requester-finish signing" th)) (natOfBE (sig.take 48)) (natOfBE (sig.drop 48))
      | none => false))
    let body := if mut_ then th ++ sig else th
    if m.length < n + 48 then s.err 1
    else if !proof || (m.drop n).take 48 != hmac384 x.fin (sha384 body) then
      (s.endSess (BitVec.ofNat 3 h)).err 6
    else
      let op := mut_ && (match key with | some q => s.trust.isOpKey q | none => false)
      (s.modSess h (fun x => { x with half := false, operator := op, lastAt := s.boot.uptime, th := [], fin := [], peer := [], encap := 0 }),
        [0x12, 0x65, 0, 0], h)

/-- No setup that waits on a lodestar channel answers mailbox n. -/
def State.unhook (s : State) (n : BitVec 3) : State :=
  s.each [60, 61, 62] (fun s ch => s.modChan ch (fun c => { c with
    waits := c.waits.map (fun w => if w.2.2.2 = some n then (w.1, w.2.1, w.2.2.1, none) else w) }))

/-- A VENDOR_DEFINED_REQUEST of session h: the request image in it runs for that session, and its response image returns. -/
def State.spVendor (s : State) (n h : BitVec 3) (m : List Byte) : Reply :=
  if m.length < 77 || mf m 4 2 ≠ 4 || mb m 6 ≠ 4 || mf m 7 4 ≠ 0xB256 || mf m 11 2 ≠ 64 then s.err 1 else
  let ws := (List.range 16).map (fun k => w32 (mf m (13 + 4 * k) 4))
  let q := reqOfWords n ws
  let op : Byte := BitVec.ofNat 8 (fld (ws.getD 0 0) 0 8)
  let x : State × Ans := if q.sess = h then s.runCmd baseCmds true op q else (s, .final (notPermR 0xA {}))
  let r : Resp := match x.2 with
    | .final r => r
    | .accepted w => { status := stAccepted, deny := 0, words := w }
  let img := area16 (respHeader op q.tag r :: r.words)
  (x.1.unhook n, [0x12, 0x7E, 0, 0, 4, 0, 4] ++ bytesOf 4 0xB256 ++ bytesOf 2 64 ++ wordsBytes img, 0)

/-- A message that needs a key and finds none: a part in RMA (R365). -/
def State.keyed (s : State) (r : Reply) : Reply := if s.trust.aliasKey.isNone then s.err 5 else r

/-- A message on the plain connection, in RUN. -/
def State.spPlain (s : State) (m : List Byte) (code : Nat) : Reply :=
  match code with
  | 0x81 => s.keyed (s.spDigests m)
  | 0x82 => s.keyed (s.spCert m)
  | 0x83 => s.keyed (s.spChallenge m)
  | 0xE0 => s.spMeas false m
  | 0xE4 => s.keyed (s.spKeyEx m)
  | 0xE5 => s.spFinish m
  | 0xEA => s.spEncap m
  | 0xEB => s.spEncap m
  | 0xE8 => s.err 4
  | 0xEC => s.err 4
  | _ => (s, spdmError 7 code, 0)

/-- A secured message of session h. -/
def State.spSecured (s : State) (n h : BitVec 3) (m : List Byte) (code : Nat) : Reply :=
  let s := s.modSess h.toNat (fun x => { x with lastAt := s.boot.uptime })
  match code with
  | 0xE0 => s.spMeas true m
  | 0xE8 => (s, [0x12, 0x68, 0, 0], 0)
  | 0xEC => (s.endSess h, [0x12, 0x6C, 0, 0], 0)
  | 0xFE => s.spVendor n h m
  | _ => if [0x81, 0x82, 0x83, 0x84, 0xE1, 0xE3, 0xE4, 0xE5, 0xEA, 0xEB].contains code then s.err 4 else (s, spdmError 7 code, 0)

/-- The responder's answer to a message: of session h, or plain for 0 (Table 16.7a). -/
def State.spdmMsg (s : State) (n h : BitVec 3) (m : List Byte) : Reply :=
  let code := mb m 1
  if m.length < 4 then s.err 1
  else if h ≠ 0 then (if mb m 0 ≠ 0x12 then s.err 0x41 else s.spSecured n h m code)
  else if code = 0x84 then (if mb m 0 ≠ 0x10 then s.err 0x41 else s.spVersion m)
  else if mb m 0 ≠ 0x12 then s.err 0x41
  else if s.helm.stage ≠ .run && !(code = 0xE1 || code = 0xE3 || code = 0xE0) then (s, spdmError 7 code, 0)
  else if code = 0xE1 then (if s.trust.conn = 1 then s.spCaps m else s.err 4)
  else if code = 0xE3 then (if s.trust.conn = 2 then s.spAlgs m else s.err 4)
  else if s.trust.conn ≠ 3 then s.err 4
  else if code = 0xE0 then s.spMeas false m
  else s.spPlain m code

/-! ## Command 0xB0 (14 Table 14.14; 15 R360) -/

/-- A long response leaves on the log port in order of offset, at most 512 bytes to a packet. -/
def State.sendLong (s : State) (n : BitVec 3) (r : List Byte) : State :=
  s.each (List.range (cdiv r.length 512)) (fun s k =>
    let d := (r.drop (512 * k)).take 512
    s.keepPacket 12 n.toNat 0 s.mer.now (BitVec.ofNat 64 (512 * k + d.length * 2 ^ 32) :: flitsOfBytes d))

/-- The message of mailbox n is answered: the command's result waits to be written. -/
def State.spdmRun (s : State) (n h : BitVec 3) (m : List Byte) : State :=
  let x := s.spdmMsg n h m
  let s := x.1
  let r := x.2.1
  let long := decide (r.length > 56)
  let s := if long then s.sendLong n r else s
  let w := w32 (pack [(0, 16, r.length), (16, 1, b2n long), (17, 3, x.2.2)])
  s.modMbx n (fun b => { b with
    final := some (okR (w :: (if long then [] else (List.range (cdiv r.length 4)).map (fun k => w32 (mf r (4 * k) 4))))) })

def spdmLen (q : Req) : Nat := fld (q.w 1) 0 16
def spdmPort (q : Req) : Bool := bit (q.w 1) 16
/-- The bytes of the words from 2 on. -/
def spdmBytes (q : Req) : List Byte := wordsBytes (q.args.drop 1)

/-- The first word whose padding is not zero. -/
def spdmPad (q : Req) : Option Nat :=
  ((enumFrom' 0 (spdmBytes q)).find? (fun p => decide (spdmLen q ≤ p.1) && p.2 != 0)).map (fun p => 2 + p.1 / 4)

/-- SPDM 0xB0. In ROM inbound credits are for an image only, and a message that would need them is refused (13 R315). -/
def cmdSpdm : Cmd :=
  {
    op := 0xB0, masks := [0x1FFFF], sess := true, rom := true
    len := fun q => !q.args.isEmpty && (if spdmPort q then q.args.length == 1 else decide (min 56 (spdmLen q) ≤ 4 * (q.args.length - 1)))
    form := fun _ q =>
      if spdmLen q = 0 || (spdmPort q != decide (spdmLen q > 56)) then some (badArgR 1)
      else if spdmLen q > 4096 then some (tooLargeR (spdmLen q - 4096) 0)
      else if spdmPort q then none else (spdmPad q).map badArgR
    run := fun s q =>
      if spdmPort q && s.helm.stage ≠ .run then (s, .final (notPermR 0xA { item := 0x0C, idx := s.helm.stage.code }))
      else if spdmPort q then
        (s.openInbound { kind := .spdm, mbx := q.mbx, tag := q.tag, bytes := spdmLen q, lastAt := s.boot.uptime }, .accepted [])
      else (s.spdmRun q.mbx q.sess ((spdmBytes q).take (spdmLen q)), .accepted []) }

/-- The bytes of a VENDOR_DEFINED_REQUEST that carries a request image. -/
def vendorMsg (op : Byte) (q : Req) : List Byte :=
  [0x12, 0xFE, 0, 0, 4, 0, 4] ++ bytesOf 4 0xB256 ++ bytesOf 2 64 ++ wordsBytes (area16 (reqHeader op q :: q.args))

/-- A row that a session alone may issue: with `sess` 0 it is posted as it stands; else it comes inside a message of that session,
whose transfer has ended. -/
def sessCmd (c : Cmd) (dt : Nat) (q : Req) (s : State) : State :=
  if q.sess = 0 then postCmd c dt q s
  else
    let via : Cmd := { cmdSpdm with run := fun s b => (s.spdmRun b.mbx b.sess (vendorMsg c.op q), .accepted []) }
    postCmd via dt { q with rsv := 0, args := [w32 (77 + 65536)] } s

def execSpdm (dt : Nat) (q : Req) (s : State) : Step := .next (postCmd cmdSpdm dt q s)
def execLodeAge (dt : Nat) (q : Req) (s : State) : Step := .next (sessCmd cmdLodeAge dt q s)
def execLodeCheck (dt : Nat) (q : Req) (s : State) : Step := .next (sessCmd cmdLodeCheck dt q s)

end Sys2Proof.Machine
end

