-- ==== Sys2Proof/Machine/Inbound.lean ====
section
/-! DEFINITION. Inbound transfers of the log port: credits, packets, refusals, what each kind of transfer carries, and how it ends
(02 R46; 15 R349, R361, R362; 06 R169). -/

namespace Sys2Proof.Machine

open Sys2Proof

/-- The flits of a transfer of B bytes. -/
def inTotal (b : Nat) : Nat := cdiv b 512 + cdiv b 8

/-- Credits are granted again: at most 128 unspent, and never more in all than the transfer has flits. -/
def Inbound.regrant (x : Inbound) : Inbound :=
  let n := min (128 - x.credit) (inTotal x.bytes - x.granted)
  { x with credit := x.credit + n, granted := x.granted + n }

/-- The packet type of a transfer. -/
def inType : InKind → Nat
  | .image => 24
  | .container => 25
  | .spdm => 26

/-- The data bytes that a header names: 512 does not fit its nine bits and reads 0 there. -/
def inBytes (w : Flit) : Nat := if fld w 32 9 = 0 then 512 else fld w 32 9

/-- A header that refuses the transfer (Table 15.9, R361). -/
def Inbound.headerBad (x : Inbound) (f : InFlit) : Bool :=
  let w := f.data
  let n := inBytes w
  fld w 0 5 != inType x.kind || fld w 5 3 != 0 || decide (fld w 8 8 ≠ 1 + cdiv n 8) || decide (fld w 16 16 ≠ x.pkt % 65536) ||
  decide (n ≠ min 512 (x.bytes - x.got)) || fld w 41 7 != 0 || fld w 48 3 != x.mbx.toNat || fld w 51 5 != 0 ||
  fld w 56 8 != x.tag.toNat || f.eop

/-- The transfer in hand is replaced, or leaves, and the next one opens. -/
def State.setIn (s : State) (x : Inbound) : State :=
  { s with log := { s.log with inbound := x :: s.log.inbound.drop 1 } }

def State.closeIn (s : State) : State :=
  { s with log := { s.log with
    inbound := match s.log.inbound.drop 1 with
      | [] => []
      | y :: r => { y with lastAt := s.boot.uptime } :: r } }

/-- The command of a transfer ends with a refusal. -/
def State.failIn (s : State) (x : Inbound) (r : Resp) : State :=
  match x.kind with
  | .container => s.loadFail r
  | _ => s.settle x.mbx r

/-- A refusal: no more credits; the transfer stays open to discard until those outstanding are spent. -/
def State.refuseIn (s : State) (x : Inbound) (r : Resp) : State :=
  let s := s.failIn x r
  if x.credit = 0 then s.closeIn else s.setIn { x with discard := true, data := [] }

/-- The refusal of a packet names the transfer offset of its first byte. -/
def packetR (x : Inbound) : Resp := refR stBadArg 0 { extra := 512 * x.pkt }

/-- The transfer in hand is given up (R362). -/
def State.abandonIn (s : State) : State :=
  match s.log.inbound with
  | [] => s
  | x :: _ =>
    if x.discard then s.closeIn
    else
      let s := if x.kind = .image then { s with helm := { s.helm with reason := 9 } } else s
      (s.failIn x (notPermR 0xA { item := 1, idx := 1, extra := x.got })).closeIn

/-- The last byte has come: an image is checked, a container goes to its final pass, a message to the responder. -/
def State.doneIn (s : State) (x : Inbound) : State :=
  let s := s.closeIn
  match x.kind with
  | .image => { s with helm := { s.helm with stage := .check, open_ := false, image := x.data } }
  | .container => s.loadBytesDone
  | .spdm =>
    let q := reqOfWords x.mbx (s.mbx x.mbx).cmd
    if q.sess ≠ 0 && !s.sessOpen q.sess then s.settle x.mbx (notPermR 0xA {}) else s.spdmRun x.mbx q.sess x.data

/-- Data bytes of a container reach the staging area; its header is checked once it is whole. -/
def State.stageBytes (s : State) (x : Inbound) (bs : List Byte) : State :=
  let before := s.rck.staging.length
  let s := s.modRck (fun r => { r with staging := r.staging ++ bs })
  let need := min 128 x.bytes
  if before < need && s.rck.staging.length ≥ need then
    match s.headerPass s.rck.staging x.bytes with
    | some r => s.refuseIn x r
    | none => (s.modRck (fun r => { r with loadStep := 2 })).setIn x
  else s.setIn x

/-- A data flit of the open packet. -/
def State.dataFlit (s : State) (x : Inbound) (f : InFlit) : State :=
  let n := min 8 x.left
  let last := x.flits = 1
  if f.sop || f.eop != decide last || f.data.toNat >>> (8 * n) ≠ 0 then s.refuseIn x (packetR x)
  else
    let bs := bytesOf n f.data.toNat
    let y := { x with
      got := x.got + n, left := x.left - n, flits := x.flits - 1, inPkt := !last, pkt := if last then x.pkt + 1 else x.pkt
      data := if x.kind = .container then [] else x.data ++ bs }
    let s := if x.kind = .container then s.stageBytes y bs else s.setIn y
    match s.log.inbound with
    | z :: _ => if last && z == y && y.got = y.bytes then s.doneIn y else s
    | [] => s

/-- A flit discarded and counted. -/
def State.discardFlit (s : State) : State := { s with log := { s.log with discards := satInc s.log.discards } }

/-- INBOUND_FLIT. -/
def State.takeFlit (s : State) (f : InFlit) : State :=
  if !s.logUp || s.looping 1 then s
  else if !s.xingOk 8 || !s.xingOk 9 then s.modXing 8 0 (fun x => { x with drops := satInc x.drops })
  else match s.log.inbound with
  | [] => s.discardFlit
  | x :: _ =>
    let x := { x with lastAt := s.boot.uptime }
    if x.discard then
      let s := s.discardFlit
      if x.credit ≤ 1 then s.closeIn else s.setIn { x with credit := x.credit - 1 }
    else
      let x := x.regrant
      if x.credit = 0 then (s.discardFlit).setIn { x with hole := true }
      else
        let x := { x with credit := x.credit - 1 }
        if x.hole then (if f.sop then s.refuseIn x (packetR x) else (s.discardFlit).setIn x)
        else if x.inPkt then s.dataFlit x f
        else if !f.sop then (s.discardFlit).setIn x
        else if x.headerBad f then s.refuseIn x (packetR x)
        else s.setIn { x with inPkt := true, flits := cdiv (inBytes f.data) 8, left := inBytes f.data }

/-- INBOUND_TRANSFER_TIMEOUT: no flit has come for 10 ms. -/
def State.inTimeout (s : State) : State :=
  match s.log.inbound with
  | [] => s
  | x :: _ =>
    if s.boot.uptime < x.lastAt + 10 * msMt then s
    else if x.discard || x.regrant.credit ≠ 0 then s.abandonIn else s

def execInboundFlit (dt : Nat) (f : InFlit) (s : State) : Step := event dt s (fun s => s.takeFlit f)
def execInboundTransferTimeout (dt : Nat) (s : State) : Step := event dt s State.inTimeout

end Sys2Proof.Machine
end

