-- ==== Sys2Proof/Machine/Xings.lean ====
section
/-! DEFINITION. Clocks, crossings and port resets: stopped clocks, waits that expire, stale crossings and their resync, and the
resets of the ports and of the test controller (12 R304 to R314; 02 R42; 13 R326). -/

namespace Sys2Proof.Machine

open Sys2Proof

/-! ## What the ctl domain holds (19 R422, Table 13.5, R425) -/

/-- CTL_BOOT as the boot domain presents it (19 Table 19.4). -/
def State.bootWord (s : State) : Word :=
  let b := s.boot
  w32 (pack [(0, 2, b.cool.code), (2, 3, b.stopCause.toNat), (5, 1, b2n b.refOk), (6, 1, b2n b.xoOk), (7, 1, b2n b.refSwap),
    (8, 1, b2n b.merSwap), (9, 8, b.clkRun.toNat ||| 1), (17, 1, b2n b.rstPor)])

/-- The Helm's part of MBX_STATE: stage, intake open, queue entries. -/
def State.helmWord (s : State) : Word :=
  w32 (pack [(16, 3, s.helm.stage.code), (19, 1, b2n s.helm.open_), (21, 3, s.helm.queue.length)])

/-- Meridian state as MER_STATE captures it, without `brk`. -/
def State.merWord (s : State) : Word :=
  w32 (pack [(0, 3, s.mer.st.code), (3, 1, b2n s.assisted), (4, 1, b2n s.mer.epochSet)])

/-- The ctl domain keeps what it last took through crossing 5. -/
def State.holdMer (s : State) : State :=
  { s with ctl := { s.ctl with snapMer := s.mer.now, snapMst := s.merWord } }

/-! ## Clocks (12 R308, R309; 13 R324) -/

/-- The domain that a crossing's sender waits for. -/
def xingDom (x : Nat) : Option Dom :=
  if x = 2 ∨ x = 5 ∨ x = 6 then some .ctl
  else if x = 1 ∨ x = 4 ∨ x = 19 ∨ x = 20 ∨ x = 22 ∨ x = 24 then some .core
  else if x = 10 then some .man
  else if x = 16 then some .sxt
  else if x = 18 then some .lode
  else none

/-- CLK_STOP: the clock is declared stopped. The lode PLL is watched only while the lodestar is enabled. -/
def State.clkStop (s : State) (d : Dom) : State :=
  let k := domIdx d
  if bit s.boot.clkStopped k || (decide (d = .lode) && !s.sxt.enabled) then s
  else
    let s := if d = .core && s.xingOk 5 then s.holdMer else s
    { s with boot := { s.boot with clkStopped := setFld s.boot.clkStopped k 1 1, clkRun := setFld s.boot.clkRun k 1 0 } }.raise 0x203 k 0

/-- Every response that the Helm holds unsent goes to the ctl domain. -/
def State.publishHeld (s : State) : State :=
  s.each (allMbx.filter (fun n => (s.mbx n).unsent)) State.publish

/-- Both sides of a group's crossings leave reset in the new epoch. -/
def State.freshGroup (s : State) (lo hi : Nat) (e : BitVec 8) : State :=
  { s with xings := { s.xings with
    main := s.xings.main.mapIdx (fun x (c : Xing) => if lo ≤ x && x ≤ hi then c.fresh e else c) } }

/-- A port's own side leaves reset, and each side latches the group's epoch. -/
def State.portUpAgain (s : State) (p : Port) : State :=
  match p with
  | .ctl => { s.freshGroup 0 6 s.xings.eCtl with ctl := { s.ctl with rst := false, staleBits := 0 } }
  | .log => { s.freshGroup 7 9 s.xings.eLog with ctl := { s.ctl with logRst := false } }
  | .man => { s.freshGroup 10 11 s.xings.eMan with ctl := { s.ctl with manRst := false } }
  | .cvy => State.cvyPump { s.freshGroup 12 13 s.xings.eCvy with ctl := { s.ctl with cvyRst := false } }

/-- A port's place among the clocks that the monitor watches, and its reset. -/
def portIdx : Port → Nat
  | .ctl => 0 | .log => 1 | .man => 2 | .cvy => 3

def State.portHeld (s : State) (p : Port) : Bool :=
  match p with
  | .ctl => s.ctl.rst
  | .log => s.ctl.logRst
  | .man => s.ctl.manRst
  | .cvy => s.ctl.cvyRst

/-- PORT_RESET_RELEASE: the port leaves reset when its clock runs (R310). -/
def State.portRelease (s : State) (p : Port) : State :=
  if !s.portHeld p then s
  else if bit s.boot.clkRun (portIdx p) then
    State.portUpAgain { s with ctl := { s.ctl with rel := setFld s.ctl.rel (portIdx p) 1 0 } } p
  else { s with ctl := { s.ctl with rel := setFld s.ctl.rel (portIdx p) 1 1 } }

/-- The clock of a port whose reset has ended meanwhile runs again. -/
def State.releaseHeld (s : State) (d : Dom) : State :=
  match d with
  | .ctl => if bit s.ctl.rel 0 then s.portRelease .ctl else s
  | .log => if bit s.ctl.rel 1 then s.portRelease .log else s
  | .man => if bit s.ctl.rel 2 then s.portRelease .man else s
  | .cvy => if bit s.ctl.rel 3 then s.portRelease .cvy else s
  | _ => s

/-- CLK_BACK: the clock runs; after a declared stop that is reported, and its crossings resume; what waited for it leaves. -/
def State.clkBack (s : State) (d : Dom) : State :=
  let k := domIdx d
  let stopped := bit s.boot.clkStopped k
  let s := { s with
    boot := { s.boot with clkStopped := setFld s.boot.clkStopped k 1 0, clkRun := setFld s.boot.clkRun k 1 1 }
    xings := { s.xings with
      main := s.xings.main.mapIdx (fun x (c : Xing) => if xingDom x = some d then { c with toSeen := false } else c)
      x24 := if d = Dom.core then s.xings.x24.map (fun (c : Xing) => { c with toSeen := false }) else s.xings.x24 } }
  let s := s.releaseHeld d
  let s := if d = Dom.cvy && s.cvyUp && s.cvy.ready then s.cvyPump else s
  let s := if d = Dom.ctl then s.publishHeld else s
  if stopped then s.raise 0x204 k 0 else s

/-- The crossings whose senders wait for an acknowledge: those of methods S and P (12 Tables 12.2, 12.3). -/
def xingWaits (x : Nat) : Bool := [1, 2, 4, 5, 6, 10, 16, 18, 19, 20, 22, 23, 24].contains x

/-- XING_TIMEOUT. -/
def State.xingTimeout (s : State) (x tile : Nat) : State :=
  if !xingWaits x || (x ≥ 23 && !s.present tile) then s else s.waitExpired x tile

/-! ## Stale crossings (12 R311 to R313) -/

/-- The crossings that carry events: they keep a `gap`. -/
def xingCounts (x : Nat) : Bool := [0, 3, 9, 17, 20, 24].contains x

/-- A side of a crossing's port is in reset: there is no comparison. -/
def State.xingInReset (s : State) (x : Nat) : Bool :=
  if x ≤ 6 then s.ctl.rst else if x ≤ 9 then s.ctl.logRst else if x ≤ 11 then s.ctl.manRst else if x ≤ 13 then s.ctl.cvyRst else false

/-- What a receiver keeps of the values it holds when its crossing turns stale. -/
def State.holdStale (s : State) (x : Nat) : State :=
  match x with
  | 2 => { s with ctl := { s.ctl with snapHelm := s.helmWord } }
  | 3 => { s with ctl := { s.ctl with evtHeld := s.evtPend } }
  | 5 => s.holdMer
  | 6 => { s with ctl := { s.ctl with snapBoot := s.bootWord, snapStop := s.boot.chipStop } }
  | 10 => s.modRck (fun r => { r with manStamp := s.mer.now })
  | _ => s

/-- The report of the end that finds a crossing stale: in the ctl domain its bit and its cause, elsewhere the event. -/
def State.reportStale (s : State) (x tile : Nat) (ctlEnd : Bool) : State :=
  if ctlEnd then
    if bit s.ctl.staleBits x then s
    else { s with ctl := { s.ctl with staleBits := setFld s.ctl.staleBits x 1 1, xstale := true } }
  else
    let c := s.xing x tile
    s.raise 0x902 x (c.own.toNat + 256 * c.other.toNat + (if x ≥ 23 then 65536 * tile else 0))

/-- XING_STALE: an epoch mismatch has lasted 8 receiving cycles. -/
def State.xingStale (s : State) (x tile : Nat) (other : BitVec 8) (ctlEnd : Bool) : State :=
  let c := s.xing x tile
  let ctl := ctlEnd && decide (x ≤ 6)
  if x = 21 || x > 24 || (x ≥ 23 && !s.present tile) || s.xingInReset x then s
  else if c.stale then (if ctl then s.reportStale x tile true else s)
  else if other = c.own then s
  else
    let s := s.holdStale x
    let s := s.modXing x tile (fun c => { c with stale := true, other := other, gap := c.gap || xingCounts x, stales := satInc c.stales })
    let s := s.reportStale x tile ctl
    if x ≥ 23 then s.fence tile 7
    else if 7 ≤ x && x ≤ 9 then s.abandonIn
    else s

/-- XING_RESYNC: the Helm resets a stale internal crossing, and sends setup words that waited again (Table 12.5); three failures in
succession mark it failed. -/
def State.xingResync (s : State) (x : Nat) (ok : Bool) : State :=
  let c := s.xing x 0
  if x < 14 || x > 20 || !c.stale || c.failed then s
  else if ok then
    let s := (s.modXing x 0 (fun c => c.fresh (c.own + 1))).raise 0x903 x 0
    if x = 16 then s.each (List.range 60) State.takeSetups else if x = 18 then s.each [60, 61, 62] State.takeSetups else s
  else
    let s := s.modXing x 0 (fun c => { c with own := c.own + 1, fails := c.fails + 1, failed := decide (c.fails ≥ 2) })
    if (s.xing x 0).failed then s.raise 0x904 x 0 else s

/-! ## Port resets (12 Table 12.4; 02 R42; 13 R326; 15 R350; 19 R417, R419) -/

/-- `ctl_rst_n` asserts: the ctl side clears, and a control loop-back ends with the takes so far. -/
def State.ctlReset (s : State) : State :=
  let s := match s.tests.loop with
    | some l => if l.1 = 0 then s.loopDone (.loop 0 0) else s
    | none => s
  { s with
    xings := { s.xings with eCtl := s.xings.eCtl + 1 }
    mbxs := s.mbxs.map (fun m => { m with reqArea := List.replicate 16 0, resp := List.replicate 16 0, st := .idle })
    ctl := { s.ctl with
      rst := true, done := 0, misuse := false, xstale := false, en := 0, sync := false, merHi := 0, merSt := 0, echo := none, xing := 1
      rdata := 0, err := false, snap4 := 0 } }

/-- `log_rst_n` asserts: the packet in flight is discarded and its type's next packet carries `gap`; credits are gone both ways. A
packet takes one `log_clk` cycle of 2 ns a flit. -/
def State.logReset (s : State) : State :=
  let s := { s with
    xings := { s.xings with eLog := s.xings.eLog + 1 }
    ctl := { s.ctl with logRst := true }
    log := { s.log with credits := 0, hold := none } }
  let s := match s.log.sent with
    | some p => if s.boot.uptime < s.log.sentAt + 32 * p.flits then s.dropRecs p.ptype.toNat (max 1 p.nrec.toNat) else s
    | none => s
  s.abandonIn

/-- PORT_RESET_ASSERT. -/
def State.portReset (s : State) (p : Port) : State :=
  let s := { s with ctl := { s.ctl with rel := setFld s.ctl.rel (portIdx p) 1 0 } }
  match p with
  | .ctl => s.ctlReset
  | .log => s.logReset
  | .man => { s with xings := { s.xings with eMan := s.xings.eMan + 1 }, ctl := { s.ctl with manRst := true } }
  | .cvy => { s with xings := { s.xings with eCvy := s.xings.eCvy + 1 }, ctl := { s.ctl with cvyRst := true } }

/-- TRST: the test controller and crossing 22. -/
def State.trst (s : State) : State :=
  let e := s.xings.eTest + 1
  ({ s with xings := { s.xings with eTest := e } }.freshGroup 22 22 e).modTests (fun t =>
    { t with ir := 0x01, lbkCfg := 0, lbkRes := 0, dr := 0 })

def execClkStop (dt : Nat) (d : Dom) (s : State) : Step := event dt s (fun s => s.clkStop d)
def execClkBack (dt : Nat) (d : Dom) (s : State) : Step := event dt s (fun s => s.clkBack d)
def execXingTimeout (dt : Nat) (x : BitVec 5) (tile : BitVec 8) (s : State) : Step :=
  event dt s (fun s => s.xingTimeout x.toNat tile.toNat)
def execXingStale (dt : Nat) (x : BitVec 5) (tile other : BitVec 8) (ctlEnd : Bool) (s : State) : Step :=
  event dt s (fun s => s.xingStale x.toNat tile.toNat other ctlEnd)
def execXingResync (dt : Nat) (x : BitVec 5) (ok : Bool) (s : State) : Step := event dt s (fun s => s.xingResync x.toNat ok)
/-- The level of a port's own reset at a block held in reset (02 R39). -/
def State.holdPort (s : State) (p : Port) (low : Bool) : State :=
  match p with
  | .ctl => { s with ctl := { s.ctl with rst := low } }
  | .log => { s with ctl := { s.ctl with logRst := low } }
  | .man => { s with ctl := { s.ctl with manRst := low } }
  | .cvy => { s with ctl := { s.ctl with cvyRst := low } }

def execPortResetAssert (dt : Nat) (p : Port) (s : State) : Step :=
  .next (if s.boot.inReset then (s.tick dt).holdPort p true else (s.tick dt).portReset p)
def execPortResetRelease (dt : Nat) (p : Port) (s : State) : Step :=
  .next (if s.boot.inReset then (s.tick dt).holdPort p false else (s.tick dt).portRelease p)
def execTrst (dt : Nat) (s : State) : Step := tapStep dt s State.trst

end Sys2Proof.Machine
end

