-- ==== Sys2Proof/Machine/Regs.lean ====
section
/-! DEFINITION. The control port: what every register reads, the accesses that change something, and the Helm's intake (13 R319 to
R326; 18 R414; 19 R417 to R426). -/

namespace Sys2Proof.Machine

open Sys2Proof

/-! ## Register values (19 Table 19.1) -/

/-- MBX_STATE (13 Table 13.5). -/
def State.mbxState (s : State) : Word :=
  let h := if s.xingOk 2 then s.helmWord else s.ctl.snapHelm
  h ||| w32 (pack ((enumFrom' 0 s.mbxs).map (fun p => (2 * p.1, 2, p.2.st.code))) ||| (b2n s.ctl.sync) <<< 20)

/-- THR_CAP and THR_AUX (19 Table 19.5). -/
def State.thrCap (s : State) : Word :=
  w32 (pack [(0, 9, (s.power.caps.getD 0 256).toNat), (9, 9, (s.power.caps.getD 1 256).toNat), (18, 9, (s.power.caps.getD 2 256).toNat)])

def State.thrAux (s : State) : Word :=
  w32 (pack [(0, 9, s.cvy.rate.toNat), (9, 1, b2n s.thrOn), (10, 1, b2n s.safeFloor), (11, 5, s.margin), (16, 1, b2n s.power.distrust)])

/-- TST_READY (18 Table 18.2). -/
def State.tstReady (s : State) : Word :=
  let b := s.boot
  w32 (pack [(0, 1, b2n b.bootCal), (1, 1, b2n b.sxtCal), (2, 1, b2n b.lodeCal), (3, 1, b2n b.lockedOnce), (4, 1, b2n b.flowOnce),
    (5, 1, b2n b.calFail), (8, 8, maskOf (·.active) s.rails)])

/-- The registers whose value is taken through crossing 4. -/
def throughCore (a : Nat) : Bool := [0x010C, 0x0C00, 0x0C04, 0x0C08, 0x0E04, 0x0E08, 0x0F00].contains a

/-- What a register holds, by its byte address; MER_LO and the LBK_ words as the next read would give them. -/
def State.regValue (s : State) (a : Nat) : Word :=
  if a = 0x0000 then 0x00040002
  else if a = 0x0004 then 0x0000B256
  else if a = 0x0100 then s.ctlInt
  else if a = 0x0104 then w32 s.ctl.en.toNat
  else if a = 0x0108 then w32 s.ctl.staleBits.toNat
  else if a = 0x0110 then (if s.xingOk 6 then s.bootWord else s.ctl.snapBoot)
  else if a = 0x0204 then s.mbxState
  else if a = 0x0208 then s.ctl.busy
  else if 0x0400 ≤ a ∧ a < 0x0600 then ((s.mbxs.getD ((a - 0x0400) / 64) {}).reqArea.getD ((a - 0x0400) % 64 / 4) 0)
  else if 0x0800 ≤ a ∧ a < 0x0A00 then ((s.mbxs.getD ((a - 0x0800) / 64) {}).resp.getD ((a - 0x0800) % 64 / 4) 0)
  else if a = 0x0C00 then w32 (s.thrCause s.movers).toNat
  else if a = 0x0C04 then s.thrCap
  else if a = 0x0C08 then s.thrAux
  else if a = 0x0D00 then BitVec.ofNat 32 (if s.xingOk 5 && !s.coreStopped then s.mer.now else s.ctl.snapMer).toNat
  else if a = 0x0D04 then s.ctl.merHi
  else if a = 0x0D08 then s.ctl.merSt
  else if a = 0x0E00 then (match s.ctl.echo with | some w => ~~~w | none => 0)
  else if a = 0x0E04 then s.ctl.xing
  else if a = 0x0E08 then (if s.ctl.helmLeft ≠ 0 then s.ctl.helm else 0)
  else if a = 0x0F00 then s.tstReady
  else 0

/-- What a read returns, with its `ctl_err` (R417, R427; 12 R312). -/
def State.regRead (s : State) (a : Nat) : Word × Bool :=
  if !throughCore a then (s.regValue a, false)
  else if s.coreStopped then (0, true)
  else if !s.xingOk 4 then (s.ctl.snap4, false)
  else (s.regValue a, false)

/-! ## Accesses that change something -/

/-- An access of the control port: nothing happens while the port is in reset or its clock stands. -/
def access (dt : Nat) (s : State) (f : State → State) : Step := event dt s (fun s => if s.portUp then f s.noErr else s)

/-- A read's data. -/
def State.reads (s : State) (v : Word) : State := { s with ctl := { s.ctl with rdata := v } }

/-- A read through crossing 4, and what the core does when it gives a value. -/
def State.read4 (s : State) (v : Word) (f : State → State) : State :=
  if s.coreStopped then s.cross4Fail
  else if !s.xingOk 4 then s.reads s.ctl.snap4
  else f { s with ctl := { s.ctl with rdata := v, snap4 := v } }

/-- MBX_DOORBELL: the mailboxes rung, in ascending order. -/
def State.doorbells (s : State) (ring : BitVec 8) : State :=
  s.each (allMbx.filter (fun n => bit ring n.toNat)) State.bell

/-- CTL_INT_CLEAR. -/
def State.clearInt (s : State) (w : Word) : State :=
  { s with ctl := { s.ctl with
    done := s.ctl.done &&& ~~~BitVec.ofNat 8 w.toNat, misuse := s.ctl.misuse && !bit w 8, xstale := s.ctl.xstale && !bit w 9 } }

/-- MER_LO_READ: the capture (R425). -/
def State.readMer (s : State) : State :=
  let live := s.xingOk 5 && !s.coreStopped
  let t := if live then s.mer.now else s.ctl.snapMer
  let w := if live then s.merWord else s.ctl.snapMst
  { s with ctl := { s.ctl with
    rdata := BitVec.ofNat 32 t.toNat, merHi := BitVec.ofNat 32 (t.toNat >>> 32), merSt := w ||| w32 (32 * b2n s.ctl.brk), brk := false } }

/-- LBK_XING_READ: the core's value, which then steps on. -/
def State.readXing (s : State) : State :=
  s.read4 s.ctl.xing (fun s => { s with ctl := { s.ctl with xing := lfsrStep s.ctl.xing } })

/-- LBK_HELM_READ: the word that the Helm presents; a take advances it, and the last one ends the loop-back. -/
def State.readLoop (s : State) : State :=
  s.read4 (s.regValue 0x0E08) (fun s =>
    if s.ctl.helmLeft = 0 then s
    else
      let s := { s with ctl := { s.ctl with
        helm := lfsrStep s.ctl.helm, helmLeft := s.ctl.helmLeft - 1, helmTaken := s.ctl.helmTaken + 1 } }
      if s.ctl.helmLeft = 0 then s.loopDone (.loop 0 0) else s)

/-- A write, by byte address: what is not named here is ignored (R417). -/
def State.regWrite (s : State) (a : Nat) (w : Word) : State :=
  if a = 0x0100 then s.clearInt w
  else if a = 0x0104 then { s with ctl := { s.ctl with en := BitVec.ofNat 12 w.toNat } }
  else if a = 0x010C then (if s.coreStopped || bit w 0 then s.writeHelm else s)
  else if a = 0x0200 then s.doorbells (BitVec.ofNat 8 w.toNat)
  else if 0x0400 ≤ a ∧ a < 0x0600 then
    s.modMbx (BitVec.ofNat 3 ((a - 0x0400) / 64)) (fun m => { m with reqArea := m.reqArea.set ((a - 0x0400) % 64 / 4) w })
  else if a = 0x0E00 then { s with ctl := { s.ctl with echo := some w } }
  else if throughCore a && s.coreStopped then s.cross4Fail
  else s

/-! ## The Helm's intake (13 R322, R323, R326) -/

/-- HELM_INTAKE_TAKE: the oldest entry is taken and answered. -/
def State.intakeTake (s : State) : State :=
  if !(s.helm.stage = .run || s.helm.stage = .rom) || !s.helm.open_ then s
  else match s.helm.queue with
    | [] => s
    | n :: r =>
      let s := { s with helm := { s.helm with queue := r } }
      if (s.mbx n).held ≠ .posted then s
      else
        let x := s.runCmd (cmdSpdm :: baseCmds) false (s.mbx n).op (reqOfWords n (s.mbx n).cmd)
        x.1.answer n x.2

/-- INTAKE_REOPEN. -/
def State.intakeReopen (s : State) : State :=
  if s.helm.stage = .run || s.helm.stage = .rom then { s with helm := { s.helm with open_ := true, reopen := 0 } } else s

/-- MAILBOX_REPUBLISH: after a port reset the Helm sends the state and response of every mailbox that it holds and that has taken no
doorbell since, and sets `sync`. -/
def State.republish (s : State) : State :=
  if !s.ctlUp || s.ctl.sync || !(s.helm.stage = .run || s.helm.stage = .rom) then s
  else
    let s := s.each (allMbx.filter (fun n => decide ((s.mbx n).st = .idle) && decide ((s.mbx n).held ≠ .idle))) State.publish
    { s with ctl := { s.ctl with sync := true } }

def execMbxDoorbell (dt : Nat) (ring : BitVec 8) (s : State) : Step := access dt s (fun s => s.doorbells ring)
def execCtlIntClear (dt : Nat) (w : Word) (s : State) : Step := access dt s (fun s => s.clearInt w)
def execMerLoRead (dt : Nat) (s : State) : Step := access dt s State.readMer
def execLbkXingRead (dt : Nat) (s : State) : Step := access dt s State.readXing
def execLbkHelmRead (dt : Nat) (s : State) : Step := access dt s State.readLoop
def execRegisterWrite (dt : Nat) (addr : BitVec 14) (w : Word) (s : State) : Step := access dt s (fun s => s.regWrite (4 * addr.toNat) w)
def execHelmIntakeTake (dt : Nat) (s : State) : Step := event dt s State.intakeTake
def execIntakeReopen (dt : Nat) (s : State) : Step := event dt s State.intakeReopen
def execMailboxRepublish (dt : Nat) (s : State) : Step := event dt s State.republish

end Sys2Proof.Machine
end

