-- ==== Sys2Proof/Machine/Dispatch.lean ====
section
/-! DEFINITION. One arm per command: a direct call of its meaning. -/

namespace Sys2Proof.Machine

def exec (i : Instr) (s : State) : Host.Outcome State Fault Refusal :=
  match i with
  | .identify dt q => Sys2Proof.Machine.execIdentify dt q s
  | .fwLoad dt q => Sys2Proof.Machine.execFwLoad dt q s
  | .caps dt q => Sys2Proof.Machine.execCaps dt q s
  | .setEpoch dt q => Sys2Proof.Machine.execSetEpoch dt q s
  | .setHostQ dt q => Sys2Proof.Machine.execSetHostQ dt q s
  | .setFloor dt q => Sys2Proof.Machine.execSetFloor dt q s
  | .setSafeQ dt q => Sys2Proof.Machine.execSetSafeQ dt q s
  | .setPmbus dt q => Sys2Proof.Machine.execSetPmbus dt q s
  | .readPolicy dt q => Sys2Proof.Machine.execReadPolicy dt q s
  | .tileInfo dt q => Sys2Proof.Machine.execTileInfo dt q s
  | .tilePolicy dt q => Sys2Proof.Machine.execTilePolicy dt q s
  | .tilePlumb dt q => Sys2Proof.Machine.execTilePlumb dt q s
  | .tileDroop dt q => Sys2Proof.Machine.execTileDroop dt q s
  | .tileStateEnable dt q => Sys2Proof.Machine.execTileStateEnable dt q s
  | .tileStateDisable dt q => Sys2Proof.Machine.execTileStateDisable dt q s
  | .tileStateGate dt q => Sys2Proof.Machine.execTileStateGate dt q s
  | .tileStateUngate dt q => Sys2Proof.Machine.execTileStateUngate dt q s
  | .tileStateSwap dt q => Sys2Proof.Machine.execTileStateSwap dt q s
  | .tileStatus dt q => Sys2Proof.Machine.execTileStatus dt q s
  | .domainPowerOff dt q => Sys2Proof.Machine.execDomainPowerOff dt q s
  | .domainPowerOn dt q => Sys2Proof.Machine.execDomainPowerOn dt q s
  | .tileCounters dt q => Sys2Proof.Machine.execTileCounters dt q s
  | .floorOver dt q => Sys2Proof.Machine.execFloorOver dt q s
  | .learnReset dt q => Sys2Proof.Machine.execLearnReset dt q s
  | .tileCapture dt q => Sys2Proof.Machine.execTileCapture dt q s
  | .rckLoad dt q => Sys2Proof.Machine.execRckLoad dt q s
  | .rckUnload dt q => Sys2Proof.Machine.execRckUnload dt q s
  | .rckMode dt q => Sys2Proof.Machine.execRckMode dt q s
  | .rckMap dt q => Sys2Proof.Machine.execRckMap dt q s
  | .rckStatus dt q => Sys2Proof.Machine.execRckStatus dt q s
  | .rckCounters dt q => Sys2Proof.Machine.execRckCounters dt q s
  | .rckClass dt q => Sys2Proof.Machine.execRckClass dt q s
  | .rckNv dt q => Sys2Proof.Machine.execRckNv dt q s
  | .rckHistory dt q => Sys2Proof.Machine.execRckHistory dt q s
  | .watchSet dt q => Sys2Proof.Machine.execWatchSet dt q s
  | .watchRead dt q => Sys2Proof.Machine.execWatchRead dt q s
  | .rckScales dt q => Sys2Proof.Machine.execRckScales dt q s
  | .ksOpen dt q => Sys2Proof.Machine.execKsOpen dt q s
  | .ksStage dt q => Sys2Proof.Machine.execKsStage dt q s
  | .ksSeal dt q => Sys2Proof.Machine.execKsSeal dt q s
  | .ksAbort dt q => Sys2Proof.Machine.execKsAbort dt q s
  | .ksResult dt q => Sys2Proof.Machine.execKsResult dt q s
  | .ksWait dt q => Sys2Proof.Machine.execKsWait dt q s
  | .ksCounters dt q => Sys2Proof.Machine.execKsCounters dt q s
  | .ksSlots dt q => Sys2Proof.Machine.execKsSlots dt q s
  | .sxtSetup dt q => Sys2Proof.Machine.execSxtSetup dt q s
  | .sxtDisarm dt q => Sys2Proof.Machine.execSxtDisarm dt q s
  | .sxtFree dt q => Sys2Proof.Machine.execSxtFree dt q s
  | .sxtRead dt q => Sys2Proof.Machine.execSxtRead dt q s
  | .sxtStats dt q => Sys2Proof.Machine.execSxtStats dt q s
  | .sxtInfo dt q => Sys2Proof.Machine.execSxtInfo dt q s
  | .lodeAge dt q => Sys2Proof.Machine.execLodeAge dt q s
  | .lodeCheck dt q => Sys2Proof.Machine.execLodeCheck dt q s
  | .lodeEnable dt q => Sys2Proof.Machine.execLodeEnable dt q s
  | .railMap dt q => Sys2Proof.Machine.execRailMap dt q s
  | .railAct dt q => Sys2Proof.Machine.execRailAct dt q s
  | .powerLimit dt q => Sys2Proof.Machine.execPowerLimit dt q s
  | .powerCfg dt q => Sys2Proof.Machine.execPowerCfg dt q s
  | .partMap dt q => Sys2Proof.Machine.execPartMap dt q s
  | .ledgerRead dt q => Sys2Proof.Machine.execLedgerRead dt q s
  | .captureAt dt q => Sys2Proof.Machine.execCaptureAt dt q s
  | .reasons dt q => Sys2Proof.Machine.execReasons dt q s
  | .powerCounters dt q => Sys2Proof.Machine.execPowerCounters dt q s
  | .powerStatus dt q => Sys2Proof.Machine.execPowerStatus dt q s
  | .cvyJoin dt q => Sys2Proof.Machine.execCvyJoin dt q s
  | .cvyLeave dt q => Sys2Proof.Machine.execCvyLeave dt q s
  | .cvyMove dt q => Sys2Proof.Machine.execCvyMove dt q s
  | .cvyStatus dt q => Sys2Proof.Machine.execCvyStatus dt q s
  | .cvyCounters dt q => Sys2Proof.Machine.execCvyCounters dt q s
  | .logSelect dt q => Sys2Proof.Machine.execLogSelect dt q s
  | .traceArm dt q => Sys2Proof.Machine.execTraceArm dt q s
  | .traceStop dt q => Sys2Proof.Machine.execTraceStop dt q s
  | .traceDump dt q => Sys2Proof.Machine.execTraceDump dt q s
  | .logStatus dt q => Sys2Proof.Machine.execLogStatus dt q s
  | .calSextant dt q => Sys2Proof.Machine.execCalSextant dt q s
  | .calPlumb dt q => Sys2Proof.Machine.execCalPlumb dt q s
  | .testRun dt q => Sys2Proof.Machine.execTestRun dt q s
  | .quiesce dt q => Sys2Proof.Machine.execQuiesce dt q s
  | .testResult dt q => Sys2Proof.Machine.execTestResult dt q s
  | .loopback dt q => Sys2Proof.Machine.execLoopback dt q s
  | .fence dt q => Sys2Proof.Machine.execFence dt q s
  | .fenceRelease dt q => Sys2Proof.Machine.execFenceRelease dt q s
  | .faultSummary dt q => Sys2Proof.Machine.execFaultSummary dt q s
  | .eventRead dt q => Sys2Proof.Machine.execEventRead dt q s
  | .xingRead dt q => Sys2Proof.Machine.execXingRead dt q s
  | .helmCounters dt q => Sys2Proof.Machine.execHelmCounters dt q s
  | .spdm dt q => Sys2Proof.Machine.execSpdm dt q s
  | .chartRead dt q => Sys2Proof.Machine.execChartRead dt q s
  | .chartTighten dt q => Sys2Proof.Machine.execChartTighten dt q s
  | .mbxDoorbell dt ring => Sys2Proof.Machine.execMbxDoorbell dt ring s
  | .helmRestart dt => Sys2Proof.Machine.execHelmRestart dt s
  | .ctlIntClear dt w => Sys2Proof.Machine.execCtlIntClear dt w s
  | .merLoRead dt => Sys2Proof.Machine.execMerLoRead dt s
  | .lbkXingRead dt => Sys2Proof.Machine.execLbkXingRead dt s
  | .lbkHelmRead dt => Sys2Proof.Machine.execLbkHelmRead dt s
  | .registerWrite dt addr w => Sys2Proof.Machine.execRegisterWrite dt addr w s
  | .helmIntakeTake dt => Sys2Proof.Machine.execHelmIntakeTake dt s
  | .intakeReopen dt => Sys2Proof.Machine.execIntakeReopen dt s
  | .mailboxRepublish dt => Sys2Proof.Machine.execMailboxRepublish dt s
  | .instantCompletion dt mbx r => Sys2Proof.Machine.execInstantCompletion dt mbx r s
  | .brnRstAssert dt => Sys2Proof.Machine.execBrnRstAssert dt s
  | .brnRstRelease dt => Sys2Proof.Machine.execBrnRstRelease dt s
  | .romStart dt => Sys2Proof.Machine.execRomStart dt s
  | .powerOnMonitor dt => Sys2Proof.Machine.execPowerOnMonitor dt s
  | .vddbLow dt => Sys2Proof.Machine.execVddbLow dt s
  | .portResetAssert dt p => Sys2Proof.Machine.execPortResetAssert dt p s
  | .portResetRelease dt p => Sys2Proof.Machine.execPortResetRelease dt p s
  | .trst dt => Sys2Proof.Machine.execTrst dt s
  | .imageCheckDone dt => Sys2Proof.Machine.execImageCheckDone dt s
  | .helmWdog dt => Sys2Proof.Machine.execHelmWdog dt s
  | .restartCheckDone dt => Sys2Proof.Machine.execRestartCheckDone dt s
  | .arbAdvance dt blown => Sys2Proof.Machine.execArbAdvance dt blown s
  | .sessionTimeout dt h => Sys2Proof.Machine.execSessionTimeout dt h s
  | .refValid dt => Sys2Proof.Machine.execRefValid dt s
  | .pllLock dt => Sys2Proof.Machine.execPllLock dt s
  | .hardwareBringupCal dt part badTiles badSensors badChannels => Sys2Proof.Machine.execHardwareBringupCal dt part badTiles badSensors badChannels s
  | .meridianPulse dt periods al longHigh diffs => Sys2Proof.Machine.execMeridianPulse dt periods al longHigh diffs s
  | .refLoss dt pulse => Sys2Proof.Machine.execRefLoss dt pulse s
  | .slewStep dt => Sys2Proof.Machine.execSlewStep dt s
  | .refCheck dt delta => Sys2Proof.Machine.execRefCheck dt delta s
  | .xoFault dt k => Sys2Proof.Machine.execXoFault dt k s
  | .xoStartupWindowEnd dt low => Sys2Proof.Machine.execXoStartupWindowEnd dt low s
  | .plumbFire dt tile p mv => Sys2Proof.Machine.execPlumbFire dt tile p mv s
  | .plumbRelease dt tile p mv => Sys2Proof.Machine.execPlumbRelease dt tile p mv s
  | .plumbHoldEnd dt tile p => Sys2Proof.Machine.execPlumbHoldEnd dt tile p s
  | .plumbDecayStep dt tile p => Sys2Proof.Machine.execPlumbDecayStep dt tile p s
  | .plumbDroopExam dt tile p => Sys2Proof.Machine.execPlumbDroopExam dt tile p s
  | .plumbCalibration dt tile p inRange => Sys2Proof.Machine.execPlumbCalibration dt tile p inRange s
  | .tapCheckAttempt dt tile fired => Sys2Proof.Machine.execTapCheckAttempt dt tile fired s
  | .tapCheckDeadline dt tile => Sys2Proof.Machine.execTapCheckDeadline dt tile s
  | .thermalSample dt rs => Sys2Proof.Machine.execThermalSample dt rs s
  | .thrReqFall dt lowNs => Sys2Proof.Machine.execThrReqFall dt lowNs s
  | .thrReqRise dt => Sys2Proof.Machine.execThrReqRise dt s
  | .thrReqHoldEnd dt => Sys2Proof.Machine.execThrReqHoldEnd dt s
  | .oscFail dt tile b f => Sys2Proof.Machine.execOscFail dt tile b f s
  | .oscCalDone dt tile b tuned => Sys2Proof.Machine.execOscCalDone dt tile b tuned s
  | .voscLow dt tile => Sys2Proof.Machine.execVoscLow dt tile s
  | .vanaLow dt inst => Sys2Proof.Machine.execVanaLow dt inst s
  | .slideInstant dt tile => Sys2Proof.Machine.execSlideInstant dt tile s
  | .handoverRetuneStart dt tile => Sys2Proof.Machine.execHandoverRetuneStart dt tile s
  | .handoverAlignStart dt tile => Sys2Proof.Machine.execHandoverAlignStart dt tile s
  | .handoverSwitch dt tile aligned extraFs => Sys2Proof.Machine.execHandoverSwitch dt tile aligned extraFs s
  | .enableInstant dt tile => Sys2Proof.Machine.execEnableInstant dt tile s
  | .disableInstant dt tile => Sys2Proof.Machine.execDisableInstant dt tile s
  | .gateInstant dt tile => Sys2Proof.Machine.execGateInstant dt tile s
  | .ungateInstant dt tile => Sys2Proof.Machine.execUngateInstant dt tile s
  | .domainReturnInstant dt dom => Sys2Proof.Machine.execDomainReturnInstant dt dom s
  | .softStartStep dt tile => Sys2Proof.Machine.execSoftStartStep dt tile s
  | .autoCalibrationSwap dt tile => Sys2Proof.Machine.execAutoCalibrationSwap dt tile s
  | .standbyTest dt tile pass => Sys2Proof.Machine.execStandbyTest dt tile pass s
  | .learnExam dt => Sys2Proof.Machine.execLearnExam dt s
  | .fenceTrial dt tile okA okB voscLow s0 s1 => Sys2Proof.Machine.execFenceTrial dt tile okA okB voscLow s0 s1 s
  | .mortarWordDiscard dt tile config nth => Sys2Proof.Machine.execMortarWordDiscard dt tile config nth s
  | .manifestRecord dt rec => Sys2Proof.Machine.execManifestRecord dt rec s
  | .courseBoundary dt => Sys2Proof.Machine.execCourseBoundary dt s
  | .prestretchStart dt tile => Sys2Proof.Machine.execPrestretchStart dt tile s
  | .prestretchEnd dt tile => Sys2Proof.Machine.execPrestretchEnd dt tile s
  | .dipStart dt tile => Sys2Proof.Machine.execDipStart dt tile s
  | .dipEnd dt tile => Sys2Proof.Machine.execDipEnd dt tile s
  | .inboundFlit dt f => Sys2Proof.Machine.execInboundFlit dt f s
  | .programLoadSwap dt => Sys2Proof.Machine.execProgramLoadSwap dt s
  | .loadComplete dt => Sys2Proof.Machine.execLoadComplete dt s
  | .unloadEffect dt => Sys2Proof.Machine.execUnloadEffect dt s
  | .inboundTransferTimeout dt => Sys2Proof.Machine.execInboundTransferTimeout dt s
  | .loCredit dt => Sys2Proof.Machine.execLoCredit dt s
  | .packetSend dt => Sys2Proof.Machine.execPacketSend dt s
  | .packetFormTimeout dt ty ch => Sys2Proof.Machine.execPacketFormTimeout dt ty ch s
  | .ksSealComplete dt slot => Sys2Proof.Machine.execKsSealComplete dt slot s
  | .ksSealDeadline dt slot => Sys2Proof.Machine.execKsSealDeadline dt slot s
  | .ksLaunchEdge dt slot tiles => Sys2Proof.Machine.execKsLaunchEdge dt slot tiles s
  | .ksAckDeadline dt slot unacked => Sys2Proof.Machine.execKsAckDeadline dt slot unacked s
  | .ksRailRaiseWrite dt rail => Sys2Proof.Machine.execKsRailRaiseWrite dt rail s
  | .ksRailPmbusRead dt rail mv => Sys2Proof.Machine.execKsRailPmbusRead dt rail mv s
  | .ksRailCheck dt rail => Sys2Proof.Machine.execKsRailCheck dt rail s
  | .ksRailLowerWrite dt rail => Sys2Proof.Machine.execKsRailLowerWrite dt rail s
  | .railWriteBack dt rail => Sys2Proof.Machine.execRailWriteBack dt rail s
  | .captureLatch dt => Sys2Proof.Machine.execCaptureLatch dt s
  | .samplingInterval dt rs missing => Sys2Proof.Machine.execSamplingInterval dt rs missing s
  | .capEvaluation dt lim => Sys2Proof.Machine.execCapEvaluation dt lim s
  | .ledgerSnapshot dt => Sys2Proof.Machine.execLedgerSnapshot dt s
  | .plausibilityCheck dt rail => Sys2Proof.Machine.execPlausibilityCheck dt rail s
  | .plausibilitySearchStep dt rail droopMt => Sys2Proof.Machine.execPlausibilitySearchStep dt rail droopMt s
  | .avsLinkFault dt link => Sys2Proof.Machine.execAvsLinkFault dt link s
  | .avsLinkRetry dt link goodFrames => Sys2Proof.Machine.execAvsLinkRetry dt link goodFrames s
  | .pmbusFallbackRead dt rail volt val => Sys2Proof.Machine.execPmbusFallbackRead dt rail volt val s
  | .pmbusAlert dt rail status => Sys2Proof.Machine.execPmbusAlert dt rail status s
  | .pmbusBusRecovery dt recovered => Sys2Proof.Machine.execPmbusBusRecovery dt recovered s
  | .flowHbEdge dt highMt => Sys2Proof.Machine.execFlowHbEdge dt highMt s
  | .flowHbDcTimeout dt => Sys2Proof.Machine.execFlowHbDcTimeout dt s
  | .trayPoll dt answer => Sys2Proof.Machine.execTrayPoll dt answer s
  | .wireFaultWaitExpiry dt => Sys2Proof.Machine.execWireFaultWaitExpiry dt s
  | .trayConfirmLapse dt => Sys2Proof.Machine.execTrayConfirmLapse dt s
  | .cvyMoveNotice dt n => Sys2Proof.Machine.execCvyMoveNotice dt n s
  | .cvyFollowNotice dt n => Sys2Proof.Machine.execCvyFollowNotice dt n s
  | .cvyNakNotice dt n => Sys2Proof.Machine.execCvyNakNotice dt n s
  | .cvyLeaveNotice dt n => Sys2Proof.Machine.execCvyLeaveNotice dt n s
  | .cvyQueuedMoveStage dt => Sys2Proof.Machine.execCvyQueuedMoveStage dt s
  | .cvyJoinInstant dt => Sys2Proof.Machine.execCvyJoinInstant dt s
  | .cvyLeaveInstant dt => Sys2Proof.Machine.execCvyLeaveInstant dt s
  | .spanStart dt => Sys2Proof.Machine.execSpanStart dt s
  | .catchUp dt => Sys2Proof.Machine.execCatchUp dt s
  | .noticeWithdraw dt => Sys2Proof.Machine.execNoticeWithdraw dt s
  | .sextantEdge dt ch stop edge => Sys2Proof.Machine.execSextantEdge dt ch stop edge s
  | .gateEdge dt pin rise => Sys2Proof.Machine.execGateEdge dt pin rise s
  | .windowOpen dt ch => Sys2Proof.Machine.execWindowOpen dt ch s
  | .windowClose dt ch => Sys2Proof.Machine.execWindowClose dt ch s
  | .sextantServiceCal dt ch pass => Sys2Proof.Machine.execSextantServiceCal dt ch pass s
  | .scrub dt r idx corrected => Sys2Proof.Machine.execScrub dt r idx corrected s
  | .eccUnc dt r idx => Sys2Proof.Machine.execEccUnc dt r idx s
  | .clkStop dt d => Sys2Proof.Machine.execClkStop dt d s
  | .clkBack dt d => Sys2Proof.Machine.execClkBack dt d s
  | .xingTimeout dt x tile => Sys2Proof.Machine.execXingTimeout dt x tile s
  | .xingStale dt x tile other ctlEnd => Sys2Proof.Machine.execXingStale dt x tile other ctlEnd s
  | .xingResync dt x ok => Sys2Proof.Machine.execXingResync dt x ok s
  | .grantEnd dt => Sys2Proof.Machine.execGrantEnd dt s
  | .testDone dt handle pass detail => Sys2Proof.Machine.execTestDone dt handle pass detail s
  | .idcode dt => Sys2Proof.Machine.execIdcode dt s
  | .lbkCfg dt v => Sys2Proof.Machine.execLbkCfg dt v s
  | .lbkRun dt compared mismatches => Sys2Proof.Machine.execLbkRun dt compared mismatches s
  | .lbkRes dt => Sys2Proof.Machine.execLbkRes dt s
  | .scan dt => Sys2Proof.Machine.execScan dt s
  | .mbist dt pass10 pass11 => Sys2Proof.Machine.execMbist dt pass10 pass11 s
  | .fuseWrite dt f v => Sys2Proof.Machine.execFuseWrite dt f v s
  | .lcAdvance dt => Sys2Proof.Machine.execLcAdvance dt s
  | .rmaToken dt tok => Sys2Proof.Machine.execRmaToken dt tok s
  | .bypass dt => Sys2Proof.Machine.execBypass dt s
  | .lodestarPllLock dt => Sys2Proof.Machine.execLodestarPllLock dt s
  | .lodestarTick dt => Sys2Proof.Machine.execLodestarTick dt s
  | .cvoReady rise => Sys2Proof.Machine.execCvoReady rise s
  | .vddbBackInRange dt => Sys2Proof.Machine.execVddbBackInRange dt s
  | .vanaBackInRange dt inst => Sys2Proof.Machine.execVanaBackInRange dt inst s
  | .calAge dt ch => Sys2Proof.Machine.execCalAge dt ch s

end Sys2Proof.Machine
end

