-- ==== Sys2Proof/WellFormed.lean ====
section
/-! DEFINITION. When a command is one that can be posted: its operands lie in the ranges that the ports give them. -/

namespace Sys2Proof

/-- A request fits a mailbox: at most 15 argument words (13 R317). -/
def Req.wf (q : Req) : Bool := decide (q.args.length ≤ 15)

/-- A sensor reading fits its 12-bit signed word (05 R150). -/
def TempReading.wf (r : TempReading) : Bool :=
  decide (-2048 ≤ r.s0) && decide (r.s0 ≤ 2047) && decide (-2048 ≤ r.s1) && decide (r.s1 ≤ 2047)

/-- A notice's words, 1 to 3 (10 R272). -/
def Notice.wf (n : Notice) : Bool := decide (1 ≤ n.words.length) && decide (n.words.length ≤ 3)

/-- The request that a Helm command carries, none for every other command. -/
def Instr.req? : Instr → Option Req
  | .identify _ q => some q
  | .fwLoad _ q => some q
  | .caps _ q => some q
  | .setEpoch _ q => some q
  | .setHostQ _ q => some q
  | .setFloor _ q => some q
  | .setSafeQ _ q => some q
  | .setPmbus _ q => some q
  | .readPolicy _ q => some q
  | .tileInfo _ q => some q
  | .tilePolicy _ q => some q
  | .tilePlumb _ q => some q
  | .tileDroop _ q => some q
  | .tileStateEnable _ q => some q
  | .tileStateDisable _ q => some q
  | .tileStateGate _ q => some q
  | .tileStateUngate _ q => some q
  | .tileStateSwap _ q => some q
  | .tileStatus _ q => some q
  | .domainPowerOff _ q => some q
  | .domainPowerOn _ q => some q
  | .tileCounters _ q => some q
  | .floorOver _ q => some q
  | .learnReset _ q => some q
  | .tileCapture _ q => some q
  | .rckLoad _ q => some q
  | .rckUnload _ q => some q
  | .rckMode _ q => some q
  | .rckMap _ q => some q
  | .rckStatus _ q => some q
  | .rckCounters _ q => some q
  | .rckClass _ q => some q
  | .rckNv _ q => some q
  | .rckHistory _ q => some q
  | .watchSet _ q => some q
  | .watchRead _ q => some q
  | .rckScales _ q => some q
  | .ksOpen _ q => some q
  | .ksStage _ q => some q
  | .ksSeal _ q => some q
  | .ksAbort _ q => some q
  | .ksResult _ q => some q
  | .ksWait _ q => some q
  | .ksCounters _ q => some q
  | .ksSlots _ q => some q
  | .sxtSetup _ q => some q
  | .sxtDisarm _ q => some q
  | .sxtFree _ q => some q
  | .sxtRead _ q => some q
  | .sxtStats _ q => some q
  | .sxtInfo _ q => some q
  | .lodeAge _ q => some q
  | .lodeCheck _ q => some q
  | .lodeEnable _ q => some q
  | .railMap _ q => some q
  | .railAct _ q => some q
  | .powerLimit _ q => some q
  | .powerCfg _ q => some q
  | .partMap _ q => some q
  | .ledgerRead _ q => some q
  | .captureAt _ q => some q
  | .reasons _ q => some q
  | .powerCounters _ q => some q
  | .powerStatus _ q => some q
  | .cvyJoin _ q => some q
  | .cvyLeave _ q => some q
  | .cvyMove _ q => some q
  | .cvyStatus _ q => some q
  | .cvyCounters _ q => some q
  | .logSelect _ q => some q
  | .traceArm _ q => some q
  | .traceStop _ q => some q
  | .traceDump _ q => some q
  | .logStatus _ q => some q
  | .calSextant _ q => some q
  | .calPlumb _ q => some q
  | .testRun _ q => some q
  | .quiesce _ q => some q
  | .testResult _ q => some q
  | .loopback _ q => some q
  | .fence _ q => some q
  | .fenceRelease _ q => some q
  | .faultSummary _ q => some q
  | .eventRead _ q => some q
  | .xingRead _ q => some q
  | .helmCounters _ q => some q
  | .spdm _ q => some q
  | .chartRead _ q => some q
  | .chartTighten _ q => some q
  | .mbxDoorbell .. | .helmRestart .. | .ctlIntClear .. | .merLoRead .. | .lbkXingRead .. | .lbkHelmRead ..
  | .registerWrite .. | .helmIntakeTake .. | .intakeReopen .. | .mailboxRepublish .. | .instantCompletion ..
  | .brnRstAssert .. | .brnRstRelease .. | .romStart .. | .powerOnMonitor .. | .vddbLow .. | .portResetAssert ..
  | .portResetRelease .. | .trst .. | .imageCheckDone .. | .helmWdog .. | .restartCheckDone .. | .arbAdvance ..
  | .sessionTimeout .. | .refValid .. | .pllLock .. | .hardwareBringupCal .. | .meridianPulse .. | .refLoss ..
  | .slewStep .. | .refCheck .. | .xoFault .. | .xoStartupWindowEnd .. | .plumbFire .. | .plumbRelease ..
  | .plumbHoldEnd .. | .plumbDecayStep .. | .plumbDroopExam .. | .plumbCalibration .. | .tapCheckAttempt ..
  | .tapCheckDeadline .. | .thermalSample .. | .thrReqFall .. | .thrReqRise .. | .thrReqHoldEnd .. | .oscFail ..
  | .oscCalDone .. | .voscLow .. | .vanaLow .. | .slideInstant .. | .handoverRetuneStart ..
  | .handoverAlignStart .. | .handoverSwitch .. | .enableInstant .. | .disableInstant .. | .gateInstant ..
  | .ungateInstant .. | .domainReturnInstant .. | .softStartStep .. | .autoCalibrationSwap .. | .standbyTest ..
  | .learnExam .. | .fenceTrial .. | .mortarWordDiscard .. | .manifestRecord .. | .courseBoundary ..
  | .prestretchStart .. | .prestretchEnd .. | .dipStart .. | .dipEnd .. | .inboundFlit .. | .programLoadSwap ..
  | .loadComplete .. | .unloadEffect .. | .inboundTransferTimeout .. | .loCredit .. | .packetSend ..
  | .packetFormTimeout .. | .ksSealComplete .. | .ksSealDeadline .. | .ksLaunchEdge .. | .ksAckDeadline ..
  | .ksRailRaiseWrite .. | .ksRailPmbusRead .. | .ksRailCheck .. | .ksRailLowerWrite .. | .railWriteBack ..
  | .captureLatch .. | .samplingInterval .. | .capEvaluation .. | .ledgerSnapshot .. | .plausibilityCheck ..
  | .plausibilitySearchStep .. | .avsLinkFault .. | .avsLinkRetry .. | .pmbusFallbackRead .. | .pmbusAlert ..
  | .pmbusBusRecovery .. | .flowHbEdge .. | .flowHbDcTimeout .. | .trayPoll .. | .wireFaultWaitExpiry ..
  | .trayConfirmLapse .. | .cvyMoveNotice .. | .cvyFollowNotice .. | .cvyNakNotice .. | .cvyLeaveNotice ..
  | .cvyQueuedMoveStage .. | .cvyJoinInstant .. | .cvyLeaveInstant .. | .spanStart .. | .catchUp ..
  | .noticeWithdraw .. | .sextantEdge .. | .gateEdge .. | .windowOpen .. | .windowClose .. | .sextantServiceCal ..
  | .scrub .. | .eccUnc .. | .clkStop .. | .clkBack .. | .xingTimeout .. | .xingStale .. | .xingResync ..
  | .grantEnd .. | .testDone .. | .idcode .. | .lbkCfg .. | .lbkRun .. | .lbkRes .. | .scan .. | .mbist ..
  | .fuseWrite .. | .lcAdvance .. | .rmaToken .. | .bypass .. | .lodestarPllLock .. | .lodestarTick ..
  | .cvoReady .. | .vddbBackInRange .. | .vanaBackInRange .. | .calAge .. => none

/-- The operand checks of the commands that are no Helm command. -/
def Instr.operandsWf : Instr → Bool
  | .meridianPulse _ _ _ _ ds => ds.all (fun d => decide (-32768 ≤ d.2) && decide (d.2 ≤ 32767))
  | .thermalSample _ rs => rs.all TempReading.wf
  | .domainReturnInstant _ d => decide (d.toNat < 192)
  | .fenceTrial _ _ _ _ _ a b => ({ tile := 0, s0 := a, s1 := b } : TempReading).wf
  | .samplingInterval _ rs _ => rs.all (fun r => decide (r.mv < 65536))
  | .cvyMoveNotice _ n => n.wf
  | .cvyFollowNotice _ n => n.wf
  | .cvyNakNotice _ n => n.wf
  | .cvyLeaveNotice _ n => n.wf
  | .xingTimeout _ x _ => decide (x.toNat < 25)
  | .xingStale _ x _ _ _ => decide (x.toNat < 25)
  | .xingResync _ x _ => decide (x.toNat < 23)
  | .identify .. | .fwLoad .. | .caps .. | .setEpoch .. | .setHostQ .. | .setFloor .. | .setSafeQ ..
  | .setPmbus .. | .readPolicy .. | .tileInfo .. | .tilePolicy .. | .tilePlumb .. | .tileDroop ..
  | .tileStateEnable .. | .tileStateDisable .. | .tileStateGate .. | .tileStateUngate .. | .tileStateSwap ..
  | .tileStatus .. | .domainPowerOff .. | .domainPowerOn .. | .tileCounters .. | .floorOver .. | .learnReset ..
  | .tileCapture .. | .rckLoad .. | .rckUnload .. | .rckMode .. | .rckMap .. | .rckStatus .. | .rckCounters ..
  | .rckClass .. | .rckNv .. | .rckHistory .. | .watchSet .. | .watchRead .. | .rckScales .. | .ksOpen ..
  | .ksStage .. | .ksSeal .. | .ksAbort .. | .ksResult .. | .ksWait .. | .ksCounters .. | .ksSlots ..
  | .sxtSetup .. | .sxtDisarm .. | .sxtFree .. | .sxtRead .. | .sxtStats .. | .sxtInfo .. | .lodeAge ..
  | .lodeCheck .. | .lodeEnable .. | .railMap .. | .railAct .. | .powerLimit .. | .powerCfg .. | .partMap ..
  | .ledgerRead .. | .captureAt .. | .reasons .. | .powerCounters .. | .powerStatus .. | .cvyJoin ..
  | .cvyLeave .. | .cvyMove .. | .cvyStatus .. | .cvyCounters .. | .logSelect .. | .traceArm .. | .traceStop ..
  | .traceDump .. | .logStatus .. | .calSextant .. | .calPlumb .. | .testRun .. | .quiesce .. | .testResult ..
  | .loopback .. | .fence .. | .fenceRelease .. | .faultSummary .. | .eventRead .. | .xingRead ..
  | .helmCounters .. | .spdm .. | .chartRead .. | .chartTighten .. | .mbxDoorbell .. | .helmRestart ..
  | .ctlIntClear .. | .merLoRead .. | .lbkXingRead .. | .lbkHelmRead .. | .registerWrite .. | .helmIntakeTake ..
  | .intakeReopen .. | .mailboxRepublish .. | .instantCompletion .. | .brnRstAssert .. | .brnRstRelease ..
  | .romStart .. | .powerOnMonitor .. | .vddbLow .. | .portResetAssert .. | .portResetRelease .. | .trst ..
  | .imageCheckDone .. | .helmWdog .. | .restartCheckDone .. | .arbAdvance .. | .sessionTimeout .. | .refValid ..
  | .pllLock .. | .hardwareBringupCal .. | .refLoss .. | .slewStep .. | .refCheck .. | .xoFault ..
  | .xoStartupWindowEnd .. | .plumbFire .. | .plumbRelease .. | .plumbHoldEnd .. | .plumbDecayStep ..
  | .plumbDroopExam .. | .plumbCalibration .. | .tapCheckAttempt .. | .tapCheckDeadline .. | .thrReqFall ..
  | .thrReqRise .. | .thrReqHoldEnd .. | .oscFail .. | .oscCalDone .. | .voscLow .. | .vanaLow ..
  | .slideInstant .. | .handoverRetuneStart .. | .handoverAlignStart .. | .handoverSwitch .. | .enableInstant ..
  | .disableInstant .. | .gateInstant .. | .ungateInstant .. | .softStartStep .. | .autoCalibrationSwap ..
  | .standbyTest .. | .learnExam .. | .mortarWordDiscard .. | .manifestRecord .. | .courseBoundary ..
  | .prestretchStart .. | .prestretchEnd .. | .dipStart .. | .dipEnd .. | .inboundFlit .. | .programLoadSwap ..
  | .loadComplete .. | .unloadEffect .. | .inboundTransferTimeout .. | .loCredit .. | .packetSend ..
  | .packetFormTimeout .. | .ksSealComplete .. | .ksSealDeadline .. | .ksLaunchEdge .. | .ksAckDeadline ..
  | .ksRailRaiseWrite .. | .ksRailPmbusRead .. | .ksRailCheck .. | .ksRailLowerWrite .. | .railWriteBack ..
  | .captureLatch .. | .capEvaluation .. | .ledgerSnapshot .. | .plausibilityCheck .. | .plausibilitySearchStep ..
  | .avsLinkFault .. | .avsLinkRetry .. | .pmbusFallbackRead .. | .pmbusAlert .. | .pmbusBusRecovery ..
  | .flowHbEdge .. | .flowHbDcTimeout .. | .trayPoll .. | .wireFaultWaitExpiry .. | .trayConfirmLapse ..
  | .cvyQueuedMoveStage .. | .cvyJoinInstant .. | .cvyLeaveInstant .. | .spanStart .. | .catchUp ..
  | .noticeWithdraw .. | .sextantEdge .. | .gateEdge .. | .windowOpen .. | .windowClose .. | .sextantServiceCal ..
  | .scrub .. | .eccUnc .. | .clkStop .. | .clkBack .. | .grantEnd .. | .testDone .. | .idcode .. | .lbkCfg ..
  | .lbkRun .. | .lbkRes .. | .scan .. | .mbist .. | .fuseWrite .. | .lcAdvance .. | .rmaToken .. | .bypass ..
  | .lodestarPllLock .. | .lodestarTick .. | .cvoReady .. | .vddbBackInRange .. | .vanaBackInRange .. | .calAge .. => true

/-- A command is well formed: its request fits a mailbox, and its other operands lie in range. -/
def Instr.wf (i : Instr) : Bool :=
  (match i.req? with
   | some q => q.wf
   | none => true) && i.operandsWf

end Sys2Proof
end

