-- ==== Sys2Proof/Safety.lean ====
section
/-! DEFINITION. The terms in which the statements speak: what a well-kept state is, when a request is taken and answered at once, and
the state in which the body of a command runs. -/

namespace Sys2Proof.Safety

open Sys2Proof.Machine

/-- The two memories of the block stay in canonical form: addresses strictly rise and no entry holds the default byte. -/
def MemOk (s : State) : Prop := Memory.wf s.log.mem = true ∧ Memory.wf s.log.wmem = true

/-- The arrays of the block have the sizes that the manual gives them: 256 tiles (01 R25), 192 domains (01 R30), eight rails
(09 R236), eight mailboxes (13 R317), four keystone slots (08 R214), 64 sextant channels (03 R88). -/
def Sized (s : State) : Prop :=
  s.tiles.length = 256 ∧ s.doms.length = 192 ∧ s.domRet.length = 192 ∧ s.rails.length = 8 ∧ s.mbxs.length = 8 ∧
  s.keys.slots.length = 4 ∧ s.sxt.chans.length = 64

/-- Host firmware's request `q` is taken and answered at once in the state `u`: the port takes accesses, its mailbox is not in
hand, the Helm is in RUN (or, where the command is admitted there, in ROM) with an open and empty intake, the crossings on the way
are not stale and no internal crossing has failed, and the header's reserved bits and session field are 0 (13 R317 to R322,
14 R331). -/
def ready (rom : Bool) (u : State) (q : Req) : Bool :=
  u.portUp && u.helm.queue.isEmpty && (decide (u.helm.stage = .run) || (rom && decide (u.helm.stage = .rom))) && u.helm.open_ &&
  !(u.mbx q.mbx).inHand && !(u.xings.main.getD 0 {}).stale && !(u.xings.main.getD 1 {}).stale &&
  [14, 15, 16, 17, 18, 19, 20].all (fun x => !(u.xings.main.getD x {}).failed) && decide (q.rsv = 0) && decide (q.sess = 0)

/-- The state in which the body of a command runs: the request stands in its mailbox's area, the mailbox is POSTED with the
words copied, and the Helm has taken the entry (13 R319, R322). -/
def posted (u : State) (op : Byte) (q : Req) : State :=
  let v := (u.writeReq op q).modMbx q.mbx (fun m => { m with
    st := .posted, held := .posted, cmd := m.reqArea, final := none, wait := .none })
  { v with helm := { v.helm with queue := [] } }

/-- The mailbox's command has been answered with its final status: the Helm holds DONE and the response of Table 13.3. -/
def answered (t : State) (n : BitVec 3) (op tag : Byte) (r : Resp) : Prop :=
  (t.mbx n).held = .done ∧ (t.mbx n).heldResp = area16 (respHeader op tag r :: r.words)

/-- The mailbox's command has been answered with ACCEPTED and these results. -/
def acceptedWith (t : State) (n : BitVec 3) (op tag : Byte) (ws : List Word) : Prop :=
  (t.mbx n).held = .accepted ∧
  (t.mbx n).heldResp = area16 (respHeader op tag { status := stAccepted, deny := 0, words := ws } :: ws)

/-- Of the changes that wait at tile `i`, `x` alone is due, and the tile does not withhold its actions (03 R79). -/
def dueIs (s : State) (i : Nat) (x : Sched) : Prop :=
  (s.tile i).withhold = false ∧ (s.tile i).sched.filter (fun y => s.due y.at_) = [x]

/-- The command that waits in mailbox `m`, if there is one and it stands ACCEPTED, has its final answer `r` (14 R329). -/
def settledAs (u t : State) (m : Option (BitVec 3)) (r : Resp) : Prop :=
  ∀ n, m = some n → u.mbxs.length = 8 → (u.mbx n).held = .accepted → (t.mbx n).final = some r

/-- While the chip is stopped every present tile is HALTED, and it is stopped exactly by the coolant monitor or a thermal trip (02 R66;
04 R131; 09 R261): what every step keeps. -/
def HaltInv (s : State) : Prop :=
  (s.boot.chipStop = true ↔ s.haltedB = true) ∧
  (s.boot.chipStop = true → ∀ i, i < s.tiles.length → s.present i = true → (s.tile i).st = .halted)

end Sys2Proof.Safety
end

