-- ==== Sys2Proof/Certificates/Slice0/Obligations.lean ====
section
/-! DEFINITION. The statements about BRN-256, for the provers. Throughout, `u` is the state in which a command arrives: `dt` mt have
passed since the command before it (assumption 2). A Helm command is stated for a request that is taken and answered at once
(`ready`); `posted` is the state in which its body runs, and `finish` and `accept` write its answer, as AnswerWritten says. Where a
docstring names the assumptions that open points follow, what rests on them is the model's choice or reading, no rule of the manual. -/

open Sys2Proof Sys2Proof.Machine Sys2Proof.Safety

/-- The policy commands 0x10 to 0x15 (14 R334; 03 R78; 05 R154; 11 R291; 09 R260, R262): what each sets and answers, every other field as
it was. Open points follow assumptions 7, 60. -/
def Obligations.PolicyCommands : Prop :=
  ∀ (dt : Nat) (q : Req) (s u : State), u = s.tick dt → ready false u q = true →
    (u.haltedB = false → ∀ a b, q.args = [a, b] → b &&& ~~~0xFF#32 = 0 → u.mer.st = .locked → u.member = false →
      exec (.setEpoch dt q) s = .next (State.finish { posted u 0x10 q with
          mer := { u.mer with epochPend := some (BitVec.ofNat 40 (q.w64 1).toNat, 2) } } q.mbx
        (okR (wordsOf 2 ((u.mer.now.toNat / 16000000 + 2) * 16000000))))) ∧
    (u.haltedB = false → ∀ w, q.args = [w] → w &&& ~~~0xFF#32 = 0 → 1 ≤ w.toNat → w.toNat ≤ 192 →
      exec (.setHostQ dt q) s = .next (State.finish { posted u 0x11 q with
          power := { u.power with
            hostQ := BitVec.ofNat 8 w.toNat
            hostQNow := if u.thrOn = false ∨ w.toNat < u.power.hostQNow.toNat then BitVec.ofNat 8 w.toNat else u.power.hostQNow } }
        q.mbx (okR []))) ∧
    (u.haltedB = false → ∀ w, q.args = [w, 0] → w &&& ~~~0x01FF01FF#32 = 0 → 1 ≤ fld w 0 9 → fld w 0 9 ≤ 256 → 1 ≤ fld w 16 9 →
        fld w 16 9 ≤ 256 →
      exec (.setFloor dt q) s = .next (State.finish { posted u 0x12 q with
          power := { u.power with floorW := q.w64 1 } } q.mbx (okR []))) ∧
    (u.haltedB = false → ∀ w, q.args = [w] → w &&& ~~~0x7F#32 = 0 → 8 ≤ w.toNat → w.toNat ≤ 64 → u.safeFloor = false →
      exec (.setSafeQ dt q) s = .next (State.finish { posted u 0x13 q with
          power := { u.power with safeQ := BitVec.ofNat 7 w.toNat } } q.mbx (okR []))) ∧
    (u.haltedB = false → ∀ w, q.args = [w] → w &&& ~~~0xFFFF#32 = 0 → 0xD0 ≤ fld w 8 8 → fld w 8 8 ≤ 0xFD →
        (∀ r < 8, (u.rail r).active = false) →
      exec (.setPmbus dt q) s = .next (State.finish { posted u 0x14 q with
          power := { u.power with pmbus := w } } q.mbx (okR []))) ∧
    (q.args = [] →
      exec (.readPolicy dt q) s = .next ((posted u 0x15 q).finish q.mbx
        (okR ([w32 u.power.hostQ.toNat] ++ wordsOf 2 u.power.floorW.toNat ++ [w32 u.power.safeQ.toNat, u.power.pmbus, u.power.cfg]))))

/-- IDENTIFY, CAPS, CHART_READ, CHART_TIGHTEN and FW_LOAD (14 R333; 16 R367, R382, R384): what each answers, in RUN and in ROM, and what
it starts. A tightening within the ranges of R384 that widens nothing waits for RUN in ROM, and is in force at once in RUN. Open points
follow assumptions 60, 64. -/
def Obligations.IdentityAndChart : Prop :=
  ∀ (dt : Nat) (q : Req) (s u : State), u = s.tick dt → ready true u q = true →
    (q.args = [] →
      exec (.identify dt q) s = .next ((posted u 0x00 q).finish q.mbx (okR ([0x00040002,
        if u.helm.stage = .run then u.helm.fwVer else 0, w32 u.trust.arbCount,
        w32 (u.trust.lcCode + 8 * u.helm.reason.toNat)] ++ wordsOf 2 u.rck.progId.toNat)))) ∧
    (q.args = [] →
      exec (.caps dt q) s = .next ((posted u 0x02 q).finish q.mbx (okR [
        w32 (pack [(0, 9, (allTiles.filter (fun i => u.clsOf i == 1)).length), (9, 9, (allTiles.filter (fun i => u.clsOf i == 2)).length),
          (18, 9, (allTiles.filter (fun i => u.clsOf i == 3)).length)]), w32 u.ties.mfr.toNat]))) ∧
    (∀ w, q.args = [w] → w = 1 ∨ w = 2 ∨ w = 3 →
      exec (.chartRead dt q) s = .next ((posted u 0xB2 q).finish q.mbx (okR (u.trust.charts.getD (w.toNat - 1) {}).words))) ∧
    (∀ w, q.args = [w] → u.helm.stage = .rom → 512 ≤ w.toNat → w.toNat ≤ 524800 → (∀ x ∈ u.log.inbound, x.kind ≠ .image) →
      exec (.fwLoad dt q) s = .next (State.accept { posted u 0x01 q with log := { u.log with inbound := u.log.inbound ++
        [{ kind := .image, mbx := q.mbx, tag := q.tag, bytes := w.toNat, lastAt := u.boot.uptime }] } } q.mbx [])) ∧
    (u.haltedB = false → ∀ (k : Nat) (c o : Chart), q.args.length = 7 → rsvWord 1 [3, 0xFFFF, 0x1F, 0x3FF] q.args = none →
        k = fld (q.w 1) 0 2 → c = tightChart q → 1 ≤ k → 2560 ≤ c.maxCode.toNat → c.head.toNat ≤ classLim k → 500 ≤ c.vmax.toNat →
        10000 ≤ c.peak.toNat → c.burst.toNat ≤ c.peak.toNat → c.sus.toNat ≤ c.burst.toNat →
        c.maxCode.toNat ≤ o.maxCode.toNat → o.head.toNat ≤ c.head.toNat → c.vmax.toNat ≤ o.vmax.toNat → c.peak.toNat ≤ o.peak.toNat →
        c.burst.toNat ≤ o.burst.toNat → c.sus.toNat ≤ o.sus.toNat →
      (u.helm.stage = .rom → o = ((u.trust.tightWait.find? (fun x => x.1 == k)).map (·.2)).getD (u.trust.charts.getD (k - 1) {}) →
        exec (.chartTighten dt q) s = .next (State.finish { posted u 0xB3 q with
          trust := { u.trust with tightWait := u.trust.tightWait.filter (fun x => x.1 != k) ++ [(k, c)] } } q.mbx (okR []))) ∧
      (u.helm.stage = .run → u.trust.tightWait = [] → o = u.trust.charts.getD (k - 1) {} → u.trust.charts.length = 3 →
        ∃ t, exec (.chartTighten dt q) s = .next t ∧ t.trust.charts = u.trust.charts.set (k - 1) c ∧
          answered t q.mbx 0xB3 q.tag (okR [])))

/-- TILE_INFO, TILE_STATUS, TILE_COUNTERS and FLOOR_OVER (14 R332, R335; 04 Table 4.8; 11 R293): what each reads of a present tile, and
that nothing else changes but the snapshot, the peak temperature and a record cleared on request. Open points follow assumptions 34, 74,
95. -/
def Obligations.TileReads : Prop :=
  ∀ (dt : Nat) (q : Req) (s u : State), u = s.tick dt → ready false u q = true → Sized u → ∀ (w : Word) (i : Nat), q.args = [w] →
    i = fld w 0 8 → u.present i = true →
    (w &&& ~~~0xFF#32 = 0 →
      exec (.tileInfo dt q) s = .next ((posted u 0x20 q).finish q.mbx (okR [
        w32 (pack [(0, 2, u.clsOf i), (2, 8, u.domOf i), (10, 3, u.railOf i), (13, 1, b2n (u.domOn i))]),
        w32 (pack [(0, 16, (u.tile i).learn.toNat), (16, 16, (u.chart i).maxCode.toNat)])]))) ∧
    (w &&& ~~~0xFF#32 = 0 →
      exec (.tileStatus dt q) s = .next ((posted u 0x25 q).finish q.mbx (okR (wordsOf 2 (u.statusWord u.movers i).toNat ++
        wordsOf 2 (u.tile i).policyN ++ wordsOf 2 (u.tile i).plumbW.toNat ++ wordsOf 2 (u.tile i).droopW.toNat)))) ∧
    (w &&& ~~~0xFFF#32 = 0 → fld w 8 4 = 0 →
      exec (.tileCounters dt q) s = .next (State.finish
        ((posted u 0x27 q).modTile i (fun t => { t with snap := t.pages, peak := -2048 })) q.mbx
        (okR ((u.tile i).pages.getD 0 [])))) ∧
    (w &&& ~~~0xFFF#32 = 0 → 1 ≤ fld w 8 4 → fld w 8 4 ≤ 3 → (u.tile i).snap.length = 4 →
      exec (.tileCounters dt q) s = .next ((posted u 0x27 q).finish q.mbx (okR ((u.tile i).snap.getD (fld w 8 4) [])))) ∧
    (w &&& ~~~0x1FF#32 = 0 → u.steady i = false →
      exec (.floorOver dt q) s = .next (State.finish
        (if bit w 8 then (posted u 0x28 q).modTile i (fun t => { t with dFloor := {}, floorWhy := 0 }) else posted u 0x28 q) q.mbx
        (okR ((u.tile i).dFloor.words ++ [w32 (u.tile i).floorWhy.toNat]))))

/-- TILE_POLICY, TILE_PLUMB, TILE_DROOP and LEARN_RESET (04 R121, R134; 05 R141 to R143; 11 R294): a word within its rules becomes the
tile's at once; a policy word that repeats the code expected now sets the limits alone, and one with a changed code sets them and
schedules the move for its instant, to which automatic swaps and standby tests give way; the learned limit goes back to the chart, of one
tile or of every adaptive and service tile. Open points follow assumptions 32, 101. -/
def Obligations.TileWords : Prop :=
  ∀ (dt : Nat) (q : Req) (s u : State), u = s.tick dt → ready false u q = true → u.haltedB = false →
    (∀ (a b c d e : Word) (i : Nat), q.args = [a, b, c, d, e] → a &&& ~~~0xFF#32 = 0 → b &&& ~~~0x07FFFFFF#32 = 0 → c = 0 →
        i = a.toNat → u.present i = true → (u.tile i).st ≠ .fenced → (u.tile i).cause = 0 →
        fld b 21 5 + (u.chart i).head.toNat ≤ fld b 16 5 → fld b 16 5 ≤ classLim (u.clsOf i) →
        (u.clsOf i ≠ 2 → 2 ≤ fld b 16 5) → (u.clsOf i = 2 → fld b 21 5 = 0) →
      (d = 0 → e = 0 → fld b 0 16 = (u.expAt i (2 ^ 63 + 1) none []).code →
        exec (.tilePolicy dt q) s = .next (State.finish
          (((posted u 0x21 q).modTile i (fun t => { t with
            reactLim := BitVec.ofNat 5 (fld b 16 5), planLim := BitVec.ofNat 5 (fld b 21 5), softStart := bit b 26 })).redip i)
          q.mbx (okR []))) ∧
      (∀ (T : Time) (x : Exp), T = q.w64 4 → T ≠ 0 → x = u.expAt i (u.key T) none [] → fld b 0 16 ≠ x.code → fld b 0 16 ≠ 0 →
        u.inHorizon T = true → 2 ^ 63 + leadOf x (.policy (q.w64 2)) ≤ u.key T → u.moveClash i T = false → u.schedulable = true →
        u.codeErrs i (u.key T) x (fld b 0 16) true (u.moveTimes i none) = [] → (u.ownsCode i = true → fld b 0 16 = u.cvy.code.toNat) →
        exec (.tilePolicy dt q) s = .next (State.finish (State.revalidate 4 (u.key T) [(0, i)]
          (State.booked ((((posted u 0x21 q).modTile i (fun t => { t with
            reactLim := BitVec.ofNat 5 (fld b 16 5), planLim := BitVec.ofNat 5 (fld b 21 5), softStart := bit b 26 })).redip i).modTile i
            (fun t => { t with sched := t.sched ++ [{ at_ := T, act := .code (BitVec.ofNat 16 (fld b 0 16)) }] })) i T
            (isHandover x (.policy (q.w64 2))))) q.mbx (okR [])))) ∧
    (∀ (a b c : Word) (i : Nat), q.args = [a, b, c] → a &&& ~~~0xFF#32 = 0 → b &&& ~~~0x3FFF3FFF#32 = 0 →
        c &&& ~~~0x3FFF3FFF#32 = 0 → i = a.toNat → u.present i = true → (u.tile i).st ≠ .fenced → (u.tile i).cause = 0 →
        (∀ p < 4, plumbRsv (q.w64 2) p = 0 ∧ 2 ≤ plumbStr (q.w64 2) p ∧ plumbStr (q.w64 2) p ≤ 16) →
        (u.clsOf i = 2 → ∃ p < 4, plumbEn (q.w64 2) p = true) →
        (u.clsOf i ≠ 2 → 2 ≤ ([0, 1, 2, 3].filter (fun p => plumbEn (q.w64 2) p && decide (plumbThr (q.w64 2) p ≤ 40))).length) →
      exec (.tilePlumb dt q) s = .next (State.finish ((posted u 0x22 q).modTile i (fun t => t.setPlumbW (q.w64 2) (u.steady i) u.boot.uptime)) q.mbx
        (okR []))) ∧
    (∀ (a b : Word) (i : Nat), q.args = [a, b, 0] → a &&& ~~~0xFF#32 = 0 → b &&& ~~~0x07FFFFFF#32 = 0 →
        i = a.toNat → u.present i = true → (u.tile i).st ≠ .fenced → (u.tile i).cause = 0 →
        8 ≤ fld b 0 8 → 1 ≤ fld b 11 9 → fld b 11 9 ≤ 256 → 85 ≤ fld b 20 7 → fld b 20 7 ≤ 105 →
      exec (.tileDroop dt q) s = .next (State.finish ((posted u 0x23 q).modTile i (fun t => { t with droopW := q.w64 2 })) q.mbx
        (okR []))) ∧
    (∀ (w : Word) (i : Nat), q.args = [w] → w &&& ~~~0xFF#32 = 0 → i = w.toNat → u.present i = true → u.steady i = false →
        (u.tile i).st ≠ .fenced → (u.tile i).cause = 0 →
      exec (.learnReset dt q) s = .next (State.finish
        ((posted u 0x29 q).modTile i (fun t => { t with learn := (u.chart i).maxCode })) q.mbx (okR []))) ∧
    (q.args = [256] → Sized u →
      ∃ t, exec (.learnReset dt q) s = .next t ∧ answered t q.mbx 0x29 q.tag (okR []) ∧
        (∀ i < 256, u.adaptive i = true ∨ u.service i = true → (u.tile i).st ≠ .fenced → (t.tile i).learn = (u.chart i).maxCode))


/-- TILE_STATE (14 0x24; 04 R128, R428, Table 4.6a): within the leads of Table 4.3 and the rules of its operation, each of the five
changes is scheduled for its instant T and held ACCEPTED; an automatic swap of the tile within 10 µs of T gives way to it, and a swap
stops a test of its standby; where there is neither, nothing else changes (18 R407, Table 18.8). Open points follow assumptions 30, 31,
101. -/
def Obligations.TileStates : Prop :=
  ∀ (dt : Nat) (q : Req) (s u : State), u = s.tick dt → ready false u q = true → u.haltedB = false →
    ∀ (a b c d : Word) (i : Nat) (T : Time) (e : Exp), q.args = [a, b, c, d] → a &&& ~~~0xFF#32 = 0 → b &&& ~~~7#32 = 0 → i = a.toNat →
    T = q.w64 3 → e = u.expAt i (u.key T) none [] → u.present i = true → (u.tile i).st ≠ .fenced → (u.tile i).cause = 0 →
    u.inHorizon T = true → u.schedulable = true →
    (∀ (v : State) (j : Nat) (r : Bool), (∀ y ∈ (v.tile j).sched, y.auto = true →
        (v.key T + 160000 ≤ v.key y.at_ ∨ v.key y.at_ + 160000 ≤ v.key T)) →
      v.booked j T r = (if r = true ∧ (v.tile j).stby = .testing then v.modTile j (fun t => { t with stby := .calibrating }) else v)) ∧
    (2 ^ 63 + leadOf e .enable ≤ u.key T → u.granted i = false → e.st ≠ .gated →
        (e.st = .disabled → e.code ≠ 0 ∧ u.boot.flowOnce = true ∧ u.safeFloor = false ∧ (u.rail (u.railOf i)).active = true ∧
          (u.steady i = true → e.code ≤ (u.chart i).maxCode.toNat)) →
      exec (.tileStateEnable dt q) s = .next (State.accept (State.revalidate 4 (u.key T) [(0, i)]
        (State.booked ((posted u 0x24 (withStateOp 1 q)).modTile i (fun t => { t with
          sched := t.sched ++ [{ at_ := T, act := .enable, mbx := some q.mbx }] })) i T false)) q.mbx [])) ∧
    (2 ^ 63 + 1600 ≤ u.key T →
      exec (.tileStateDisable dt q) s = .next (State.accept (State.revalidate 4 (u.key T) [(0, i)]
        (State.booked ((posted u 0x24 (withStateOp 2 q)).modTile i (fun t => { t with
          sched := t.sched ++ [{ at_ := T, act := .disable, mbx := some q.mbx }] })) i T false)) q.mbx [])) ∧
    (2 ^ 63 + 1600 ≤ u.key T → e.st ≠ .disabled →
      exec (.tileStateGate dt q) s = .next (State.accept (State.revalidate 4 (u.key T) [(0, i)]
        (State.booked ((posted u 0x24 (withStateOp 3 q)).modTile i (fun t => { t with
          sched := t.sched ++ [{ at_ := T, act := .gate, mbx := some q.mbx }] })) i T false)) q.mbx [])) ∧
    (2 ^ 63 + 1600 ≤ u.key T → u.granted i = false → e.st ≠ .disabled →
        (e.st = .gated → u.steady i = true → e.code ≤ (u.chart i).maxCode.toNat) →
      exec (.tileStateUngate dt q) s = .next (State.accept (State.revalidate 4 (u.key T) [(0, i)]
        (State.booked ((posted u 0x24 (withStateOp 4 q)).modTile i (fun t => { t with
          sched := t.sched ++ [{ at_ := T, act := .ungate, mbx := some q.mbx }] })) i T false)) q.mbx [])) ∧
    (2 ^ 63 + 1024000 ≤ u.key T → e.st ≠ .disabled → (u.tile i).failA = false → (u.tile i).failB = false →
        u.moveClash i T = false →
      exec (.tileStateSwap dt q) s = .next (State.accept (State.revalidate 4 (u.key T) [(0, i)]
        (State.booked ((posted u 0x24 (withStateOp 5 q)).modTile i (fun t => { t with
          sched := t.sched ++ [{ at_ := T, act := .swap, mbx := some q.mbx }] })) i T true)) q.mbx []))

/-- DOMAIN_POWER and TILE_CAPTURE (14 0x26, 0x2A; 01 R30; 04 R132; 08 R229): an off report acts at once, and every RUNNING, STARTING or
GATED tile of the domain is then DOMAIN_OFF, with its oscillators stopped, its handover, its swaps and its window given up and its state
noted for the return; an on report waits for its instant, and one that replaces another ends it with OK; a capture joins those that wait,
for its instant or for the earliest. Open points follow assumptions 28, 74. -/
def Obligations.DomainsAndCapture : Prop :=
  ∀ (dt : Nat) (q : Req) (s u : State), u = s.tick dt → ready false u q = true → ∀ (a b c : Word), q.args = [a, b, c] →
    (u.haltedB = false → a &&& ~~~0x1FF#32 = 0 → a.toNat % 256 < 192 → b = 0 → c = 0 →
      exec (.domainPowerOff dt q) s =
        .next (State.finish ((posted u 0x26 (withDomOp false q)).domainOff (a.toNat % 256)) q.mbx (okR []))) ∧
    (∀ (v : State) (d i : Nat), i ∈ v.domTiles d → i < v.tiles.length → (v.tile i).st = .running ∨ (v.tile i).st = .starting ∨
        (v.tile i).st = .gated →
      let t := (v.domainOff d).tile i
      t.st = .domainOff ∧ t.ret = (if (v.tile i).st = .gated then .gated else .running) ∧ t.stby = .off ∧ t.runCode = 0 ∧
      t.hov = none ∧ t.window = [] ∧ (∀ x ∈ t.sched, x.act ≠ .swap)) ∧
    (u.haltedB = false → a &&& ~~~0x1FF#32 = 0 → a.toNat % 256 < 192 → u.inHorizon (q.w64 2) = true →
        2 ^ 63 + 1024000 ≤ u.key (q.w64 2) → u.schedulable = true →
      exec (.domainPowerOn dt q) s = .next (State.accept (State.revalidate 4 (u.key (q.w64 2))
        ((u.domTiles (a.toNat % 256)).map (fun i => (0, i)))
        (State.settleO { posted u 0x26 (withDomOp true q) with domRet := u.domRet.set (a.toNat % 256) (some (q.w64 2, some q.mbx)) }
          ((u.domRet.getD (a.toNat % 256) none).bind (·.2)) (okR []))) q.mbx [])) ∧
    (a.toNat ≤ 8 → q.w64 2 = 0 ∨ u.inHorizon (q.w64 2) = true → u.keys.caps.length + u.capsHeld ≤ 3 → u.schedulable = true →
      exec (.tileCapture dt q) s = .next (State.accept ((posted u 0x2A q).addCapture (some (BitVec.ofNat 4 a.toNat))
        (if q.w64 2 = 0 then u.mer.now + 1 else q.w64 2) q.mbx) q.mbx []))

/-- RCK_LOAD, RCK_UNLOAD, RCK_MODE, RCK_MAP, RCK_HISTORY and WATCH_SET (14 R336, Table 14.15; 06 R159, R164, R168 to R170; 07 R202, R204):
a load opens its transfer and step 1 of Table 6.8; an unload waits for its boundary; the map is taken whole from the next snapshot, and
during a load it waits; a change of mode acts at once but in WARMUP, where it sets the mode that follows; a cleared history is followed by
WARMUP; a watch window is set and begins with the course after this one. Open points follow assumptions 44, 46, 47. -/
def Obligations.ReckonerCommands : Prop :=
  ∀ (dt : Nat) (q : Req) (s u : State), u = s.tick dt → ready false u q = true → u.haltedB = false →
    (∀ a b, q.args = [a, b] → b &&& ~~~0xF#32 = 0 → 1 ≤ a.toNat → a.toNat ≤ 3145728 → fld b 0 3 = 3 ∨ fld b 0 3 = 4 →
        u.rck.loading = false → (∀ g, u.tests.grant = some g → g.rck = false ∧ g.trace = false) → u.boot.lockedOnce = true →
      exec (.rckLoad dt q) s = .next (State.accept (State.openInbound (State.trimTrace { posted u 0x30 q with
          faults := { u.faults with bad := u.faults.bad.filter (fun x => x.1 != MemRegion.staging) }
          rck := { u.rck with
            loading := true, loadStep := 1, loadMode := if fld b 0 3 = 3 then .active else .advisory, carry := bit b 3
            loadMbx := some q.mbx, cleared := 0, staging := [] } })
        { kind := .container, mbx := q.mbx, tag := q.tag, bytes := a.toNat, lastAt := u.boot.uptime }) q.mbx [])) ∧
    (q.args = [] → u.rck.loading = false →
      exec (.rckUnload dt q) s = .next (State.finish { posted u 0x31 q with rck := { u.rck with
        unload := true, unloadAt := u.mer.now } } q.mbx (okR []))) ∧
    (∀ w, q.args = [w] → w = 3 ∨ w = 4 →
      (u.rck.mode = .warmup → exec (.rckMode dt q) s = .next (State.finish { posted u 0x32 q with
        rck := { u.rck with endMode := if w = 3 then .active else .advisory } } q.mbx (okR []))) ∧
      (u.rck.mode = .advisory → w = 3 → exec (.rckMode dt q) s = .next (State.finish { posted u 0x32 q with
        rck := { u.rck with mode := .warmup, warm := 16, endMode := .active, warmups := satInc u.rck.warmups } } q.mbx (okR []))) ∧
      (u.rck.mode = .active → w = 4 → exec (.rckMode dt q) s = .next (State.finish
        (((posted u 0x32 q).each allTiles State.abandonRun).modRck (fun r => { r with mode := .advisory })) q.mbx (okR []))) ∧
      (u.rck.mode = .active ∧ w = 3 ∨ u.rck.mode = .advisory ∧ w = 4 →
        exec (.rckMode dt q) s = .next ((posted u 0x32 q).finish q.mbx (okR [])))) ∧
    (mapLen q = true → rsvWord 1 [0x3FFF] q.args = none → mapFormBad q = none →
      (u.rck.loading = true → exec (.rckMap dt q) s = .next (State.accept { posted u 0x33 q with
        rck := { u.rck with mapWaits := u.rck.mapWaits ++ [q.mbx] } } q.mbx [])) ∧
      (u.rck.loading = false → u.rckMapErrs q = [] → exec (.rckMap dt q) s = .next (State.finish { posted u 0x33 q with
        rck := { u.rck with mapNext := mapWith u.rck.mapNext q } } q.mbx (okR [])))) ∧
    (q.args = [] → exec (.rckHistory dt q) s = .next ((posted u 0x38 q).clearHistory.enterWarmup.finish q.mbx (okR []))) ∧
    (u.rck.mode = .warmup ∨ u.rck.mode = .active ∨ u.rck.mode = .advisory →
      u.clearHistory.enterWarmup.rck.mode = .warmup ∧ u.clearHistory.enterWarmup.rck.warm = 16 ∧
      ∀ c ∈ u.clearHistory.enterWarmup.rck.classes, ∀ x ∈ c.tensors, x.ring = List.replicate 16 none) ∧
    (∀ w, q.args = [w] → 8 ≤ w.toNat → w.toNat ≤ 16 →
      exec (.watchSet dt q) s = .next (State.finish { posted u 0x39 q with rck := { u.rck with
        watchW := w.toNat, watchCnt := 0, watchSkip := u.rck.flight
        classes := u.rck.classes.map (fun c => { c with tensors := c.tensors.map (fun x => { x with
          wElem := 0, wZero := 0, wSat := 0, wNonfin := 0, mZero := 0, mSat := 0, mNonfin := 0, fb := false }) }) } } q.mbx (okR [])))

/-- RCK_STATUS, RCK_COUNTERS, RCK_CLASS, RCK_NV, WATCH_READ and RCK_SCALES (14 R336; 06 Table 6.9; 07 R194, R195, R204, Table 7.7): each
gives the words of its table; only flags and a capture valid bit that the request names are cleared, and page 0 takes the snapshot. Open
points follow assumptions 47, 74. -/
def Obligations.ReckonerReads : Prop :=
  ∀ (dt : Nat) (q : Req) (s u : State), u = s.tick dt → ready false u q = true →
    (q.args = [] →
      exec (.rckStatus dt q) s = .next ((posted u 0x34 q).finish q.mbx (okR (wordsOf 2 (pack [(0, 3, u.rck.mode.code),
        (3, 2, u.rck.course.toNat), (5, 5, if u.rck.mode = .warmup then u.rck.warm else 0), (10, 1, b2n (decide (u.rck.spill ≠ 0))),
        (11, 9, 64 * u.rck.spill), (20, 16, u.rck.mask.toNat), (36, 1, b2n u.rck.loading)]) ++ wordsOf 2 u.rck.progId.toNat ++
        [u.rck.joest]))) ∧
      exec (.rckScales dt q) s = .next ((posted u 0x3B q).finish q.mbx (okR [w32 (pack [(0, 8, u.fusedCode 0), (8, 8, u.fusedCode 1),
        (16, 8, u.fusedCode 2)])]))) ∧
    (∀ w, q.args = [w] →
      (w = 0 → exec (.rckCounters dt q) s = .next (State.finish { posted u 0x35 q with
        rck := { u.rck with snap := [u.rck.words.take 15, (u.rck.words.drop 15).take 15] } } q.mbx (okR (u.rck.words.take 15)))) ∧
      (w = 1 → u.rck.snap.length = 2 → exec (.rckCounters dt q) s = .next ((posted u 0x35 q).finish q.mbx
        (okR (u.rck.snap.getD 1 [])))) ∧
      (∀ x, w &&& ~~~0xFF0F#32 = 0 → u.cls (fld w 0 4) = some x →
        exec (.rckClass dt q) s = .next (State.finish ((posted u 0x36 q).modCls (fld w 0 4) (fun y => { y with
          flags := y.flags &&& ~~~BitVec.ofNat 64 (fld w 8 8) })) q.mbx (okR x.words))) ∧
      (w = 0 ∨ w = 1 → exec (.rckNv dt q) s = .next (State.finish (if w = 1 then { posted u 0x37 q with
          rck := { u.rck with capture := setFld u.rck.capture 0 1 0 } } else posted u 0x37 q) q.mbx
        (okR (wordsOf 4 u.rck.capture.toNat)))) ∧
      (∀ x, w &&& ~~~0x1FF#32 = 0 → u.cls (fld w 0 4) = some x → 2 * fld w 4 4 + fld w 8 1 < x.tensors.length →
        exec (.watchRead dt q) s = .next ((posted u 0x3A q).finish q.mbx
          (okR (wordsOf 9 (x.tensors.getD (2 * fld w 4 4 + fld w 8 1) {}).report.toNat)))))

/-- KS_OPEN, KS_STAGE, KS_SEAL and KS_ABORT (08 R214, R220 to R222, R231; 14 R337): the lowest free slot takes the keystone with the next
`ks_seq`; actions that all pass are staged, what gives way to them (18 Table 18.8) does, and their shadows have to acknowledge; a seal of
an empty keystone commits it, a seal of an acknowledged one ends at once and any other waits; an abort by the host has cause 1. Open
points follow assumptions 48, 101. -/
def Obligations.KeystoneCommands : Prop :=
  ∀ (dt : Nat) (q : Req) (s u : State), u = s.tick dt → ready false u q = true → u.haltedB = false →
    (∀ a b k, q.args = [a, b] → u.inHorizon (q.w64 1) = true → 2 ^ 63 + 32000 ≤ u.key (q.w64 1) → u.schedulable = true →
        k < 4 → (k = 3 → u.member = false) → (u.slot k).st = .free → (∀ j < k, (u.slot j).st ≠ .free) →
      exec (.ksOpen dt q) s = .next (State.finish (let v := (posted u 0x40 q).modSlot k (fun _ =>
          { st := .opened, seq := u.keys.next, t := q.w64 1 })
        { v with keys := { v.keys with next := if u.keys.next = 0xFFFFFFFF then 1 else u.keys.next + 1 } }) q.mbx
        (okR [w32 k, u.keys.next]))) ∧
    (∀ w rest k n, q.args = w :: rest → w &&& ~~~0xF#32 = 0 → k = fld w 0 2 → n = fld w 2 2 → rest.length = 4 * n → 1 ≤ n →
        (u.slot k).acts.length + n ≤ 512 → (k = 3 → u.member = false) → (u.slot k).st = .opened → (u.slot k).sealing = false →
        u.firstFail (2 ^ 63) k (u.key (u.slot k).t) false 0 (u.slot k).acts (reqActs q) = none →
      exec (.ksStage dt q) s = .next (State.finish ((State.bookActs k (u.slot k).t (u.slot k).acts (reqActs q) (posted u 0x41 q)).modSlot k (fun x => { x with
          acts := x.acts ++ reqActs q, staged := x.staged ++ List.replicate n u.mer.now
          acked := x.acked && (reqActs q).all (fun a => decide (9 < actKind a)) })) q.mbx
        (okR [w32 ((u.slot k).acts.length + n)]))) ∧
    (∀ w k, q.args = [w] → w &&& ~~~3#32 = 0 → k = w.toNat → (k = 3 → u.member = false) →
      ((u.slot k).st = .opened → (u.slot k).sealing = false →
        ((u.slot k).acts = [] → exec (.ksSeal dt q) s = .next (((posted u 0x42 q).commitKs k).finish q.mbx (okR []))) ∧
        ((u.slot k).acts ≠ [] → (u.slot k).acked = true → exec (.ksSeal dt q) s =
          .next (State.finish ((posted u 0x42 q).modSlot k (fun x => { x with st := .sealed })) q.mbx (okR []))) ∧
        ((u.slot k).acts ≠ [] → (u.slot k).acked = false → exec (.ksSeal dt q) s =
          .next (State.accept ((posted u 0x42 q).modSlot k (fun x => { x with sealing := true, sealMbx := some q.mbx })) q.mbx []))) ∧
      ((u.slot k).st = .opened ∨ (u.slot k).st = .sealed →
        exec (.ksAbort dt q) s = .next (((posted u 0x43 q).abortKs k 1 none).finish q.mbx (okR []))))

/-- KS_RESULT, KS_WAIT, KS_COUNTERS and KS_SLOTS (08 R233, R234; 14 R337): the outcome of a keystone among the last 16, at once or when it
resolves; the counters; the states, sequence numbers and instants of the four slots. Open points follow assumption 74. -/
def Obligations.KeystoneReads : Prop :=
  ∀ (dt : Nat) (q : Req) (s u : State), u = s.tick dt → ready false u q = true →
    (∀ w r, q.args = [w] → w ≠ 0 → u.keys.results.find? (fun r => r.seq == w) = some r →
      exec (.ksResult dt q) s = .next ((posted u 0x44 q).finish q.mbx (okR r.words)) ∧
      ((∀ k < 4, (u.slot k).seq = w → (u.slot k).st ≠ .opened ∧ (u.slot k).st ≠ .sealed) →
        exec (.ksWait dt q) s = .next ((posted u 0x45 q).finish q.mbx (if r.st = .committed then okR r.words else abortedR r)))) ∧
    (∀ w k, q.args = [w] → k < 4 → (u.slot k).seq = w → (u.slot k).st = .opened ∨ (u.slot k).st = .sealed →
        (∀ j < k, (u.slot j).seq = w → (u.slot j).st ≠ .opened ∧ (u.slot j).st ≠ .sealed) →
      exec (.ksWait dt q) s = .next (State.accept ((posted u 0x45 q).modSlot k (fun x => { x with waits := x.waits ++ [q.mbx] })) q.mbx [])) ∧
    (q.args = [] →
      exec (.ksCounters dt q) s = .next ((posted u 0x46 q).finish q.mbx
        (okR (u.keys.committed :: u.keys.aborted ++ [u.keys.misses, u.keys.moved]))) ∧
      exec (.ksSlots dt q) s = .next ((posted u 0x47 q).finish q.mbx (okR (
        w32 (pack [(0, 3, (u.slot 0).st.code), (3, 3, (u.slot 1).st.code), (6, 3, (u.slot 2).st.code), (9, 3, (u.slot 3).st.code)]) ::
        [(u.slot 0).seq, (u.slot 1).seq, (u.slot 2).seq, (u.slot 3).seq] ++ wordsOf 2 (u.slot 0).t.toNat ++
        wordsOf 2 (u.slot 1).t.toNat ++ wordsOf 2 (u.slot 2).t.toNat ++ wordsOf 2 (u.slot 3).t.toNat))))

/-- SXT_SETUP, SXT_DISARM and SXT_FREE by host firmware (03 R89, R91 to R94, R99, R100; 14 R338): a setup within its form claims an
unclaimed channel and takes effect at once, or waits while the channel is armed or being calibrated or crossing 16 is stale; a disarm
answers the unpaired results it forms, turns `arm` off and lets a setup that waited take effect; a free channel has no owner and no setup.
Open points follow assumptions 26, 69. -/
def Obligations.SextantSetup : Prop :=
  ∀ (dt : Nat) (q : Req) (s u : State), u = s.tick dt → ready false u q = true → u.haltedB = false →
    ∀ (a : Word) (rest : List Word) (n : Nat), q.args = a :: rest → a &&& ~~~0x3F#32 = 0 → n = a.toNat → n < 60 →
    (rest.length = 5 → (u.chan n).owner = .none ∨ (u.chan n).owner = .host → (u.chan n).failed = false →
        fld (q.w64 2) 44 20 = 0 → sxArm (q.w64 2) ≠ 3 →
        (∀ c ∈ [sxStart (q.w64 2), sxStop (q.w64 2)], u.srcOk n c (sxArm (q.w64 2)) = true ∧
          ∀ i, srcTile c = some i → (u.tile i).st ≠ .fenced) →
        edgeOk (sxStart (q.w64 2)) (sxStartEdge (q.w64 2)) = true → edgeOk (sxStop (q.w64 2)) (sxStopEdge (q.w64 2)) = true →
        (∀ g ∈ srcGroups (q.w64 2), u.groupSources n (q.w64 2) g ≤ 8) →
        (sxArm (q.w64 2) ≠ 2 → q.w64 4 = 0 ∧ q.w 6 = 0) → u.boot.lockedOnce = true →
        (sxArm (q.w64 2) = 2 → u.inHorizon (q.w64 4) = true ∧ 32 ≤ (q.w 6).toNat ∧ u.schedulable = true) →
      ((u.chan n).armed = false → (u.chan n).caling = false → (u.chan n).waits = [] → u.xingOk 16 = true →
        exec (.sxtSetup dt q) s = .next (State.finish (State.applySetup ((posted u 0x50 q).modChan n (fun c => { c with owner := .host }))
          n (q.w64 2) (q.w64 4) (q.w 6)) q.mbx (okR []))) ∧
      ((u.chan n).armed = true ∨ (u.chan n).caling = true ∨ u.xingOk 16 = false →
        exec (.sxtSetup dt q) s = .next (State.accept ((posted u 0x50 q).modChan n (fun c => { c with
          owner := .host, waits := c.waits ++ [(q.w64 2, q.w64 4, q.w 6, some q.mbx)] })) q.mbx []))) ∧
    (rest = [] → (u.chan n).owner = .host →
      exec (.sxtDisarm dt q) s = .next (State.finish ((((posted u 0x51 q).disarm n).1.modChan n (fun c => { c with
        setup := setFld c.setup 29 2 0 })).takeSetups n) q.mbx (okR [w32 ((posted u 0x51 q).disarm n).2])) ∧
      ((u.chan n).armed = false → exec (.sxtFree dt q) s = .next (State.finish ((posted u 0x52 q).modChan n (fun c => { c with
        owner := .none, setup := 0, open_ := 0, len := 0, gateUsed := false })) q.mbx (okR []))))

/-- SXT_INFO, SXT_STATS and SXT_READ by host firmware on a channel it owns (03 R97, R98; 14 R338): the channel's counters; its statistics,
cleared on request; and its three oldest buffered records, or as many as there are, which leave the buffer with no other record, whereupon
the FIFOs drain into it again: word 1 gives their number and that of the caller's records then left. Open points follow assumption 26. -/
def Obligations.SextantReads : Prop :=
  ∀ (dt : Nat) (q : Req) (s u : State), u = s.tick dt → ready false u q = true →
    ∀ (a : Word) (n : Nat), q.args = [a] → n = fld a 0 6 → n < 60 → (u.chan n).owner = .host →
    (a &&& ~~~0x3F#32 = 0 → exec (.sxtInfo dt q) s = .next ((posted u 0x55 q).finish q.mbx (okR [
      w32 (pack [(0, 3, 1), (3, 1, b2n (u.chan n).armed), (4, 1, b2n (u.chan n).calAge), (5, 1, b2n (!(u.chan n).lock))]),
      (u.chan n).starts, (u.chan n).stops, (u.chan n).dead, (u.chan n).unpaired, (u.chan n).drops]))) ∧
    (a &&& ~~~0x13F#32 = 0 → exec (.sxtStats dt q) s = .next (State.finish
      (if bit a 8 then (posted u 0x54 q).modChan n (fun c => { c with
        sCount := 0, sMin := 0, sMax := 0, sSum := 0, sSq := 0, satS := false, satQ := false, sFlags := 0, sLeft := 0 })
       else posted u 0x54 q) q.mbx
      (okR ([(u.chan n).sCount, (u.chan n).sMin, (u.chan n).sMax] ++ wordsOf 2 (twos 64 (u.chan n).sSum) ++
        wordsOf 2 (u.chan n).sSq ++ [w32 (pack [(0, 1, b2n (u.chan n).satS), (1, 1, b2n (u.chan n).satQ),
          (2, 8, (u.chan n).sFlags.toNat)]), (u.chan n).sLeft])))) ∧
    (a &&& ~~~0x3F#32 = 0 → ∀ (x : List (BitVec 128) × List (BitVec 128)) (v : State),
        x = takeRecs (fun r => fld r 67 6 == n) 3 u.sxt.buffer →
        v = State.each { posted u 0x53 q with sxt := { u.sxt with buffer := x.2 } } (List.range 64) State.drain →
      exec (.sxtRead dt q) s = .next (v.finish q.mbx (okR (w32 (pack [(0, 2, x.1.length),
          (16, 13, (v.sxt.buffer.filter (fun r => decide ((u.chan (fld r 67 6)).owner = .host))).length)]) ::
        x.1.flatMap (fun r => wordsOf 4 r.toNat)))) ∧
      x.1 = (u.sxt.buffer.filter (fun r => fld r 67 6 == n)).take 3 ∧
      x.2.filter (fun r => fld r 67 6 != n) = u.sxt.buffer.filter (fun r => fld r 67 6 != n) ∧
      x.2.filter (fun r => fld r 67 6 == n) = (u.sxt.buffer.filter (fun r => fld r 67 6 == n)).drop 3)

/-- LODE_ENABLE by host firmware, and LODE_AGE and LODE_CHECK in the message of an attested operator session (02 R58; 03 R101, R102; 14
R331; 16 R376): the lodestar is enabled again with a new start-up window; the ageing adjustment is taken, and a change restarts the
baseline; the threshold is set unless the request leaves it. Open points follow assumptions 22, 23. -/
def Obligations.LodestarCommands : Prop :=
  ∀ (dt : Nat) (q : Req) (s u : State), u = s.tick dt →
    (ready false u q = true → u.haltedB = false → q.args = [] → u.sxt.enabled = false →
        u.boot.xoGoodAt + 160000000 ≤ u.boot.uptime →
      exec (.lodeEnable dt q) s = .next (State.finish { posted u 0x58 q with
        boot := { u.boot with xoWindow := true }
        sxt := { u.sxt with enabled := true, restarts := satInc u.sxt.restarts } } q.mbx (okR []))) ∧
    (ready false u { q with sess := 0 } = true → q.sess ≠ 0 → u.isOperator q.sess = true → ∀ w, q.args = [w] →
      (w &&& ~~~0xFFFF#32 = 0 → u.haltedB = false → u.sxt.enabled = true →
        ∃ t, exec (.lodeAge dt q) s = .next t ∧ t.sxt.age.toNat = w.toNat ∧ (t.mbx q.mbx).held = .accepted ∧
          ((t.mbx q.mbx).final.map (·.status)) = some stOK ∧
          (u.sxt.age.toNat ≠ w.toNat → t.sxt.base = none ∧ t.sxt.offsets = [] ∧ t.sxt.dev = 0) ∧
          (u.sxt.age.toNat = w.toNat → t.sxt.base = u.sxt.base ∧ t.sxt.offsets = u.sxt.offsets) ∧ t.sxt.thr = u.sxt.thr ∧
          t.tiles = u.tiles ∧ t.rails = u.rails ∧ t.keys = u.keys ∧ t.mer = u.mer) ∧
      (50 ≤ w.toNat ∧ w.toNat ≤ 100000 ∨ w = 0 →
        ∃ t, exec (.lodeCheck dt q) s = .next t ∧ t.sxt.thr = (if w = 0 then u.sxt.thr else w.toNat) ∧
          (t.mbx q.mbx).held = .accepted ∧ ((t.mbx q.mbx).final.map (·.status)) = some stOK ∧ t.sxt.age = u.sxt.age ∧
          t.sxt.base = u.sxt.base ∧ t.tiles = u.tiles ∧ t.rails = u.rails ∧ t.keys = u.keys ∧ t.mer = u.mer))

/-- RAIL_MAP, RAIL_ACT, POWER_LIMIT and POWER_CFG (14 R339; 09 R236, R237, R243, R248): a map word is taken until the first activation; an
activation holds its command ACCEPTED, and a second one of the rail waits for it; a limit within the chart and the order of the limits is
in force at once; the configuration is in force from the next interval. Open points follow assumption 54. -/
def Obligations.RailCommands : Prop :=
  ∀ (dt : Nat) (q : Req) (s u : State), u = s.tick dt → ready false u q = true → u.haltedB = false →
    (∀ a b c r, q.args = [a, b, c] → a &&& ~~~7#32 = 0 → b &&& ~~~0xFFF7FFFF#32 = 0 → c &&& ~~~0x00FFFFFF#32 = 0 → r = a.toNat →
        (rmPresent (q.w64 2) = true → rmILsb (q.w64 2) ≠ 7 ∧ 500 ≤ rmVInit (q.w64 2) ∧ rmVInit (q.w64 2) ≤ 950) →
        (rmPresent (q.w64 2) = false → ∀ i < 256, u.present i = true → u.railOf i ≠ r) → u.power.mapLock = false →
      exec (.railMap dt q) s = .next (State.finish ((posted u 0x60 q).modRail r (fun x => { x with map := q.w64 2 })) q.mbx (okR []))) ∧
    (∀ a r, q.args = [a] → a &&& ~~~7#32 = 0 → r = a.toNat →
      ((u.rail r).acting = none → u.boot.lockedOnce = true → rmPresent (u.rail r).map = true → (u.rail r).active = false →
          rmVInit (u.rail r).map ≤ u.railMax r → u.power.pmbFail ≤ 2 →
        exec (.railAct dt q) s = .next (State.accept
          (let v : State := ((posted u 0x61 q).modRail r (fun x => { x with acting := some q.mbx })).setWait q.mbx
              (.railAct (BitVec.ofNat 3 r))
           { v with power := { v.power with mapLock := true } }) q.mbx [])) ∧
      ((u.rail r).acting ≠ none →
        exec (.railAct dt q) s = .next (State.accept ((posted u 0x61 q).setWait q.mbx (.railQueued (BitVec.ofNat 3 r))) q.mbx []))) ∧
    (∀ a v k, q.args = [a, v] → a &&& ~~~3#32 = 0 → k = a.toNat → k < 3 → v.toNat ≤ u.ceiling k → (k = 0 → 10000 ≤ v.toNat) →
        (k ≠ 0 → v.toNat ≤ (u.power.limits.getD (k - 1) 0).toNat) →
      exec (.powerLimit dt q) s = .next (State.finish (State.revalidate 4 (2 ^ 63) [(2, 0), (2, 1), (2, 2)] { posted u 0x62 q with
        power := { u.power with limits := u.power.limits.set k v } }) q.mbx (okR []))) ∧
    (∀ w, q.args = [w] → w &&& ~~~0x3FFF#32 = 0 → 5 ≤ cfgEst w → cfgEst w ≤ 50 → 20 ≤ cfgTel w → cfgTel w ≤ 80 →
      exec (.powerCfg dt q) s = .next (State.finish { posted u 0x63 q with power := { u.power with cfg := w } } q.mbx (okR [])))

/-- PART_MAP, LEDGER_READ, CAPTURE_AT, REASONS, POWER_COUNTERS and POWER_STATUS (14 R332, R339; 09 R252, R254, R257, R263): the entries
wait for the next interval boundary; the reads give the words of their tables, page 0 of a snapshot taking it; a capture of counters joins
those that wait. Open points follow assumptions 52, 74. -/
def Obligations.PowerReads : Prop :=
  ∀ (dt : Nat) (q : Req) (s u : State), u = s.tick dt → ready false u q = true →
    (u.haltedB = false → mapLen q = true → rsvWord 1 [0x3FFF] q.args = none → mapFormBad q = none →
        (∀ p ∈ enumFrom' (mapFirst q) (mapEntries q), bit p.2 7 = true → u.present p.1 = true) →
      exec (.partMap dt q) s = .next (State.finish { posted u 0x64 q with
        ledger := { u.ledger with mapNext := mapWith u.ledger.mapNext q } } q.mbx (okR []))) ∧
    (∀ w, q.args = [w] →
      (w.toNat < 16 → exec (.ledgerRead dt q) s = .next ((posted u 0x65 q).finish q.mbx (okR (wordsOf 8 (u.ledger.record w.toNat))))) ∧
      (16 ≤ w.toNat → w.toNat ≤ 25 → exec (.ledgerRead dt q) s = .next ((posted u 0x65 q).finish q.mbx (okR (
        wordsOf 2 (u.ledger.sAccts.getD w.toNat {}).energy.toNat ++ wordsOf 2 u.ledger.tSnap.toNat ++
        [w32 (b2n (u.ledger.sAccts.getD w.toNat {}).sat)])))) ∧
      (w = 0 → exec (.reasons dt q) s = .next (State.finish { posted u 0x67 q with
        power := { u.power with snapRea := u.reasonPages } } q.mbx (okR (u.reasonPages.getD 0 [])))) ∧
      (w = 1 → u.power.snapRea.length = 2 → exec (.reasons dt q) s = .next ((posted u 0x67 q).finish q.mbx
        (okR (u.power.snapRea.getD 1 [])))) ∧
      (w = 0 → exec (.powerCounters dt q) s = .next (State.finish { posted u 0x68 q with
        power := { u.power with snapPow := pagesOf 6 u.powerWords } } q.mbx (okR (u.powerWords.take 15)))) ∧
      (1 ≤ w.toNat → w.toNat ≤ 5 → u.power.snapPow.length = 6 → exec (.powerCounters dt q) s = .next ((posted u 0x68 q).finish q.mbx
        (okR (u.power.snapPow.getD w.toNat []))))) ∧
    (∀ a b, q.args = [a, b] → u.inHorizon (q.w64 1) = true → u.keys.caps.length + u.capsHeld ≤ 3 → u.schedulable = true →
      exec (.captureAt dt q) s = .next (State.accept ((posted u 0x66 q).addCapture none (q.w64 1) q.mbx) q.mbx [])) ∧
    (q.args = [] → exec (.powerStatus dt q) s = .next ((posted u 0x69 q).finish q.mbx (okR ([
      w32 (pack [(0, 9, (u.power.caps.getD 0 256).toNat), (9, 9, (u.power.caps.getD 1 256).toNat), (18, 9, (u.power.caps.getD 2 256).toNat)]),
      w32 (pack [(0, 5, u.margin), (5, 1, b2n u.power.distrust), (6, 2, u.boot.cool.code), (8, 8, maskOf (·.suspect) u.rails),
        (16, 8, maskOf (·.fault) u.rails)]),
      w32 (pack [(0, 8, maskOf (·.active) u.rails), (8, 2, u.power.avsBad.toNat)])] ++ u.power.limits))))

/-- CVY_JOIN, CVY_LEAVE, CVY_MOVE, CVY_STATUS and CVY_COUNTERS (10 R266 to R275, R285, R286; 14 R340): a join within its rules makes the
block JOINING, with the join keystone sought for J; a leave is noted for its instant, and ends a join in hand; the pilot's move of a tile
of the convoy is sent as a notice and staged; the reads give the words of their tables. Open points follow assumptions 57, 58, 84. -/
def Obligations.ConvoyCommands : Prop :=
  ∀ (dt : Nat) (q : Req) (s u : State), u = s.tick dt → ready false u q = true →
    (u.haltedB = false → ∀ a b c d e, q.args = [a, b, c, d, e] → b &&& ~~~0x003FFFFF#32 = 0 → c &&& ~~~0xFFFF#32 = 0 →
        joinId (q.w64 1) ≠ 0 → joinMember (q.w64 1) ≤ joinN1 (q.w64 1) → 1 ≤ joinLead (q.w64 1) → joinLead (q.w64 1) ≤ 10 →
        2560 ≤ c.toNat → c.toNat ≤ 40960 → c.toNat ≤ (u.trust.charts.getD 0 {}).maxCode.toNat → u.inHorizon (q.w64 4) = true →
        u.mer.st = .locked → u.mer.epochSet = true → u.member = false → u.boot.cool = .good →
      exec (.cvyJoin dt q) s = .next (State.accept (State.stageJoin { posted u 0x70 q with cvy := { u.cvy with
        st := .joining, join := q.w64 1, tag := joinTag (q.w64 1), code := BitVec.ofNat 16 c.toNat, joinAt := u.joinInst (q.w64 4)
        joinMbx := some q.mbx } }) q.mbx (wordsOf 2 (u.joinInst (q.w64 4)).toNat))) ∧
    (u.haltedB = false → ∀ a b, q.args = [a, b] → u.inHorizon (q.w64 1) = true → 2 ^ 63 + 32000 ≤ u.key (q.w64 1) →
        u.cvy.leaveAt = none → u.schedulable = true →
      (u.cvy.st = .active ∨ u.cvy.st = .suspended →
        exec (.cvyLeave dt q) s = .next (State.accept { posted u 0x71 q with cvy := { u.cvy with
          st := if u.cvy.st = .suspended then .suspended else .leaving, leaveAt := some (q.w64 1), leaveMbx := some q.mbx } } q.mbx [])) ∧
      (u.cvy.st = .joining → ∃ t, exec (.cvyLeave dt q) s = .next t ∧ t.cvy.st = .leaving ∧ t.cvy.leaveAt = some (q.w64 1) ∧
        t.cvy.leaveMbx = some q.mbx ∧ t.cvy.joinMbx = none ∧ acceptedWith t q.mbx 0x71 q.tag [])) ∧
    (u.haltedB = false → ∀ a b c T code, q.args = [a, b, c] → a &&& ~~~0x1FFFF#32 = 0 → code = fld a 0 16 → 2560 ≤ code → code ≤ 40960 →
        u.inHorizon (q.w64 2) = true → T = u.moveInst (q.w64 2) → (bit a 16 = true → T = q.w64 2) →
        u.cvy.st = .active → joinMember u.cvy.join = 0 → u.schedulable = true → (u.slot 3).st = .free → u.cvy.queued = none →
        u.convoyRefusal 3 T code false = none →
      exec (.cvyMove dt q) s = .next (State.accept ((State.sendNotice { posted u 0x72 q with cvy := { u.cvy with
          nextSeq := u.cvy.nextSeq + 1
          moveMbx := u.cvy.moveMbx ++ [(u.cvy.nextSeq, q.mbx)]
          latest := some { t := T, code := BitVec.ofNat 16 code, mseq := u.cvy.nextSeq }, seen := u.cvy.nextSeq :: u.cvy.seen } }
        1 T.toNat (pack [(0, 16, code), (16, 32, u.cvy.nextSeq.toNat)]) (some T) false).convoyStage T .move code u.cvy.nextSeq.toNat false)
        q.mbx (wordsOf 2 T.toNat ++ [u.cvy.nextSeq]))) ∧
    (q.args = [] → exec (.cvyStatus dt q) s = .next ((posted u 0x73 q).finish q.mbx (okR (wordsOf 4 (pack [(0, 3, u.cvy.st.code),
      (3, 1, b2n u.cvy.oos), (4, 1, b2n (u.member && joinMember u.cvy.join == 0)), (8, 9, u.cvy.rate.toNat), (20, 2, u.movesPending),
      (32, 16, joinId u.cvy.join), (48, 16, u.cvy.code.toNat), (64, 16, joinMember u.cvy.join), (80, 16, u.cvy.tag.toNat),
      (96, 32, u.cvy.lastSeq.toNat)]))))) ∧
    (∀ w, q.args = [w] →
      (w = 0 → exec (.cvyCounters dt q) s = .next (State.finish { posted u 0x74 q with cvy := { u.cvy with snap := u.cvy.pages } } q.mbx
        (okR ([u.cvy.cMoves, u.cvy.cCatch] ++ u.cvy.cNaks ++ [u.cvy.cNakRx, u.cvy.cFolTx, u.cvy.cFolRx, u.cvy.cLate, u.cvy.cRange,
          u.cvy.cTag, u.cvy.cBad, u.cvy.cStall, u.cvy.cWith])))) ∧
      (w = 1 → u.cvy.snap.length = 2 → exec (.cvyCounters dt q) s = .next ((posted u 0x74 q).finish q.mbx
        (okR (u.cvy.snap.getD 1 [])))))

/-- LOG_SELECT, TRACE_ARM, TRACE_STOP, TRACE_DUMP and LOG_STATUS (15 R351, R355, R358 to R360; 14 R341): the mask and the decimation are
set; arming clears the bytes held and waits for its instant; stopping answers the bytes held; a dump of a span that is held is streamed.
Open points follow assumptions 39, 65. -/
def Obligations.LogCommands : Prop :=
  ∀ (dt : Nat) (q : Req) (s u : State), u = s.tick dt → ready false u q = true →
    (u.haltedB = false → ∀ a b, q.args = [a, b] → b &&& ~~~0xFF#32 = 0 → b ≠ 0 →
      (bit a 10 = true → exec (.logSelect dt q) s = .next (State.finish { posted u 0x80 q with
        log := { u.log with mask := a, dec := BitVec.ofNat 8 b.toNat, decNew := true } } q.mbx (okR []))) ∧
      (bit a 10 = false → exec (.logSelect dt q) s = .next (State.finish (State.each { posted u 0x80 q with
        log := { u.log with mask := a, dec := BitVec.ofNat 8 b.toNat, decNew := true, defer := [] } } allTiles
        (fun s i => s.clearTelem i false)) q.mbx (okR [])))) ∧
    (u.haltedB = false → (∀ g, u.tests.grant = some g → g.trace = false) →
      (∀ a b c, q.args = [a, b, c] → a &&& ~~~0xFF#32 = 0 → u.inHorizon (q.w64 2) = true → u.log.armed = false → u.log.runs = false →
          u.schedulable = true →
        exec (.traceArm dt q) s = .next (State.finish { posted u 0x81 q with log := { u.log with
          armed := true, runs := false, groups := BitVec.ofNat 8 a.toNat, armAt := q.w64 2, held := 0
          mem := memClear u.log.mem 0 u.log.held } } q.mbx (okR []))) ∧
      (q.args = [] → exec (.traceStop dt q) s = .next (State.finish { posted u 0x82 q with
        log := { u.log with armed := false, runs := false } } q.mbx (okR [w32 u.log.held]))) ∧
      (∀ a b, q.args = [a, b] → a.toNat % 64 = 0 → b.toNat % 64 = 0 → a.toNat + b.toNat ≤ u.log.held → u.log.runs = false →
          a.toNat + b.toNat ≤ u.traceCap →
        (b = 0 → exec (.traceDump dt q) s = .next ((posted u 0x83 q).finish q.mbx (okR []))) ∧
        (b ≠ 0 → exec (.traceDump dt q) s = .next (State.accept (State.each { posted u 0x83 q with
          log := { u.log with dumps := u.log.dumps ++ [(a.toNat, a.toNat + b.toNat, some q.mbx)] } } (List.range 63)
          (fun s _ => s.formDump)) q.mbx [])))) ∧
    (q.args = [] → exec (.logStatus dt q) s = .next ((posted u 0x84 q).finish q.mbx
      (okR [w32 u.traceCap, w32 u.log.held, u.log.drops, u.log.traceDrops, u.log.discards])))

/-- CAL_SEXTANT, CAL_PLUMB, TEST_RUN, QUIESCE, TEST_RESULT and LOOPBACK (14 R342, R343, Tables 14.11, 14.12; 18 R408 to R413; 03 R99):
what can run is held ACCEPTED on its operation; a trim that R149 holds back, or a test whose resource is in service, is deferred with a
handle (a standby test also where another one holds the standby: the model's choice, assumption 90); a grant that covers a deferred test
is held ACCEPTED, and one that covers none answers at once that none ran; a result is read by its handle; a loop-back of an interface that
is not in use is held ACCEPTED. Open points follow assumptions 66, 90. -/
def Obligations.TestCommands : Prop :=
  ∀ (dt : Nat) (q : Req) (s u : State), u = s.tick dt → ready false u q = true →
    (u.haltedB = false → ∀ a n, q.args = [a] → a &&& ~~~0x3F#32 = 0 → n = a.toNat → n < 60 → (u.chan n).armed = false →
        (u.chan n).caling = false → (u.chan n).owner = .none ∨ (u.chan n).owner = .host →
      exec (.calSextant dt q) s = .next (State.accept (((posted u 0x90 q).modChan n (fun c => { c with caling := true })).setWait q.mbx
        (.calSextant (BitVec.ofNat 6 n))) q.mbx [])) ∧
    (u.haltedB = false → ∀ a i, q.args = [a] → a &&& ~~~0xFF#32 = 0 → i = a.toNat → u.present i = true → (u.tile i).st ≠ .fenced →
        (u.tile i).cause = 0 →
      ((∀ p < 4, plumbEn (u.tile i).plumbW p = true → u.trimOk i p = true) →
        exec (.calPlumb dt q) s = .next (State.accept ((posted u 0x91 q).setWait q.mbx (.calPlumb (BitVec.ofNat 8 i))) q.mbx [])) ∧
      (∀ p < 4, plumbEn (u.tile i).plumbW p = true → u.trimOk i p = false →
        exec (.calPlumb dt q) s = .next (State.finish ((State.newTest (posted u 0x91 q) 0x91 (w32 i)).2.modTile i
          (fun t => { t with trimWait := true })) q.mbx (deferredR u.tests.nextH)))) ∧
    (u.haltedB = false → ∀ a b, q.args = [a, b] → a &&& ~~~0xFF#32 = 0 → testBad u q = none →
      (u.testBusy a.toNat b.toNat = false → a ≠ 2 → exec (.testRun dt q) s = .next (State.accept
        ((State.newTest (posted u 0x92 q) a.toNat b).2.setWait q.mbx (.test u.tests.nextH)) q.mbx [])) ∧
      (a = 2 → u.stbyReady b.toNat = true → (u.tile b.toNat).stby = .warm → exec (.testRun dt q) s = .next (State.accept
        ((((State.newTest (posted u 0x92 q) 2 b).2.modTile b.toNat (fun t => { t with stby := .testing })).modRot (b.toNat / 32)
          (fun r => { r with runs := false })).setWait q.mbx
          (.test u.tests.nextH)) q.mbx [])) ∧
      (u.testBusy a.toNat b.toNat = true → (a = 2 → u.stbyReady b.toNat = true) → exec (.testRun dt q) s = .next (State.finish
        (State.newTest (posted u 0x92 q) a.toNat b).2 q.mbx (deferredR u.tests.nextH)))) ∧
    (u.haltedB = false → ∀ a b g, q.args = [a, b] → a &&& ~~~0x3FF#32 = 0 → 1 ≤ b.toNat → b.toNat ≤ 1000 → u.tests.grant = none →
        u.quiesceTile (fld a 0 8) = none → (bit a 8 = true → u.rck.mode = .off ∧ u.rck.loading = false) →
        (bit a 9 = true → u.traceBusy = false) → g = Grant.mk (BitVec.ofNat 8 (fld a 0 8)) (bit a 8) (bit a 9)
          (u.boot.uptime + 16000000 * b.toNat) q.mbx 0 →
      ((∃ t ∈ u.tests.list, t.res = 0 ∧ g.covers t = true) → exec (.quiesce dt q) s = .next (State.accept
        { posted u 0x93 q with tests := { u.tests with grant := some g } } q.mbx [])) ∧
      ((∀ t ∈ u.tests.list, t.res = 0 → g.covers t = false) → exec (.quiesce dt q) s = .next ((posted u 0x93 q).finish q.mbx (okR [0])))) ∧
    (∀ a t, q.args = [a] → a &&& ~~~0xFFFF#32 = 0 → u.tests.list.find? (fun x => x.handle == BitVec.ofNat 16 a.toNat) = some t →
      exec (.testResult dt q) s = .next ((posted u 0x94 q).finish q.mbx (okR [w32 t.res.toNat, t.detail]))) ∧
    (u.haltedB = false → ∀ a b i d, q.args = [a, b] → a &&& ~~~0xFF#32 = 0 → i = fld a 0 4 → d = fld a 4 4 → i ≤ 6 → d ≤ ifDepth i →
        (i = 0 → d = 2) → b ≠ 0 → u.ifBusy i = false →
      exec (.loopback dt q) s = .next (State.accept (let v := (posted u 0x95 q).setWait q.mbx .loopback
        { v with
          tests := { u.tests with
            loop := some (BitVec.ofNat 4 i, BitVec.ofNat 4 d, b, q.mbx)
            loopOut := if i = 1 then 1024 - min 1024 u.log.credits else u.tests.loopOut }
          log := if i = 1 then { u.log with credits := u.log.credits - min 1024 u.log.credits } else u.log
          ctl := if i = 0 then { u.ctl with helm := b, helmLeft := 256, helmTaken := 0 } else u.ctl }) q.mbx []))

/-- FENCE, FENCE_RELEASE, FAULT_SUMMARY, EVENT_READ, XING_READ and HELM_COUNTERS (17 R386, R387, R395, R397, R400; 12 R314; 14 R344): a
fenced tile stops with cause host; a release after a passed trial brings it back DISABLED, or DOMAIN_OFF in a domain that is off, with the
oscillators and sensors that failed the trial marked; reading the summary clears the classes; an event read takes whole events. Open
points follow assumptions 33, 73. -/
def Obligations.FaultCommands : Prop :=
  ∀ (dt : Nat) (q : Req) (s u : State), u = s.tick dt → ready false u q = true →
    (u.haltedB = false → ∀ a i, q.args = [a] → a &&& ~~~0xFF#32 = 0 → i = a.toNat → u.present i = true →
      exec (.fence dt q) s = .next (((posted u 0xA0 q).fence i 1).finish q.mbx (okR [])) ∧
      ((u.tile i).st ≠ .fenced → (u.tile i).st ≠ .halted → i < u.tiles.length → ∀ t, t = (u.fence i 1).tile i →
        t.st = .fenced ∧ t.cause = 1 ∧ t.fences = satInc (u.tile i).fences ∧ t.runCode = 0 ∧ t.stby = .off ∧ t.window = [] ∧
        t.sched = [] ∧ t.code = (u.tile i).code ∧ t.plumbW = (u.tile i).plumbW ∧ t.droopW = (u.tile i).droopW) ∧
      ((u.tile i).st = .fenced → (u.tile i).trialRun = true → (u.tile i).trialA = true ∨ (u.tile i).trialB = true →
        exec (.fenceRelease dt q) s = .next (((posted u 0xA1 q).unfence i).finish q.mbx (okR [])) ∧
        (i < u.tiles.length → ∀ t, t = (u.unfence i).tile i →
          t.st = (if u.domOn i then .disabled else .domainOff) ∧ t.cause = 0 ∧ t.failA = !(u.tile i).trialA ∧ t.failB = !(u.tile i).trialB ∧
          t.learn = (u.chart i).maxCode ∧ t.code = (if u.ownsCode i then u.cvy.code else (u.tile i).code)))) ∧
    (q.args = [] →
      exec (.faultSummary dt q) s = .next (State.finish { posted u 0xA2 q with faults := { u.faults with raised := 0 } } q.mbx
        (okR (w32 u.faults.raised.toNat :: u.faults.ecc))) ∧
      exec (.helmCounters dt q) s = .next ((posted u 0xA6 q).finish q.mbx
        (okR ((posted u 0xA6 q).mbxs.map (·.misuse) ++ [u.helm.wdogs, u.helm.restarts])))) ∧
    (∀ a, q.args = [a] →
      (a = 1 ∨ a = 2 ∨ a = 3 → exec (.eventRead dt q) s = .next (State.finish
        (State.evqFlush { posted u 0xA3 q with faults := { u.faults with queue := (readEvents a.toNat u.faults.queue).2 } }) q.mbx
        (okR (w32 ((readEvents a.toNat u.faults.queue).1.length + 4 * (readEvents a.toNat u.faults.queue).2.length) ::
          (readEvents a.toNat u.faults.queue).1.flatMap (fun r => wordsOf 4 r.toNat))))) ∧
      (∀ n, (readEvents n u.faults.queue).1 ++ (readEvents n u.faults.queue).2 = u.faults.queue) ∧
      (a &&& ~~~0xFF1F#32 = 0 → fld a 0 5 ≤ 24 → (23 ≤ fld a 0 5 → u.present (fld a 8 8) = true) → ∀ x, x = u.xing (fld a 0 5) (fld a 8 8) →
        exec (.xingRead dt q) s = .next ((posted u 0xA4 q).finish q.mbx (okR [x.tos, x.drops, x.stales,
          w32 (pack [(0, 1, b2n x.stale), (1, 1, b2n x.gap), (2, 1, b2n x.failed), (3, 8, x.own.toNat), (11, 8, x.other.toNat)])]))))

/-- SPDM (14 0xB0; 16 R375): the 4-byte message GET_VERSION on the plain connection, in ROM or in RUN, answers VERSION with the one
version 1.2 and begins the negotiation anew. The codes of the messages are those of DSP0274 (assumption 13). -/
def Obligations.SpdmVersion : Prop :=
  ∀ (dt : Nat) (q : Req) (s u : State), u = s.tick dt → ready true u q = true → q.args = [4, 0x00008410] →
    ∃ t, exec (.spdm dt q) s = .next t ∧ acceptedWith t q.mbx 0xB0 q.tag [] ∧
      (t.mbx q.mbx).final = some (okR [8, 0x00000410, 0x12000100]) ∧ t.trust.conn = 1 ∧ t.trust.reqCaps = 0 ∧ t.tiles = u.tiles ∧
      t.rails = u.rails ∧ t.keys = u.keys ∧ t.log = u.log ∧ t.power = u.power

/-- The accesses of the control port (13 R319 to R321; 18 R414; 19 R417, R419, R421, R425): clearing causes by ones; the capture of
meridian time; the two loop-back words; plain writes; and `helm_restart`, which in RUN ends every command in hand with INTERNAL and leaves
the Helm in RESTART. Open points follow assumptions 61, 72. -/
def Obligations.ControlPort : Prop :=
  ∀ (dt : Nat) (s u v : State), u = s.tick dt → s.boot.inReset = false → u.portUp = true →
    v = { u with ctl := { u.ctl with err := false } } →
    (∀ w, exec (.ctlIntClear dt w) s = .next { v with ctl := { v.ctl with
      done := u.ctl.done &&& ~~~BitVec.ofNat 8 w.toNat, misuse := u.ctl.misuse && !bit w 8, xstale := u.ctl.xstale && !bit w 9 } }) ∧
    ((u.xings.main.getD 5 {}).stale = false → bit u.boot.clkStopped 4 = false →
      exec (.merLoRead dt) s = .next { v with ctl := { v.ctl with
        rdata := BitVec.ofNat 32 u.mer.now.toNat, merHi := BitVec.ofNat 32 (u.mer.now.toNat / 2 ^ 32)
        merSt := u.merWord ||| w32 (32 * b2n u.ctl.brk), brk := false } }) ∧
    ((u.xings.main.getD 4 {}).stale = false → bit u.boot.clkStopped 4 = false →
      exec (.lbkXingRead dt) s = .next { v with ctl := { v.ctl with
        rdata := u.ctl.xing, snap4 := u.ctl.xing, xing := if bit u.ctl.xing 0 then (u.ctl.xing >>> 1) ^^^ 0x80200003#32 else u.ctl.xing >>> 1 } } ∧
      (2 ≤ u.ctl.helmLeft → exec (.lbkHelmRead dt) s = .next { v with ctl := { v.ctl with
        rdata := u.ctl.helm, snap4 := u.ctl.helm, helm := lfsrStep u.ctl.helm, helmLeft := u.ctl.helmLeft - 1
        helmTaken := u.ctl.helmTaken + 1 } }) ∧
      (u.helm.stage = .run → ∃ t, exec (.helmRestart dt) s = .next t ∧ t.helm.stage = .restart ∧ t.helm.open_ = false ∧ t.helm.queue = [] ∧
        t.helm.restarts = satInc u.helm.restarts ∧ t.ctl.err = false ∧ (∀ h < 8, 1 ≤ h → t.trust.sess.getD h none = none) ∧
        (u.mbxs.length = 8 → ∀ n, (u.mbx n).held = .posted ∨ (u.mbx n).held = .accepted →
          (t.mbx n).held = .done ∧ (t.mbx n).heldResp = area16 (respHeader (u.mbx n).op (u.mbx n).tag (internalR 2) :: [2])))) ∧
    (∀ a w, a ∉ [0x040#14, 0x043#14, 0x080#14] →
        (a ∈ [0x300#14, 0x301#14, 0x302#14, 0x381#14, 0x382#14, 0x3C0#14] → bit u.boot.clkStopped 4 = false) →
      exec (.registerWrite dt a w) s = .next (
        if a = 0x041#14 then { v with ctl := { v.ctl with en := BitVec.ofNat 12 w.toNat } }
        else if a = 0x380#14 then { v with ctl := { v.ctl with echo := some w } }
        else if 0x100 ≤ a.toNat ∧ a.toNat < 0x180 then v.modMbx (BitVec.ofNat 3 ((a.toNat - 0x100) / 16)) (fun m => { m with
          reqArea := m.reqArea.set ((a.toNat - 0x100) % 16) w })
        else v))

/-- MBX_DB (13 R319 to R321): one mailbox rung while nothing of it is in hand joins the intake queue with the words its area holds; with
four entries queued, or the intake closed, or no stage that admits commands, it is answered BUSY at once, as far as crossings 2 and 3 are
not stale; while its command is in hand the doorbell is misuse. -/
def Obligations.Doorbell : Prop :=
  ∀ (dt : Nat) (s u v : State) (n : BitVec 3), u = s.tick dt → s.boot.inReset = false → u.portUp = true →
    v = { u with ctl := { u.ctl with err := false } } →
    ((∀ x < 2, (u.xings.main.getD x {}).stale = false) → (u.mbx n).inHand = false →
      (u.helm.stage = .run ∨ u.helm.stage = .rom → u.helm.open_ = true → u.helm.queue.length ≤ 3 →
        exec (.mbxDoorbell dt (1 <<< n.toNat)) s = .next { v.modMbx n (fun m => { m with
            st := .posted, held := .posted, cmd := m.reqArea, final := none, wait := .none }) with
          helm := { u.helm with queue := u.helm.queue ++ [n] } }) ∧
      (∀ why re, (why = 3 ∧ re = 0 ∧ u.helm.stage ≠ .run ∧ u.helm.stage ≠ .rom) ∨
          (u.helm.stage = .run ∨ u.helm.stage = .rom) ∧ (why = 2 ∧ re = u.helm.reopen.toNat ∧ u.helm.open_ = false ∨
            why = 1 ∧ re = 0 ∧ u.helm.open_ = true ∧ 4 ≤ u.helm.queue.length) →
        exec (.mbxDoorbell dt (1 <<< n.toNat)) s = .next (v.hwBusy n (u.mbx n).reqArea why re))) ∧
    ((u.mbx n).inHand = true →
      exec (.mbxDoorbell dt (1 <<< n.toNat)) s = .next { v.modMbx n (fun m => { m with misuse := satInc m.misuse }) with
        ctl := { v.ctl with misuse := true } })

/-- The Helm's intake (13 R322 to R326; 14 R329): the oldest entry is taken and its command answered; an opcode that is no command is
refused with BAD_ARG naming word 0; intake opens again; after a port reset what the Helm holds is sent again; an ACCEPTED command whose
final answer waits is completed at its bound. Open points follow assumption 62. -/
def Obligations.Intake : Prop :=
  ∀ (dt : Nat) (s u : State), u = s.tick dt → s.boot.inReset = false →
    (∀ n r q, u.helm.stage = .run ∨ u.helm.stage = .rom → u.helm.open_ = true → u.helm.queue = n :: r → (u.mbx n).held = .posted →
        q = reqOfWords n (u.mbx n).cmd →
      (∀ c ∈ cmdSpdm :: baseCmds, (u.mbx n).op = c.op → exec (.helmIntakeTake dt) s = .next (
        let x := c.handle false { u with helm := { u.helm with queue := r } } q
        x.1.answer n x.2)) ∧
      ((∀ c ∈ cmdSpdm :: baseCmds, (u.mbx n).op ≠ c.op) → exec (.helmIntakeTake dt) s = .next (
        State.finish { u with helm := { u.helm with queue := r } } n (badArgR 0)))) ∧
    (u.helm.stage = .run ∨ u.helm.stage = .rom →
      exec (.intakeReopen dt) s = .next { u with helm := { u.helm with open_ := true, reopen := 0 } } ∧
      (u.ctlUp = true → u.ctl.sync = false → u.mbxs.length = 8 → ∃ t, exec (.mailboxRepublish dt) s = .next t ∧ t.ctl.sync = true ∧
        t.tiles = u.tiles ∧ t.helm = u.helm ∧ ∀ n, (t.mbx n).held = (u.mbx n).held ∧
          ((u.mbx n).st = .idle → (u.mbx n).held ≠ .idle → (t.mbx n).st = (u.mbx n).held ∧ (t.mbx n).resp = (u.mbx n).heldResp) ∧
          ((u.mbx n).st ≠ .idle ∨ (u.mbx n).held = .idle → t.mbx n = u.mbx n))) ∧
    (∀ n x y, (u.mbx n).held = .accepted → (u.mbx n).final = some x →
      exec (.instantCompletion dt n y) s = .next (u.finish n x))

/-- The whole block's resets (02 R39, R41, R65, R70, R73; 04 Table 4.7; 16 R364, R366, R381; 17 R395): reset gives the parts named their
reset values and keeps what is fused and the levels of the pins named; the release starts the time, and a `thr_req_n` held low throttles
from then on; the ROM then comes up in stage ROM with its intake open and the DeviceID key of its lifecycle. Of the retained ageing
adjustment, `brn_rst_n` keeps it and a power-on does not. Open points follow assumptions 3, 71. -/
def Obligations.BlockResets : Prop :=
  ∀ (dt : Nat) (s u : State), u = s.tick dt →
    (∀ por : Bool, ∃ t, (if por then exec (.powerOnMonitor dt) s else exec (.brnRstAssert dt) s) = .next t ∧
      t.boot.inReset = true ∧ t.boot.rstPor = por ∧ t.boot.chipStop = false ∧ t.boot.cool = .unknown ∧ t.mer = {} ∧
      t.ctl = {
        rst := u.ctl.rst && !bit u.ctl.rel 0, logRst := u.ctl.logRst && !bit u.ctl.rel 1
        manRst := u.ctl.manRst && !bit u.ctl.rel 2, cvyRst := u.ctl.cvyRst && !bit u.ctl.rel 3 } ∧ t.boot.thrPin = u.boot.thrPin ∧
      t.mbxs = State.reset.mbxs ∧ t.helm = {} ∧ t.doms = State.reset.doms ∧ t.domRet = State.reset.domRet ∧ t.rails = State.reset.rails ∧
      t.ledger = {} ∧ t.keys = {} ∧ t.rck = {} ∧ t.log = {} ∧ t.xings = {} ∧ t.faults = {} ∧ t.tests = {} ∧ t.sxt.chans = State.reset.sxt.chans ∧
      t.sxt.age = (if por then 0 else u.sxt.age) ∧ t.sxt.gates = u.sxt.gates ∧ t.trust.fuse0 = u.trust.fuse0 ∧ t.trust.fuse1 = u.trust.fuse1 ∧
      t.trust.fuse2 = u.trust.fuse2 ∧ t.trust.otp = u.trust.otp ∧ t.trust.sess = State.reset.trust.sess ∧ t.trust.aliasKey = none ∧
      t.cvy.st = .none ∧ t.ties = u.ties ∧
      ∀ j < 256, (t.tile j).st = (if u.present j then .disabled else .absent) ∧ (t.tile j).code = 0 ∧ (t.tile j).sched = [] ∧
        (t.tile j).reactLim = BitVec.ofNat 5 (classLim (u.clsOf j))) ∧
    (s.boot.inReset = true → u.boot.thrPin = false → exec (.brnRstRelease dt) s =
      .next { u with boot := { u.boot with inReset := false, uptime := 0 } }) ∧
    (s.boot.inReset = true → u.boot.thrPin = true → exec (.brnRstRelease dt) s = .next { u with
      boot := { u.boot with inReset := false, uptime := 0, thrPin := true, thrLow := true, thrHold := false, thrCnt := satInc u.boot.thrCnt }
      power := { u.power with hostQNow := if u.boot.thrLow || u.boot.thrHold then u.power.hostQNow else u.power.hostQ } }) ∧
    (s.boot.inReset = false → u.helm.stage = .reset → ∃ t, exec (.romStart dt) s = .next t ∧ t.helm.stage = .rom ∧ t.helm.open_ = true ∧
      t.helm.fwVer = 0 ∧ t.helm.romUp = true ∧ (t.helm.reason = 10 ↔ u.trust.fuseFail = true ∨ u.helm.reason = 10) ∧
      (t.trust.devKey.isSome ↔ u.trust.lcCode ≠ 4) ∧ (u.sxt.ageChk ≠ 0 → t.sxt.age = 0) ∧ (u.sxt.ageChk = 0 → t.sxt.age = u.sxt.age) ∧
      t.tiles = u.tiles ∧ t.rails = u.rails ∧ t.keys = u.keys)

/-- The supply monitors (02 R70, R71; 16 R373): a dip of VDDB is counted and reported once, and each return of a supply holds signing for
1 ms; while a VANA instance is low, the pairs in hand carry `ana`; a block held in reset notes the levels alone. Open points follow
assumptions 68, 71. -/
def Obligations.Supplies : Prop :=
  ∀ (dt : Nat) (s u : State) (k : BitVec 16), u = s.tick dt →
    (s.boot.inReset = false →
      (u.boot.vddbDip = false → exec (.vddbLow dt) s = .next (State.raise0 { u with boot := { u.boot with
        vddbDip := true, vddbCnt := satInc u.boot.vddbCnt } } 0x201 0)) ∧
      (u.boot.vddbDip = true → exec (.vddbBackInRange dt) s = .next { u with boot := { u.boot with
        vddbDip := false, vddbBack := u.boot.uptime, signHold := u.boot.uptime + 16000000 } }) ∧
      (k ∉ u.boot.vanaLow → exec (.vanaLow dt k) s = .next (State.raise { u with
        boot := { u.boot with vanaLow := k :: u.boot.vanaLow }
        sxt := { u.sxt with chans := u.sxt.chans.map (fun c => if c.pStart ≠ none ∨ c.pStop ≠ none then { c with fAna := true } else c) } }
        0x202 k.toNat 0)) ∧
      (k ∈ u.boot.vanaLow → exec (.vanaBackInRange dt k) s = .next { u with boot := { u.boot with
        vanaLow := u.boot.vanaLow.filter (fun x => x != k), signHold := u.boot.uptime + 16000000 } })) ∧
    (s.boot.inReset = true →
      exec (.vddbLow dt) s = .next { u with boot := { u.boot with vddbDip := true } } ∧
      exec (.vanaBackInRange dt k) s = .next { u with boot := { u.boot with vanaLow := u.boot.vanaLow.filter (fun x => x != k) } })

/-- The port resets and TRST (02 R39, R42; 12 R310, Table 12.4; 13 R326; 19 R417): each assertion steps its group's epoch and clears what
is named of that port's side; each release brings both sides of the group's crossings up in that epoch, no longer stale, once the port's
clock runs: until then the port stays in reset; at a block held in reset the levels of the port resets alone are noted. Open points follow
assumptions 68, 69, 71. -/
def Obligations.PortResets : Prop :=
  ∀ (dt : Nat) (s u : State), u = s.tick dt →
    (s.boot.inReset = false →
      (exec (.portResetAssert dt .man) s = .next { u with
        xings := { u.xings with eMan := u.xings.eMan + 1 }, ctl := { u.ctl with manRst := true, rel := setFld u.ctl.rel 2 1 0 } }) ∧
      (exec (.portResetAssert dt .cvy) s = .next { u with
        xings := { u.xings with eCvy := u.xings.eCvy + 1 }, ctl := { u.ctl with cvyRst := true, rel := setFld u.ctl.rel 3 1 0 } }) ∧
      (∃ t, exec (.portResetAssert dt .ctl) s = .next t ∧ t.ctl.rst = true ∧ t.ctl.en = 0 ∧ t.ctl.done = 0 ∧ t.ctl.sync = false ∧
        t.ctl.busy = u.ctl.busy ∧ t.xings.eCtl = u.xings.eCtl + 1 ∧ t.helm = u.helm ∧ t.tiles = u.tiles ∧
        ∀ n, (t.mbx n).st = .idle ∧ (t.mbx n).resp = List.replicate 16 0 ∧ (t.mbx n).held = (u.mbx n).held) ∧
      (∃ t, exec (.portResetAssert dt .log) s = .next t ∧ t.ctl.logRst = true ∧ t.xings.eLog = u.xings.eLog + 1 ∧ t.log.credits = 0 ∧
        t.tiles = u.tiles ∧ t.keys = u.keys) ∧
      (∀ p, u.portHeld p = false → exec (.portResetRelease dt p) s = .next u) ∧
      (∀ p, u.portHeld p = true → bit u.boot.clkRun (portIdx p) = false → exec (.portResetRelease dt p) s =
          .next { u with ctl := { u.ctl with rel := setFld u.ctl.rel (portIdx p) 1 1 } } ∧
        (bit u.ctl.rel (portIdx p) = true → ∀ d, domIdx d = portIdx p → ∃ t, exec (.clkBack dt d) s = .next t ∧ t.portHeld p = false)) ∧
      (∀ p, bit u.boot.clkRun (portIdx p) = true → ∃ t, exec (.portResetRelease dt p) s = .next t ∧
        (p = .ctl → u.ctl.rst = true → t.ctl.rst = false ∧ t.ctl.staleBits = 0 ∧
          ∀ x < 7, x < u.xings.main.length → (t.xings.main.getD x {}).stale = false ∧ (t.xings.main.getD x {}).own = u.xings.eCtl ∧
            (t.xings.main.getD x {}).other = u.xings.eCtl) ∧
        (p = .log → u.ctl.logRst = true → t.ctl.logRst = false ∧
          ∀ x, 7 ≤ x → x ≤ 9 → x < u.xings.main.length → (t.xings.main.getD x {}).stale = false ∧ (t.xings.main.getD x {}).own = u.xings.eLog ∧
            (t.xings.main.getD x {}).other = u.xings.eLog) ∧
        (p = .man → u.ctl.manRst = true → t.ctl.manRst = false ∧
          ∀ x, 10 ≤ x → x ≤ 11 → x < u.xings.main.length → (t.xings.main.getD x {}).stale = false ∧ (t.xings.main.getD x {}).own = u.xings.eMan ∧
            (t.xings.main.getD x {}).other = u.xings.eMan) ∧
        (p = .cvy → u.ctl.cvyRst = true → t.ctl.cvyRst = false ∧
          ∀ x, 12 ≤ x → x ≤ 13 → x < u.xings.main.length → (t.xings.main.getD x {}).stale = false ∧ (t.xings.main.getD x {}).own = u.xings.eCvy ∧
            (t.xings.main.getD x {}).other = u.xings.eCvy) ∧
        t.tiles = u.tiles ∧ t.helm = u.helm)) ∧
    (s.boot.inReset = true → ∀ b : Bool, ∀ x : Port → Instr, x = (if b then .portResetAssert dt else .portResetRelease dt) →
      exec (x .ctl) s = .next { u with ctl := { u.ctl with rst := b } } ∧ exec (x .log) s = .next { u with ctl := { u.ctl with logRst := b } } ∧
      exec (x .man) s = .next { u with ctl := { u.ctl with manRst := b } } ∧ exec (x .cvy) s = .next { u with ctl := { u.ctl with cvyRst := b } }) ∧
    (∃ t, exec (.trst dt) s = .next t ∧ t.tests.ir = 0x01 ∧ t.tests.dr = 0 ∧ t.tests.lbkCfg = 0 ∧ t.tests.lbkRes = 0 ∧
      t.xings.eTest = u.xings.eTest + 1 ∧ (22 < u.xings.main.length → (t.xings.main.getD 22 {}).own = u.xings.eTest + 1 ∧
        (t.xings.main.getD 22 {}).other = u.xings.eTest + 1 ∧ (t.xings.main.getD 22 {}).stale = false) ∧ t.tiles = u.tiles ∧ t.helm = u.helm ∧ t.tests.list = u.tests.list)

/-- The stages of the Helm (13 R315, R316; 16 R368 to R370, R376): the end of an image check, the watchdog, the check after a restart, the
anti-rollback count after 60 s of stable RUN, and a session without a message for 30 s. Open points follow assumptions 61, 63. -/
def Obligations.HelmStages : Prop :=
  ∀ (dt : Nat) (s u : State), u = s.tick dt → s.boot.inReset = false →
    (u.helm.stage = .check → ∀ r, r = u.trust.imageReason u.helm.image u.helm.image.length → ∃ t, exec (.imageCheckDone dt) s = .next t ∧
      (r = 0 → t.helm.stage = .run ∧ t.helm.open_ = true ∧ t.helm.reason = 0 ∧ t.trust.devLock = true ∧ t.helm.runAt = u.boot.uptime ∧
        (u.trust.lcCode ≠ 4 → t.trust.aliasKey ≠ none) ∧ t.trust.tightWait = []) ∧
      (r ≠ 0 → t.helm.stage = .rom ∧ t.helm.open_ = true ∧ t.helm.reason.toNat = r % 256 ∧ t.trust.aliasKey = none)) ∧
    (u.helm.stage = .run → ∃ t, exec (.helmWdog dt) s = .next t ∧ t.helm.stage = .restart ∧ t.helm.wdogs = satInc u.helm.wdogs ∧
      t.helm.open_ = false ∧ t.helm.queue = [] ∧ (∀ h < 8, 1 ≤ h → t.trust.sess.getD h none = none) ∧
      (u.mbxs.length = 8 → ∀ n, (u.mbx n).held = .posted ∨ (u.mbx n).held = .accepted →
        (t.mbx n).held = .done ∧ (t.mbx n).heldResp = area16 (respHeader (u.mbx n).op (u.mbx n).tag (internalR 1) :: [1]))) ∧
    (u.helm.stage = .restart → ∃ t, exec (.restartCheckDone dt) s = .next t ∧ t.tiles = u.tiles ∧ t.rails = u.rails ∧
      (u.trust.keyReason u.helm.image = 0 ∧ natOfBytes (sha384 (u.helm.image.take (u.helm.image.length - 256))) = u.helm.meas.toNat ∧
          u.helm.codeBad = false → t.helm.stage = .run ∧ t.helm.runAt = u.boot.uptime ∧ t.trust.aliasKey = u.trust.aliasKey) ∧
      (u.trust.keyReason u.helm.image ≠ 0 ∨ natOfBytes (sha384 (u.helm.image.take (u.helm.image.length - 256))) ≠ u.helm.meas.toNat ∨
          u.helm.codeBad = true → t.helm.stage = .rom ∧ t.helm.reason = 11 ∧ t.trust.aliasKey = none)) ∧
    (u.helm.stage = .run → u.trust.arbCount < u.helm.svn → u.helm.runAt + 960000000000 ≤ u.boot.uptime → u.boot.vddbDip = false →
        u.boot.vddbCnt = 0 ∨ u.boot.vddbBack + 16000000000 ≤ u.boot.uptime →
      exec (.arbAdvance dt true) s = .next (State.raise0 { u with trust := u.trust.blow (BitVec.ofNat 3776 ((2 ^ u.helm.svn - 1) * 2 ^ 392)) }
        0xB02 (u.trust.arbCount + 256 * u.helm.svn)) ∧
      exec (.arbAdvance dt false) s = .next (u.raise0 0xB03 (392 + u.trust.arbCount))) ∧
    (∀ h x, u.trust.sess.getD h.toNat none = some x → x.half = false → x.lastAt + 480000000000 ≤ u.boot.uptime →
        u.sxt.chans.length = 64 → (∀ k < 64, (u.chan k).owner = .session h → k = 60 ∨ k = 61 ∨ k = 62) →
      ∃ t, exec (.sessionTimeout dt h) s = .next t ∧ t.trust.sess.getD h.toNat none = none ∧ (∀ k < 64, (t.chan k).owner ≠ .session h) ∧
        t.tiles = u.tiles ∧ t.rails = u.rails ∧ t.keys = u.keys)

/-- The reference and the clock of the block (03 R75, R81 to R83, R85, Table 3.2; 18 R403; 02 R48, R55): a valid reference, the lock of
the PLLs, the bring-up calibration of the mortar and the thermal sensors, the pulses that lock the block and the pulse that keeps it
locked (each timestamped by channel 63 where the lodestar measures), the loss of the reference or of the pulse, and a slew of at most 1 mt
in 1,000 reference periods, which ends in LOCKED. Open points follow assumptions 18, 19. -/
def Obligations.MeridianClock : Prop :=
  ∀ (dt : Nat) (s u : State), u = s.tick dt → s.boot.inReset = false →
    (u.boot.refOk = false → u.mer.st = .unlocked → exec (.refValid dt) s =
      .next (State.raise0 { u with boot := { u.boot with refOk := true }, mer := { u.mer with st := .acquiring } } 0x109 1)) ∧
    (u.boot.refOk = false → u.mer.st = .holdover → exec (.refValid dt) s =
      .next { u with boot := { u.boot with refOk := true }, mer := { u.mer with refBack := true } }) ∧
    (u.boot.refOk = true → u.mer.plls = false → u.mer.st = .acquiring ∨ u.mer.st = .holdover →
      exec (.pllLock dt) s = .next { u with
        mer := { u.mer with plls := true }
        boot := { u.boot with clkRun := u.boot.clkRun ||| 0x70, hailClk := true }
        sxt := if bit u.boot.clkRun 4 then u.sxt else { u.sxt with chans := u.sxt.chans.mapIdx (fun i (c : Chan) =>
          if i < 60 then { c with lock := true, caling := true } else c) } }) ∧
    (∀ bt bs bc, bit u.boot.clkRun 4 = true → u.boot.bootCal = false → (∀ i ∈ bt, u.present i.toNat = false) →
        (∀ x ∈ bs, u.present x.1.toNat = false) → exec (.hardwareBringupCal dt .mortarThermal bt bs bc) s =
      .next { u with boot := { u.boot with bootCal := true } }) ∧
    (∀ i, bit u.boot.clkRun 4 = true → u.boot.bootCal = false → u.present i.toNat = true → (u.tile i.toNat).st = .disabled →
        i.toNat < u.tiles.length → ∃ t, exec (.hardwareBringupCal dt .mortarThermal [i] [] []) s = .next t ∧ t.boot.bootCal = true ∧
      t.boot.calFail = true ∧ (t.tile i.toNat).st = .fenced ∧ (t.tile i.toNat).cause = 9) ∧
    (u.mer.st = .acquiring → u.mer.running = false → u.mer.plls = true →
      (u.mer.aligned = 0 → ∀ n, exec (.meridianPulse dt n .inWindow false []) s =
        .next { u with
          boot := { u.boot with fallRun := 0 }, mer := { u.mer with badRun := 0, aligned := 1 }, sxt := u.pulse63.sxt }) ∧
      (1 ≤ u.mer.aligned → ∃ t, exec (.meridianPulse dt 100000 .inWindow false []) s = .next t ∧ t.mer.st = .locked ∧
        t.mer.running = true ∧ t.mer.now = 16000000 ∧ t.boot.lockedOnce = true ∧ t.sxt.base = none ∧ t.tiles = u.tiles)) ∧
    (u.mer.st = .locked → u.mer.running = true → u.mer.epochPend = none → ∀ diffs : List (BitVec 8 × Int),
        (∀ d ∈ diffs, -32 ≤ d.2 ∧ d.2 ≤ 32) → exec (.meridianPulse dt 100000 .inWindow false diffs) s = .next { u with
      boot := { u.boot with fallRun := 0 }, mer := { u.mer with badRun := 0 }, sxt := u.pulse63.sxt
      tiles := u.tiles.map (fun (t : Tile) => { t with mism := 0, withhold := false }) }) ∧
    (u.mer.st = .locked ∨ u.mer.st = .slewing → ∀ p, ∃ t, exec (.refLoss dt p) s = .next t ∧ t.mer.st = .holdover ∧ t.boot.refOk = false ∧
      t.mer.plls = false ∧ t.mer.epochPend = none ∧ t.mer.now = u.mer.now ∧ t.boot.clkRun = u.boot.clkRun) ∧
    (u.mer.st = .acquiring → ∀ p, ∃ t, exec (.refLoss dt p) s = .next t ∧ t.mer.st = .unlocked ∧ t.mer.now = 0 ∧ t.mer.running = false ∧
      t.boot.refOk = false ∧ t.tiles = u.tiles) ∧
    (u.mer.st = .slewing → 160000 ≤ u.mer.slewMt →
      (17 < u.mer.offset → 0 < u.mer.frac ∨ 0 < dt → exec (.slewStep dt) s = .next { u with mer := { u.mer with
        now := if u.mer.frac = 0 then u.mer.now - 1 else u.mer.now, frac := u.mer.frac - 1, offset := u.mer.offset - 1
        slewMt := u.mer.slewMt - 160000 } }) ∧
      (u.mer.offset < -17 → exec (.slewStep dt) s = .next { u with mer := { u.mer with
        now := u.mer.now + 1, offset := u.mer.offset + 1, slewMt := u.mer.slewMt - 160000 } }) ∧
      (u.mer.offset = -1 → ∃ t, exec (.slewStep dt) s = .next t ∧ t.mer.st = .locked ∧ t.mer.now = u.mer.now + 1)) ∧
    (u.mer.st = .slewing → u.mer.slewMt < 160000 → exec (.slewStep dt) s = .next u)

/-- The lodestar (03 R101, R102, R104; 02 R58): the check of the reference against it when one is due, up to the suspicion at the third
deviation in a row; the faults of its crystal; the good end of its start-up window; the lock of its PLL; and the first tick after an
ageing adjustment, at which it takes effect. Open points follow assumptions 22, 23, 77. -/
def Obligations.LodestarEvents : Prop :=
  ∀ (dt : Nat) (s u : State), u = s.tick dt → s.boot.inReset = false →
    (u.sxt.enabled = true → u.sxt.locked = true → u.mer.st = .locked ∨ u.mer.st = .holdover ∨ u.mer.st = .slewing →
      ∀ (delta : Nat) (off : Int) (x : Sxt), 0 < delta → u.checkDue = true →
        off = ((128000000000 - (delta : Int)) * 1000000000).tdiv delta → off.natAbs ≤ 120000 →
        x = { u.sxt with pulses := u.sxt.pulses.map (· - 1000), checkAt := u.boot.uptime, last := off } →
      (u.sxt.base = none → u.sxt.offsets.length < 15 → exec (.refCheck dt delta) s =
        .next { u with sxt := { x with offsets := u.sxt.offsets ++ [off], dev := 0 } }) ∧
      (u.sxt.base = none → u.sxt.offsets.length = 15 → exec (.refCheck dt delta) s = .next { u with sxt := { x with
        offsets := u.sxt.offsets ++ [off], base := some ((u.sxt.offsets.sum + off).tdiv 16), dev := 0 } }) ∧
      (∀ b, u.sxt.base = some b → (off - b).natAbs ≤ u.sxt.thr → exec (.refCheck dt delta) s =
        .next { u with sxt := { x with dev := 0 } }) ∧
      (∀ b, u.sxt.base = some b → u.sxt.thr < (off - b).natAbs → u.sxt.dev < 2 → exec (.refCheck dt delta) s =
        .next { u with sxt := { x with dev := u.sxt.dev + 1 } }) ∧
      (∀ b, u.sxt.base = some b → u.sxt.thr < (off - b).natAbs → u.sxt.dev = 2 → exec (.refCheck dt delta) s =
        .next (State.raise0 { u with sxt := { x with dev := 0, suspects := satInc u.sxt.suspects } } 0x106 0))) ∧
    (∀ k, u.sxt.enabled = false → exec (.xoFault dt k) s = .next { u with boot := { u.boot with
      xoGoodAt := if k = .freq then u.boot.xoGoodAt else u.boot.uptime } }) ∧
    (∀ k, u.sxt.enabled = true → k = .high ∨ (k = .low ∧ u.boot.xoWindow = false) ∨ (k = .freq ∧ u.schedulable = true ∧ u.sxt.locked = true) →
      ∃ t, exec (.xoFault dt k) s = .next t ∧ t.sxt.enabled = false ∧ t.sxt.locked = false ∧ t.boot.xoOk = false ∧
        t.boot.xoGoodAt = u.boot.uptime ∧ t.assisted = false ∧ bit t.boot.clkRun 7 = false ∧
        (u.sxt.chans.length = 64 → ∀ c ∈ [60, 61, 62, 63], (t.chan c).armed = false ∧ (t.chan c).lock = false ∧ (t.chan c).waits = [] ∧
          (c ≠ 63 → (t.chan c).owner = .none)) ∧ t.tiles = u.tiles ∧ t.rails = u.rails) ∧
    (u.boot.xoWindow = true → exec (.xoStartupWindowEnd dt false) s =
      .next { u with boot := { u.boot with xoWindow := false, xoOk := true } }) ∧
    (u.sxt.enabled = true → u.sxt.locked = false → exec (.lodestarPllLock dt) s = .next { u with
      boot := { u.boot with xoOk := true, clkRun := u.boot.clkRun ||| 0x80 }
      sxt := { u.sxt with
        locked := true, time := 0, rem := 0, ageTick := 0, offsets := [], base := none, dev := 0, pulses := none, checkAt := u.boot.uptime
        chans := u.sxt.chans.mapIdx (fun i (c : Chan) => if i < 60 then c else { c with lock := true, caling := true }) } }) ∧
    (u.sxt.enabled = true → u.sxt.locked = true → u.sxt.time ≠ BitVec.allOnes 64 → exec (.lodestarTick dt) s =
      .next { u with sxt := { u.sxt with
        ageNow := if u.sxt.ageTick < u.sxt.time.toNat / 16000000 ∧ u.xingOk 18 = true then u.sxt.age else u.sxt.ageNow } })

/-- The plumbs (05 R139, R140, R143, R145, R148, R149): a tap 10 mV or more below the reference fires an enabled plumb whose output is not
held, and puts its whole request in force for the hold and decay of its tile's droop word; the release, the hold's end and each decay step
let it down, the last two once the tile's periods have run; a droop of 1 ms is held against the rail's readback; a trim in range releases
the plumb for 4 µs and dates its calibration. Open points follow assumptions 35, 78, 79. -/
def Obligations.PlumbEvents : Prop :=
  ∀ (dt : Nat) (i : BitVec 8) (p : BitVec 2) (mv : Int) (s u : State) (x : Plumb), u = s.tick dt → s.boot.inReset = false →
    x = (u.tile i.toNat).plumbs.getD p.toNat {} →
    (u.heard i.toNat = true → u.steady i.toNat = false → plumbEn (u.tile i.toNat).plumbW p.toNat = true →
        x.out = false → x.blankTill ≤ u.boot.uptime → x.calTill ≤ u.boot.uptime → mv ≤ u.plumbRef i.toNat p.toNat - 10 →
      exec (.plumbFire dt i p mv) s = .next (u.modPlumb i.toNat p.toNat (fun y => { y with
        st := .firing, req := BitVec.ofNat 5 (plumbStr (u.tile i.toNat).plumbW p.toNat), cnt := 0, out := true, outMt := 0
        hold := droopHold (u.tile i.toNat).droopW, decay := 2 ^ droopDecay (u.tile i.toNat).droopW
        entries := if y.masked then y.entries else satInc y.entries, tEnt := true, cEnt := true }))) ∧
    (u.heard i.toNat = true → x.out = true → x.blankTill ≤ u.boot.uptime →
        u.plumbRef i.toNat p.toNat + (plumbHystMv (u.tile i.toNat).plumbW p.toNat : Int) < mv →
      exec (.plumbRelease dt i p mv) s = .next (u.modPlumb i.toNat p.toNat (fun y => { y with
        st := if y.st = .firing then .holding else y.st, cnt := if y.st = .firing then 0 else y.cnt, out := false, outMt := 0 }))) ∧
    (exec (.plumbHoldEnd dt i p) s = .next (u.modPlumb i.toNat p.toNat (fun y =>
      if y.st = .holding ∧ ((u.tile i.toNat).st ≠ .running ∨ y.hold ≤ y.cnt ∧ (u.tile i.toNat).low = false) then
        (if y.req.toNat ≤ 1 then { y with st := .idle, req := 0, cnt := 0 } else { y with st := .decaying, req := y.req - 1, cnt := 0 })
      else y))) ∧
    (exec (.plumbDecayStep dt i p) s = .next (u.modPlumb i.toNat p.toNat (fun y =>
      if y.st = .decaying ∧ ((u.tile i.toNat).st ≠ .running ∨ y.decay ≤ y.cnt ∧ (u.tile i.toNat).low = false) then
        (if y.req.toNat ≤ 1 then { y with st := .idle, req := 0, cnt := 0 } else { y with st := .decaying, req := y.req - 1, cnt := 0 })
      else y))) ∧
    (u.heard i.toNat = true → x.out = true → 16000000 ≤ x.outMt → u.railNear (u.railOf i.toNat) 20 = false → exec (.plumbDroopExam dt i p) s =
      .next (((u.modPlumb i.toNat p.toNat (fun y => { y with outMt := 0 })).modRail (u.railOf i.toNat) (fun r => { r with
        cSag := satInc r.cSag })).raise 0x304 (u.railOf i.toNat) 0)) ∧
    (u.heard i.toNat = true → x.out = true → 16000000 ≤ x.outMt → u.railNear (u.railOf i.toNat) 20 = true → exec (.plumbDroopExam dt i p) s =
      .next (((u.modTile i.toNat (fun t => t.setPlumbW (setFld t.plumbW (16 * p.toNat + 6) 1 0) (u.steady i.toNat) u.boot.uptime)).raise 0x303 i.toNat p.toNat).fence
        i.toNat 4)) ∧
    (u.heard i.toNat = true → u.trimOk i.toNat p.toNat = true → (∀ y ∈ (u.tile i.toNat).plumbs, y.calTill ≤ u.boot.uptime) →
      exec (.plumbCalibration dt i p true) s =
      .next ((u.modTile i.toNat (fun t => { t with plCals := satInc t.plCals, trimWait := false })).modPlumb i.toNat p.toNat (fun y =>
        { y with
          calAt := u.boot.uptime, calTemp := (u.tile i.toNat).temp, calTill := u.boot.uptime + 64000, out := false, outMt := 0
          st := if y.st = .firing then .holding else y.st, cnt := if y.st = .firing then 0 else y.cnt })))

/-- The thermal sensors and the emergency throttle input (05 R150 to R154; 02 R65): a sample at which every tile heard is healthy and
below the trip level gives each its temperature and moves its thermal rate by one step of R152; one at which both sensors of a tile read
115 °C or more stops the chip; a low of 10 ns on `thr_req_n` puts the host's rate in force at once, and it ends 10 µs after the rise. Open
points follow assumption 36. -/
def Obligations.ThermalAndThrottle : Prop :=
  ∀ (dt : Nat) (s u : State), u = s.tick dt → s.boot.inReset = false →
    (u.mer.running = true → u.boot.thermAt ≠ some u.sampleAt → u.tiles.length = 256 → ∀ rs : List TempReading,
      (u.cvy.st = .none → (∀ i < 256, u.heard i = true → ∀ r, r = u.readingOf rs i → (u.tile i).failS0 = false ∧ (u.tile i).failS1 = false ∧
          -160 ≤ r.s0 ∧ r.s0 < 460 ∧ -160 ≤ r.s1 ∧ r.s1 < 460 ∧ (r.s0 - r.s1).natAbs ≤ 60) →
        ∃ v, exec (.thermalSample dt rs) s = .next v ∧ v.boot = { u.boot with thermAt := some u.sampleAt } ∧ v.rails = u.rails ∧
          v.keys = u.keys ∧ ∀ i < 256, (v.tile i).st = (u.tile i).st ∧ (v.tile i).disagree = 0 ∧
            (u.heard i = true → ∀ r t, r = u.readingOf rs i → t = u.tile i →
              (v.tile i).t0 = r.s0 ∧ (v.tile i).t1 = r.s1 ∧ (v.tile i).peak = max t.peak (max r.s0 r.s1) ∧
              (v.tile i).qth = BitVec.ofNat 9 (if max r.s0 r.s1 ≥ 4 * (droopThermSet t.droopW : Int) then max 16 (t.qth.toNat - 32)
                else if max r.s0 r.s1 < 4 * (droopThermSet t.droopW : Int) - 8 then min 256 (t.qth.toNat + 8) else t.qth.toNat))) ∧
      (∀ i < 256, u.boot.trip = false → u.heard i = true → (u.tile i).failS0 = false → (u.tile i).failS1 = false →
          460 ≤ (u.readingOf rs i).s0 → (u.readingOf rs i).s0 ≤ 600 → 460 ≤ (u.readingOf rs i).s1 → (u.readingOf rs i).s1 ≤ 600 →
        ∃ v, exec (.thermalSample dt rs) s = .next v ∧ v.boot.trip = true ∧ v.boot.chipStop = true ∧
          ∀ j < 256, u.present j = true → (v.tile j).st = .halted)) ∧
    (∀ ns, ns < 10 → exec (.thrReqFall dt ns) s = .next { u with boot := { u.boot with thrGlitch := satInc u.boot.thrGlitch } }) ∧
    (∀ ns, 10 ≤ ns → u.boot.thrLow = false → exec (.thrReqFall dt ns) s = .next { u with
      power := { u.power with hostQNow := if u.boot.thrHold then u.power.hostQNow else u.power.hostQ }
      boot := { u.boot with thrPin := true, thrLow := true, thrHold := false, thrCnt := satInc u.boot.thrCnt } }) ∧
    (u.boot.thrLow = true → exec (.thrReqRise dt) s = .next { u with boot := { u.boot with
      thrPin := false, thrLow := false, thrHold := true, thrRiseAt := u.boot.uptime } }) ∧
    (u.boot.thrHold = true → u.boot.thrRiseAt + 160000 ≤ u.boot.uptime → exec (.thrReqHoldEnd dt) s =
      .next { u with boot := { u.boot with thrHold := false }, power := { u.power with hostQNow := u.power.hostQ } })

/-- The instants of the state changes of a tile (04 R123, R127 to R129, R132, R428; 03 R79; 05 R147; 09 R250): when the one change that is
due at tile `i` is an enable with its tap check done, a disable, a gate or an ungate, the tile takes the state (STARTING where its
oscillator is still to be brought to its code), its command ends with OK and that state, and no other tile changes; an enable whose check
is not done is refused; a plausibility check on a tile that stops is dropped; the tiles of a returning domain take the state they held;
soft start falls by one once 8 periods have run. Open points follow assumptions 30, 31, 81. -/
def Obligations.StateInstants : Prop :=
  ∀ (dt : Nat) (b : BitVec 8) (i : Nat) (s u : State) (x : Sched) (o : Tile), u = s.tick dt → s.boot.inReset = false → i = b.toNat →
    u.tiles.length = 256 → o = u.tile i →
    (dueIs u i x → x.act = .enable → o.st = .disabled → o.tapOk = some x.at_ → (o.failA && o.failB) = false →
      ∃ t, exec (.enableInstant dt b) s = .next t ∧ (t.tile i).runCode = o.code ∧ (t.tile i).actB = o.failA ∧
        (t.tile i).stby = (if o.failA ∨ o.failB then .off else if o.calA ∧ o.calB then .warm else .calibrating) ∧
        (t.tile i).sched = o.sched.erase x ∧ (t.tile i).tapOk = none ∧ (∀ j, j ≠ i → t.tile j = u.tile j) ∧ t.rails = u.rails ∧
        t.keys = u.keys ∧
        ((if o.failA then o.calB else o.calA) = true → (t.tile i).st = .running ∧ (t.tile i).frame = 0 ∧ (t.tile i).low = false ∧
          (t.tile i).start = (if o.softStart then o.reactLim else 0) ∧ settledAs u t x.mbx (okR [3])) ∧
        ((if o.failA then o.calB else o.calA) = false → (t.tile i).st = .starting ∧ settledAs u t x.mbx (okR [2]))) ∧
    (dueIs u i x → x.act = .enable → o.st = .disabled → o.tapOk ≠ some x.at_ → exec (.enableInstant dt b) s =
      .next ((u.modTile i (fun t => { t with sched := t.sched.erase x })).settleO x.mbx (notPermR 0xA { item := 3, idx := u.railOf i }))) ∧
    (dueIs u i x → x.act = .disable → o.st = .running ∨ o.st = .gated ∨ o.st = .starting →
      ∃ t, exec (.disableInstant dt b) s = .next t ∧ (t.tile i).st = .disabled ∧ (t.tile i).runCode = 0 ∧ (t.tile i).stby = .off ∧
        (t.tile i).code = o.code ∧ (t.tile i).hov = none ∧
        (t.tile i).sched = o.sched.erase x ∧ settledAs u t x.mbx (okR [1]) ∧ (∀ j, j ≠ i → t.tile j = u.tile j) ∧
        ((∀ r < 8, ∀ c, (u.rail r).check = some c → c.tile.toNat ≠ i) → t.rails = u.rails) ∧
        (∀ r < 8, ∀ c, (u.rail r).check = some c → c.tile.toNat = i → (t.rail r).check = none)) ∧
    (dueIs u i x → x.act = .gate → o.st = .running ∨ o.st = .starting →
      ∃ t, exec (.gateInstant dt b) s = .next t ∧ (t.tile i).st = .gated ∧ (t.tile i).runCode = o.runCode ∧ (t.tile i).actB = o.actB ∧
        (t.tile i).start = 0 ∧ (t.tile i).sched = o.sched.erase x ∧ settledAs u t x.mbx (okR [4]) ∧
        (∀ j, j ≠ i → t.tile j = u.tile j) ∧
        ((∀ r < 8, ∀ c, (u.rail r).check = some c → c.tile.toNat ≠ i) → t.rails = u.rails) ∧
        (∀ r < 8, ∀ c, (u.rail r).check = some c → c.tile.toNat = i → (t.rail r).check = none)) ∧
    (dueIs u i x → x.act = .ungate → o.st = .gated →
      ∃ t, exec (.ungateInstant dt b) s = .next t ∧ (t.tile i).runCode = o.runCode ∧ (t.tile i).sched = o.sched.erase x ∧
        (∀ j, j ≠ i → t.tile j = u.tile j) ∧ t.rails = u.rails ∧ t.keys = u.keys ∧
        (o.actCal = false → (t.tile i).st = .running ∧ (t.tile i).frame = 0 ∧ (t.tile i).start = (if o.softStart then o.reactLim else 0) ∧
          settledAs u t x.mbx (okR [3])) ∧
        (o.actCal = true → (t.tile i).st = .starting ∧ settledAs u t x.mbx (okR [2]))) ∧
    (∀ (d : BitVec 8) (T : Time) (m : Option (BitVec 3)), u.domRet.getD d.toNat none = some (T, m) → u.due T = true → d.toNat < u.doms.length →
      ∃ t, exec (.domainReturnInstant dt d) s = .next t ∧ t.doms.getD d.toNat false = true ∧ t.domRet.getD d.toNat none = none ∧
        settledAs u t m (okR []) ∧
        (∀ j < 256, j ∈ u.domTiles d.toNat → (u.tile j).st = .domainOff → (u.tile j).recEn = false →
          ((u.tile j).ret = .disabled → (t.tile j).st = .disabled) ∧
          ((u.tile j).ret = .gated → ((u.tile j).failA && (u.tile j).failB) = false → (t.tile j).st = .gated ∧
            (t.tile j).runCode = (u.tile j).code) ∧
          ((u.tile j).ret = .running → ((u.tile j).failA && (u.tile j).failB) = false →
            (t.tile j).st = (if (if (u.tile j).failA then (u.tile j).calB else (u.tile j).calA) then .running else .starting) ∧
            (t.tile j).runCode = (u.tile j).code)) ∧
        (∀ j < 256, j ∉ u.domTiles d.toNat → (t.tile j).st = (u.tile j).st)) ∧
    (exec (.softStartStep dt b) s = .next (u.modTile i (fun t =>
      if t.start = 0 ∨ t.startPer < 8 ∨ t.low = true then t else { t with start := t.start - 1, startPer := t.startPer - 8 })))

/-- Moves, handovers and oscillators (04 R108 to R117; 18 R406, R407, R410): a slide at its instant; the stages of a handover or swap and
its switch, in which the other oscillator becomes the active one at the handover's code, which a swap leaves out of the policy word; the
loss of a standby, of the active oscillator with a warm standby or with another, and of both; the end of a calibration of the standby, in
STARTING, and before a start; the swap that is scheduled when a calibration has aged, which stops a test of the standby; and the
rotation's test of a standby: its beginning, 100 ms after the one before in its group, and its end after 16 windows. Open points follow
assumptions 29, 30, 89, 101. -/
def Obligations.MovesAndOscillators : Prop :=
  ∀ (dt : Nat) (b : BitVec 8) (i : Nat) (s u : State) (o : Tile), u = s.tick dt → s.boot.inReset = false → i = b.toNat →
    u.tiles.length = 256 → o = u.tile i →
    (∀ x c, dueIs u i x → x.act = .code c → o.live = true → o.runCode ≠ c → slideReach o.runCode.toNat c.toNat = true →
      ∃ t, exec (.slideInstant dt b) s = .next t ∧ (t.tile i).runCode = c ∧ (t.tile i).code = c ∧ (t.tile i).slides = satInc o.slides ∧
        (t.tile i).dip = 0 ∧ (t.tile i).st = o.st ∧ (t.tile i).actB = o.actB ∧ (t.tile i).movedAt = some x.at_ ∧
        (t.tile i).sched = o.sched.erase x ∧ (∀ j, j ≠ i → t.tile j = u.tile j) ∧ t.rails = u.rails ∧ t.keys = u.keys) ∧
    (∀ h, o.st = .running ∨ o.st = .gated → o.hov = none → o.failA = false → o.failB = false → u.nextHov i = some h →
      exec (.handoverRetuneStart dt b) s = .next (u.modTile i (fun t => { t with hov := some h, stby := .calibrating }))) ∧
    (∀ h, o.hov = some h → u.key h.at_ ≤ 2 ^ 63 + 32000 → h.tuned = true → exec (.handoverAlignStart dt b) s =
      .next (u.modTile i (fun t => { t with hov := some { h with aligning := true } }))) ∧
    (∀ h e, o.hov = some h → u.due h.at_ = true → o.withhold = false → h.aligning = true → o.sched.filter h.answers ≠ [] →
      ∃ t, exec (.handoverSwitch dt b true e) s = .next t ∧ (t.tile i).actB = !o.actB ∧ (t.tile i).runCode = h.code ∧
        (t.tile i).code = (if h.swap then o.code else h.code) ∧ (t.tile i).stby = .calibrating ∧ (t.tile i).hov = none ∧ (t.tile i).st = o.st ∧
        (t.tile i).hovs = (if h.swap then o.hovs else satInc o.hovs) ∧ (t.tile i).swaps = (if h.swap then satInc o.swaps else o.swaps) ∧
        (t.tile i).sched = o.sched.filter (fun x => !h.answers x) ∧ (∀ j, j ≠ i → t.tile j = u.tile j) ∧ t.rails = u.rails) ∧
    (∀ a, u.present i = true → o.st = .running → o.failA = false → o.failB = false → o.hov = none →
      (o.actB ≠ a → ∃ t, exec (.oscFail dt b a .noEdge) s = .next t ∧ (t.tile i).st = .running ∧ (t.tile i).stby = .off ∧
        (t.tile i).actB = o.actB ∧ (t.tile i).runCode = o.runCode ∧ (t.tile i).failA = !a ∧ (t.tile i).failB = a ∧
        (t.tile i).oscFails = satInc o.oscFails ∧ ∀ x ∈ (t.tile i).sched, x.act ≠ .swap) ∧
      (o.actB = a → o.stby = .warm → ∃ t, exec (.oscFail dt b a .count) s = .next t ∧ (t.tile i).st = .running ∧ (t.tile i).stby = .off ∧
        (t.tile i).actB = !o.actB ∧ (t.tile i).runCode = o.runCode ∧ (t.tile i).failA = !a ∧ (t.tile i).failB = a) ∧
      (o.actB = a → o.stby ≠ .warm → ∃ t, exec (.oscFail dt b a .count) s = .next t ∧ (t.tile i).st = .starting ∧ (t.tile i).stby = .off ∧
        (t.tile i).actB = !o.actB ∧ (t.tile i).actCal = true ∧ (t.tile i).failA = !a ∧ (t.tile i).failB = a)) ∧
    (∀ a f, u.present i = true → o.st = .running → o.failA = a → o.failB = !a →
      ∃ t, exec (.oscFail dt b a f) s = .next t ∧ (t.tile i).st = .fenced ∧ (t.tile i).cause = 2 ∧ (t.tile i).failA = true ∧
        (t.tile i).failB = true) ∧
    (∀ a v w, u.present i = true → o.st = .running → o.actB ≠ a → o.stby = .calibrating → u.take .settle 3200001 = (v, w) →
      exec (.oscCalDone dt b a true) s = .next (w.modTile i (fun t => { t with
        stby := if t.hov.any (fun h => decide (h.code ≠ t.runCode)) then .calibrating else .warm
        stbySettle := v, hov := t.hov.map (fun h => { h with tuned := true }) }))) ∧
    (∀ a, u.present i = true → o.st = .disabled → exec (.oscCalDone dt b a true) s =
      .next (u.modTile i (fun t => { t with calA := t.calA || !a, calB := t.calB || a }))) ∧
    (∀ a, u.present i = true → o.st = .starting → o.actCal = true → o.actB = a →
      ∃ t, exec (.oscCalDone dt b a true) s = .next t ∧ (t.tile i).st = .running ∧ (t.tile i).frame = 0 ∧ (t.tile i).runCode = o.runCode ∧
        ∀ j, j ≠ i → t.tile j = u.tile j) ∧
    (u.swapDue i = true → (∀ j < 256, (u.tile j).sched = []) → (∀ k < 4, (u.slot k).live = false) → u.keys.slots.length = 4 →
      exec (.autoCalibrationSwap dt b) s = .next (u.modTile i (fun t => { t with
        stby := if t.stby = .testing then .calibrating else t.stby
        sched := t.sched ++
          [{ at_ := BitVec.ofNat 64 ((u.mer.now.toNat + 1024000 + 15999999) / 16000000 * 16000000), act := .swap, auto := true }] }))) ∧
    (∀ r p, u.tests.stby.getD (i / 32) {} = r → (r.runs && decide ((u.tile (32 * (i / 32) + r.pos)).stby = .testing)) = false →
        (∀ t, r.at_ = some t → t + 1600000000 ≤ u.boot.uptime) → u.rotNext (i / 32) = some i → exec (.standbyTest dt b p) s =
      .next ((u.modRot (i / 32) (fun _ => { at_ := some u.boot.uptime, pos := i % 32, runs := true })).modTile i (fun t => { t with
        stby := .testing }))) ∧
    (∀ r t0, u.tests.stby.getD (i / 32) {} = r → r.runs = true → r.pos = i % 32 → r.at_ = some t0 → o.stby = .testing →
      (u.boot.uptime < t0 + 2621440 → ∀ p, exec (.standbyTest dt b p) s = .next u) ∧
      (t0 + 2621440 ≤ u.boot.uptime → o.st = .running → o.hov = none →
        (exec (.standbyTest dt b true) s = .next ((u.modRot (i / 32) (fun r => { r with runs := false })).modTile i (fun t => { t with
          stby := .warm, stbyTests := satInc t.stbyTests }))) ∧
        (u.present i = true → o.failA = false → o.failB = false → ∃ t, exec (.standbyTest dt b false) s = .next t ∧
          (t.tile i).st = .running ∧ (t.tile i).stby = .off ∧ (t.tile i).actB = o.actB ∧ (t.tile i).failA = o.actB ∧
          (t.tile i).failB = !o.actB)))

/-- Fencing (04 R130; 17 R395 to R399; 02 R71; 03 R79) and what is done at a tile before and after it: a fence stops the clock, gives up
what waits and is counted; the analogue supply, a tap check, its deadline, a trial once 1 ms or 10 s have passed and no grant holds the
tile, a discarded mortar word; and the examination that lowers the learned limit, once for each millisecond (11 R294). Open points follow
assumptions 31, 33, 89. -/
def Obligations.FencingAndTaps : Prop :=
  ∀ (dt : Nat) (b : BitVec 8) (i : Nat) (s u : State) (o : Tile), u = s.tick dt → s.boot.inReset = false → i = b.toNat →
    u.tiles.length = 256 → o = u.tile i →
    (∀ (v : State) (c : Nat), v.present i = true → v.tiles.length = 256 → (v.tile i).st ≠ .fenced → (v.tile i).st ≠ .halted → c < 16 →
      let t := (v.fence i c).tile i
      t.st = .fenced ∧ t.cause.toNat = c ∧ t.fences = satInc (v.tile i).fences ∧ t.runCode = 0 ∧ t.stby = .off ∧ t.sched = [] ∧ t.hov = none ∧
      t.trialAt = v.boot.uptime + 16000000 ∧ t.events = [] ∧ t.code = (v.tile i).code ∧ t.plumbW = (v.tile i).plumbW ∧ (v.fence i c).mer = v.mer ∧ (v.fence i c).boot = v.boot) ∧
    (exec (.voscLow dt b) s = .next (u.fence i 3)) ∧
    (∀ E x k f, (u.enables i).head? = some (E, x, k) → o.tapOk ≠ some E → u.key E ≤ 2 ^ 63 + 1024000 → 2 ^ 63 + 48000 ≤ u.key E →
        u.railNear (u.railOf i) 20 = true → (∀ p < 4, plumbEn o.plumbW p = true → bit f p = false) →
      exec (.tapCheckAttempt dt b f) s = .next (u.modTile i (fun t => { t with
        tapOk := some E, plumbs := t.plumbs.map (fun p => { p with calAt := u.boot.uptime, calTemp := t.temp }) }))) ∧
    (∀ E x k, (u.enables i).head? = some (E, some x, k) → o.tapOk ≠ some E → u.key E ≤ 2 ^ 63 + 16000 → exec (.tapCheckDeadline dt b) s =
      .next ((u.modTile i (fun t => { t with sched := t.sched.erase x })).settleO x.mbx (notPermR 0xA { item := 3, idx := u.railOf i }))) ∧
    (∀ E, (u.enables i).head? = some (E, none, none) → o.tapOk ≠ some E → u.key E ≤ 2 ^ 63 + 16000 → exec (.tapCheckDeadline dt b) s =
      .next (u.modTile i (fun t => { t with recEn := false, ret := .disabled }))) ∧
    (∀ a c v (t0 t1 : Int), o.st = .fenced → u.boot.uptime < o.trialAt ∨ u.granted i = true →
      exec (.fenceTrial dt b a c v t0 t1) s = .next u) ∧
    (∀ a c (t0 t1 : Int), o.st = .fenced → u.granted i = false → o.trialAt ≤ u.boot.uptime → exec (.fenceTrial dt b a c true t0 t1) s =
      .next (u.modTile i (fun t => { t with trialA := false, trialB := false, trialAt := u.boot.uptime + 160000000000 }))) ∧
    (∀ a c (t0 t1 : Int), o.st = .fenced → u.granted i = false → o.trialAt ≤ u.boot.uptime → exec (.fenceTrial dt b a c false t0 t1) s =
      .next (u.modTile i (fun t => { t with
        trialAt := u.boot.uptime + 160000000000, trialRun := true, trialA := a, trialB := c, trialS0 := decide (-160 ≤ t0 ∧ t0 ≤ 600)
        trialS1 := decide (-160 ≤ t1 ∧ t1 ≤ 600) }))) ∧
    (∀ cfg n, u.present i = true → o.mortarAt.length < 15 → n < 4 → exec (.mortarWordDiscard dt b cfg n) s =
      .next (u.modTile i (fun t => { t with
        mortar := satInc t.mortar
        mortarAt := u.boot.uptime :: t.mortarAt.filter (fun a => decide (u.boot.uptime < a + 16000000)) }))) ∧
    (u.mer.running = false ∨ u.boot.examAt = some (u.multAt 16000000) → exec (.learnExam dt) s = .next u) ∧
    (u.mer.running = true → u.boot.examAt ≠ some (u.multAt 16000000) → ∃ t, exec (.learnExam dt) s = .next t ∧
      t.boot = { u.boot with examAt := some (u.multAt 16000000) } ∧ t.rails = u.rails ∧ t.keys = u.keys ∧ ∀ j < 256, u.adaptive j = true ∨ u.service j = true →
      (t.tile j).exPer = 0 ∧ (t.tile j).exLim = 0 ∧ (t.tile j).exRun = decide ((u.tile j).st = .running) ∧
      (t.tile j).learn = (if (u.tile j).exRun = true ∧ (u.tile j).st = .running ∧ (u.tile j).exPer < (u.tile j).exLim * 8
        then BitVec.ofNat 16 (max 2560 (min (u.tile j).learn.toNat ((u.tile j).code.toNat - (u.tile j).code.toNat / 8)))
        else (u.tile j).learn))

/-- The life of a keystone after its commands (08 R222 to R228, R231, R233; 04 R116): acknowledgement, the two deadlines, and the launch
edge, at which the sealed keystones of one T resolve in slot order, each with its commit or with the abort that what fails calls for, a
handover that could not be taken being counted; an abort frees the slot, records the outcome and leaves the policy, plumb and droop words
and the states of all tiles as they were; a commit records the outcome, and a committed code, plumb or droop word is the word of a tile
whose clock stands; and the capture that waits for its instant (08 R229). Open points follow assumption 48. -/
def Obligations.KeystoneEvents : Prop :=
  ∀ (dt : Nat) (b : BitVec 2) (k : Nat) (s u : State) (x : Slot), u = s.tick dt → s.boot.inReset = false → k = b.toNat → x = u.slot k →
    u.keys.slots.length = 4 →
    (x.live = true → x.acked = false → exec (.ksSealComplete dt b) s = .next ((u.modSlot k (fun y => { y with
      acked := true, st := if y.sealing then .sealed else y.st, sealing := false, sealMbx := none })).settleO x.sealMbx (okR []))) ∧
    (x.st = .opened ∨ x.st = .sealed ∧ x.acked = false → u.key x.t ≤ 2 ^ 63 + 16000 → exec (.ksSealDeadline dt b) s =
      .next (u.abortKs k (if x.sealing = true ∨ x.st = .sealed then 7 else 6) none)) ∧
    (∀ m l, x.st = .sealed → u.key x.t ≤ 2 ^ 63 + 20 → exec (.ksLaunchEdge dt b ⟨m, l⟩) s =
      .next (u.each ([0, 1, 2, 3].filter (fun j => decide ((u.slot j).st = .sealed) && decide ((u.slot j).t = x.t))) (State.launchOne m l))) ∧
    (∀ (v : State) (m l : List (BitVec 8)), (v.slot k).st = .sealed →
      (v.launchFail k l = none → (∀ t ∈ m, (v.slot k).naming t.toNat = none) → v.launchOne m l k = v.commitKs k) ∧
      (∀ c f, v.launchFail k l = some (c, f) → c ≠ 8 → v.launchOne m l k = v.abortKs k c (some f)) ∧
      (∀ f, v.launchFail k l = some (8, f) → v.launchOne m l k =
        (v.abortKs k 8 (some f)).each ((v.hovFails (v.slot k) l).map (·.2)) State.countMiss)) ∧
    (x.st = .committed → u.key x.t ≤ 2 ^ 63 → exec (.ksAckDeadline dt b []) s = .next (let v := u.modSlot k (fun _ => {})
      { v with keys := { v.keys with
          results := v.keys.results.map (fun r => if r.seq = x.seq then { r with late := 0 } else r)
          freed3 := if k = 3 then u.mer.now else v.keys.freed3 } })) ∧
    (∀ (v : State) (c : Nat) (f : Option (Nat × Nat)), v.keys.slots.length = 4 → (v.slot k).live = true → c < 16 →
      ((v.abortKs k c f).slot k).st = .free ∧ (v.abortKs k c f).mer = v.mer ∧ (v.abortKs k c f).boot = v.boot ∧
      (∃ r ∈ (v.abortKs k c f).keys.results, r.seq = (v.slot k).seq ∧ r.st = .aborted ∧ r.cause.toNat = c ∧ r.t = (v.slot k).t) ∧
      ∀ i, ((v.abortKs k c f).tile i).policyN = (v.tile i).policyN ∧ ((v.abortKs k c f).tile i).plumbW = (v.tile i).plumbW ∧
        ((v.abortKs k c f).tile i).droopW = (v.tile i).droopW ∧ ((v.abortKs k c f).tile i).st = (v.tile i).st) ∧
    (∀ v : State, v.keys.slots.length = 4 → (v.slot k).live = true →
      (∃ r, (v.commitKs k).keys.results.head? = some r ∧ r.seq = (v.slot k).seq ∧ r.st = .committed ∧ r.cause = 0) ∧
      (v.commitKs k).keys.committed = satInc v.keys.committed ∧
      ((v.commitKs k).slot k).st = (if (v.slot k).acts = [] then .free else .committed) ∧
      ∀ a i, (v.slot k).acts = [a] → i = actTarget a → i < v.tiles.length → (v.tile i).live = false →
        (actKind a = 1 → ((v.commitKs k).tile i).code.toNat = actValue a % 65536) ∧
        (actKind a = 8 → ((v.commitKs k).tile i).plumbW = BitVec.ofNat 64 (actValue a)) ∧
        (actKind a = 9 → ((v.commitKs k).tile i).droopW = BitVec.ofNat 64 (actValue a))) ∧
    (∀ c, u.keys.caps = [c] → u.capReady c = true → ∃ t, exec (.captureLatch dt) s = .next t ∧ t.keys.caps = [] ∧
      settledAs u t c.mbx (okR (wordsOf 2 c.at_.toNat)) ∧ t.tiles = u.tiles ∧ t.rails = u.rails ∧ t.ledger = u.ledger)

/-- The voltage writes and reads around a keystone (02 R59; 08 R224, R225; 09 R239, R240, R261; 16 R383): a raise that is due has its turn
among the four writes of its link's interval, a lowering and the writing back of a raise likewise, and one whose turn has not come waits;
a write goes out as its frame or command and is counted, and none goes above the chart's maximum; 20 µs before T the readback decides; on
a faulted link a read over PMBus brings it, unless it failed to the last retry; after a coolant stop no set point is written. Open points
follow assumptions 49, 89. -/
def Obligations.RailVoltageEvents : Prop :=
  ∀ (dt : Nat) (b : BitVec 3) (r : Nat) (s u : State), u = s.tick dt → s.boot.inReset = false → r = b.toNat →
    (∀ k n v, u.raiseOf r (fun x => u.raiseDue x r) = some (k, n, v) → (u.rail r).active = true →
      (u.writeTurn (0, u.key (u.slot k).t, r) = true → exec (.ksRailRaiseWrite dt b) s =
        .next ((u.writeRail r v).modSlot k (fun x => { x with raised := x.raised ++ [b] }))) ∧
      (u.writeTurn (0, u.key (u.slot k).t, r) = false → exec (.ksRailRaiseWrite dt b) s = .next u)) ∧
    (∀ a mv f, u.raiseOf r (fun x => decide (u.key x.t ≤ 2 ^ 63 + 3200000) && x.raised.any (fun y => y.toNat == r)) = some a →
        u.onPmbus r = true →
      (f ≠ 3 → exec (.ksRailPmbusRead dt b ⟨mv, f⟩) s =
        .next (State.takeVolt { u with power := { u.power with bus := pmbOps (u.rail r).map 0x8B none } } r mv)) ∧
      (f = 3 → exec (.ksRailPmbusRead dt b ⟨mv, f⟩) s = .next { u with power := { u.power with
        bus := pmbOps (u.rail r).map 0x8B none, pmbBad := satInc u.power.pmbBad } })) ∧
    (∀ (v : State) (mv : Nat), r < v.rails.length → ((v.takeVolt r mv).rail r).mvs = (mv :: (v.rail r).mvs).take 4 ∧
      ((v.takeVolt r mv).rail r).fresh = true ∧ (v.takeVolt r mv).tiles = v.tiles ∧ (v.takeVolt r mv).keys = v.keys) ∧
    (∀ k n v, u.raiseOf r (fun x => decide (u.key x.t ≤ 2 ^ 63 + 320000) && !x.checked.any (fun y => y.toNat == r)) = some (k, n, v) →
      (u.raiseGood (u.slot k) r v = true → exec (.ksRailCheck dt b) s =
        .next (u.modSlot k (fun x => { x with checked := x.checked ++ [b] }))) ∧
      (u.raiseGood (u.slot k) r v = false → exec (.ksRailCheck dt b) s = .next (u.abortKs k 9 (some (n, r))))) ∧
    (u.lowerDue r = true → u.writeTurn (1, 0, r) = true → u.boot.cool ≠ .stopped → exec (.ksRailLowerWrite dt b) s =
      .next ((u.writeRail r (u.rail r).vset.toNat).modRail r (fun x => { x with vref := (u.rail r).vset.toNat }))) ∧
    (∀ v, (u.rail r).wback = some v → u.backDue r = true → u.writeTurn (2, 0, r) = true → u.boot.cool ≠ .stopped →
      exec (.railWriteBack dt b) s = .next (let w := (u.writeRail r v.toNat).modRail r (fun x => { x with
          wback := none, vref := min x.vref v.toNat })
        { w with power := { w.power with wbacks := satInc u.power.wbacks } })) ∧
    (u.boot.cool = .stopped ∨ u.writeTurn (1, 0, r) = false → exec (.ksRailLowerWrite dt b) s = .next u) ∧
    (u.boot.cool = .stopped ∨ u.writeTurn (2, 0, r) = false → exec (.railWriteBack dt b) s = .next u) ∧
    (∀ v, v ≤ u.railMax r →
      (u.onPmbus r = false → u.writeRail r v = { u with
        power := { u.power with
          bus := [avsOp (u.rail r).map r 0 0 (some v)], writes := u.power.writes.set (linkOf r) (u.sampleAt, u.writesNow (linkOf r) + 1) }
        rails := u.rails.modify r (fun x => { x with written := v, fresh := false }) }) ∧
      (u.onPmbus r = true → u.writeRail r v = { u with
        power := { u.power with bus := pmbOps (u.rail r).map 0x21 (some v) }
        rails := u.rails.modify r (fun x => { x with written := v, fresh := false }) })) ∧
    (∀ v, u.railMax r < v → u.writeRail r v =
      State.raise { u with power := { u.power with chartGuard := satInc u.power.chartGuard } } 0xB05 1 0)

/-- The intervals of the power controller (02 R59; 09 R241, R242, R244, R254, R257): an interval is closed once, without an active rail
and with one, whose product of readings is the die power; a cap rate is evaluated once for each multiple of its period, and without data
it stays; the ledger is snapped once for each millisecond. Open points follow assumptions 50, 52, 53, 89. -/
def Obligations.PowerIntervals : Prop :=
  ∀ (dt : Nat) (s u : State), u = s.tick dt → s.boot.inReset = false → u.mer.running = true →
    (∀ rs, u.power.ivAt ≠ some u.sampleAt → u.activeRails = [] → u.rails.length = 8 → ∃ t, exec (.samplingInterval dt rs []) s = .next t ∧
      t.power.ivAt = some u.sampleAt ∧ t.power.bus = [] ∧ t.power.pDie = 0 ∧
      t.power.caps = u.power.caps ∧ t.power.hist = u.power.hist ∧ t.power.cfgNow = u.power.cfg ∧ t.ledger.map = u.ledger.mapNext ∧
      (∀ i < u.tiles.length, (t.tile i).passLast = (u.tile i).passIv ∧ (t.tile i).passIv = 0 ∧ (t.tile i).estCnt = 0 ∧
        (t.tile i).st = (u.tile i).st) ∧ t.boot = u.boot ∧ t.keys = u.keys) ∧
    (∀ (b : BitVec 3) (mv ma : Nat), u.power.ivAt ≠ some u.sampleAt → u.activeRails = [b.toNat] → b.toNat < u.rails.length →
        u.onPmbus b.toNat = false →
      ∃ t, exec (.samplingInterval dt [{ rail := b, mv := mv, ma := ma }] []) s = .next t ∧ t.power.pDie = mv * ma * 65536 / 1000 ∧
        t.power.ivAt = some u.sampleAt ∧
        t.power.bus = [avsOp (u.rail b.toNat).map b.toNat 3 0 none, avsOp (u.rail b.toNat).map b.toNat 3 2 none] ∧
        (t.rail b.toNat).mvs.head? = some mv ∧ (t.rail b.toNat).mas.head? = some ma ∧ t.power.k = u.power.k + 1 ∧
        (t.rail b.toNat).vset = (u.rail b.toNat).vset ∧ t.keys = u.keys) ∧
    (∀ rs m, u.power.ivAt = some u.sampleAt → exec (.samplingInterval dt rs m) s = .next u) ∧
    (∀ (b : BitVec 2) (w : Nat), w = b.toNat → w < 3 →
      (∀ f : Frac, u.power.capAt.getD w none ≠ some (u.multAt (capPeriod w)) → u.power.filter w = some f → u.cvy.st = .none →
        exec (.capEvaluation dt b) s = .next { u with power := { u.power with
          capAt := u.power.capAt.set w (some (u.multAt (capPeriod w)))
          caps := u.power.caps.modify w (fun q => BitVec.ofNat 9 (capStep q.toNat (u.power.limits.getD w 0).toNat
            (if w = 0 then 8 else if w = 1 then 4 else 2) u.margin f))
          breach := if (u.power.limits.getD w 0).toNat * 65536 * f.den < f.num then u.power.breach.modify w satInc
            else u.power.breach } }) ∧
      (u.power.capAt.getD w none ≠ some (u.multAt (capPeriod w)) → u.power.filter w = none →
        exec (.capEvaluation dt b) s = .next { u with power := { u.power with
          capAt := u.power.capAt.set w (some (u.multAt (capPeriod w))) } }) ∧
      (u.power.capAt.getD w none = some (u.multAt (capPeriod w)) → exec (.capEvaluation dt b) s = .next u)) ∧
    (u.ledger.snapAt ≠ some (u.multAt 16000000) → ∃ t, exec (.ledgerSnapshot dt) s = .next t ∧ t.ledger = { u.ledger with
        sAccts := u.ledger.accts, sParts := u.ledger.parts, tSnap := u.multAt 16000000, snapAt := some (u.multAt 16000000)
        sTiles := (List.range 16).map (fun p => (partTiles u.ledger.map p).length) } ∧
      t.tiles = u.tiles ∧ t.rails = u.rails ∧ t.power = u.power ∧ t.keys = u.keys) ∧
    (u.ledger.snapAt = some (u.multAt 16000000) → exec (.ledgerSnapshot dt) s = .next u)

/-- The plausibility check of a suspect rail, and the buses (09 R239, R240, R250, R251; 02 R60, R61): the check takes a spare plumb and a
free channel, or waits for 1 ms; it searches its threshold in six steps of 20 µs, and clears or confirms the rail; one whose tile does not
run is dropped; a link fails and comes back after 16 good frames, with an attempt every 100 ms; a read over PMBus at the fallback rates
and an alert, each lost and counted where its transaction has failed to the last retry; and a recovery of the PMBus. Open points follow
assumptions 54, 55, 89. -/
def Obligations.RailChecksAndBuses : Prop :=
  ∀ (dt : Nat) (b : BitVec 3) (r : Nat) (s u : State) (x : Rail), u = s.tick dt → s.boot.inReset = false → r = b.toNat → x = u.rail r →
    u.rails.length = 8 →
    (x.suspect = true → x.fault = false → x.check = none → rmRGrid x.map ≠ 0 →
        (∀ c, x.clearedAt = some c → c + 160000000000 ≤ u.boot.uptime) → (∀ c, x.plWaitAt = some c → c + 16000000 ≤ u.boot.uptime) →
      (∀ i p ch, u.checkTile r = some (i, p) → u.checkChan i p = some ch → i < 256 → p < 4 →
        ∃ t, exec (.plausibilityCheck dt b) s = .next t ∧
          (t.rail r).check = some {
            tile := BitVec.ofNat 8 i, plumb := BitVec.ofNat 2 p, ch := BitVec.ofNat 6 ch, t0 := u.boot.uptime } ∧
          (ch < u.sxt.chans.length → (t.chan ch).owner = .service ∧ (t.chan ch).armed = true ∧ (t.chan ch).setup = checkSetup i p) ∧
          (i < u.tiles.length → p < (u.tile i).plumbs.length → ((t.tile i).plumbs.getD p {}).masked = true) ∧
          (∀ j, j ≠ i → t.tile j = u.tile j) ∧ t.keys = u.keys) ∧
      ((u.checkTile r = none ∨ ∃ i p, u.checkTile r = some (i, p) ∧ u.checkChan i p = none) → exec (.plausibilityCheck dt b) s =
        .next (u.modRail r (fun y => { y with cWait := satInc y.cWait, plWaitAt := some u.boot.uptime })))) ∧
    (∀ i p ch, u.checkChan i p = some ch → ch < 60 ∧ (u.chan ch).owner = .none ∧ (u.chan ch).failed = false ∧ (u.chan ch).caling = false) ∧
    (∀ c d, x.check = some c →
      ((u.tile c.tile.toNat).st ≠ .running → exec (.plausibilitySearchStep dt b d) s = .next (u.dropCheck c.tile.toNat)) ∧
      ((u.tile c.tile.toNat).st = .running → u.boot.uptime < c.t0 + 320800 * (c.steps + 1) →
        exec (.plausibilitySearchStep dt b d) s = .next u) ∧
      ((u.tile c.tile.toNat).st = .running → c.t0 + 320800 * (c.steps + 1) ≤ u.boot.uptime →
        (c.steps < 5 → exec (.plausibilitySearchStep dt b d) s = .next (u.modRail r (fun y => { y with
          check := some { c with code := if 160000 ≤ d then c.code + 2 ^ (5 - c.steps) else c.code, steps := c.steps + 1 } }))) ∧
        (c.steps = 5 → ∀ code, code = (if 160000 ≤ d then c.code + 1 else c.code) →
          ∃ t, exec (.plausibilitySearchStep dt b d) s = .next t ∧ (t.rail r).check = none ∧ (t.rail r).cRun = satInc x.cRun ∧
            (x.drops code = true → (t.rail r).fault = true ∧ (t.rail r).cConf = satInc x.cConf) ∧
            (x.drops code = false → (t.rail r).suspect = false ∧ (t.rail r).cClear = satInc x.cClear ∧
              (t.rail r).clearedAt = some u.boot.uptime)))) ∧
    (∀ l : BitVec 1, bit u.power.avsBad l.toNat = false → exec (.avsLinkFault dt l) s = .next (State.raise { u with power := { u.power with
      avsBad := u.power.avsBad ||| BitVec.ofNat 2 (2 ^ l.toNat), avsAt := u.power.avsAt.set l.toNat u.boot.uptime } } 0x701 l.toNat 0)) ∧
    (∀ (l : BitVec 1) (n : Nat), bit u.power.avsBad l.toNat = true →
      (u.boot.uptime < u.power.avsAt.getD l.toNat 0 + 1600000000 → exec (.avsLinkRetry dt l n) s = .next u) ∧
      (u.power.avsAt.getD l.toNat 0 + 1600000000 ≤ u.boot.uptime →
        (n < 16 → exec (.avsLinkRetry dt l n) s = .next { u with power := { u.power with
          avsAt := u.power.avsAt.set l.toNat u.boot.uptime } }) ∧
        (16 ≤ n → exec (.avsLinkRetry dt l n) s = .next (State.raise { u with power := { u.power with
          avsBad := u.power.avsBad &&& ~~~(BitVec.ofNat 2 (2 ^ l.toNat)) } } 0x702 l.toNat 0)))) ∧
    (∀ volt v f, x.active = true → u.onPmbus r = true → u.fallbackDue r volt = false →
      exec (.pmbusFallbackRead dt b volt ⟨v, f⟩) s = .next u) ∧
    (∀ volt v f (w : State), x.active = true → u.onPmbus r = true → u.fallbackDue r volt = true →
        w = u.modRail r (fun y => { y with
          pmVolt := if volt then some u.boot.uptime else y.pmVolt, pmCurr := if volt then y.pmCurr else some u.boot.uptime }) →
      (f ≠ 3 → volt = true → exec (.pmbusFallbackRead dt b volt ⟨v, f⟩) s =
        .next (State.takeVolt { w with power := { u.power with bus := pmbOps x.map 0x8B none } } r v)) ∧
      (f ≠ 3 → volt = false → exec (.pmbusFallbackRead dt b volt ⟨v, f⟩) s =
        .next (State.modRail { w with power := { u.power with bus := pmbOps x.map 0x8C none } } r (fun y => { y with
          mas := (v :: y.mas).take 4 }))) ∧
      (f = 3 → exec (.pmbusFallbackRead dt b volt ⟨v, f⟩) s = .next { w with power := { u.power with
        bus := pmbOps x.map (if volt then 0x8B else 0x8C) none, pmbBad := satInc u.power.pmbBad } })) ∧
    (∀ volt t, (if volt = true then x.pmVolt else x.pmCurr) = some t → u.fallbackDue r volt = decide (t + (if bit u.power.pmbus 0
        then (if volt = true then 80000000 else 20000000) else (if volt = true then 32000000 else 8000000)) *
          (if u.power.avsBad = 3 then 2 else 1) ≤ u.boot.uptime)) ∧
    (∀ st f,
      (f ≠ 3 → exec (.pmbusAlert dt b ⟨st, f⟩) s = .next ((State.modRail { u with power := { u.power with
        bus := pmbOps x.map 0x79 none ++ pmbOps x.map 0x03 none } } r (fun y => { y with cAlert := satInc y.cAlert })).raise 0x704 r
          st.toNat)) ∧
      (f = 3 → exec (.pmbusAlert dt b ⟨st, f⟩) s = .next { u with power := { u.power with
        bus := pmbOps x.map 0x79 none, pmbBad := satInc u.power.pmbBad } })) ∧
    (∀ ok, exec (.pmbusBusRecovery dt ok) s = .next { u with power := { u.power with
      pmbRec := satInc u.power.pmbRec, pmbFail := if ok then 0 else u.power.pmbFail + 1 } })

/-- The coolant (02 R62 to R64; 09 R258 to R262, Tables 9.9, 9.10, 9.12): good periods of the heartbeat, two lost ones in a row, a wire
fault on DC, a poll of the tray every 10 ms that fails, confirms flow, reports its loss or says nothing, the lapse of a confirmation, and
the end of the wait; loss and the end of the wait lead to STOPPED, which halts the block. Open points follow assumptions 56, 89. -/
def Obligations.Coolant : Prop :=
  ∀ (dt : Nat) (s u : State), u = s.tick dt → s.boot.inReset = false →
    (∀ h t0, 16000 ≤ h → u.boot.hbLast = some t0 → t0 + 1440000 ≤ u.boot.uptime → u.boot.uptime ≤ t0 + 1760000 →
      (u.boot.hbGood < 3 → exec (.flowHbEdge dt h) s = .next { u with boot := { u.boot with
        hbLast := some u.boot.uptime, hbDc := false, hbGood := u.boot.hbGood + 1, hbLost := 0, hbOdd := 0 } }) ∧
      (3 ≤ u.boot.hbGood → u.boot.cool = .unknown ∨ u.boot.cool = .wireFault → exec (.flowHbEdge dt h) s =
        .next { u with boot := { u.boot with
          hbLast := some u.boot.uptime, hbDc := false, hbGood := u.boot.hbGood + 1, hbLost := 0, hbOdd := 0, cool := .good
          flowOnce := true, trayOk := false, pollAt := u.boot.pollAt.filter (fun t => decide (t ≤ u.boot.uptime)) } })) ∧
    (∀ h t0, 16000 ≤ h → u.boot.hbLast = some t0 → t0 + 5760000 ≤ u.boot.uptime → u.boot.uptime ≤ t0 + 7040000 → 1 ≤ u.boot.hbLost →
        u.boot.cool = .good ∨ u.boot.cool = .wireFault → u.boot.chipStop = false → u.tiles.length = 256 →
      ∃ t, exec (.flowHbEdge dt h) s = .next t ∧ t.boot.cool = .stopped ∧ t.boot.chipStop = true ∧
        ∀ i < 256, u.present i = true → (t.tile i).st = .halted ∧ (t.tile i).runCode = 0) ∧
    (u.boot.hbDc = false → u.boot.hbLast.getD 0 + 16000000 ≤ u.boot.uptime → u.boot.cool = .good → exec (.flowHbDcTimeout dt) s =
      .next (State.raise0 { u with boot := { u.boot with
        hbDc := true, hbGood := 0, hbLost := 0, hbOdd := 0, wires := satInc u.boot.wires, cool := .wireFault, waitAt := u.boot.uptime
        trayOk := false, pollAt := some u.boot.uptime } } 0x70B 0)) ∧
    (u.boot.polls = true ↔ ∃ t, u.boot.pollAt = some t ∧ (u.boot.cool = .good ∨ u.boot.cool = .wireFault ∧ t ≤ u.boot.uptime)) ∧
    (∀ (P : Power) (B : Boot), u.boot.polls = true →
        B = { u.boot with pollAt := if u.boot.cool = CoolSt.good then none else some (u.boot.uptime + 160000000) } →
        P = { u.power with bus := [.pmb (BitVec.ofNat 7 (pmTray u.power.pmbus)) (BitVec.ofNat 8 (pmTrayCmd u.power.pmbus)) none] } →
      (exec (.trayPoll dt none) s = .next { u with
        boot := { B with trayBad := satInc u.boot.trayBad }, power := { P with pmbBad := satInc u.power.pmbBad } }) ∧
      (∀ b : Byte, bit b 0 = true → bit b 2 = false → bit b 1 = true → exec (.trayPoll dt (some b)) s =
        .next { u with power := P, boot := { B with trayOk := true, trayAt := u.boot.uptime } }) ∧
      (∀ b : Byte, bit b 0 = true → bit b 2 = true → ∃ t, exec (.trayPoll dt (some b)) s = .next t ∧ t.boot.cool = .stopped ∧
        t.boot.chipStop = true) ∧
      (∀ b : Byte, bit b 0 = false ∨ bit b 2 = false ∧ bit b 1 = false → exec (.trayPoll dt (some b)) s = .next { u with power := P, boot := B })) ∧
    (u.boot.polls = false → ∀ a, exec (.trayPoll dt a) s = .next u) ∧
    (u.boot.cool = .wireFault → u.boot.trayOk = false → u.boot.waitAt + 480000000000 ≤ u.boot.uptime →
      ∃ t, exec (.wireFaultWaitExpiry dt) s = .next t ∧ t.boot.cool = .stopped ∧ t.boot.chipStop = true) ∧
    (u.boot.cool = .wireFault → u.boot.trayOk = true → u.boot.trayAt + 16000000000 ≤ u.boot.uptime → exec (.trayConfirmLapse dt) s =
      .next { u with boot := { u.boot with trayOk := false, waitAt := u.boot.uptime } })

/-- What a convoy member takes from its port and does at its instants (10 R268, R271 to R281; 02 R50): each of the four notices, held out
while the inbound queue is full; the staging of a queued move; the join instant, with its keystone sealed, or with slot 3 still held; the
leave instant with slot 3 free; the follow rate of a span; a catch-up that passes; the withdrawal of an unsent notice; and the readiness
of the fabric, for all words or for so many. Open points follow assumptions 57, 58, 84, 85. -/
def Obligations.ConvoyEvents : Prop :=
  ∀ (dt : Nat) (s u : State), u = s.tick dt → s.boot.inReset = false →
    (∀ (w0 w1 w2 : Flit) (n : Notice) (c : State), n = { words := [w0, w1, w2] } → c = u.cviQueue → u.cviUp = true →
        u.cviFull = false → (u.xings.main.getD 13 {}).stale = false → noticeBad [w0, w1, w2] = false →
        fld w0 8 16 = joinId u.cvy.join → fld w0 40 16 = u.cvy.tag.toNat →
      (∀ m : CvyMove, fld w0 0 4 = 1 → m = { t := w1, code := BitVec.ofNat 16 (fld w2 0 16), mseq := w32 (fld w2 16 32) } →
          m.mseq ∉ u.cvy.seen → u.cvy.st = .active → u.cvy.leaveAt = none → 2 ^ 63 + 1280000 ≤ u.key w1 → u.slot3Free = true →
          u.cvy.queued = none → ∀ v : State, v = { c with cvy := { c.cvy with seen := m.mseq :: u.cvy.seen, latest := some m } } →
          v.convoyRefusal 3 w1 m.code.toNat false = none →
        exec (.cvyMoveNotice dt n) s = .next (v.convoyStage w1 .move m.code.toNat m.mseq.toNat false)) ∧
      (fld w0 0 4 = 2 → u.key w1 ≤ 2 ^ 63 + 2560000 → 2 ^ 63 + 32000 ≤ u.key w1 → 2 ^ 63 < u.key (w1 + 16000000) →
        exec (.cvyFollowNotice dt n) s = .next { c with cvy := { c.cvy with
          cFolRx := satInc u.cvy.cFolRx
          leases := u.cvy.leases ++ [{ from_ := w1, till := w1 + 16000000, q := BitVec.ofNat 9 (fld w2 0 9), why := whyOf (fld w2 9 5)
                                       own := false, inst := w1 }] } }) ∧
      (fld w0 0 4 = 3 → exec (.cvyNakNotice dt n) s = .next { c with cvy := { c.cvy with cNakRx := satInc u.cvy.cNakRx } }) ∧
      (fld w0 0 4 = 4 → exec (.cvyLeaveNotice dt n) s = .next { c with cvy := { c.cvy with cLeave := satInc u.cvy.cLeave } })) ∧
    (u.cviFull = true → ∀ n, exec (.cvyMoveNotice dt n) s = .next u ∧ exec (.cvyFollowNotice dt n) s = .next u ∧
      exec (.cvyNakNotice dt n) s = .next u ∧ exec (.cvyLeaveNotice dt n) s = .next u) ∧
    (∀ c : State, c = u.cviQueue → { c with cvy := u.cvy, fresh := u.fresh } = u ∧
      ∃ T, c.cvy = { u.cvy with inAt := u.cvy.inAt.filter (fun t => decide (u.boot.uptime < t)) ++ [T] } ∧ u.boot.uptime ≤ T ∧
        ∀ t ∈ (u.cvy.inAt.filter (fun t => decide (u.boot.uptime < t))).getLast?, t ≤ T) ∧
    (∀ m, u.slot3Free = true → u.cvy.st = .active → u.cvy.queued = some m → u.cvy.leaveAt = none → exec (.cvyQueuedMoveStage dt) s =
      .next (State.stageMove { u with cvy := { u.cvy with queued := none } } m)) ∧
    (u.cvy.st = .joining → u.key u.cvy.joinAt ≤ 2 ^ 63 + 20 → u.slot3Is .join = false → u.slot3Free = false →
      exec (.cvyJoinInstant dt) s = .next (u.cvyFinish 11)) ∧
    (u.cvy.st = .joining → u.key u.cvy.joinAt ≤ 2 ^ 63 + 20 → (u.slot 3).st = .sealed → (u.slot 3).kind = .join →
        u.key (u.slot 3).t ≤ 2 ^ 63 + 20 → (∀ j < 3, (u.slot j).st = .sealed → (u.slot j).t ≠ (u.slot 3).t) →
        u.launchFail 3 [] = none → ∃ t, exec (.cvyJoinInstant dt) s = .next t ∧ t.cvy.st = .active ∧ t.cvy.joinMbx = none ∧
      settledAs u t u.cvy.joinMbx (okR []) ∧ t.keys.committed = satInc u.keys.committed) ∧
    (∀ T, u.cvy.leaveAt = some T → u.due T = true → (u.slot 3).live = false → u.cvy.joinMbx = none → u.cvy.moveMbx = [] →
      ∃ t, exec (.cvyLeaveInstant dt) s = .next t ∧ t.cvy.st = .none ∧ t.cvy.join = 0 ∧ t.cvy.leases = [] ∧ t.cvy.rate = 256 ∧
        t.cvy.localQ = 256 ∧ settledAs u t u.cvy.leaveMbx (okR []) ∧ t.tiles = u.tiles ∧ t.rails = u.rails) ∧
    (∃ t, exec (.spanStart dt) s = .next t ∧ t.tiles = u.tiles ∧ t.keys = u.keys ∧
      (∀ l ∈ u.cvy.leases, l ∈ t.cvy.leases ↔ 2 ^ 63 < u.key l.till) ∧
      (∀ l ∈ u.cvy.leases, u.leaseNow l = true →
        (l.local_ = false → t.cvy.rate.toNat ≤ l.q.toNat) ∧ (l.local_ = true → t.cvy.localQ.toNat ≤ l.q.toNat)) ∧
      ((∀ l ∈ u.cvy.leases, u.leaseNow l = false) → t.cvy.rate = 256 ∧ t.cvy.localQ = 256 ∧ t.cvy.localWhy = 0)) ∧
    (∀ m, u.cvy.oos = true → u.cvy.retry = true → u.slot3Free = true → u.cvy.st = .active → u.cvy.latest = some m →
        u.cvy.leaveAt = none → u.convoyRefusal 3 u.catchInst m.code.toNat false = none → exec (.catchUp dt) s =
      .next (u.convoyStage u.catchInst .catchUp m.code.toNat m.mseq.toNat false)) ∧
    (∀ n T, u.cvy.out = [n] → n.words.length = 3 → n.until_ = some T → u.due T = true → exec (.noticeWithdraw dt) s = .next { u with cvy := { u.cvy with
      out := [], cWith := satInc u.cvy.cWith
      leases := u.cvy.leases.map (fun l => if l.own ∧ n.follow ∧ l.inst = T then { l with local_ := true } else l) } }) ∧
    (u.cvyUp = true → exec (.cvoReady ⟨dt, none⟩) s = .next { u with cvy := if u.cvy.out = [] then { u.cvy with ready := true } else { u.cvy with
      ready := true, sent := u.cvy.out.flatMap (fun n => n.words), out := []
      cFolTx := satAdd u.cvy.cFolTx (u.cvy.out.filter (fun n => n.follow)).length
      leases := u.cvy.leases.map (fun l => if l.own ∧ ∃ n ∈ u.cvy.out, n.follow = true ∧ n.until_ = some l.inst then { l with left := true }
        else l) } }) ∧
    (∀ k, u.cvyUp = true → exec (.cvoReady ⟨dt, some k⟩) s = .next { u with cvy := { (u.cvy.sendUpTo k).hold with ready := false } }) ∧
    (∀ (k : Nat) (c : Cvy), c = u.cvy.sendUpTo k → c.sent = (u.cvy.out.flatMap (fun n => n.words)).take k ∧
      c.out.flatMap (fun n => n.words) = (u.cvy.out.flatMap (fun n => n.words)).drop k)

/-- The capture of edges (02 R67, R68; 03 R89, R91 to R95, R99, R100): on a channel armed without chain, whatever armed it, a start edge
opens a pair and the stop edge after it forms its result, which a stale crossing drops; an edge in the dead time is counted alone, and a
movement of a pin that is none for its comparator and slope does nothing; the gate edges and the instants of a window arm and disarm; the
rotation's pass over a channel begins and ends, and a channel armed for more than 60 s shows its age. Open points follow assumptions 25,
26, 76. -/
def Obligations.SextantEvents : Prop :=
  ∀ (dt : Nat) (b : BitVec 6) (k : Nat) (s u : State) (c : Chan), u = s.tick dt → s.boot.inReset = false → k = b.toNat → c = u.chan k →
    u.sxt.chans.length = 64 →
    (∀ (f : BitVec 3) (lv : PinMove) (e : Nat), e = 8 * (u.sxNow k).toNat + f.toNat → c.armed = true → u.sxRuns k = true →
        sxChain c.setup = false → (sxArm c.setup = 1 → c.gateAt + 16 ≤ u.boot.uptime) →
        (sxArm c.setup = 2 → 0 ≤ lsbDiff e (8 * c.open_.toNat) ∧ lsbDiff e (8 * c.open_.toNat) < 8 * (c.len.toNat : Int)) →
      (u.srcLive (sxStart c.setup) = true → u.isEdge (sxStart c.setup) lv = (true, u) →
        ((∀ l, c.lStart = some l → lsbDiff e l < 0 ∨ 256 ≤ lsbDiff e l) → c.pStart = none → c.pStop = none →
          exec (.sextantEdge dt b false ⟨f, lv⟩) s = .next (u.modChan k (fun y => u.meet k false { y with
            starts := satInc y.starts, lStart := some e, first := true, pStart := some e }))) ∧
        (∀ l, c.lStart = some l → 0 ≤ lsbDiff e l → lsbDiff e l < 256 →
          exec (.sextantEdge dt b false ⟨f, lv⟩) s = .next (u.modChan k (fun y => { y with dead := satInc y.dead })))) ∧
      (∀ a, u.srcLive (sxStop c.setup) = true → u.isEdge (sxStop c.setup) lv = (true, u) → c.pStart = some a →
          (∀ l, c.lStop = some l → lsbDiff e l < 0 ∨ 256 ≤ lsbDiff e l) → sxStat c.setup = false → sxPairs c.setup = 0 →
          sxDest c.setup = true → c.fifo.length < 7 → (lsbDiff e a).natAbs < 2 ^ 31 - 1 →
        ∃ t fl, exec (.sextantEdge dt b true ⟨f, lv⟩) s = .next t ∧ (t.chan k).pStart = none ∧ (t.chan k).pStop = none ∧
          (t.chan k).stops = satInc c.stops ∧
          (u.xingOk (if k < 60 then 17 else 19) = true →
            (t.chan k).fifo = c.fifo ++ [({ start := a, ival := lsbDiff e a, flags := fl } : Pair).record k] ∧ (t.chan k).drops = c.drops) ∧
          (u.xingOk (if k < 60 then 17 else 19) = false → (t.chan k).fifo = c.fifo ∧ (t.chan k).drops = satInc c.drops) ∧
          bit (BitVec.ofNat 8 fl) 0 = decide (lsbDiff e a < 0) ∧ bit (BitVec.ofNat 8 fl) 1 = decide (lsbDiff e a = 0) ∧
          bit (BitVec.ofNat 8 fl) 2 = false ∧ t.tiles = u.tiles) ∧
      (u.isEdge (sxStart c.setup) lv = (false, u) → sxArm c.setup ≠ 1 → exec (.sextantEdge dt b false ⟨f, lv⟩) s = .next u)) ∧
    (∀ (src : Nat) (lv : PinMove), (7 < src → u.isEdge src lv = (true, u)) ∧
      ∀ x y, src ≤ 7 → pinReads (u.sxt.dac.getD src 0) lv.before = some x → pinReads (u.sxt.dac.getD src 0) lv.after = some y →
        u.isEdge src lv = (x != y && (u.sxt.slope.getD src .rising).takes y, u)) ∧
    (∀ pin : BitVec 2,
      (∃ t, exec (.gateEdge dt pin true) s = .next t ∧ t.sxt.gates = u.sxt.gates ||| ((1 : BitVec 4) <<< pin.toNat) ∧ t.tiles = u.tiles ∧
        ∀ j < 64, sxArm (u.chan j).setup = 1 → sxPin (u.chan j).setup = pin.toNat → u.sxRuns j = true →
          (u.chan j).armed = false →
          (sxOnce (u.chan j).setup && (u.chan j).gateUsed) = false → (t.chan j).armed = true ∧ (t.chan j).gateUsed = true) ∧
      (∃ t, exec (.gateEdge dt pin false) s = .next t ∧ t.sxt.gates = u.sxt.gates &&& ~~~((1 : BitVec 4) <<< pin.toNat) ∧ t.tiles = u.tiles ∧
        ∀ j < 64, sxArm (u.chan j).setup = 1 → sxPin (u.chan j).setup = pin.toNat → (u.chan j).waits = [] → (t.chan j).armed = false)) ∧
    (sxArm c.setup = 2 → c.armed = false → u.sxRuns k = true → (u.sxNow k - c.open_).toNat < c.len.toNat → sxStart c.setup ≠ 0x802 →
        sxStop c.setup ≠ 0x802 → exec (.windowOpen dt b) s = .next (u.modChan k (fun y => { y with
      armed := true, left := sxPairs y.setup, first := false, pStart := none, pStop := none, armAt := u.boot.uptime }))) ∧
    (sxArm c.setup = 2 → c.waits = [] → c.pStart = none → c.pStop = none → c.len.toNat ≤ (u.sxNow k - c.open_).toNat →
        (u.sxNow k - c.open_).toNat < 2 ^ 63 → exec (.windowClose dt b) s = .next (u.modChan k (fun y => { y with
      setup := setFld y.setup 29 2 0, armed := false }))) ∧
    (∀ p, u.sxRuns k = true → u.sxt.svc = none →
      (c.armed = false → sxArm c.setup = 0 → c.caling = false → exec (.sextantServiceCal dt b p) s =
        .next { u with sxt := { u.sxt with
          chans := u.sxt.chans.modify k (fun y => { y with caling := true, owner := if y.owner = .none then .service else y.owner })
          svc := some (k, u.boot.uptime) } }) ∧
      (c.armed = true ∨ sxArm c.setup ≠ 0 → exec (.sextantServiceCal dt b p) s = .next u)) ∧
    (∀ p t0, u.sxRuns k = true → u.sxt.svc = some (k, t0) →
      (t0 + 33554432 ≤ u.boot.uptime → c.waits = [] → exec (.sextantServiceCal dt b p) s =
        .next { u with
          sxt := { u.sxt with
            svc := none
            chans := u.sxt.chans.modify k (fun y => { y with
              owner := if y.owner = .service then .none else y.owner
              cal := y.cal || p, caling := false, failed := !p, calAge := false, calAt := u.boot.uptime }) }
          tests := { u.tests with rotCh := (k + 1) % 64 } }) ∧
      (u.boot.uptime < t0 + 33554432 → exec (.sextantServiceCal dt b p) s = .next u)) ∧
    (c.armed = true → c.armAt + 960000000000 < u.boot.uptime → exec (.calAge dt b) s =
      .next (u.modChan k (fun y => { y with calAge := true })))

/-- The Reckoner in its courses (03 R79; 06 R159 to R162, R172, R177, R178; 02 R47; 11 R292): a manifest record of a tile whose class the
snapshot's map assigns is taken into the window or the statistics of its tile, a boundary takes the software floor and dates the snapshot,
and at their instants pre-stretches and dips come into force and end, where a tile that withholds its changes begins none. Open points
follow assumptions 37, 38, 40. -/
def Obligations.ReckonerEvents : Prop :=
  ∀ (dt : Nat) (b : BitVec 8) (i : Nat) (s u : State) (o : Tile), u = s.tick dt → s.boot.inReset = false → i = b.toNat →
    u.tiles.length = 256 → o = u.tile i →
    (∀ (w : Flit), fld w 2 8 = i → u.ctl.manRst = false → bit u.boot.clkRun 2 = true → u.looping 2 = false →
        (u.xings.main.getD 10 {}).stale = false → (u.xings.main.getD 11 {}).stale = false → u.rck.mode ≠ .off → u.present i = true →
        bit (u.rck.map.getD i 0) 7 = true → o.st = .running ∨ o.st = .gated ∨ o.st = .starting →
      (fld w 0 2 = 1 → u.key (BitVec.ofNat 64 u.nextSnap) < u.key (u.mer.now + BitVec.ofNat 64 (16 * fld w 16 16)) → o.window.length < 8 →
        ∃ t x, exec (.manifestRecord dt w) s = .next t ∧ x.start = u.mer.now + BitVec.ofNat 64 (16 * fld w 16 16) ∧
          x.dur.toNat = fld w 32 16 ∧ x.cls.toNat = fld w 10 6 ∧ x.work.toNat = fld w 48 8 ∧ x ∈ (t.tile i).window ∧
          (∀ y ∈ o.window, y ∈ (t.tile i).window) ∧ (t.tile i).window.length = o.window.length + 1 ∧
          t.rck.opTaken = satInc u.rck.opTaken ∧ t.rck.winOvf = u.rck.winOvf ∧ (∀ j, j ≠ i → t.tile j = u.tile j) ∧ t.rails = u.rails) ∧
      (fld w 0 2 = 2 → fld w 12 4 = 0 → fld w 48 16 = 0 → exec (.manifestRecord dt w) s = .next { u with
        tiles := u.tiles.modify i (fun t => { t with stats := t.stats.set (fld w 10 2) {
          known := true, zero := BitVec.ofNat 8 (fld w 16 8), sat := BitVec.ofNat 8 (fld w 24 8)
          nonfin := BitVec.ofNat 8 (fld w 32 8), mag := BitVec.ofNat 8 (fld w 40 8) } })
        rck := { u.rck with stTaken := satInc u.rck.stTaken } })) ∧
    (∀ B : Time, B = BitVec.ofNat 64 (u.mer.now.toNat / courseLen u.rck.course * courseLen u.rck.course) → u.mer.running = true →
        B ≠ u.rck.snapAt → ∃ t, exec (.courseBoundary dt) s = .next t ∧ t.rck.snapAt = B ∧ t.power.floorNow = u.power.floorW ∧
      t.mer = u.mer ∧ t.keys = u.keys ∧ t.boot = u.boot ∧ (∀ j, (t.tile j).st = (u.tile j).st ∧ (t.tile j).code = (u.tile j).code ∧
        (t.tile j).runCode = (u.tile j).runCode)) ∧
    (o.withhold = false → ∃ t, exec (.prestretchStart dt b) s = .next t ∧ (t.tile i).events = o.events.map (fun e =>
        if e.sent = true ∧ e.preDone = false ∧ u.due e.preStart = true ∧ u.due e.preEnd = false then { e with preOn := true } else e) ∧
      (t.tile i).st = o.st ∧ (∀ j, j ≠ i → t.tile j = u.tile j) ∧ t.rails = u.rails ∧ t.keys = u.keys) ∧
    (∃ t, exec (.prestretchEnd dt b) s = .next t ∧ (∀ e ∈ (t.tile i).events, e.sent = true → u.due e.preEnd = true → e.preDone = true) ∧
      (t.tile i).st = o.st ∧ (∀ j, j ≠ i → t.tile j = u.tile j) ∧ t.rails = u.rails ∧ t.keys = u.keys) ∧
    (o.withhold = true → exec (.prestretchStart dt b) s = .next u ∧ exec (.dipStart dt b) s = .next u) ∧
    (o.st = .running → o.withhold = false → ∃ t, exec (.dipStart dt b) s = .next t ∧ (t.tile i).events = o.events.map (fun e =>
        if e.sent = true ∧ e.dipDone = false ∧ e.dipOn = false ∧ u.due e.dipStart = true ∧ u.due e.dipEnd = false
        then { e with dipOn := true } else e) ∧ (t.tile i).st = .running ∧ (t.tile i).code = o.code ∧
      (∀ j, j ≠ i → t.tile j = u.tile j) ∧ t.rails = u.rails ∧ t.keys = u.keys) ∧
    (∃ t, exec (.dipEnd dt b) s = .next t ∧ (∀ e ∈ (t.tile i).events, e.sent = true → u.due e.dipEnd = true → e.dipDone = true) ∧
      (t.tile i).st = o.st ∧ (t.tile i).code = o.code ∧ (∀ j, j ≠ i → t.tile j = u.tile j) ∧ t.rails = u.rails ∧ t.keys = u.keys)

/-- Loads and unloads (06 R169 to R171; 09 R249; 15 R361, R362): at the first course boundary after the step before it, and not earlier,
the swap installs the staged program's identity, class map and spill partition, the end of the load starts WARMUP and answers, and the
unload leaves mode OFF; a header opens a packet, a data flit joins its transfer, and a message transfer whose sender is silent for 10 ms
is given up. Open points follow assumptions 45, 65. -/
def Obligations.LoadEvents : Prop :=
  ∀ (dt : Nat) (s u : State), u = s.tick dt → s.boot.inReset = false →
    (u.rck.loading = true → u.rck.loadStep = 3 → u.boundarySince u.rck.stepAt = true → (∀ x ∈ u.faults.bad, x.1 ≠ .staging) →
      ∃ t, exec (.programLoadSwap dt) s = .next t ∧ t.rck.mode = .loading ∧ t.rck.loadStep = 5 ∧ t.rck.loading = true ∧
        t.rck.staging = u.rck.staging ∧ t.rck.progId = BitVec.ofNat 64 (fld (ctHeader u.rck.staging) 96 64) ∧
        t.rck.map = (u.ctMapAfter u.rck.staging).1 ∧ t.rck.spill = granules (hdSpill (ctHeader u.rck.staging)) ∧
        t.keys = u.keys ∧ t.rails = u.rails ∧ t.mer = u.mer ∧ ∀ j, (t.tile j).st = (u.tile j).st) ∧
    (u.rck.loading = true → u.rck.loadStep = 5 → u.boundarySince u.rck.stepAt = true → u.rck.mapWaits = [] →
      ∃ t, exec (.loadComplete dt) s = .next t ∧ t.rck.mode = .warmup ∧ t.rck.warm = 16 ∧ t.rck.endMode = u.rck.loadMode ∧
        t.rck.loading = false ∧ t.rck.staging = [] ∧ t.rck.loads = satInc u.rck.loads ∧ t.rck.warmups = satInc u.rck.warmups ∧
        settledAs u t u.rck.loadMbx (okR ([w32 u.rck.cleared, w32 (64 * u.rck.spill)] ++ wordsOf 2 u.rck.progId.toNat)) ∧
        t.power.distrust = false ∧ t.tiles = u.tiles ∧ t.rails = u.rails ∧ t.keys = u.keys) ∧
    (u.boundarySince u.rck.stepAt = false → exec (.programLoadSwap dt) s = .next u ∧ exec (.loadComplete dt) s = .next u) ∧
    (u.boundarySince u.rck.unloadAt = false → exec (.unloadEffect dt) s = .next u) ∧
    (u.rck.unload = true → u.boundarySince u.rck.unloadAt = true → ∃ t, exec (.unloadEffect dt) s = .next t ∧ t.rck.mode = .off ∧ t.rck.unload = false ∧ t.rck.classes = [] ∧
      t.rck.map = List.replicate 256 0 ∧ t.rck.progId = 0 ∧ t.rck.spill = 0 ∧
      (∀ c < 60, u.sxt.chans.length = 64 → (u.chan c).owner = .rck → (t.chan c).owner = .none ∧ (t.chan c).armed = false) ∧
      t.keys = u.keys ∧ t.rails = u.rails ∧ ∀ j, (t.tile j).st = (u.tile j).st) ∧
    (∀ (x y : Inbound) (rest : List Inbound) (f : InFlit), u.logUp = true → u.looping 1 = false → u.xingOk 8 = true → u.xingOk 9 = true →
        u.log.inbound = x :: rest → x.discard = false → x.hole = false → y = Inbound.regrant { x with lastAt := u.boot.uptime } →
        1 ≤ y.credit →
      (x.inPkt = false → f.sop = true → Inbound.headerBad { y with credit := y.credit - 1 } f = false → exec (.inboundFlit dt f) s =
        .next { u with log := { u.log with inbound := { y with
          credit := y.credit - 1, inPkt := true, flits := (inBytes f.data + 7) / 8, left := inBytes f.data } :: rest } }) ∧
      (x.inPkt = true → x.kind ≠ .container → f.sop = false → f.eop = false → 2 ≤ x.flits → 8 ≤ x.left → exec (.inboundFlit dt f) s =
        .next { u with log := { u.log with inbound := { y with
          credit := y.credit - 1, got := x.got + 8, left := x.left - 8, flits := x.flits - 1
          data := x.data ++ bytesOf 8 f.data.toNat } :: rest } })) ∧
    (∀ (x : Inbound), u.log.inbound = [x] → x.lastAt + 160000000 ≤ u.boot.uptime → x.discard = false → 1 ≤ x.regrant.credit →
        x.kind = .spdm → ∃ t, exec (.inboundTransferTimeout dt) s = .next t ∧ t.log.inbound = [] ∧
      settledAs u t (some x.mbx) (notPermR 0xA { item := 1, idx := 1, extra := x.got }) ∧ t.tiles = u.tiles ∧ t.rck = u.rck)

/-- The log port outbound (15 R348, R351, R352, R354; 12 R312): a credit, the credit beyond 1,023, the packet that leaves once its flits
are covered and holds the port until then, the packet whose flits a stale crossing 7 discards and counts, and the packet whose waiting
time is over, or is not: 200 ns for events, 1 µs for the results of a channel, 100 µs for throttle records. Open points follow assumptions
65, 69. -/
def Obligations.LogEvents : Prop :=
  ∀ (dt : Nat) (s u : State), u = s.tick dt → s.boot.inReset = false →
    (u.logUp = true → u.xingOk 9 = true → u.tests.loopOut = 0 →
      (u.log.credits < 1023 → exec (.loCredit dt) s = .next { u with log := { u.log with credits := u.log.credits + 1 } }) ∧
      (1023 ≤ u.log.credits → exec (.loCredit dt) s = .next (u.raise0 0xB07 0))) ∧
    (∀ c p r, u.logUp = true → u.xingOk 7 = true → u.xingOk 9 = true → u.looping 1 = false → u.log.nextClass = some c →
        u.log.queue c = p :: r →
      (u.log.credits < p.flits → exec (.packetSend dt) s = .next { u with log := { u.log with hold := some (BitVec.ofNat 2 c) } }) ∧
      (p.flits ≤ u.log.credits → ∃ t, exec (.packetSend dt) s = .next t ∧ t.log.sent = some p ∧ t.log.hold = none ∧
        t.log.credits = u.log.credits - p.flits ∧ t.log.sentAt = u.boot.uptime ∧ (∃ l, t.log.queue c = r ++ l) ∧ t.tiles = u.tiles ∧
        t.rails = u.rails ∧ t.keys = u.keys)) ∧
    (∀ c p r, u.logUp = true → u.xingOk 7 = false → 7 < u.xings.main.length → u.looping 1 = false → u.log.nextClass = some c →
        u.log.queue c = p :: r →
      ∃ t, exec (.packetSend dt) s = .next t ∧ (t.xing 7 0).drops = satAdd (u.xing 7 0).drops p.flits ∧ t.log.credits = u.log.credits ∧
        t.log.hold = none ∧ (∃ l, t.log.queue c = r ++ l) ∧ t.tiles = u.tiles ∧ t.rails = u.rails ∧ t.keys = u.keys) ∧
    (∀ ch, u.boot.uptime < u.log.evAt + 3200 → exec (.packetFormTimeout dt 1 ch) s = .next u) ∧
    (∀ ch, u.boot.uptime < u.log.thrAt + 1600000 → exec (.packetFormTimeout dt 13 ch) s = .next u) ∧
    (∀ ch, u.boot.uptime < (u.chan ch.toNat).fifoAt.headD 0 + 16000 → exec (.packetFormTimeout dt 6 ch) s = .next u) ∧
    (∀ a ch, u.log.evWait = [a] → u.log.evAt + 3200 ≤ u.boot.uptime → bit a 13 = false → u.roomFor 1 4 = true → ∃ t p, exec (.packetFormTimeout dt 1 ch) s = .next t ∧
      t.log.evWait = [] ∧ t.log.q0 = u.log.q0 ++ [p] ∧ p.ptype = 1 ∧ p.nrec = 1 ∧ p.stamp = u.mer.now ∧
      p.seq = u.log.seqs.getD 1 0 ∧ p.body = [BitVec.ofNat 64 a.toNat, BitVec.ofNat 64 (a.toNat / 2 ^ 64)] ∧ t.log.q1 = u.log.q1 ∧
      t.log.q2 = u.log.q2 ∧ t.tiles = u.tiles)

/-- Memories, clocks and crossings (12 R308 to R313; 17 R386 to R391, Table 17.3): a scrub counts what it corrects and reports a word that
two passes in a row corrected; an uncorrectable word is counted, reported and has the effect of its memory; a clock stops and comes back;
a wait at a crossing expires once; a crossing turns stale and its resync brings it back, with the setup words that waited for it. Open
points follow assumptions 68, 69, 70. -/
def Obligations.ClocksAndCrossings : Prop :=
  ∀ (dt : Nat) (s u : State), u = s.tick dt → s.boot.inReset = false →
    (∀ r n k, eccPlace r = some k → n < regionWords r → (r, n) ∉ u.faults.bad →
      (exec (.scrub dt r n false) s = .next { u with faults := { u.faults with once := u.faults.once.filter (fun x => x != (r, n)) } }) ∧
      ((r, n) ∉ u.faults.once → exec (.scrub dt r n true) s = .next { u with faults := { u.faults with
        ecc := u.faults.ecc.modify k satInc, once := (r, n) :: u.faults.once } }) ∧
      ((r, n) ∈ u.faults.once → (r, n) ∉ u.faults.sticky → exec (.scrub dt r n true) s = .next (State.raise { u with faults :=
        { u.faults with ecc := u.faults.ecc.modify k satInc, sticky := (r, n) :: u.faults.sticky } } 0xA02 (memIdx r) n))) ∧
    (∀ n, n < 262144 → exec (.eccUnc dt .weight n) s = .next (State.raise { u with faults := { u.faults with
      ecc := u.faults.ecc.modify 1 satInc
      bad := if (.weight, n) ∈ u.faults.bad then u.faults.bad else (.weight, n) :: u.faults.bad } } 0xA01 0 n)) ∧
    (∀ n, n < 65536 → exec (.eccUnc dt .tileState n) s = .next ((State.raise { u with faults := { u.faults with
      ecc := u.faults.ecc.modify 5 satInc } } 0xA01 1 n).modTile (n / 256) Tile.newProgram)) ∧
    (∀ n, n < 65536 → u.helm.stage = .run → ∃ t, exec (.eccUnc dt .helmCode n) s = .next t ∧ t.helm.stage = .restart ∧
      t.helm.codeBad = true ∧ ∀ j, (t.tile j).st = (u.tile j).st) ∧
    (∀ d, bit u.boot.clkStopped (domIdx d) = false → d ≠ .core → (d = .lode → u.sxt.enabled = true) → exec (.clkStop dt d) s =
      .next (State.raise { u with boot := { u.boot with
        clkStopped := setFld u.boot.clkStopped (domIdx d) 1 1, clkRun := setFld u.boot.clkRun (domIdx d) 1 0 } } 0x203 (domIdx d) 0)) ∧
    (bit u.boot.clkStopped 4 = false → ∃ t, exec (.clkStop dt .core) s = .next t ∧ bit t.boot.clkStopped 4 = true ∧
      bit t.boot.clkRun 4 = false ∧ (u.xingOk 5 = true → t.ctl.snapMer = u.mer.now) ∧ t.tiles = u.tiles) ∧
    (∀ d, ∃ t, exec (.clkBack dt d) s = .next t ∧ bit t.boot.clkRun (domIdx d) = true ∧ bit t.boot.clkStopped (domIdx d) = false ∧
      t.tiles = u.tiles ∧ t.rails = u.rails ∧ (bit u.boot.clkStopped (domIdx d) = false → t.faults = u.faults)) ∧
    (∀ (x : BitVec 5) (i : BitVec 8), xingWaits x.toNat = true → (23 ≤ x.toNat → u.present i.toNat = true) →
      ((u.xing x.toNat i.toNat).toSeen = true → exec (.xingTimeout dt x i) s = .next (u.modXing x.toNat i.toNat (fun c => { c with
        tos := satInc c.tos, toSeen := true }))) ∧
      ((u.xing x.toNat i.toNat).toSeen = false → exec (.xingTimeout dt x i) s = .next ((u.modXing x.toNat i.toNat (fun c => { c with
        tos := satInc c.tos, toSeen := true })).raise 0x901 x.toNat (if 23 ≤ x.toNat then i.toNat else 0)))) ∧
    (∀ (x : BitVec 5) (i e : BitVec 8), 14 ≤ x.toNat → x.toNat ≤ 20 → x.toNat < u.xings.main.length →
        (u.xing x.toNat 0).stale = false → e ≠ (u.xing x.toNat 0).own → ∃ t, exec (.xingStale dt x i e false) s = .next t ∧
      (t.xing x.toNat 0).stale = true ∧ (t.xing x.toNat 0).other = e ∧ (t.xing x.toNat 0).stales = satInc (u.xing x.toNat 0).stales ∧
      t.tiles = u.tiles) ∧
    (∀ (x : BitVec 5) (i e : BitVec 8), x = 23 ∨ x = 24 → u.present i.toNat = true → (u.xing x.toNat i.toNat).stale = false →
        e ≠ (u.xing x.toNat i.toNat).own → i.toNat < u.tiles.length → (u.tile i.toNat).st = .running →
      ∃ t, exec (.xingStale dt x i e false) s = .next t ∧ (t.tile i.toNat).st = .fenced ∧ (t.tile i.toNat).cause = 7) ∧
    (∀ x : BitVec 5, 14 ≤ x.toNat → x.toNat ≤ 20 → (u.xing x.toNat 0).stale = true → (u.xing x.toNat 0).failed = false →
      ∀ v, v = (u.modXing x.toNat 0 (fun c => { c with
        own := c.own + 1, other := c.own + 1, stale := false, gap := false, fails := 0 })).raise 0x903 x.toNat 0 →
      exec (.xingResync dt x true) s = .next (if x = 16 then v.each (List.range 60) State.takeSetups
        else if x = 18 then v.each [60, 61, 62] State.takeSetups else v))

/-- Deferred tests and the test port (14 R342, R343; 18 R409 to R415; 02 R42, R72; 15 R363; 16 R365): a deferred trim runs once its tile
has stopped; a covered test ends, the last one or the longest time ends its grant, and none runs in a block that has halted; and each
instruction of the test port with what its data register holds, the fuses it blows and the lifecycle it advances; what the lifecycle does
not offer acts as BYPASS. Open points follow assumptions 14, 66, 67. -/
def Obligations.TestsAndTap : Prop :=
  ∀ (dt : Nat) (s u : State), u = s.tick dt →
    (s.boot.inReset = false → ∀ h t d, u.tests.list.find? (fun x => x.handle == h) = some t → t.res = 0 → u.tests.grant = none →
        t.id = 0x91 → (u.tile t.target.toNat).st ≠ .running → u.haltedB = false →
      exec (.testDone dt h true d) s = .next ((u.setTest h 1 0).trimTile t.target.toNat (.test true d))) ∧
    (s.boot.inReset = false → ∀ (h : BitVec 16) (t : Test) (p : Bool) (d : Word) (g : Grant) (v : State),
        u.tests.list.find? (fun x => x.handle == h) = some t → t.res = 0 → u.tests.grant = some g → g.covers t = true → u.haltedB = false →
        v = (u.ranTest t p d).modTests (fun x => { x with grant := x.grant.map (fun g => { g with ran := g.ran + 1 }) }) →
      exec (.testDone dt h p d) s = .next (if v.tests.list.any v.covered then v else v.endGrant)) ∧
    (s.boot.inReset = false → u.haltedB = true → ∀ h p d, exec (.testDone dt h p d) s = .next u) ∧
    (∀ (t : Test) (p : Bool) (d : Word), t.id = 0x13 ∨ t.id = 0x14 →
      u.ranTest t p d = u.setTest t.handle (if p then 1 else 2) (if p then 0 else d)) ∧
    (s.boot.inReset = false → ∀ g, u.tests.grant = some g → g.till ≤ u.boot.uptime →
        (∀ x ∈ u.tests.list, x.res = 0 → g.covers x = false) → exec (.grantEnd dt) s =
      .next (State.settle { u with tests := { u.tests with grant := none } } g.mbx (okR [w32 g.ran]))) ∧
    (exec (.idcode dt) s = .next { u with tests := { u.tests with
      ir := 0x01, dr := BitVec.ofNat 66 (pack [(0, 1, 1), (1, 11, u.ties.mfr.toNat), (12, 16, 0xB256), (28, 4, 4)]) } }) ∧
    (∀ v, exec (.lbkCfg dt v) s = .next { u with tests := { u.tests with ir := 0x10, dr := BitVec.ofNat 66 v.toNat, lbkCfg := v } }) ∧
    (∀ c m i, i = fld u.tests.lbkCfg 0 4 → 1 ≤ i → i ≤ 6 → fld u.tests.lbkCfg 4 4 ≤ min 1 (ifDepth i) → fld u.tests.lbkCfg 8 32 ≠ 0 →
        u.ifBusy i = false → u.boot.inReset = false → u.xingOk 22 = true → exec (.lbkRun dt c m) s =
      .next { u with tests := { u.tests with
        ir := 0x11, dr := 0, lbkRes := BitVec.ofNat 66 (pack [(0, 32, ifWords i), (32, 32, min m.toNat (ifWords i)), (64, 1, 1)]) } }) ∧
    (exec (.lbkRes dt) s = .next { u with tests := { u.tests with ir := 0x12, dr := u.tests.lbkRes } }) ∧
    (u.trust.lcCode = 1 → u.boot.inReset = true → u.xingOk 22 = true → exec (.scan dt) s =
      .next { u with tests := { u.tests with ir := 0x20, dr := 0 } }) ∧
    (∀ a b, u.trust.lcCode ≤ 2 → u.helm.stage = .rom → u.xingOk 22 = true → ∃ t, exec (.mbist dt a b) s = .next t ∧ t.tests.ir = 0x21 ∧
      bit t.tests.dr 0 = a ∧ bit t.tests.dr 1 = b ∧ t.log.wmem = [] ∧ t.log.mem = [] ∧ t.log.held = 0 ∧
      (∀ x ∈ t.faults.bad, x.1 = .history ∨ x.1 = .master ∨ x.1 = .tileState ∨ x.1 = .helmCode ∨ x.1 = .helmData)) ∧
    (∀ f v lo w, u.trust.lcCode = 1 → u.xingOk 22 = true → fusePlace f = some (lo, w) → f ≠ .uds →
      (fld u.trust.fuses lo w = 0 → exec (.fuseWrite dt f v) s = .next { u with
        tests := { u.tests with ir := 0x22, dr := 0 }, trust := u.trust.blow (BitVec.ofNat 3776 (v % 2 ^ w * 2 ^ lo)) }) ∧
      (fld u.trust.fuses lo w ≠ 0 → exec (.fuseWrite dt f v) s = .next { u with tests := { u.tests with ir := 0x22, dr := 0 } })) ∧
    (∀ v x w, u.trust.lcCode = 1 → u.xingOk 22 = true → fld u.trust.fuses 0 384 = 0 →
        State.take { u with tests := { u.tests with ir := 0x22, dr := 0 } } .nonce (2 ^ 384) = (x, w) → exec (.fuseWrite dt .uds v) s =
      .next { w with trust := w.trust.blow (BitVec.ofNat 3776 (x % 2 ^ 384)) }) ∧
    (u.trust.lcCode = 1 ∨ u.trust.lcCode = 2 → u.xingOk 22 = true → exec (.lcAdvance dt) s = .next { u with
      tests := { u.tests with ir := 0x23, dr := 0 }, trust := u.trust.blow (BitVec.ofNat 3776 (2 ^ (383 + u.trust.lcCode))) }) ∧
    (∀ tok, u.trust.lcCode = 3 → u.xingOk 22 = true →
      (Config.tokenOk tok = true → exec (.rmaToken dt tok) s = .next { u with
        tests := { u.tests with ir := 0x24, dr := 0 }
        trust := { u.trust.blow (BitVec.ofNat 3776 (2 ^ 386)) with devKey := none, aliasKey := none } }) ∧
      (Config.tokenOk tok = false → exec (.rmaToken dt tok) s = .next { u with tests := { u.tests with ir := 0x24, dr := 0 } })) ∧
    (exec (.bypass dt) s = .next { u with tests := { u.tests with ir := 0xFF, dr := 0 } }) ∧
    (∀ f v tok a b, u.trust.lcCode = 4 →
      exec (.fuseWrite dt f v) s = exec (.bypass dt) s ∧ exec (.lcAdvance dt) s = exec (.bypass dt) s ∧
      exec (.rmaToken dt tok) s = exec (.bypass dt) s ∧ exec (.mbist dt a b) s = exec (.bypass dt) s ∧
      exec (.scan dt) s = exec (.bypass dt) s)

/-- The block's step (assumption 1): the command at the front of the queue runs on the state with the queue's rest; with nothing waiting
the block idles. -/
def Obligations.FrontOfQueue : Prop :=
  (∀ (c : Instr) (r : List Instr) (s : State), s.pending = c :: r → step s = exec c { s with pending := r }) ∧
  ∀ s : State, s.pending = [] → step s = .next s

/-- The headers of requests and responses (13 R317, R319; Tables 13.2 and 13.3): every field at its bits, arguments and results from word
1 on; and what host firmware writes is what the Helm reads: the request that the copied words spell is the request written, whatever words
an earlier, longer request left behind it. -/
def Obligations.RequestRoundTrip : Prop :=
  (∀ (op : Byte) (q : Req) (xs : List Word), q.args.length ≤ 15 →
    reqOfWords q.mbx (area16 (reqHeader op q :: (q.args ++ xs))) = q ∧
    ∀ m : Mbx, m.cmd = area16 (reqHeader op q :: (q.args ++ xs)) → m.op = op ∧ m.tag = q.tag) ∧
  (∀ (op : Byte) (q : Req), q.args.length ≤ 15 →
    fld (reqHeader op q) 0 8 = op.toNat ∧ fld (reqHeader op q) 8 8 = q.tag.toNat ∧ fld (reqHeader op q) 16 4 = q.args.length ∧
    fld (reqHeader op q) 20 3 = q.sess.toNat ∧ fld (reqHeader op q) 23 9 = q.rsv.toNat ∧
    ∀ k < q.args.length, ∀ xs, (area16 (reqHeader op q :: (q.args ++ xs))).getD (k + 1) 0 = q.args.getD k 0) ∧
  ∀ (op tag : Byte) (r : Resp), r.words.length ≤ 15 →
    fld (respHeader op tag r) 0 8 = op.toNat ∧ fld (respHeader op tag r) 8 8 = tag.toNat ∧
    fld (respHeader op tag r) 16 8 = r.status.toNat ∧ fld (respHeader op tag r) 24 4 = r.deny.toNat ∧
    fld (respHeader op tag r) 28 4 = r.words.length ∧
    ∀ k < r.words.length, (area16 (respHeader op tag r :: r.words)).getD (k + 1) 0 = r.words.getD k 0

/-- How an answer is written (13 R319, R324, R326): the mailbox holds DONE, or ACCEPTED, with the response; while crossing 2 delivers,
MBX_STATE and the response area show it at once, and entry to DONE sets `mbx_done`; while it does not, the response waits unsent. No other
mailbox changes, and nothing outside the mailboxes and the cause. -/
def Obligations.AnswerWritten : Prop :=
  ∀ (s : State) (n : BitVec 3) (r : Resp) (ws : List Word) (fin : Bool) (t : State) (w : List Word), s.mbxs.length = 8 →
    t = (if fin then s.finish n r else s.accept n ws) →
    w = (if fin then area16 (respHeader (s.mbx n).op (s.mbx n).tag r :: r.words)
      else area16 (respHeader (s.mbx n).op (s.mbx n).tag { status := stAccepted, deny := 0, words := ws } :: ws)) →
    (t.mbx n).held = (if fin then .done else .accepted) ∧ (t.mbx n).heldResp = w ∧ (t.mbx n).cmd = (s.mbx n).cmd ∧
    (t.mbx n).reqArea = (s.mbx n).reqArea ∧ (fin = true → (t.mbx n).final = none) ∧
    (s.ctlUp = true → (t.mbx n).st = (if fin then .done else .accepted) ∧ (t.mbx n).resp = w ∧ (t.mbx n).unsent = false ∧
      t.ctl = { s.ctl with done := if fin && s.xingOk 3 then s.ctl.done ||| BitVec.ofNat 8 (1 <<< n.toNat) else s.ctl.done }) ∧
    (s.ctlUp = false → (t.mbx n).st = (s.mbx n).st ∧ (t.mbx n).resp = (s.mbx n).resp ∧ (t.mbx n).unsent = true ∧ t.ctl = s.ctl) ∧
    (∀ j, j ≠ n → t.mbx j = s.mbx j) ∧ { t with mbxs := s.mbxs, ctl := s.ctl } = s

/-- The control port's window and its interrupt (02 R44, R45; 19 R417, R419, Table 19.3): an address that names no register reads 0
without error and ignores writes; only an access through crossing 4 with the core declared stopped ends with `ctl_err`, reads 0 and writes
nothing. `ctl_irq` is high exactly while a cause and its enable are both 1; the causes stand at their bits, and the reserved bits read 0.
-/
def Obligations.RegisterWindow : Prop :=
  (∀ s : State,
    (s.ctlIrq = true ↔ ∃ i, i < 12 ∧ bit s.ctlInt i = true ∧ bit s.ctl.en i = true) ∧
    (∀ i < 8, bit s.ctlInt i = bit s.ctl.done i) ∧ bit s.ctlInt 8 = s.ctl.misuse ∧ bit s.ctlInt 9 = s.ctl.xstale ∧
    bit s.ctlInt 10 = s.evtPend ∧ (s.xingOk 6 = true → bit s.ctlInt 11 = s.boot.chipStop) ∧ ∀ i, 12 ≤ i → bit s.ctlInt i = false) ∧
  (∀ (s : State) (a : Nat),
    (a ∉ [0x0000, 0x0004, 0x0100, 0x0104, 0x0108, 0x010C, 0x0110, 0x0200, 0x0204, 0x0208, 0x0C00, 0x0C04, 0x0C08, 0x0D00, 0x0D04, 0x0D08,
        0x0E00, 0x0E04, 0x0E08, 0x0F00] → ¬ (0x0400 ≤ a ∧ a < 0x0600) → ¬ (0x0800 ≤ a ∧ a < 0x0A00) → s.regRead a = (0, false)) ∧
    ((s.regRead a).2 = true ↔ throughCore a = true ∧ s.coreStopped = true) ∧ ((s.regRead a).2 = true → (s.regRead a).1 = 0)) ∧
  ∀ (dt : Nat) (s u v : State) (a : BitVec 14) (w : Word), u = s.tick dt → s.boot.inReset = false → u.portUp = true →
    v = { u with ctl := { u.ctl with err := false } } →
    (4 * a.toNat ∉ [0x0100, 0x0104, 0x010C, 0x0200, 0x0C00, 0x0C04, 0x0C08, 0x0E00, 0x0E04, 0x0E08, 0x0F00] →
      ¬ (0x0400 ≤ 4 * a.toNat ∧ 4 * a.toNat < 0x0600) → exec (.registerWrite dt a w) s = .next v) ∧
    (throughCore (4 * a.toNat) = true → u.coreStopped = true → ∃ t, exec (.registerWrite dt a w) s = .next t ∧ t.ctl.err = true ∧
      t.ctl.rdata = 0 ∧ t.ctl.helm = u.ctl.helm ∧ t.ctl.xing = u.ctl.xing ∧ t.helm = u.helm ∧ t.mbxs = u.mbxs ∧ t.tiles = u.tiles)

/-- Bytes of a multi-byte field (00 R14): byte 0 holds bits [7:0], and each following byte the next eight bits; bytes and words spell the
numbers they were cut from. -/
def Obligations.ByteOrder : Prop :=
  (∀ n x : Nat, (bytesOf n x).length = n ∧ (∀ k < n, ((bytesOf n x).getD k 0).toNat = x / 2 ^ (8 * k) % 256) ∧
    natOfBytes (bytesOf n x) = x % 2 ^ (8 * n)) ∧
  (∀ (bs : List Byte) (k : Nat), natOfBytes bs / 2 ^ (8 * k) % 256 = (bs.getD k 0).toNat) ∧
  (∀ bs : List Byte, bytesOf bs.length (natOfBytes bs) = bs) ∧
  ∀ (n x k : Nat), k < n → ((wordsOf n x).getD k 0).toNat = x / 2 ^ (32 * k) % 2 ^ 32

/-- How the generator realises a target rate (04 R124, R125): of each frame of 8 periods exactly m carry their high phase, at m = 5
periods 1, 3, 4, 6 and 7; the largest pulse pass at which a stretch within the limit keeps the rate at or below q, with the least such
stretch; where even m = 1 at the limit lies above q, that, marked as the throttle floor in the status word. A steady tile takes neither.
-/
def Obligations.ThrottleChoice : Prop :=
  (∀ m, 1 ≤ m → m ≤ 8 → ((List.range 8).filter (fun n => passes n m)).length = m) ∧
  (List.range 8).filter (fun n => passes n 5) = [1, 3, 4, 6, 7] ∧
  (∀ (q lim m k : Nat) (b : Bool), 1 ≤ q → q ≤ 256 → passOf q lim = (m, k, b) →
    1 ≤ m ∧ m ≤ (8 * q + 255) / 256 ∧ k ≤ lim ∧
    (b = false → 256 * m * 32 ≤ 8 * q * (32 + k)) ∧ (∀ j < k, 8 * q * (32 + j) < 256 * m * 32) ∧
    (∀ n, m < n → n ≤ (8 * q + 255) / 256 → 8 * q * (32 + lim) < 256 * n * 32) ∧
    (b = true → m = 1 ∧ k = lim ∧ 8 * q * (32 + lim) < 256 * 32)) ∧
  ∀ (s : State) (i : Nat), (∀ mv, s.steady i = true → s.passTile mv i = (8, 0, false)) ∧
    (∀ mv, (s.tile i).st = .running → bit (s.statusWord mv i) 35 = (s.passTile mv i).2.2)

/-- The software floor's clip and the cap rates (09 R244 to R246, Table 9.5; 11 R292). What passes the floor's check is kept; else the dip
falls to the largest value that passes, and where none does the stretch falls as well, and then the check passes wherever the floor does
not exceed the whole rate. A tile checks what it holds in force when that changes, and a clip counts once in its class. While a filter exceeds the reduced limit its cap rate never rises, and falls unless it stands at the floor of
8; it rises only below 95 % of the reduced limit, by its step; it stays within 8 to 256; the margin is 2 % plus the additions that apply.
-/
def Obligations.FloorAndCaps : Prop :=
  (∀ f c k d k' d' : Nat, 0 < c → d ≤ c → f ≤ 256 → floorClip f c k d = (k', d') →
    (f * (32 + k) * c ≤ 8192 * (c - d) → k' = k ∧ d' = d) ∧ k' ≤ k ∧ d' ≤ d ∧ f * (32 + k') * c ≤ 8192 * (c - d') ∧
    (k' < k → d' = 0) ∧ (∀ e, d' < e → e ≤ d → 8192 * (c - e) < f * (32 + k) * c) ∧
    (∀ j, k' < j → j ≤ k → 8192 < f * (32 + j))) ∧
  (∀ (q lim up m : Nat) (f : Frac), 8 ≤ q → q ≤ 256 → 0 < f.den →
    8 ≤ capStep q lim up m f ∧ capStep q lim up m f ≤ 256 ∧
    (lim * (100 - m) * 65536 * f.den < 100 * f.num → capStep q lim up m f ≤ q ∧ (8 < q → capStep q lim up m f < q)) ∧
    (q < capStep q lim up m f → 10000 * f.num < 95 * (lim * (100 - m) * 65536) * f.den ∧ capStep q lim up m f ≤ q + up)) ∧
  (∀ (s : State) (i : Nat) (k d : Nat), (s.tile i).rawPlan = (k, d) →
    ((k = (s.tile i).heldK.toNat ∧ d = (s.tile i).heldD.toNat ∨ s.heldPlan i = (k, d)) → (s.redip i).rck = s.rck) ∧
    (∀ c, ¬ (k = (s.tile i).heldK.toNat ∧ d = (s.tile i).heldD.toNat) → s.heldPlan i ≠ (k, d) → s.cls (s.classOf i) = some c →
      (s.redip i).cls (s.classOf i) = some { c with clips := satInc c.clips })) ∧
  ∀ s : State, s.margin = 2 + (if s.power.avsBad = 0 then 0 else if s.power.avsBad = 3 then 10 else 6) +
    (if s.power.distrust then 5 else 0)

/-- Events (17 R386, R387; 15 R354): an event marks the class that bits [11:8] of its code name; its record, with code, index, argument
and meridian time, joins the Helm's queue of 256, or is counted lost; FAULT_SUMMARY answers the marks and the counts of corrected words,
and clears the marks alone. -/
def Obligations.EventsRaised : Prop :=
  (∀ (s : State) (code idx arg : Nat), code < 4096 → idx < 65536 → arg < 2 ^ 32 →
    (∀ c < 16, bit (s.raise code idx arg).faults.raised c = (bit s.faults.raised c || decide (code / 256 = c))) ∧
    (s.faults.queue.length < 256 → ∃ r, (s.raise code idx arg).faults.queue = s.faults.queue ++ [r] ∧ fld r 0 12 = code ∧ bit r 12 = true ∧
      bit r 13 = false ∧ fld r 16 16 = idx ∧ fld r 32 32 = arg ∧ fld r 64 64 = s.mer.now.toNat) ∧
    (256 ≤ s.faults.queue.length → (s.raise code idx arg).faults.queue = s.faults.queue ∧
      (s.raise code idx arg).faults.lost = satAdd s.faults.lost 1 ∧ (s.raise code idx arg).faults.lostNow = s.faults.lostNow + 1) ∧
    { s.raise code idx arg with faults := s.faults, log := s.log } = s) ∧
  ∀ (dt : Nat) (q : Req) (s u : State), u = s.tick dt → s.boot.inReset = false → ready false u q = true → q.args = [] →
    exec (.faultSummary dt q) s = .next (State.finish { posted u 0xA2 q with faults := { u.faults with raised := 0 } } q.mbx
      (okR (w32 u.faults.raised.toNat :: u.faults.ecc)))

/-- A byte memory (06 R166, 15 R358): a byte written reads back, every other address reads as before, a memory in canonical form stays in
it, and two memories in that form that read alike are equal. -/
def Obligations.MemoryReadsWrites : Prop :=
  (∀ (m : List Host.Cell) (a b : Nat) (v : Byte), Memory.wf m = true →
    memRead (memWrite m a v) b = (if b = a then v else memRead m b) ∧ Memory.wf (memWrite m a v) = true) ∧
  (∀ (m : List Host.Cell) (a b : Nat) (bs : List Byte), Memory.wf m = true →
    memRead (memWriteList m a bs) b = (if a ≤ b ∧ b < a + bs.length then bs.getD (b - a) 0 else memRead m b) ∧
    Memory.wf (memWriteList m a bs) = true) ∧
  (∀ (m : List Host.Cell) (lo hi b : Nat), Memory.wf m = true →
    memRead (memClear m lo hi) b = (if lo ≤ b ∧ b < hi then memDefault else memRead m b) ∧ Memory.wf (memClear m lo hi) = true) ∧
  ∀ m n : List Host.Cell, Memory.wf m = true → Memory.wf n = true → (∀ a, memRead m a = memRead n a) → m = n

/-- Every step keeps both memories of the block in canonical form, and the sizes that the manual gives the block's arrays: tiles, domains,
rails, mailboxes, slots, channels. -/
def Obligations.StructureInvariant : Prop :=
  ∀ s t : State, MemOk s → Sized s → step s = .next t → MemOk t ∧ Sized t

/-- A stopped chip stays stopped (02 R66; 04 R131): no command but the two block resets ends `chip_stop_o`, or takes a tile out of HALTED;
and it rises only with the coolant monitor in STOPPED or a thermal trip. -/
def Obligations.StopStays : Prop :=
  ∀ (s t : State) (c : Instr) (r : List Instr), s.pending = c :: r → (∀ dt, c ≠ .brnRstAssert dt ∧ c ≠ .powerOnMonitor dt) →
    step s = .next t →
    (s.boot.chipStop = true → t.boot.chipStop = true) ∧
    (s.boot.chipStop = false → t.boot.chipStop = true → t.boot.cool = .stopped ∨ t.boot.trip = true) ∧
    ∀ i, (s.tile i).st = .halted → (t.tile i).st = .halted

/-- Every step keeps this (02 R66; 04 R131; 09 R261): the chip is stopped exactly by the coolant monitor or a thermal trip, and while it
is stopped every present tile is HALTED. -/
def Obligations.HaltInvariant : Prop :=
  ∀ s t : State, HaltInv s → step s = .next t → HaltInv t

/-- What is fused stays (16 R364, R383): no step changes the tie-offs or clears a fuse bit. -/
def Obligations.FusesOnlyBlow : Prop :=
  ∀ s t : State, step s = .next t → t.ties = s.ties ∧
    ∀ b, (s.trust.fuse0.getLsbD b = true → t.trust.fuse0.getLsbD b = true) ∧ (s.trust.fuse1.getLsbD b = true → t.trust.fuse1.getLsbD b = true) ∧
      (s.trust.fuse2.getLsbD b = true → t.trust.fuse2.getLsbD b = true)

/-- What reset leaves (19 R418 to R426, Tables 19.2 to 19.6; 09 R244, R245): the registers of the control port read as their tables give,
no command waits, and the invariants hold (the memories of the block list nothing: assumption 4). -/
def Obligations.ResetState : Prop :=
  MemOk State.reset ∧ Sized State.reset ∧ HaltInv State.reset ∧ State.reset.pending = [] ∧
  ∀ p ∈ [(0x0000, 0x00040002#32), (0x0004, 0x0000B256#32), (0x0100, 0#32), (0x0104, 0#32), (0x0108, 0#32), (0x010C, 0#32), (0x0208, 0#32),
      (0x0400, 0#32), (0x05FC, 0#32), (0x0800, 0#32), (0x09FC, 0#32), (0x0C04, 0x04020100#32), (0x0C08, 0x00001100#32), (0x0D04, 0#32)],
    State.reset.regRead p.1 = (p.2, false)
end

