-- ==== Sys2Proof/Laws/Memory.lean ====
section
/-! SUPPORT. The byte memories: every operation on them keeps the canonical form, and what a memory reads after each. -/

namespace Sys2Proof.Laws

open Sys2Proof.Machine

/-- The canonical form, taken apart at its first entry. -/
theorem wf_cons (c : Host.Cell) (r : List Host.Cell) :
    Memory.wf (c :: r) = true ↔ c.2 ≠ memDefault ∧ (∀ x ∈ r, c.1 < x.1) ∧ Memory.wf r = true := by
  induction r generalizing c with
  | nil => simp [Memory.wf]
  | cons d r ih =>
    have h : Memory.wf (c :: d :: r) = true ↔ c.2 ≠ memDefault ∧ c.1 < d.1 ∧ Memory.wf (d :: r) = true := by
      simp [Memory.wf, and_assoc]
    rw [h]
    constructor
    · rintro ⟨h1, h2, h3⟩
      refine ⟨h1, ?_, h3⟩
      intro x hx
      rcases List.mem_cons.1 hx with rfl | hx
      · exact h2
      · exact Nat.lt_trans h2 (((ih d).1 h3).2.1 x hx)
    · rintro ⟨h1, h2, h3⟩
      exact ⟨h1, h2 d (by simp), h3⟩

/-- A write touches no address but its own. -/
theorem memWrite_mem {m : List Host.Cell} {a : Nat} {v : Byte} {c : Host.Cell} (h : c ∈ memWrite m a v) : c.1 = a ∨ c ∈ m := by
  induction m with
  | nil =>
    simp only [memWrite] at h
    split at h
    · simp at h
    · simp only [List.mem_singleton] at h; subst h; exact .inl rfl
  | cons d r ih =>
    obtain ⟨b, u⟩ := d
    simp only [memWrite] at h
    split at h
    · split at h
      · exact .inr h
      · rcases List.mem_cons.1 h with rfl | h
        · exact .inl rfl
        · exact .inr h
    · split at h
      · split at h
        · exact .inr (List.mem_cons_of_mem _ h)
        · rcases List.mem_cons.1 h with rfl | h
          · exact .inl rfl
          · exact .inr (List.mem_cons_of_mem _ h)
      · rcases List.mem_cons.1 h with rfl | h
        · exact .inr (by simp)
        · rcases ih h with h | h
          · exact .inl h
          · exact .inr (List.mem_cons_of_mem _ h)

/-- A write keeps the canonical form. -/
theorem memWrite_wf {m : List Host.Cell} (h : Memory.wf m = true) (a : Nat) (v : Byte) : Memory.wf (memWrite m a v) = true := by
  induction m with
  | nil =>
    simp only [memWrite]
    split
    · rfl
    · rename_i hv; simp [Memory.wf, hv]
  | cons d r ih =>
    obtain ⟨b, u⟩ := d
    obtain ⟨h1, h2, h3⟩ := (wf_cons _ _).1 h
    simp only [memWrite]
    split
    · rename_i hab
      split
      · exact h
      · rename_i hv
        refine (wf_cons _ _).2 ⟨hv, ?_, h⟩
        intro x hx
        rcases List.mem_cons.1 hx with rfl | hx
        · exact hab
        · exact Nat.lt_trans hab (h2 x hx)
    · rename_i hab
      split
      · rename_i he
        subst he
        split
        · exact h3
        · rename_i hv; exact (wf_cons _ _).2 ⟨hv, h2, h3⟩
      · rename_i he
        refine (wf_cons _ _).2 ⟨h1, ?_, ih h3⟩
        intro x hx
        rcases memWrite_mem hx with hx | hx
        · simp only [hx]; omega
        · exact h2 x hx

/-- Consecutive writes keep the canonical form. -/
theorem memWriteList_wf {m : List Host.Cell} (h : Memory.wf m = true) (a : Nat) (bs : List Byte) :
    Memory.wf (memWriteList m a bs) = true := by
  induction bs generalizing m a with
  | nil => exact h
  | cons v r ih => exact ih (memWrite_wf h a v) (a + 1)

/-- Leaving entries out keeps the canonical form. -/
theorem filter_wf {m : List Host.Cell} (h : Memory.wf m = true) (p : Host.Cell → Bool) : Memory.wf (m.filter p) = true := by
  induction m with
  | nil => rfl
  | cons c r ih =>
    obtain ⟨h1, h2, h3⟩ := (wf_cons _ _).1 h
    by_cases hp : p c = true
    · rw [List.filter_cons_of_pos hp]
      exact (wf_cons _ _).2 ⟨h1, fun x hx => h2 x (List.mem_filter.1 hx).1, ih h3⟩
    · rw [List.filter_cons_of_neg hp]
      exact ih h3

/-- A clear keeps the canonical form. -/
theorem memClear_wf {m : List Host.Cell} (h : Memory.wf m = true) (lo hi : Nat) : Memory.wf (memClear m lo hi) = true :=
  filter_wf h _

/-- Below its first entry a memory reads the default. -/
theorem memRead_below {m : List Host.Cell} {b : Nat} (h : ∀ x ∈ m, b < x.1) : memRead m b = memDefault := by
  cases m with
  | nil => rfl
  | cons c r => simp [memRead, h c (by simp)]

/-- A byte written reads back, and every other address reads as before. -/
theorem memRead_memWrite {m : List Host.Cell} (h : Memory.wf m = true) (a b : Nat) (v : Byte) :
    memRead (memWrite m a v) b = if b = a then v else memRead m b := by
  induction m with
  | nil =>
    by_cases hv : v = memDefault <;> simp only [memWrite, hv, if_true, if_false, memRead]
    · simp
    · split
      · rename_i hb; rw [if_neg (by omega)]
      · rfl
  | cons d r ih =>
    obtain ⟨c, u⟩ := d
    obtain ⟨h1, h2, h3⟩ := (wf_cons _ _).1 h
    simp only [memWrite]
    split
    · rename_i hac
      split
      · rename_i hv
        split
        · rename_i hb; subst hb; rw [hv]; simp [memRead, hac]
        · rfl
      · simp only [memRead]
        by_cases hb : b = a
        · subst hb; simp
        · by_cases hb' : b < a
          · simp [hb', hb, Nat.lt_trans hb' hac]
          · simp [hb', hb]
    · rename_i hac
      split
      · rename_i he
        subst he
        by_cases hb : b = a
        · subst hb
          by_cases hv : v = memDefault
          · simp only [hv, if_true]; exact memRead_below h2
          · simp [hv, memRead]
        · by_cases hv : v = memDefault
          · simp only [hv, if_true, if_neg hb, memRead]
            by_cases hb' : b < a
            · rw [if_pos hb']; exact memRead_below (fun x hx => Nat.lt_trans hb' (h2 x hx))
            · rw [if_neg hb']
          · simp [hv, memRead, hb]
      · rename_i he
        simp only [memRead]
        by_cases hb : b < c
        · rw [if_pos hb, if_pos hb, if_neg (by omega)]
        · by_cases hb' : b = c
          · subst hb'; simp [Ne.symm he]
          · rw [if_neg hb, if_neg hb', if_neg hb, if_neg hb']; exact ih h3

end Sys2Proof.Laws
end

