-- ==== Sys2Proof/Laws/State.lean ====
section
/-! SUPPORT. One lemma per field per update, true by `rfl`: what each named update of the state leaves as it was. -/

namespace Sys2Proof.Machine

@[simp] theorem State.modTile_ties (s : State) (i : Nat) (f : Tile → Tile) : (s.modTile i f).ties = s.ties := rfl
@[simp] theorem State.modTile_boot (s : State) (i : Nat) (f : Tile → Tile) : (s.modTile i f).boot = s.boot := rfl
@[simp] theorem State.modTile_mer (s : State) (i : Nat) (f : Tile → Tile) : (s.modTile i f).mer = s.mer := rfl
@[simp] theorem State.modTile_ctl (s : State) (i : Nat) (f : Tile → Tile) : (s.modTile i f).ctl = s.ctl := rfl
@[simp] theorem State.modTile_mbxs (s : State) (i : Nat) (f : Tile → Tile) : (s.modTile i f).mbxs = s.mbxs := rfl
@[simp] theorem State.modTile_helm (s : State) (i : Nat) (f : Tile → Tile) : (s.modTile i f).helm = s.helm := rfl
@[simp] theorem State.modTile_doms (s : State) (i : Nat) (f : Tile → Tile) : (s.modTile i f).doms = s.doms := rfl
@[simp] theorem State.modTile_domRet (s : State) (i : Nat) (f : Tile → Tile) : (s.modTile i f).domRet = s.domRet := rfl
@[simp] theorem State.modTile_rails (s : State) (i : Nat) (f : Tile → Tile) : (s.modTile i f).rails = s.rails := rfl
@[simp] theorem State.modTile_power (s : State) (i : Nat) (f : Tile → Tile) : (s.modTile i f).power = s.power := rfl
@[simp] theorem State.modTile_ledger (s : State) (i : Nat) (f : Tile → Tile) : (s.modTile i f).ledger = s.ledger := rfl
@[simp] theorem State.modTile_keys (s : State) (i : Nat) (f : Tile → Tile) : (s.modTile i f).keys = s.keys := rfl
@[simp] theorem State.modTile_rck (s : State) (i : Nat) (f : Tile → Tile) : (s.modTile i f).rck = s.rck := rfl
@[simp] theorem State.modTile_sxt (s : State) (i : Nat) (f : Tile → Tile) : (s.modTile i f).sxt = s.sxt := rfl
@[simp] theorem State.modTile_log (s : State) (i : Nat) (f : Tile → Tile) : (s.modTile i f).log = s.log := rfl
@[simp] theorem State.modTile_trust (s : State) (i : Nat) (f : Tile → Tile) : (s.modTile i f).trust = s.trust := rfl
@[simp] theorem State.modTile_xings (s : State) (i : Nat) (f : Tile → Tile) : (s.modTile i f).xings = s.xings := rfl
@[simp] theorem State.modTile_cvy (s : State) (i : Nat) (f : Tile → Tile) : (s.modTile i f).cvy = s.cvy := rfl
@[simp] theorem State.modTile_faults (s : State) (i : Nat) (f : Tile → Tile) : (s.modTile i f).faults = s.faults := rfl
@[simp] theorem State.modTile_tests (s : State) (i : Nat) (f : Tile → Tile) : (s.modTile i f).tests = s.tests := rfl
@[simp] theorem State.modTile_fresh (s : State) (i : Nat) (f : Tile → Tile) : (s.modTile i f).fresh = s.fresh := rfl
@[simp] theorem State.modTile_pending (s : State) (i : Nat) (f : Tile → Tile) : (s.modTile i f).pending = s.pending := rfl

@[simp] theorem State.mapTiles_ties (s : State) (f : Nat → Tile → Tile) : (s.mapTiles f).ties = s.ties := rfl
@[simp] theorem State.mapTiles_boot (s : State) (f : Nat → Tile → Tile) : (s.mapTiles f).boot = s.boot := rfl
@[simp] theorem State.mapTiles_mer (s : State) (f : Nat → Tile → Tile) : (s.mapTiles f).mer = s.mer := rfl
@[simp] theorem State.mapTiles_ctl (s : State) (f : Nat → Tile → Tile) : (s.mapTiles f).ctl = s.ctl := rfl
@[simp] theorem State.mapTiles_mbxs (s : State) (f : Nat → Tile → Tile) : (s.mapTiles f).mbxs = s.mbxs := rfl
@[simp] theorem State.mapTiles_helm (s : State) (f : Nat → Tile → Tile) : (s.mapTiles f).helm = s.helm := rfl
@[simp] theorem State.mapTiles_doms (s : State) (f : Nat → Tile → Tile) : (s.mapTiles f).doms = s.doms := rfl
@[simp] theorem State.mapTiles_domRet (s : State) (f : Nat → Tile → Tile) : (s.mapTiles f).domRet = s.domRet := rfl
@[simp] theorem State.mapTiles_rails (s : State) (f : Nat → Tile → Tile) : (s.mapTiles f).rails = s.rails := rfl
@[simp] theorem State.mapTiles_power (s : State) (f : Nat → Tile → Tile) : (s.mapTiles f).power = s.power := rfl
@[simp] theorem State.mapTiles_ledger (s : State) (f : Nat → Tile → Tile) : (s.mapTiles f).ledger = s.ledger := rfl
@[simp] theorem State.mapTiles_keys (s : State) (f : Nat → Tile → Tile) : (s.mapTiles f).keys = s.keys := rfl
@[simp] theorem State.mapTiles_rck (s : State) (f : Nat → Tile → Tile) : (s.mapTiles f).rck = s.rck := rfl
@[simp] theorem State.mapTiles_sxt (s : State) (f : Nat → Tile → Tile) : (s.mapTiles f).sxt = s.sxt := rfl
@[simp] theorem State.mapTiles_log (s : State) (f : Nat → Tile → Tile) : (s.mapTiles f).log = s.log := rfl
@[simp] theorem State.mapTiles_trust (s : State) (f : Nat → Tile → Tile) : (s.mapTiles f).trust = s.trust := rfl
@[simp] theorem State.mapTiles_xings (s : State) (f : Nat → Tile → Tile) : (s.mapTiles f).xings = s.xings := rfl
@[simp] theorem State.mapTiles_cvy (s : State) (f : Nat → Tile → Tile) : (s.mapTiles f).cvy = s.cvy := rfl
@[simp] theorem State.mapTiles_faults (s : State) (f : Nat → Tile → Tile) : (s.mapTiles f).faults = s.faults := rfl
@[simp] theorem State.mapTiles_tests (s : State) (f : Nat → Tile → Tile) : (s.mapTiles f).tests = s.tests := rfl
@[simp] theorem State.mapTiles_fresh (s : State) (f : Nat → Tile → Tile) : (s.mapTiles f).fresh = s.fresh := rfl
@[simp] theorem State.mapTiles_pending (s : State) (f : Nat → Tile → Tile) : (s.mapTiles f).pending = s.pending := rfl

@[simp] theorem State.modPlumb_ties (s : State) (i p : Nat) (f : Plumb → Plumb) : (s.modPlumb i p f).ties = s.ties := rfl
@[simp] theorem State.modPlumb_boot (s : State) (i p : Nat) (f : Plumb → Plumb) : (s.modPlumb i p f).boot = s.boot := rfl
@[simp] theorem State.modPlumb_mer (s : State) (i p : Nat) (f : Plumb → Plumb) : (s.modPlumb i p f).mer = s.mer := rfl
@[simp] theorem State.modPlumb_ctl (s : State) (i p : Nat) (f : Plumb → Plumb) : (s.modPlumb i p f).ctl = s.ctl := rfl
@[simp] theorem State.modPlumb_mbxs (s : State) (i p : Nat) (f : Plumb → Plumb) : (s.modPlumb i p f).mbxs = s.mbxs := rfl
@[simp] theorem State.modPlumb_helm (s : State) (i p : Nat) (f : Plumb → Plumb) : (s.modPlumb i p f).helm = s.helm := rfl
@[simp] theorem State.modPlumb_doms (s : State) (i p : Nat) (f : Plumb → Plumb) : (s.modPlumb i p f).doms = s.doms := rfl
@[simp] theorem State.modPlumb_domRet (s : State) (i p : Nat) (f : Plumb → Plumb) : (s.modPlumb i p f).domRet = s.domRet := rfl
@[simp] theorem State.modPlumb_rails (s : State) (i p : Nat) (f : Plumb → Plumb) : (s.modPlumb i p f).rails = s.rails := rfl
@[simp] theorem State.modPlumb_power (s : State) (i p : Nat) (f : Plumb → Plumb) : (s.modPlumb i p f).power = s.power := rfl
@[simp] theorem State.modPlumb_ledger (s : State) (i p : Nat) (f : Plumb → Plumb) : (s.modPlumb i p f).ledger = s.ledger := rfl
@[simp] theorem State.modPlumb_keys (s : State) (i p : Nat) (f : Plumb → Plumb) : (s.modPlumb i p f).keys = s.keys := rfl
@[simp] theorem State.modPlumb_rck (s : State) (i p : Nat) (f : Plumb → Plumb) : (s.modPlumb i p f).rck = s.rck := rfl
@[simp] theorem State.modPlumb_sxt (s : State) (i p : Nat) (f : Plumb → Plumb) : (s.modPlumb i p f).sxt = s.sxt := rfl
@[simp] theorem State.modPlumb_log (s : State) (i p : Nat) (f : Plumb → Plumb) : (s.modPlumb i p f).log = s.log := rfl
@[simp] theorem State.modPlumb_trust (s : State) (i p : Nat) (f : Plumb → Plumb) : (s.modPlumb i p f).trust = s.trust := rfl
@[simp] theorem State.modPlumb_xings (s : State) (i p : Nat) (f : Plumb → Plumb) : (s.modPlumb i p f).xings = s.xings := rfl
@[simp] theorem State.modPlumb_cvy (s : State) (i p : Nat) (f : Plumb → Plumb) : (s.modPlumb i p f).cvy = s.cvy := rfl
@[simp] theorem State.modPlumb_faults (s : State) (i p : Nat) (f : Plumb → Plumb) : (s.modPlumb i p f).faults = s.faults := rfl
@[simp] theorem State.modPlumb_tests (s : State) (i p : Nat) (f : Plumb → Plumb) : (s.modPlumb i p f).tests = s.tests := rfl
@[simp] theorem State.modPlumb_fresh (s : State) (i p : Nat) (f : Plumb → Plumb) : (s.modPlumb i p f).fresh = s.fresh := rfl
@[simp] theorem State.modPlumb_pending (s : State) (i p : Nat) (f : Plumb → Plumb) : (s.modPlumb i p f).pending = s.pending := rfl

@[simp] theorem State.modRail_ties (s : State) (r : Nat) (f : Rail → Rail) : (s.modRail r f).ties = s.ties := rfl
@[simp] theorem State.modRail_boot (s : State) (r : Nat) (f : Rail → Rail) : (s.modRail r f).boot = s.boot := rfl
@[simp] theorem State.modRail_mer (s : State) (r : Nat) (f : Rail → Rail) : (s.modRail r f).mer = s.mer := rfl
@[simp] theorem State.modRail_ctl (s : State) (r : Nat) (f : Rail → Rail) : (s.modRail r f).ctl = s.ctl := rfl
@[simp] theorem State.modRail_mbxs (s : State) (r : Nat) (f : Rail → Rail) : (s.modRail r f).mbxs = s.mbxs := rfl
@[simp] theorem State.modRail_helm (s : State) (r : Nat) (f : Rail → Rail) : (s.modRail r f).helm = s.helm := rfl
@[simp] theorem State.modRail_tiles (s : State) (r : Nat) (f : Rail → Rail) : (s.modRail r f).tiles = s.tiles := rfl
@[simp] theorem State.modRail_doms (s : State) (r : Nat) (f : Rail → Rail) : (s.modRail r f).doms = s.doms := rfl
@[simp] theorem State.modRail_domRet (s : State) (r : Nat) (f : Rail → Rail) : (s.modRail r f).domRet = s.domRet := rfl
@[simp] theorem State.modRail_power (s : State) (r : Nat) (f : Rail → Rail) : (s.modRail r f).power = s.power := rfl
@[simp] theorem State.modRail_ledger (s : State) (r : Nat) (f : Rail → Rail) : (s.modRail r f).ledger = s.ledger := rfl
@[simp] theorem State.modRail_keys (s : State) (r : Nat) (f : Rail → Rail) : (s.modRail r f).keys = s.keys := rfl
@[simp] theorem State.modRail_rck (s : State) (r : Nat) (f : Rail → Rail) : (s.modRail r f).rck = s.rck := rfl
@[simp] theorem State.modRail_sxt (s : State) (r : Nat) (f : Rail → Rail) : (s.modRail r f).sxt = s.sxt := rfl
@[simp] theorem State.modRail_log (s : State) (r : Nat) (f : Rail → Rail) : (s.modRail r f).log = s.log := rfl
@[simp] theorem State.modRail_trust (s : State) (r : Nat) (f : Rail → Rail) : (s.modRail r f).trust = s.trust := rfl
@[simp] theorem State.modRail_xings (s : State) (r : Nat) (f : Rail → Rail) : (s.modRail r f).xings = s.xings := rfl
@[simp] theorem State.modRail_cvy (s : State) (r : Nat) (f : Rail → Rail) : (s.modRail r f).cvy = s.cvy := rfl
@[simp] theorem State.modRail_faults (s : State) (r : Nat) (f : Rail → Rail) : (s.modRail r f).faults = s.faults := rfl
@[simp] theorem State.modRail_tests (s : State) (r : Nat) (f : Rail → Rail) : (s.modRail r f).tests = s.tests := rfl
@[simp] theorem State.modRail_fresh (s : State) (r : Nat) (f : Rail → Rail) : (s.modRail r f).fresh = s.fresh := rfl
@[simp] theorem State.modRail_pending (s : State) (r : Nat) (f : Rail → Rail) : (s.modRail r f).pending = s.pending := rfl

@[simp] theorem State.modMbx_ties (s : State) (n : BitVec 3) (f : Mbx → Mbx) : (s.modMbx n f).ties = s.ties := rfl
@[simp] theorem State.modMbx_boot (s : State) (n : BitVec 3) (f : Mbx → Mbx) : (s.modMbx n f).boot = s.boot := rfl
@[simp] theorem State.modMbx_mer (s : State) (n : BitVec 3) (f : Mbx → Mbx) : (s.modMbx n f).mer = s.mer := rfl
@[simp] theorem State.modMbx_ctl (s : State) (n : BitVec 3) (f : Mbx → Mbx) : (s.modMbx n f).ctl = s.ctl := rfl
@[simp] theorem State.modMbx_helm (s : State) (n : BitVec 3) (f : Mbx → Mbx) : (s.modMbx n f).helm = s.helm := rfl
@[simp] theorem State.modMbx_tiles (s : State) (n : BitVec 3) (f : Mbx → Mbx) : (s.modMbx n f).tiles = s.tiles := rfl
@[simp] theorem State.modMbx_doms (s : State) (n : BitVec 3) (f : Mbx → Mbx) : (s.modMbx n f).doms = s.doms := rfl
@[simp] theorem State.modMbx_domRet (s : State) (n : BitVec 3) (f : Mbx → Mbx) : (s.modMbx n f).domRet = s.domRet := rfl
@[simp] theorem State.modMbx_rails (s : State) (n : BitVec 3) (f : Mbx → Mbx) : (s.modMbx n f).rails = s.rails := rfl
@[simp] theorem State.modMbx_power (s : State) (n : BitVec 3) (f : Mbx → Mbx) : (s.modMbx n f).power = s.power := rfl
@[simp] theorem State.modMbx_ledger (s : State) (n : BitVec 3) (f : Mbx → Mbx) : (s.modMbx n f).ledger = s.ledger := rfl
@[simp] theorem State.modMbx_keys (s : State) (n : BitVec 3) (f : Mbx → Mbx) : (s.modMbx n f).keys = s.keys := rfl
@[simp] theorem State.modMbx_rck (s : State) (n : BitVec 3) (f : Mbx → Mbx) : (s.modMbx n f).rck = s.rck := rfl
@[simp] theorem State.modMbx_sxt (s : State) (n : BitVec 3) (f : Mbx → Mbx) : (s.modMbx n f).sxt = s.sxt := rfl
@[simp] theorem State.modMbx_log (s : State) (n : BitVec 3) (f : Mbx → Mbx) : (s.modMbx n f).log = s.log := rfl
@[simp] theorem State.modMbx_trust (s : State) (n : BitVec 3) (f : Mbx → Mbx) : (s.modMbx n f).trust = s.trust := rfl
@[simp] theorem State.modMbx_xings (s : State) (n : BitVec 3) (f : Mbx → Mbx) : (s.modMbx n f).xings = s.xings := rfl
@[simp] theorem State.modMbx_cvy (s : State) (n : BitVec 3) (f : Mbx → Mbx) : (s.modMbx n f).cvy = s.cvy := rfl
@[simp] theorem State.modMbx_faults (s : State) (n : BitVec 3) (f : Mbx → Mbx) : (s.modMbx n f).faults = s.faults := rfl
@[simp] theorem State.modMbx_tests (s : State) (n : BitVec 3) (f : Mbx → Mbx) : (s.modMbx n f).tests = s.tests := rfl
@[simp] theorem State.modMbx_fresh (s : State) (n : BitVec 3) (f : Mbx → Mbx) : (s.modMbx n f).fresh = s.fresh := rfl
@[simp] theorem State.modMbx_pending (s : State) (n : BitVec 3) (f : Mbx → Mbx) : (s.modMbx n f).pending = s.pending := rfl

@[simp] theorem State.writeReq_ties (s : State) (op : Byte) (q : Req) : (s.writeReq op q).ties = s.ties := rfl
@[simp] theorem State.writeReq_boot (s : State) (op : Byte) (q : Req) : (s.writeReq op q).boot = s.boot := rfl
@[simp] theorem State.writeReq_mer (s : State) (op : Byte) (q : Req) : (s.writeReq op q).mer = s.mer := rfl
@[simp] theorem State.writeReq_ctl (s : State) (op : Byte) (q : Req) : (s.writeReq op q).ctl = s.ctl := rfl
@[simp] theorem State.writeReq_helm (s : State) (op : Byte) (q : Req) : (s.writeReq op q).helm = s.helm := rfl
@[simp] theorem State.writeReq_tiles (s : State) (op : Byte) (q : Req) : (s.writeReq op q).tiles = s.tiles := rfl
@[simp] theorem State.writeReq_doms (s : State) (op : Byte) (q : Req) : (s.writeReq op q).doms = s.doms := rfl
@[simp] theorem State.writeReq_domRet (s : State) (op : Byte) (q : Req) : (s.writeReq op q).domRet = s.domRet := rfl
@[simp] theorem State.writeReq_rails (s : State) (op : Byte) (q : Req) : (s.writeReq op q).rails = s.rails := rfl
@[simp] theorem State.writeReq_power (s : State) (op : Byte) (q : Req) : (s.writeReq op q).power = s.power := rfl
@[simp] theorem State.writeReq_ledger (s : State) (op : Byte) (q : Req) : (s.writeReq op q).ledger = s.ledger := rfl
@[simp] theorem State.writeReq_keys (s : State) (op : Byte) (q : Req) : (s.writeReq op q).keys = s.keys := rfl
@[simp] theorem State.writeReq_rck (s : State) (op : Byte) (q : Req) : (s.writeReq op q).rck = s.rck := rfl
@[simp] theorem State.writeReq_sxt (s : State) (op : Byte) (q : Req) : (s.writeReq op q).sxt = s.sxt := rfl
@[simp] theorem State.writeReq_log (s : State) (op : Byte) (q : Req) : (s.writeReq op q).log = s.log := rfl
@[simp] theorem State.writeReq_trust (s : State) (op : Byte) (q : Req) : (s.writeReq op q).trust = s.trust := rfl
@[simp] theorem State.writeReq_xings (s : State) (op : Byte) (q : Req) : (s.writeReq op q).xings = s.xings := rfl
@[simp] theorem State.writeReq_cvy (s : State) (op : Byte) (q : Req) : (s.writeReq op q).cvy = s.cvy := rfl
@[simp] theorem State.writeReq_faults (s : State) (op : Byte) (q : Req) : (s.writeReq op q).faults = s.faults := rfl
@[simp] theorem State.writeReq_tests (s : State) (op : Byte) (q : Req) : (s.writeReq op q).tests = s.tests := rfl
@[simp] theorem State.writeReq_fresh (s : State) (op : Byte) (q : Req) : (s.writeReq op q).fresh = s.fresh := rfl
@[simp] theorem State.writeReq_pending (s : State) (op : Byte) (q : Req) : (s.writeReq op q).pending = s.pending := rfl

@[simp] theorem State.setWait_ties (s : State) (n : BitVec 3) (w : Wait) : (s.setWait n w).ties = s.ties := rfl
@[simp] theorem State.setWait_boot (s : State) (n : BitVec 3) (w : Wait) : (s.setWait n w).boot = s.boot := rfl
@[simp] theorem State.setWait_mer (s : State) (n : BitVec 3) (w : Wait) : (s.setWait n w).mer = s.mer := rfl
@[simp] theorem State.setWait_ctl (s : State) (n : BitVec 3) (w : Wait) : (s.setWait n w).ctl = s.ctl := rfl
@[simp] theorem State.setWait_helm (s : State) (n : BitVec 3) (w : Wait) : (s.setWait n w).helm = s.helm := rfl
@[simp] theorem State.setWait_tiles (s : State) (n : BitVec 3) (w : Wait) : (s.setWait n w).tiles = s.tiles := rfl
@[simp] theorem State.setWait_doms (s : State) (n : BitVec 3) (w : Wait) : (s.setWait n w).doms = s.doms := rfl
@[simp] theorem State.setWait_domRet (s : State) (n : BitVec 3) (w : Wait) : (s.setWait n w).domRet = s.domRet := rfl
@[simp] theorem State.setWait_rails (s : State) (n : BitVec 3) (w : Wait) : (s.setWait n w).rails = s.rails := rfl
@[simp] theorem State.setWait_power (s : State) (n : BitVec 3) (w : Wait) : (s.setWait n w).power = s.power := rfl
@[simp] theorem State.setWait_ledger (s : State) (n : BitVec 3) (w : Wait) : (s.setWait n w).ledger = s.ledger := rfl
@[simp] theorem State.setWait_keys (s : State) (n : BitVec 3) (w : Wait) : (s.setWait n w).keys = s.keys := rfl
@[simp] theorem State.setWait_rck (s : State) (n : BitVec 3) (w : Wait) : (s.setWait n w).rck = s.rck := rfl
@[simp] theorem State.setWait_sxt (s : State) (n : BitVec 3) (w : Wait) : (s.setWait n w).sxt = s.sxt := rfl
@[simp] theorem State.setWait_log (s : State) (n : BitVec 3) (w : Wait) : (s.setWait n w).log = s.log := rfl
@[simp] theorem State.setWait_trust (s : State) (n : BitVec 3) (w : Wait) : (s.setWait n w).trust = s.trust := rfl
@[simp] theorem State.setWait_xings (s : State) (n : BitVec 3) (w : Wait) : (s.setWait n w).xings = s.xings := rfl
@[simp] theorem State.setWait_cvy (s : State) (n : BitVec 3) (w : Wait) : (s.setWait n w).cvy = s.cvy := rfl
@[simp] theorem State.setWait_faults (s : State) (n : BitVec 3) (w : Wait) : (s.setWait n w).faults = s.faults := rfl
@[simp] theorem State.setWait_tests (s : State) (n : BitVec 3) (w : Wait) : (s.setWait n w).tests = s.tests := rfl
@[simp] theorem State.setWait_fresh (s : State) (n : BitVec 3) (w : Wait) : (s.setWait n w).fresh = s.fresh := rfl
@[simp] theorem State.setWait_pending (s : State) (n : BitVec 3) (w : Wait) : (s.setWait n w).pending = s.pending := rfl

@[simp] theorem State.modSlot_ties (s : State) (k : Nat) (f : Slot → Slot) : (s.modSlot k f).ties = s.ties := rfl
@[simp] theorem State.modSlot_boot (s : State) (k : Nat) (f : Slot → Slot) : (s.modSlot k f).boot = s.boot := rfl
@[simp] theorem State.modSlot_mer (s : State) (k : Nat) (f : Slot → Slot) : (s.modSlot k f).mer = s.mer := rfl
@[simp] theorem State.modSlot_ctl (s : State) (k : Nat) (f : Slot → Slot) : (s.modSlot k f).ctl = s.ctl := rfl
@[simp] theorem State.modSlot_mbxs (s : State) (k : Nat) (f : Slot → Slot) : (s.modSlot k f).mbxs = s.mbxs := rfl
@[simp] theorem State.modSlot_helm (s : State) (k : Nat) (f : Slot → Slot) : (s.modSlot k f).helm = s.helm := rfl
@[simp] theorem State.modSlot_tiles (s : State) (k : Nat) (f : Slot → Slot) : (s.modSlot k f).tiles = s.tiles := rfl
@[simp] theorem State.modSlot_doms (s : State) (k : Nat) (f : Slot → Slot) : (s.modSlot k f).doms = s.doms := rfl
@[simp] theorem State.modSlot_domRet (s : State) (k : Nat) (f : Slot → Slot) : (s.modSlot k f).domRet = s.domRet := rfl
@[simp] theorem State.modSlot_rails (s : State) (k : Nat) (f : Slot → Slot) : (s.modSlot k f).rails = s.rails := rfl
@[simp] theorem State.modSlot_power (s : State) (k : Nat) (f : Slot → Slot) : (s.modSlot k f).power = s.power := rfl
@[simp] theorem State.modSlot_ledger (s : State) (k : Nat) (f : Slot → Slot) : (s.modSlot k f).ledger = s.ledger := rfl
@[simp] theorem State.modSlot_rck (s : State) (k : Nat) (f : Slot → Slot) : (s.modSlot k f).rck = s.rck := rfl
@[simp] theorem State.modSlot_sxt (s : State) (k : Nat) (f : Slot → Slot) : (s.modSlot k f).sxt = s.sxt := rfl
@[simp] theorem State.modSlot_log (s : State) (k : Nat) (f : Slot → Slot) : (s.modSlot k f).log = s.log := rfl
@[simp] theorem State.modSlot_trust (s : State) (k : Nat) (f : Slot → Slot) : (s.modSlot k f).trust = s.trust := rfl
@[simp] theorem State.modSlot_xings (s : State) (k : Nat) (f : Slot → Slot) : (s.modSlot k f).xings = s.xings := rfl
@[simp] theorem State.modSlot_cvy (s : State) (k : Nat) (f : Slot → Slot) : (s.modSlot k f).cvy = s.cvy := rfl
@[simp] theorem State.modSlot_faults (s : State) (k : Nat) (f : Slot → Slot) : (s.modSlot k f).faults = s.faults := rfl
@[simp] theorem State.modSlot_tests (s : State) (k : Nat) (f : Slot → Slot) : (s.modSlot k f).tests = s.tests := rfl
@[simp] theorem State.modSlot_fresh (s : State) (k : Nat) (f : Slot → Slot) : (s.modSlot k f).fresh = s.fresh := rfl
@[simp] theorem State.modSlot_pending (s : State) (k : Nat) (f : Slot → Slot) : (s.modSlot k f).pending = s.pending := rfl

@[simp] theorem State.modChan_ties (s : State) (c : Nat) (f : Chan → Chan) : (s.modChan c f).ties = s.ties := rfl
@[simp] theorem State.modChan_boot (s : State) (c : Nat) (f : Chan → Chan) : (s.modChan c f).boot = s.boot := rfl
@[simp] theorem State.modChan_mer (s : State) (c : Nat) (f : Chan → Chan) : (s.modChan c f).mer = s.mer := rfl
@[simp] theorem State.modChan_ctl (s : State) (c : Nat) (f : Chan → Chan) : (s.modChan c f).ctl = s.ctl := rfl
@[simp] theorem State.modChan_mbxs (s : State) (c : Nat) (f : Chan → Chan) : (s.modChan c f).mbxs = s.mbxs := rfl
@[simp] theorem State.modChan_helm (s : State) (c : Nat) (f : Chan → Chan) : (s.modChan c f).helm = s.helm := rfl
@[simp] theorem State.modChan_tiles (s : State) (c : Nat) (f : Chan → Chan) : (s.modChan c f).tiles = s.tiles := rfl
@[simp] theorem State.modChan_doms (s : State) (c : Nat) (f : Chan → Chan) : (s.modChan c f).doms = s.doms := rfl
@[simp] theorem State.modChan_domRet (s : State) (c : Nat) (f : Chan → Chan) : (s.modChan c f).domRet = s.domRet := rfl
@[simp] theorem State.modChan_rails (s : State) (c : Nat) (f : Chan → Chan) : (s.modChan c f).rails = s.rails := rfl
@[simp] theorem State.modChan_power (s : State) (c : Nat) (f : Chan → Chan) : (s.modChan c f).power = s.power := rfl
@[simp] theorem State.modChan_ledger (s : State) (c : Nat) (f : Chan → Chan) : (s.modChan c f).ledger = s.ledger := rfl
@[simp] theorem State.modChan_keys (s : State) (c : Nat) (f : Chan → Chan) : (s.modChan c f).keys = s.keys := rfl
@[simp] theorem State.modChan_rck (s : State) (c : Nat) (f : Chan → Chan) : (s.modChan c f).rck = s.rck := rfl
@[simp] theorem State.modChan_log (s : State) (c : Nat) (f : Chan → Chan) : (s.modChan c f).log = s.log := rfl
@[simp] theorem State.modChan_trust (s : State) (c : Nat) (f : Chan → Chan) : (s.modChan c f).trust = s.trust := rfl
@[simp] theorem State.modChan_xings (s : State) (c : Nat) (f : Chan → Chan) : (s.modChan c f).xings = s.xings := rfl
@[simp] theorem State.modChan_cvy (s : State) (c : Nat) (f : Chan → Chan) : (s.modChan c f).cvy = s.cvy := rfl
@[simp] theorem State.modChan_faults (s : State) (c : Nat) (f : Chan → Chan) : (s.modChan c f).faults = s.faults := rfl
@[simp] theorem State.modChan_tests (s : State) (c : Nat) (f : Chan → Chan) : (s.modChan c f).tests = s.tests := rfl
@[simp] theorem State.modChan_fresh (s : State) (c : Nat) (f : Chan → Chan) : (s.modChan c f).fresh = s.fresh := rfl
@[simp] theorem State.modChan_pending (s : State) (c : Nat) (f : Chan → Chan) : (s.modChan c f).pending = s.pending := rfl

@[simp] theorem State.modXing_ties (s : State) (x i : Nat) (f : Xing → Xing) : (s.modXing x i f).ties = s.ties := rfl
@[simp] theorem State.modXing_boot (s : State) (x i : Nat) (f : Xing → Xing) : (s.modXing x i f).boot = s.boot := rfl
@[simp] theorem State.modXing_mer (s : State) (x i : Nat) (f : Xing → Xing) : (s.modXing x i f).mer = s.mer := rfl
@[simp] theorem State.modXing_ctl (s : State) (x i : Nat) (f : Xing → Xing) : (s.modXing x i f).ctl = s.ctl := rfl
@[simp] theorem State.modXing_mbxs (s : State) (x i : Nat) (f : Xing → Xing) : (s.modXing x i f).mbxs = s.mbxs := rfl
@[simp] theorem State.modXing_helm (s : State) (x i : Nat) (f : Xing → Xing) : (s.modXing x i f).helm = s.helm := rfl
@[simp] theorem State.modXing_tiles (s : State) (x i : Nat) (f : Xing → Xing) : (s.modXing x i f).tiles = s.tiles := rfl
@[simp] theorem State.modXing_doms (s : State) (x i : Nat) (f : Xing → Xing) : (s.modXing x i f).doms = s.doms := rfl
@[simp] theorem State.modXing_domRet (s : State) (x i : Nat) (f : Xing → Xing) : (s.modXing x i f).domRet = s.domRet := rfl
@[simp] theorem State.modXing_rails (s : State) (x i : Nat) (f : Xing → Xing) : (s.modXing x i f).rails = s.rails := rfl
@[simp] theorem State.modXing_power (s : State) (x i : Nat) (f : Xing → Xing) : (s.modXing x i f).power = s.power := rfl
@[simp] theorem State.modXing_ledger (s : State) (x i : Nat) (f : Xing → Xing) : (s.modXing x i f).ledger = s.ledger := rfl
@[simp] theorem State.modXing_keys (s : State) (x i : Nat) (f : Xing → Xing) : (s.modXing x i f).keys = s.keys := rfl
@[simp] theorem State.modXing_rck (s : State) (x i : Nat) (f : Xing → Xing) : (s.modXing x i f).rck = s.rck := rfl
@[simp] theorem State.modXing_sxt (s : State) (x i : Nat) (f : Xing → Xing) : (s.modXing x i f).sxt = s.sxt := rfl
@[simp] theorem State.modXing_log (s : State) (x i : Nat) (f : Xing → Xing) : (s.modXing x i f).log = s.log := rfl
@[simp] theorem State.modXing_trust (s : State) (x i : Nat) (f : Xing → Xing) : (s.modXing x i f).trust = s.trust := rfl
@[simp] theorem State.modXing_cvy (s : State) (x i : Nat) (f : Xing → Xing) : (s.modXing x i f).cvy = s.cvy := rfl
@[simp] theorem State.modXing_faults (s : State) (x i : Nat) (f : Xing → Xing) : (s.modXing x i f).faults = s.faults := rfl
@[simp] theorem State.modXing_tests (s : State) (x i : Nat) (f : Xing → Xing) : (s.modXing x i f).tests = s.tests := rfl
@[simp] theorem State.modXing_fresh (s : State) (x i : Nat) (f : Xing → Xing) : (s.modXing x i f).fresh = s.fresh := rfl
@[simp] theorem State.modXing_pending (s : State) (x i : Nat) (f : Xing → Xing) : (s.modXing x i f).pending = s.pending := rfl

@[simp] theorem State.modCls_ties (s : State) (c : Nat) (f : Cls → Cls) : (s.modCls c f).ties = s.ties := rfl
@[simp] theorem State.modCls_boot (s : State) (c : Nat) (f : Cls → Cls) : (s.modCls c f).boot = s.boot := rfl
@[simp] theorem State.modCls_mer (s : State) (c : Nat) (f : Cls → Cls) : (s.modCls c f).mer = s.mer := rfl
@[simp] theorem State.modCls_ctl (s : State) (c : Nat) (f : Cls → Cls) : (s.modCls c f).ctl = s.ctl := rfl
@[simp] theorem State.modCls_mbxs (s : State) (c : Nat) (f : Cls → Cls) : (s.modCls c f).mbxs = s.mbxs := rfl
@[simp] theorem State.modCls_helm (s : State) (c : Nat) (f : Cls → Cls) : (s.modCls c f).helm = s.helm := rfl
@[simp] theorem State.modCls_tiles (s : State) (c : Nat) (f : Cls → Cls) : (s.modCls c f).tiles = s.tiles := rfl
@[simp] theorem State.modCls_doms (s : State) (c : Nat) (f : Cls → Cls) : (s.modCls c f).doms = s.doms := rfl
@[simp] theorem State.modCls_domRet (s : State) (c : Nat) (f : Cls → Cls) : (s.modCls c f).domRet = s.domRet := rfl
@[simp] theorem State.modCls_rails (s : State) (c : Nat) (f : Cls → Cls) : (s.modCls c f).rails = s.rails := rfl
@[simp] theorem State.modCls_power (s : State) (c : Nat) (f : Cls → Cls) : (s.modCls c f).power = s.power := rfl
@[simp] theorem State.modCls_ledger (s : State) (c : Nat) (f : Cls → Cls) : (s.modCls c f).ledger = s.ledger := rfl
@[simp] theorem State.modCls_keys (s : State) (c : Nat) (f : Cls → Cls) : (s.modCls c f).keys = s.keys := rfl
@[simp] theorem State.modCls_sxt (s : State) (c : Nat) (f : Cls → Cls) : (s.modCls c f).sxt = s.sxt := rfl
@[simp] theorem State.modCls_log (s : State) (c : Nat) (f : Cls → Cls) : (s.modCls c f).log = s.log := rfl
@[simp] theorem State.modCls_trust (s : State) (c : Nat) (f : Cls → Cls) : (s.modCls c f).trust = s.trust := rfl
@[simp] theorem State.modCls_xings (s : State) (c : Nat) (f : Cls → Cls) : (s.modCls c f).xings = s.xings := rfl
@[simp] theorem State.modCls_cvy (s : State) (c : Nat) (f : Cls → Cls) : (s.modCls c f).cvy = s.cvy := rfl
@[simp] theorem State.modCls_faults (s : State) (c : Nat) (f : Cls → Cls) : (s.modCls c f).faults = s.faults := rfl
@[simp] theorem State.modCls_tests (s : State) (c : Nat) (f : Cls → Cls) : (s.modCls c f).tests = s.tests := rfl
@[simp] theorem State.modCls_fresh (s : State) (c : Nat) (f : Cls → Cls) : (s.modCls c f).fresh = s.fresh := rfl
@[simp] theorem State.modCls_pending (s : State) (c : Nat) (f : Cls → Cls) : (s.modCls c f).pending = s.pending := rfl

@[simp] theorem State.modRck_ties (s : State) (f : Rck → Rck) : (s.modRck f).ties = s.ties := rfl
@[simp] theorem State.modRck_boot (s : State) (f : Rck → Rck) : (s.modRck f).boot = s.boot := rfl
@[simp] theorem State.modRck_mer (s : State) (f : Rck → Rck) : (s.modRck f).mer = s.mer := rfl
@[simp] theorem State.modRck_ctl (s : State) (f : Rck → Rck) : (s.modRck f).ctl = s.ctl := rfl
@[simp] theorem State.modRck_mbxs (s : State) (f : Rck → Rck) : (s.modRck f).mbxs = s.mbxs := rfl
@[simp] theorem State.modRck_helm (s : State) (f : Rck → Rck) : (s.modRck f).helm = s.helm := rfl
@[simp] theorem State.modRck_tiles (s : State) (f : Rck → Rck) : (s.modRck f).tiles = s.tiles := rfl
@[simp] theorem State.modRck_doms (s : State) (f : Rck → Rck) : (s.modRck f).doms = s.doms := rfl
@[simp] theorem State.modRck_domRet (s : State) (f : Rck → Rck) : (s.modRck f).domRet = s.domRet := rfl
@[simp] theorem State.modRck_rails (s : State) (f : Rck → Rck) : (s.modRck f).rails = s.rails := rfl
@[simp] theorem State.modRck_power (s : State) (f : Rck → Rck) : (s.modRck f).power = s.power := rfl
@[simp] theorem State.modRck_ledger (s : State) (f : Rck → Rck) : (s.modRck f).ledger = s.ledger := rfl
@[simp] theorem State.modRck_keys (s : State) (f : Rck → Rck) : (s.modRck f).keys = s.keys := rfl
@[simp] theorem State.modRck_sxt (s : State) (f : Rck → Rck) : (s.modRck f).sxt = s.sxt := rfl
@[simp] theorem State.modRck_log (s : State) (f : Rck → Rck) : (s.modRck f).log = s.log := rfl
@[simp] theorem State.modRck_trust (s : State) (f : Rck → Rck) : (s.modRck f).trust = s.trust := rfl
@[simp] theorem State.modRck_xings (s : State) (f : Rck → Rck) : (s.modRck f).xings = s.xings := rfl
@[simp] theorem State.modRck_cvy (s : State) (f : Rck → Rck) : (s.modRck f).cvy = s.cvy := rfl
@[simp] theorem State.modRck_faults (s : State) (f : Rck → Rck) : (s.modRck f).faults = s.faults := rfl
@[simp] theorem State.modRck_tests (s : State) (f : Rck → Rck) : (s.modRck f).tests = s.tests := rfl
@[simp] theorem State.modRck_fresh (s : State) (f : Rck → Rck) : (s.modRck f).fresh = s.fresh := rfl
@[simp] theorem State.modRck_pending (s : State) (f : Rck → Rck) : (s.modRck f).pending = s.pending := rfl

@[simp] theorem State.modTests_ties (s : State) (f : Tests → Tests) : (s.modTests f).ties = s.ties := rfl
@[simp] theorem State.modTests_boot (s : State) (f : Tests → Tests) : (s.modTests f).boot = s.boot := rfl
@[simp] theorem State.modTests_mer (s : State) (f : Tests → Tests) : (s.modTests f).mer = s.mer := rfl
@[simp] theorem State.modTests_ctl (s : State) (f : Tests → Tests) : (s.modTests f).ctl = s.ctl := rfl
@[simp] theorem State.modTests_mbxs (s : State) (f : Tests → Tests) : (s.modTests f).mbxs = s.mbxs := rfl
@[simp] theorem State.modTests_helm (s : State) (f : Tests → Tests) : (s.modTests f).helm = s.helm := rfl
@[simp] theorem State.modTests_tiles (s : State) (f : Tests → Tests) : (s.modTests f).tiles = s.tiles := rfl
@[simp] theorem State.modTests_doms (s : State) (f : Tests → Tests) : (s.modTests f).doms = s.doms := rfl
@[simp] theorem State.modTests_domRet (s : State) (f : Tests → Tests) : (s.modTests f).domRet = s.domRet := rfl
@[simp] theorem State.modTests_rails (s : State) (f : Tests → Tests) : (s.modTests f).rails = s.rails := rfl
@[simp] theorem State.modTests_power (s : State) (f : Tests → Tests) : (s.modTests f).power = s.power := rfl
@[simp] theorem State.modTests_ledger (s : State) (f : Tests → Tests) : (s.modTests f).ledger = s.ledger := rfl
@[simp] theorem State.modTests_keys (s : State) (f : Tests → Tests) : (s.modTests f).keys = s.keys := rfl
@[simp] theorem State.modTests_rck (s : State) (f : Tests → Tests) : (s.modTests f).rck = s.rck := rfl
@[simp] theorem State.modTests_sxt (s : State) (f : Tests → Tests) : (s.modTests f).sxt = s.sxt := rfl
@[simp] theorem State.modTests_log (s : State) (f : Tests → Tests) : (s.modTests f).log = s.log := rfl
@[simp] theorem State.modTests_trust (s : State) (f : Tests → Tests) : (s.modTests f).trust = s.trust := rfl
@[simp] theorem State.modTests_xings (s : State) (f : Tests → Tests) : (s.modTests f).xings = s.xings := rfl
@[simp] theorem State.modTests_cvy (s : State) (f : Tests → Tests) : (s.modTests f).cvy = s.cvy := rfl
@[simp] theorem State.modTests_faults (s : State) (f : Tests → Tests) : (s.modTests f).faults = s.faults := rfl
@[simp] theorem State.modTests_fresh (s : State) (f : Tests → Tests) : (s.modTests f).fresh = s.fresh := rfl
@[simp] theorem State.modTests_pending (s : State) (f : Tests → Tests) : (s.modTests f).pending = s.pending := rfl

@[simp] theorem State.openInbound_ties (s : State) (x : Inbound) : (s.openInbound x).ties = s.ties := rfl
@[simp] theorem State.openInbound_boot (s : State) (x : Inbound) : (s.openInbound x).boot = s.boot := rfl
@[simp] theorem State.openInbound_mer (s : State) (x : Inbound) : (s.openInbound x).mer = s.mer := rfl
@[simp] theorem State.openInbound_ctl (s : State) (x : Inbound) : (s.openInbound x).ctl = s.ctl := rfl
@[simp] theorem State.openInbound_mbxs (s : State) (x : Inbound) : (s.openInbound x).mbxs = s.mbxs := rfl
@[simp] theorem State.openInbound_helm (s : State) (x : Inbound) : (s.openInbound x).helm = s.helm := rfl
@[simp] theorem State.openInbound_tiles (s : State) (x : Inbound) : (s.openInbound x).tiles = s.tiles := rfl
@[simp] theorem State.openInbound_doms (s : State) (x : Inbound) : (s.openInbound x).doms = s.doms := rfl
@[simp] theorem State.openInbound_domRet (s : State) (x : Inbound) : (s.openInbound x).domRet = s.domRet := rfl
@[simp] theorem State.openInbound_rails (s : State) (x : Inbound) : (s.openInbound x).rails = s.rails := rfl
@[simp] theorem State.openInbound_power (s : State) (x : Inbound) : (s.openInbound x).power = s.power := rfl
@[simp] theorem State.openInbound_ledger (s : State) (x : Inbound) : (s.openInbound x).ledger = s.ledger := rfl
@[simp] theorem State.openInbound_keys (s : State) (x : Inbound) : (s.openInbound x).keys = s.keys := rfl
@[simp] theorem State.openInbound_rck (s : State) (x : Inbound) : (s.openInbound x).rck = s.rck := rfl
@[simp] theorem State.openInbound_sxt (s : State) (x : Inbound) : (s.openInbound x).sxt = s.sxt := rfl
@[simp] theorem State.openInbound_trust (s : State) (x : Inbound) : (s.openInbound x).trust = s.trust := rfl
@[simp] theorem State.openInbound_xings (s : State) (x : Inbound) : (s.openInbound x).xings = s.xings := rfl
@[simp] theorem State.openInbound_cvy (s : State) (x : Inbound) : (s.openInbound x).cvy = s.cvy := rfl
@[simp] theorem State.openInbound_faults (s : State) (x : Inbound) : (s.openInbound x).faults = s.faults := rfl
@[simp] theorem State.openInbound_tests (s : State) (x : Inbound) : (s.openInbound x).tests = s.tests := rfl
@[simp] theorem State.openInbound_fresh (s : State) (x : Inbound) : (s.openInbound x).fresh = s.fresh := rfl
@[simp] theorem State.openInbound_pending (s : State) (x : Inbound) : (s.openInbound x).pending = s.pending := rfl

@[simp] theorem State.take_ties (s : State) (p : Config.Purpose) (b : Nat) : (s.take p b).2.ties = s.ties := rfl
@[simp] theorem State.take_boot (s : State) (p : Config.Purpose) (b : Nat) : (s.take p b).2.boot = s.boot := rfl
@[simp] theorem State.take_mer (s : State) (p : Config.Purpose) (b : Nat) : (s.take p b).2.mer = s.mer := rfl
@[simp] theorem State.take_ctl (s : State) (p : Config.Purpose) (b : Nat) : (s.take p b).2.ctl = s.ctl := rfl
@[simp] theorem State.take_mbxs (s : State) (p : Config.Purpose) (b : Nat) : (s.take p b).2.mbxs = s.mbxs := rfl
@[simp] theorem State.take_helm (s : State) (p : Config.Purpose) (b : Nat) : (s.take p b).2.helm = s.helm := rfl
@[simp] theorem State.take_tiles (s : State) (p : Config.Purpose) (b : Nat) : (s.take p b).2.tiles = s.tiles := rfl
@[simp] theorem State.take_doms (s : State) (p : Config.Purpose) (b : Nat) : (s.take p b).2.doms = s.doms := rfl
@[simp] theorem State.take_domRet (s : State) (p : Config.Purpose) (b : Nat) : (s.take p b).2.domRet = s.domRet := rfl
@[simp] theorem State.take_rails (s : State) (p : Config.Purpose) (b : Nat) : (s.take p b).2.rails = s.rails := rfl
@[simp] theorem State.take_power (s : State) (p : Config.Purpose) (b : Nat) : (s.take p b).2.power = s.power := rfl
@[simp] theorem State.take_ledger (s : State) (p : Config.Purpose) (b : Nat) : (s.take p b).2.ledger = s.ledger := rfl
@[simp] theorem State.take_keys (s : State) (p : Config.Purpose) (b : Nat) : (s.take p b).2.keys = s.keys := rfl
@[simp] theorem State.take_rck (s : State) (p : Config.Purpose) (b : Nat) : (s.take p b).2.rck = s.rck := rfl
@[simp] theorem State.take_sxt (s : State) (p : Config.Purpose) (b : Nat) : (s.take p b).2.sxt = s.sxt := rfl
@[simp] theorem State.take_log (s : State) (p : Config.Purpose) (b : Nat) : (s.take p b).2.log = s.log := rfl
@[simp] theorem State.take_trust (s : State) (p : Config.Purpose) (b : Nat) : (s.take p b).2.trust = s.trust := rfl
@[simp] theorem State.take_xings (s : State) (p : Config.Purpose) (b : Nat) : (s.take p b).2.xings = s.xings := rfl
@[simp] theorem State.take_cvy (s : State) (p : Config.Purpose) (b : Nat) : (s.take p b).2.cvy = s.cvy := rfl
@[simp] theorem State.take_faults (s : State) (p : Config.Purpose) (b : Nat) : (s.take p b).2.faults = s.faults := rfl
@[simp] theorem State.take_tests (s : State) (p : Config.Purpose) (b : Nat) : (s.take p b).2.tests = s.tests := rfl
@[simp] theorem State.take_pending (s : State) (p : Config.Purpose) (b : Nat) : (s.take p b).2.pending = s.pending := rfl
@[simp] theorem State.takeSeed_ties (s : State) : s.takeSeed.2.ties = s.ties := rfl
@[simp] theorem State.takeSeed_boot (s : State) : s.takeSeed.2.boot = s.boot := rfl
@[simp] theorem State.takeSeed_mer (s : State) : s.takeSeed.2.mer = s.mer := rfl
@[simp] theorem State.takeSeed_ctl (s : State) : s.takeSeed.2.ctl = s.ctl := rfl
@[simp] theorem State.takeSeed_mbxs (s : State) : s.takeSeed.2.mbxs = s.mbxs := rfl
@[simp] theorem State.takeSeed_helm (s : State) : s.takeSeed.2.helm = s.helm := rfl
@[simp] theorem State.takeSeed_tiles (s : State) : s.takeSeed.2.tiles = s.tiles := rfl
@[simp] theorem State.takeSeed_doms (s : State) : s.takeSeed.2.doms = s.doms := rfl
@[simp] theorem State.takeSeed_domRet (s : State) : s.takeSeed.2.domRet = s.domRet := rfl
@[simp] theorem State.takeSeed_rails (s : State) : s.takeSeed.2.rails = s.rails := rfl
@[simp] theorem State.takeSeed_power (s : State) : s.takeSeed.2.power = s.power := rfl
@[simp] theorem State.takeSeed_ledger (s : State) : s.takeSeed.2.ledger = s.ledger := rfl
@[simp] theorem State.takeSeed_keys (s : State) : s.takeSeed.2.keys = s.keys := rfl
@[simp] theorem State.takeSeed_rck (s : State) : s.takeSeed.2.rck = s.rck := rfl
@[simp] theorem State.takeSeed_sxt (s : State) : s.takeSeed.2.sxt = s.sxt := rfl
@[simp] theorem State.takeSeed_log (s : State) : s.takeSeed.2.log = s.log := rfl
@[simp] theorem State.takeSeed_trust (s : State) : s.takeSeed.2.trust = s.trust := rfl
@[simp] theorem State.takeSeed_xings (s : State) : s.takeSeed.2.xings = s.xings := rfl
@[simp] theorem State.takeSeed_cvy (s : State) : s.takeSeed.2.cvy = s.cvy := rfl
@[simp] theorem State.takeSeed_faults (s : State) : s.takeSeed.2.faults = s.faults := rfl
@[simp] theorem State.takeSeed_tests (s : State) : s.takeSeed.2.tests = s.tests := rfl
@[simp] theorem State.takeSeed_pending (s : State) : s.takeSeed.2.pending = s.pending := rfl

end Sys2Proof.Machine
end

