-- ==== Sys2Proof/Laws/Kept.lean ====
section
/-! SUPPORT. What the shared operations keep, said once: canonical memories, the sizes of the arrays, the queue, the tie-offs, what is
fused, a stopped chip and its halted tiles. The relation `Kept` is reflexive and transitive, so that what a command keeps follows from
what the operations it is made of keep. -/

namespace Sys2Proof.Laws

open Sys2Proof.Machine Sys2Proof.Safety

set_option Elab.async false

/-- What every operation of the block but a block reset keeps. -/
structure Kept (s t : State) : Prop where
  mem : MemOk s → MemOk t
  sized : Sized s → Sized t
  pending : t.pending = s.pending
  ties : t.ties = s.ties
  fuse0 : ∀ b, s.trust.fuse0.getLsbD b = true → t.trust.fuse0.getLsbD b = true
  fuse1 : ∀ b, s.trust.fuse1.getLsbD b = true → t.trust.fuse1.getLsbD b = true
  fuse2 : ∀ b, s.trust.fuse2.getLsbD b = true → t.trust.fuse2.getLsbD b = true
  stop : s.boot.chipStop = true → t.boot.chipStop = true
  cool : s.boot.cool = .stopped → t.boot.cool = .stopped
  trip : s.boot.trip = true → t.boot.trip = true
  rise : t.boot.chipStop = true → s.boot.chipStop = true ∨ t.boot.cool = .stopped ∨ t.boot.trip = true
  halted : ∀ i, (s.tile i).st = .halted → (t.tile i).st = .halted

namespace Kept

theorem refl (s : State) : Kept s s where
  mem := id
  sized := id
  pending := rfl
  ties := rfl
  fuse0 := fun _ => id
  fuse1 := fun _ => id
  fuse2 := fun _ => id
  stop := id
  cool := id
  trip := id
  rise := .inl
  halted := fun _ => id

theorem trans {s t u : State} (a : Kept s t) (b : Kept t u) : Kept s u where
  mem := b.mem ∘ a.mem
  sized := b.sized ∘ a.sized
  pending := b.pending.trans a.pending
  ties := b.ties.trans a.ties
  fuse0 := fun i h => b.fuse0 i (a.fuse0 i h)
  fuse1 := fun i h => b.fuse1 i (a.fuse1 i h)
  fuse2 := fun i h => b.fuse2 i (a.fuse2 i h)
  stop := b.stop ∘ a.stop
  cool := b.cool ∘ a.cool
  trip := b.trip ∘ a.trip
  rise := fun h => (b.rise h).elim (fun h => (a.rise h).elim .inl (fun h => .inr (h.imp b.cool b.trip))) .inr
  halted := fun i h => b.halted i (a.halted i h)

/-- An update of other fields keeps everything: each hypothesis is closed by `rfl` where its field is not written. -/
theorem same {s t : State}
    (mem : t.log.mem = s.log.mem := by rfl) (wmem : t.log.wmem = s.log.wmem := by rfl)
    (tiles : t.tiles.length = s.tiles.length := by rfl) (halted : ∀ i, (s.tile i).st = .halted → (t.tile i).st = .halted := by exact fun _ => id)
    (doms : t.doms.length = s.doms.length := by rfl) (domRet : t.domRet.length = s.domRet.length := by rfl)
    (rails : t.rails.length = s.rails.length := by rfl) (mbxs : t.mbxs.length = s.mbxs.length := by rfl)
    (slots : t.keys.slots.length = s.keys.slots.length := by rfl) (chans : t.sxt.chans.length = s.sxt.chans.length := by rfl)
    (pending : t.pending = s.pending := by rfl) (ties : t.ties = s.ties := by rfl)
    (f0 : t.trust.fuse0 = s.trust.fuse0 := by rfl) (f1 : t.trust.fuse1 = s.trust.fuse1 := by rfl) (f2 : t.trust.fuse2 = s.trust.fuse2 := by rfl)
    (stop : t.boot.chipStop = s.boot.chipStop := by rfl) (cool : s.boot.cool = .stopped → t.boot.cool = .stopped := by exact id)
    (trip : s.boot.trip = true → t.boot.trip = true := by exact id) : Kept s t where
  mem := fun h => by simpa [MemOk, mem, wmem] using h
  sized := fun h => by simpa [Sized, tiles, doms, domRet, rails, mbxs, slots, chans] using h
  pending := pending
  ties := ties
  fuse0 := fun b h => by rw [f0]; exact h
  fuse1 := fun b h => by rw [f1]; exact h
  fuse2 := fun b h => by rw [f2]; exact h
  stop := fun h => by rw [stop]; exact h
  cool := cool
  trip := trip
  rise := fun h => .inl (by rw [← stop]; exact h)
  halted := halted

/-- A fold of kept changes. -/
theorem each {α : Type} {f : State → α → State} (h : ∀ s a, Kept s (f s a)) (s : State) (l : List α) : Kept s (s.each l f) := by
  induction l generalizing s with
  | nil => exact refl s
  | cons a r ih => exact (h s a).trans (ih (f s a))

/-- A choice between kept changes. -/
theorem ite {s a b : State} {p : Prop} [Decidable p] (ha : p → Kept s a) (hb : ¬ p → Kept s b) : Kept s (if p then a else b) := by
  split
  · exact ha ‹_›
  · exact hb ‹_›

end Kept

/-! ## Accessors -/

/-- The tile at a place after a change of one tile. -/
theorem tile_modTile (s : State) (i j : Nat) (f : Tile → Tile) :
    (s.modTile i f).tile j = if i = j ∧ j < s.tiles.length then f (s.tile j) else s.tile j := by
  simp only [State.tile, State.modTile, List.getD_eq_getElem?_getD, List.getElem?_modify]
  by_cases hj : j < s.tiles.length
  · by_cases hi : i = j <;> simp [hj, hi]
  · simp [hj]

/-- The tile at a place after a change of every tile. -/
theorem tile_mapIdx (s : State) (f : Nat → Tile → Tile) (j : Nat) :
    ({ s with tiles := s.tiles.mapIdx f } : State).tile j = if j < s.tiles.length then f j (s.tile j) else s.tile j := by
  simp only [State.tile, List.getD_eq_getElem?_getD, List.getElem?_mapIdx]
  by_cases hj : j < s.tiles.length <;> simp [hj]

theorem kept_modTile (s : State) (i : Nat) {f : Tile → Tile} (h : ∀ t : Tile, t.st = .halted → (f t).st = .halted) :
    Kept s (s.modTile i f) := by
  refine .same (tiles := by simp [State.modTile]) (halted := fun j hj => ?_)
  rw [tile_modTile]
  split
  · exact h _ hj
  · exact hj

/-- Every tile is changed, and no halted tile leaves HALTED. -/
theorem kept_mapTiles (s : State) {f : Nat → Tile → Tile} (h : ∀ i (t : Tile), t.st = .halted → (f i t).st = .halted) :
    Kept s (s.mapTiles f) := by
  refine .same (tiles := by simp [State.mapTiles]) (halted := fun j hj => ?_)
  rw [State.mapTiles, tile_mapIdx]
  split
  · exact h _ _ hj
  · exact hj

theorem kept_modPlumb (s : State) (i p : Nat) (f : Plumb → Plumb) : Kept s (s.modPlumb i p f) := kept_modTile s i (fun _ => id)
theorem kept_modRail (s : State) (r : Nat) (f : Rail → Rail) : Kept s (s.modRail r f) := .same (rails := by simp [State.modRail])
theorem kept_modMbx (s : State) (n : BitVec 3) (f : Mbx → Mbx) : Kept s (s.modMbx n f) := .same (mbxs := by simp [State.modMbx])
theorem kept_modSlot (s : State) (k : Nat) (f : Slot → Slot) : Kept s (s.modSlot k f) := .same (slots := by simp [State.modSlot])
theorem kept_modChan (s : State) (c : Nat) (f : Chan → Chan) : Kept s (s.modChan c f) := .same (chans := by simp [State.modChan])
theorem kept_modXing (s : State) (x i : Nat) (f : Xing → Xing) : Kept s (s.modXing x i f) := .same
theorem kept_modCls (s : State) (c : Nat) (f : Cls → Cls) : Kept s (s.modCls c f) := .same
theorem kept_take (s : State) (p : Config.Purpose) (n : Nat) : Kept s (s.take p n).2 := .same
theorem kept_takeSeed (s : State) : Kept s s.takeSeed.2 := .same

/-! ## Packets and events (15 R351 to R354; 17 R386) -/

theorem setQueue_mem (l : Log) (c : Nat) (q : List Packet) : (l.setQueue c q).mem = l.mem := by
  unfold Log.setQueue; split
  · rfl
  · split <;> rfl

theorem setQueue_wmem (l : Log) (c : Nat) (q : List Packet) : (l.setQueue c q).wmem = l.wmem := by
  unfold Log.setQueue; split
  · rfl
  · split <;> rfl

theorem kept_putPacket (s : State) (ty src nrec : Nat) (t : Time) (b : List Flit) : Kept s (s.putPacket ty src nrec t b) :=
  .same (mem := setQueue_mem _ _ _) (wmem := setQueue_wmem _ _ _)

theorem kept_dropRecs (s : State) (ty n : Nat) : Kept s (s.dropRecs ty n) := .same

theorem kept_sendRecs (s : State) (ty src nrec : Nat) (t : Time) (b : List Flit) : Kept s (s.sendRecs ty src nrec t b) :=
  .ite (fun _ => kept_putPacket ..) (fun _ => kept_dropRecs ..)

theorem kept_logPacket (s : State) (ty src nrec : Nat) (t : Time) (b : List Flit) : Kept s (s.logPacket ty src nrec t b) :=
  .ite (fun _ => kept_sendRecs ..) (fun _ => .refl s)

theorem kept_formEvents (s : State) : Kept s s.formEvents :=
  .ite (fun _ => .refl s) (fun _ => (Kept.same : Kept s { s with log := { s.log with evWait := (wholeEvents 4 s.log.evWait).2, evAt := s.boot.uptime } }).trans
    (kept_sendRecs ..))

/-- The Helm's side of an event: its class, its records. -/
def noted (s : State) (code : Nat) (rs : List (BitVec 128)) : State :=
  let f := { s.faults with raised := s.faults.raised ||| BitVec.ofNat 16 (1 <<< (code / 256)) }
  { s with faults := if f.queue.length + rs.length ≤ 256 then { f with queue := f.queue ++ rs }
    else { f with lost := satAdd f.lost rs.length, lostNow := f.lostNow + rs.length } }

/-- An event in two parts: what the Helm's queue notes, and what waits for the log port. -/
theorem raiseC_eq (s : State) (code : Nat) (idx : Option Nat) (arg : Nat) (cont : Option (Nat × Nat)) :
    s.raiseC code idx arg cont =
      (let v := noted s code (eventRecs code idx arg s.mer.now cont)
       if v.selected 1 then
         let w : State := { v with log := { v.log with
           evWait := v.log.evWait ++ eventRecs code idx arg s.mer.now cont
           evAt := if v.log.evWait.isEmpty then v.boot.uptime else v.log.evAt } }
         if w.log.evWait.length ≥ 4 then w.formEvents else w
       else v) := rfl

theorem kept_raiseC (s : State) (code : Nat) (idx : Option Nat) (arg : Nat) (cont : Option (Nat × Nat)) :
    Kept s (s.raiseC code idx arg cont) := by
  rw [raiseC_eq]
  refine Kept.trans (t := noted s code (eventRecs code idx arg s.mer.now cont)) .same ?_
  dsimp only
  split
  · split
    · exact Kept.trans .same (kept_formEvents _)
    · exact .same
  · exact .refl _

theorem kept_raise (s : State) (code idx arg : Nat) : Kept s (s.raise code idx arg) := kept_raiseC ..
theorem kept_raise0 (s : State) (code arg : Nat) : Kept s (s.raise0 code arg) := kept_raiseC ..

theorem kept_evqFlush (s : State) : Kept s s.evqFlush := .ite (fun _ => Kept.trans .same (kept_raise0 ..)) (fun _ => .refl s)

/-! ## Answers (13 R319 to R324) -/

theorem kept_publish (s : State) (n : BitVec 3) : Kept s (s.publish n) := by
  unfold State.publish
  split
  · exact kept_modMbx ..
  · refine Kept.trans (kept_modMbx s n (fun m => { m with st := m.held, resp := m.heldResp, unsent := false })) ?_
    dsimp only
    split
    · exact .same
    · exact .refl _

theorem kept_finish (s : State) (n : BitVec 3) (r : Resp) : Kept s (s.finish n r) := Kept.trans (kept_modMbx ..) (kept_publish ..)
theorem kept_accept (s : State) (n : BitVec 3) (ws : List Word) : Kept s (s.accept n ws) := Kept.trans (kept_modMbx ..) (kept_publish ..)
theorem kept_finishO (s : State) (n : Option (BitVec 3)) (r : Resp) : Kept s (s.finishO n r) := by
  cases n
  · exact .refl s
  · exact kept_finish ..
theorem kept_settle (s : State) (n : BitVec 3) (r : Resp) : Kept s (s.settle n r) := .ite (fun _ => kept_modMbx ..) (fun _ => .refl s)
theorem kept_settleO (s : State) (n : Option (BitVec 3)) (r : Resp) : Kept s (s.settleO n r) := by
  cases n
  · exact .refl s
  · exact kept_settle ..
theorem kept_answer (s : State) (n : BitVec 3) (a : Ans) : Kept s (s.answer n a) := by
  cases a
  · exact kept_finish ..
  · exact kept_accept ..
theorem kept_hwBusy (s : State) (n : BitVec 3) (ws : List Word) (why re : Nat) : Kept s (s.hwBusy n ws why re) :=
  Kept.trans (.ite (fun _ => kept_modMbx s n _) (fun _ => .refl s)) .same

theorem kept_bell (s : State) (n : BitVec 3) : Kept s (s.bell n) := by
  unfold State.bell
  split
  · exact Kept.trans (kept_modMbx s n _) .same
  · exact Kept.trans (kept_modMbx s n _) .same
  · exact .refl s
  · exact kept_hwBusy ..

theorem kept_writeReq (s : State) (op : Byte) (q : Req) : Kept s (s.writeReq op q) := kept_modMbx ..

/-! ## Reckoner events given up (06 R178, R181) -/

theorem endEvent_st (t : Tile) (e : Event) : (t.endEvent e).st = t.st := rfl

theorem foldl_endEvent_st (l : List Event) (t : Tile) : (l.foldl Tile.endEvent t).st = t.st := by
  induction l generalizing t with
  | nil => rfl
  | cons e r ih => exact ih (t.endEvent e)

theorem kept_unsettle (s : State) (i : Nat) : Kept s (s.unsettle i) :=
  (kept_take s .settle 3200001).trans
    (kept_modTile _ i (f := fun t => { t with settle := (s.take .settle 3200001).1 }) (fun _ => id))

theorem kept_sweepEvents (s : State) (i : Nat) : Kept s (s.sweepEvents i) :=
  kept_modTile s i (fun t h => by dsimp only; rw [foldl_endEvent_st]; exact h)

theorem kept_recheck (s : State) (i : Nat) : Kept s (s.recheck i) := by
  unfold State.recheck
  dsimp only
  have h : Kept s (s.modTile i (fun t =>
      { t with heldK := BitVec.ofNat 5 (s.tile i).rawPlan.1, heldD := BitVec.ofNat 16 (s.tile i).rawPlan.2 })) :=
    kept_modTile _ _ (fun _ => id)
  split
  · exact .refl s
  · split
    · exact h.trans .same
    · exact h

theorem kept_redip (s : State) (i : Nat) : Kept s (s.redip i) := by
  unfold State.redip
  refine (kept_recheck s i).trans ?_
  generalize s.recheck i = s
  dsimp only
  split
  · exact .refl s
  · split
    · refine Kept.trans ?_ (kept_unsettle _ i)
      exact kept_modTile _ _ (fun _ => id)
    · exact kept_modTile _ _ (fun _ => id)

theorem kept_countAbandon (s : State) (i : Nat) : Kept s (s.countAbandon i) := .same

theorem kept_abandon (s : State) (i : Nat) : Kept s (s.abandon i) :=
  .ite (fun _ => .refl s) (fun _ => Kept.trans (kept_countAbandon ..)
    (kept_modTile _ _ (fun t h => by dsimp only; rw [foldl_endEvent_st]; exact h)))

theorem kept_abandonRun (s : State) (i : Nat) : Kept s (s.abandonRun i) := by
  unfold State.abandonRun
  split
  · exact .refl s
  · dsimp only
    refine Kept.trans ?_ (kept_sweepEvents _ i)
    refine Kept.trans ?_ (kept_redip _ i)
    refine Kept.trans ?_ (kept_modTile _ i (fun _ => id))
    exact (kept_countAbandon s i).trans (kept_take _ _ _)

/-! ## Convoy notices (10 R266 to R284) -/

theorem kept_cvyPump (s : State) : Kept s s.cvyPump := by
  unfold State.cvyPump
  exact .ite (fun _ => .refl s) (fun _ => .same)

theorem kept_sendNotice (s : State) (kind inst w : Nat) (u : Option Time) (f : Bool) : Kept s (s.sendNotice kind inst w u f) :=
  Kept.trans .same (kept_cvyPump _)

theorem kept_sendNak (s : State) (reason cause status : Nat) (m : Word) (t : Time) : Kept s (s.sendNak reason cause status m t) :=
  Kept.trans .same (kept_sendNotice ..)

theorem kept_outOfStep (s : State) (m : Word) (b : Bool) : Kept s (s.outOfStep m b) := Kept.trans .same (kept_raise0 ..)
theorem kept_cvyEnd (s : State) : Kept s s.cvyEnd := .same
theorem kept_leaveSend (s : State) : Kept s s.leaveSend := kept_sendNotice ..

/-! ## Keystones that resolve (08 R225 to R233) -/

theorem kept_resolve (s : State) (k : Nat) (r : KsRes) : Kept s (s.resolve k r) :=
  Kept.trans (Kept.trans .same (kept_logPacket ..)) (.each (fun _ _ => kept_settle ..) _ _)

theorem kept_settleMove (s : State) (m : Word) (r : Resp) : Kept s (s.settleMove m r) :=
  Kept.trans .same (.each (fun _ _ => kept_settle ..) _ _)

theorem kept_convoyAbort (s : State) (x : Slot) (cause : Nat) (r : KsRes) : Kept s (s.convoyAbort x cause r) := by
  unfold State.convoyAbort
  split
  · exact .refl s
  · exact .refl s
  · exact (kept_settleO ..).trans (kept_cvyEnd _)
  · refine (kept_settleMove s x.mseq (abortedR r)).trans ?_
    dsimp only
    split
    · exact (kept_sendNak ..).trans (kept_outOfStep ..)
    · exact (kept_sendNak ..).trans (kept_outOfStep ..)

/-- An abort in the order of its parts. -/
theorem kept_abortOne (s : State) (k cause : Nat) (f : Option (Nat × Nat)) : Kept s (s.abortOne k cause f) := by
  unfold State.abortOne
  dsimp only
  split
  · exact .refl s
  · refine Kept.trans ?_ (kept_convoyAbort ..)
    refine Kept.trans ?_ (kept_raise ..)
    refine Kept.trans ?_ (kept_modSlot ..)
    refine Kept.trans ((kept_resolve s k _).trans (kept_settleO ..)) (.same (tiles := by simp) (rails := by simp) (halted := ?_))
    intro j hj
    simp only [State.tile, List.getD_eq_getElem?_getD, List.getElem?_mapIdx] at hj ⊢
    rcases Option.eq_none_or_eq_some ((((s.resolve k ((s.slot k).res k .aborted cause f)).settleO (s.slot k).sealMbx
      (abortedR ((s.slot k).res k .aborted cause f))).tiles)[j]?) with h | ⟨t, h⟩
    · rw [h] at hj ⊢; exact hj
    · rw [h] at hj ⊢
      simp only [Option.map_some, Option.getD_some] at hj ⊢
      split <;> exact hj

theorem kept_revalidate (n t0 : Nat) (l : List (Nat × Nat)) (s : State) : Kept s (s.revalidate n t0 l) := by
  induction n generalizing l s with
  | zero => exact .refl s
  | succ n ih =>
    unfold State.revalidate
    dsimp only
    split
    · exact .refl s
    · exact (kept_abortOne ..).trans (ih ..)

theorem kept_abortKs (s : State) (k cause : Nat) (f : Option (Nat × Nat)) : Kept s (s.abortKs k cause f) :=
  .ite (fun _ => .refl s) (fun _ => (kept_abortOne ..).trans (kept_revalidate ..))

theorem kept_abortNaming (s : State) (i cause : Nat) : Kept s (s.abortNaming i cause) :=
  .each (fun s k => by
    split
    · exact kept_abortKs ..
    · exact .refl s) _ _

/-! ## Fences and the halt (17 R395; 09 R261) -/

theorem kept_dropSched (s : State) (i : Nat) (r : Resp) : Kept s (s.dropSched i r) :=
  (kept_modTile s i (f := fun t => { t with sched := [], resched := [], hov := none }) (fun _ => id)).trans
    (.each (f := fun (s : State) (e : Sched) => s.settleO e.mbx r) (fun _ _ => kept_settleO _ _ _) _ _)

theorem kept_dropCheck (s : State) (i : Nat) : Kept s (s.dropCheck i) :=
  .each (fun s r => by
    split
    · split
      · exact ((kept_modRail ..).trans (kept_modChan ..)).trans (kept_modPlumb ..)
      · exact .refl s
    · exact .refl s) _ _

theorem kept_cvyFinish (s : State) (cause : Nat) : Kept s (s.cvyFinish cause) :=
  Kept.trans ((kept_settleO ..).trans (.each (fun _ _ => kept_settle ..) _ _)) ((kept_settleO ..).trans (kept_cvyEnd _))

/-- A change of one tile that was not HALTED at the start. -/
theorem Kept.modAwake {s t : State} (k : Kept s t) (i : Nat) (f : Tile → Tile) (h : (s.tile i).st ≠ .halted) : Kept s (t.modTile i f) where
  mem := k.mem
  sized := fun x => by simpa [Sized, State.modTile] using k.sized x
  pending := k.pending
  ties := k.ties
  fuse0 := k.fuse0
  fuse1 := k.fuse1
  fuse2 := k.fuse2
  stop := k.stop
  cool := k.cool
  trip := k.trip
  rise := k.rise
  halted := fun j hj => by
    rw [tile_modTile]
    by_cases e : i = j
    · subst e; exact absurd hj h
    · simpa [e] using k.halted j hj

theorem kept_fence (s : State) (i cause : Nat) : Kept s (s.fence i cause) := by
  unfold State.fence
  dsimp only
  split
  · exact .refl s
  · split
    · exact kept_modTile _ _ (fun _ => id)
    · rename_i h
      refine Kept.trans ?_ (kept_abortNaming _ i 2)
      refine Kept.trans ?_ (kept_raise _ 0x401 i cause)
      refine Kept.modAwake ?_ i _ (fun e => h (by simp [e]))
      exact ((kept_abandon ..).trans (kept_dropSched ..)).trans (kept_dropCheck ..)

/-- What the notices and the answers of a convoy's end leave alone. -/
structure Still (s t : State) : Prop where
  tiles : t.tiles = s.tiles
  boot : t.boot = s.boot
  ties : t.ties = s.ties

theorem Still.trans {s t u : State} (a : Still s t) (b : Still t u) : Still s u :=
  ⟨b.tiles.trans a.tiles, b.boot.trans a.boot, b.ties.trans a.ties⟩

theorem Still.each {α : Type} {f : State → α → State} (h : ∀ s a, Still s (f s a)) (s : State) (l : List α) : Still s (s.each l f) := by
  induction l generalizing s with
  | nil => exact ⟨rfl, rfl, rfl⟩
  | cons a r ih => exact (h s a).trans (ih (f s a))

theorem still_settle (s : State) (n : BitVec 3) (r : Resp) : Still s (s.settle n r) := by
  unfold State.settle; split <;> exact ⟨rfl, rfl, rfl⟩

theorem still_settleO (s : State) (n : Option (BitVec 3)) (r : Resp) : Still s (s.settleO n r) := by
  cases n
  · exact ⟨rfl, rfl, rfl⟩
  · exact still_settle ..

theorem still_cvyPump (s : State) : Still s s.cvyPump := by
  unfold State.cvyPump
  dsimp only
  split <;> exact ⟨rfl, rfl, rfl⟩

theorem still_leaveSend (s : State) : Still s s.leaveSend := by
  unfold State.leaveSend State.sendNotice
  dsimp only
  exact ⟨(still_cvyPump _).tiles, (still_cvyPump _).boot, (still_cvyPump _).ties⟩

theorem still_cvyFinish (s : State) (cause : Nat) : Still s (s.cvyFinish cause) :=
  (((still_settleO _ _ _).trans (.each (fun _ _ => still_settle _ _ _) _ _)).trans (still_settleO _ _ _)).trans ⟨rfl, rfl, rfl⟩

theorem kept_stopping (s : State) (cause : Nat) (h : s.haltedB = true) : Kept s (s.stopping cause) := by
  have h' : s.boot.cool = .stopped ∨ s.boot.trip = true := by simpa [State.haltedB] using h
  have k : Kept s ((if s.cvy.st = .joining then s.leaveSend else s).each [0, 1, 2, 3] (fun s k => s.abortKs k 12 none)) :=
    Kept.trans (.ite (fun _ => kept_leaveSend s) (fun _ => .refl s)) (.each (fun v j => kept_abortKs v j 12 none) _ _)
  unfold State.stopping
  generalize (if s.cvy.st = .joining then s.leaveSend else s).each [0, 1, 2, 3] (fun s k => s.abortKs k 12 none) = v at k ⊢
  exact {
    mem := k.mem, sized := k.sized, pending := k.pending, ties := k.ties, fuse0 := k.fuse0, fuse1 := k.fuse1, fuse2 := k.fuse2
    stop := fun _ => rfl, cool := k.cool, trip := k.trip, halted := k.halted
    rise := fun _ => .inr (h'.imp k.cool k.trip) }

theorem kept_dropAll (s : State) (l : List Nat) : Kept s (s.each l (fun s i => s.dropSched i haltR)) :=
  .each (fun s i => kept_dropSched s i haltR) s l

theorem kept_haltTiles (s : State) : Kept s s.haltTiles := by
  have k := kept_dropAll s (allTiles.filter s.present)
  unfold State.haltTiles
  generalize s.each (allTiles.filter s.present) (fun s i => s.dropSched i haltR) = v at k ⊢
  refine k.trans (.same (tiles := by simp) (halted := fun j hj => ?_))
  rw [tile_mapIdx]
  split
  · split
    · rfl
    · exact hj
  · exact hj

/-- The halt keeps everything, for a block that the coolant monitor or a thermal trip stops. -/
theorem kept_halt (s : State) (cause : Nat) (h : s.haltedB = true) : Kept s (s.halt cause) := by
  refine ((kept_stopping s cause h).trans (kept_haltTiles _)).trans ?_
  unfold State.halt
  dsimp only
  split
  · exact .refl _
  · refine Kept.trans ?_ (kept_cvyFinish _ 12)
    split
    · exact .refl _
    · exact kept_leaveSend _

theorem still_halt (s : State) (cause : Nat) : Still (s.stopping cause).haltTiles (s.halt cause) := by
  unfold State.halt
  dsimp only
  split
  · exact ⟨rfl, rfl, rfl⟩
  · refine Still.trans ?_ (still_cvyFinish _ 12)
    split
    · exact ⟨rfl, rfl, rfl⟩
    · exact still_leaveSend _

/-- After the halt every present tile is HALTED. -/
theorem haltTiles_all (s : State) : ∀ i, i < s.haltTiles.tiles.length → s.haltTiles.present i = true → (s.haltTiles.tile i).st = .halted := by
  unfold State.haltTiles
  generalize s.each (allTiles.filter s.present) (fun s i => s.dropSched i haltR) = v
  intro i hi hp
  have hp' : v.present i = true := hp
  simp only [List.length_mapIdx] at hi
  rw [tile_mapIdx, if_pos hi, if_pos hp']

theorem stopping_stop (s : State) (cause : Nat) : (s.stopping cause).boot.chipStop = true := rfl

/-- After the halt `chip_stop_o` is high and every present tile is HALTED. -/
theorem halt_halts (s : State) (cause : Nat) : (s.halt cause).boot.chipStop = true ∧
    ∀ i, i < (s.halt cause).tiles.length → (s.halt cause).present i = true → ((s.halt cause).tile i).st = .halted := by
  have e := still_halt s cause
  have hs := (kept_haltTiles (s.stopping cause)).stop (stopping_stop s cause)
  have ha := haltTiles_all (s.stopping cause)
  generalize s.halt cause = t at e ⊢
  generalize (s.stopping cause).haltTiles = v at e hs ha
  obtain ⟨h1, h2, h3⟩ := e
  refine ⟨by rw [h2]; exact hs, fun i hi hp => ?_⟩
  have := ha i (by rw [← h1]; exact hi) (by unfold State.present State.clsOf at hp ⊢; rw [← h3]; exact hp)
  unfold State.tile at this ⊢
  rw [h1]
  exact this

/-! ## Commits (08 R222 to R233) -/

theorem ite_st {a b : Tile} {x : GenSt} {p : Prop} [Decidable p] (ha : a.st = x) (hb : b.st = x) : (if p then a else b).st = x := by
  split
  · exact ha
  · exact hb

theorem takeCode_st (t : Tile) (c : Nat) (T : Time) : (t.takeCode c T).st = t.st := by
  unfold Tile.takeCode
  exact ite_st rfl rfl

theorem commitChg_st (t : Tile) (T : Time) (b : Bool) (u : Nat) (c : TChg) : (t.commitChg T b u c).st = t.st := by
  cases c <;> simp only [Tile.commitChg]
  · split
    · rfl
    · exact takeCode_st ..
  · split
    · rfl
    · exact takeCode_st ..
  · rfl

theorem kept_setHostRate (s : State) (q : Nat) : Kept s (s.setHostRate q) := .same

theorem kept_commitAct (s : State) (T : Time) (a : BitVec 128) : Kept s (s.commitAct T a) := by
  unfold State.commitAct
  split
  · rename_i c _
    exact Kept.trans (kept_modTile _ _ (fun t h => by rw [commitChg_st]; exact h)) (kept_redip ..)
  · dsimp only
    split
    · exact kept_modRail ..
    · split
      · exact .same
      · exact kept_setHostRate ..

theorem kept_convoyCommit (s : State) (x : Slot) : Kept s (s.convoyCommit x) := by
  unfold State.convoyCommit
  split
  · exact .refl s
  · exact (kept_settleO ..).trans .same
  · exact (kept_settleMove s x.mseq (okR [])).trans .same
  · exact .same

theorem kept_commitKs (s : State) (k : Nat) : Kept s (s.commitKs k) := by
  unfold State.commitKs
  dsimp only
  refine Kept.trans ?_ (kept_convoyCommit ..)
  refine Kept.trans ?_ (kept_raise ..)
  refine Kept.trans ?_ (kept_modSlot ..)
  refine Kept.trans ?_ (kept_resolve ..)
  refine Kept.trans ?_ (kept_settleO ..)
  refine Kept.trans (Kept.each (f := fun (v : State) (a : BitVec 128) => v.commitAct (s.slot k).t a)
    (fun v a => kept_commitAct v (s.slot k).t a) s (s.slot k).acts) ?_
  exact .same

/-! ## Time, events, accesses and posted commands -/

theorem added_st (t : Tile) (o : Orig) (n : Nat) (d : Frac) : (t.added o n d).st = t.st := by
  unfold Tile.added
  refine ite_st rfl ?_
  show (t.addStretch o d).st = t.st
  cases o <;> rfl

theorem readHigh_st (t : Tile) (g : GenIn) : (t.readHigh g).st = t.st := by
  unfold Tile.readHigh
  exact added_st _ _ _ _

theorem floorFrame_st (t : Tile) (g : GenIn) (d : Frac) (p : Bool) : (if p then t.floorFrame g d else t).st = t.st := ite_st rfl rfl

theorem readLow_st (t : Tile) (g : GenIn) : (t.readLow g).st = t.st := by
  unfold Tile.readLow
  extract_lets code n len hk lim whole t' u v
  have hu : u.st = t.st := added_st t' g.org n (phaseTime n code)
  exact ite_st ((floorFrame_st u g u.frLen _).trans hu) hu

theorem reads_st (g : GenIn) (stop : Bool) (n : Nat) (d : Frac) (t : Tile) : (Tile.reads g stop n d t).2.st = t.st := by
  induction n generalizing d t with
  | zero => rfl
  | succ n ih =>
    unfold Tile.reads
    split
    · rfl
    · refine (ih _ _).trans ?_
      split
      · exact readLow_st t g
      · exact readHigh_st t g

theorem frames_st (t : Tile) (g : GenIn) (d : Frac) : (t.frames g d).2.st = t.st := by
  unfold Tile.frames
  dsimp only
  generalize (if d.lt t.wait then 0 else (d.sub t.wait).quot (phaseTime (8 * (32 + g.k)) g.code)) = n
  split
  · rfl
  · refine (floorFrame_st _ g _ _).trans ?_
    exact added_st _ _ _ _

theorem clock_st (t : Tile) (g : GenIn) (dt : Nat) : (t.clock g dt).st = t.st := by
  have h1 : (Tile.reads g true 16 ((Frac.ofNat dt).add t.lead) { t with lead := {} }).2.st = t.st := reads_st g true 16 _ _
  unfold Tile.clock
  generalize Tile.reads g true 16 ((Frac.ofNat dt).add t.lead) { t with lead := {} } = a at h1 ⊢
  obtain ⟨d, u⟩ := a
  have h2 : (if !u.low && decide (u.frame = 0) then u.frames g d else (d, u)).2.st = t.st := by
    split
    · exact (frames_st u g d).trans h1
    · exact h1
  dsimp only
  generalize (if !u.low && decide (u.frame = 0) then u.frames g d else (d, u)) = b at h2 ⊢
  obtain ⟨e, v⟩ := b
  exact (reads_st g false 18 e v).trans h2

theorem elapseTile_st (s : State) (mv : List (Nat × Nat × Nat)) (dt i : Nat) (t : Tile) : (s.elapseTile mv dt i t).st = t.st := by
  unfold State.elapseTile
  refine ite_st rfl ?_
  extract_lets pt st why t' g u
  exact ite_st (ite_st rfl ((clock_st u g dt).trans rfl)) rfl

theorem kept_elapse (s : State) (dt : Nat) : Kept s (s.elapse dt) := by
  unfold State.elapse
  refine .ite (fun _ => .refl s) (fun _ => ?_)
  refine Kept.trans ?_ (.each (fun s i => kept_raise s 0x309 i 0) _ _)
  refine .same (tiles := by simp) (chans := by dsimp only; split <;> rfl) (halted := fun j hj => ?_)
  show (({ s with tiles := s.tiles.mapIdx (fun i t => s.elapseTile s.movers dt i t) } : State).tile j).st = .halted
  rw [tile_mapIdx]
  split
  · rw [elapseTile_st]; exact hj
  · exact hj

/-- Follows that are called for are sent. -/
theorem kept_followSend (s : State) : Kept s s.followSend := by
  unfold State.followSend
  split
  · exact .refl s
  · dsimp only
    refine .ite (fun _ => .same) (fun _ => Kept.trans ?_ (kept_sendNotice ..))
    exact .same

theorem kept_tick (s : State) (dt : Nat) : Kept s (s.tick dt) := by
  unfold State.tick
  have h : Kept s (if dt = 0 then s else s.followSend.elapse dt) :=
    .ite (fun _ => .refl s) (fun _ => (kept_followSend s).trans (kept_elapse _ dt))
  exact h.trans .same

/-- An event keeps what its effect keeps. -/
theorem kept_event {dt : Nat} {s t : State} {f : State → State} (h : event dt s f = .next t) (hf : ∀ u, Kept u (f u)) : Kept s t := by
  simp only [event, Host.Outcome.next.injEq] at h
  subst h
  split
  · exact kept_tick s dt
  · exact (kept_tick s dt).trans (hf _)

/-- An access keeps what its effect keeps. -/
theorem kept_access {dt : Nat} {s t : State} {f : State → State} (h : access dt s f = .next t) (hf : ∀ u, Kept u (f u)) : Kept s t :=
  kept_event h (fun _ => .ite (fun _ => Kept.trans .same (hf _)) (fun _ => .refl _))

/-- A posted command keeps what its body keeps. -/
theorem kept_postCmd (c : Cmd) (dt : Nat) (q : Req) (s : State) (hc : ∀ u, Kept u (c.run u q).1) : Kept s (postCmd c dt q s) := by
  have hh : ∀ u, Kept u (c.handle false u q).1 := by
    intro u
    unfold Cmd.handle
    split
    · exact .refl u
    · split
      · exact .refl u
      · exact hc u
  have hb : Kept (s.tick dt) (((s.tick dt).writeReq c.op q).bell q.mbx) := (kept_writeReq ..).trans (kept_bell ..)
  refine (kept_tick s dt).trans ?_
  unfold postCmd
  refine .ite (fun _ => .refl _) (fun _ => hb.trans ?_)
  generalize ((s.tick dt).writeReq c.op q).bell q.mbx = v
  dsimp only
  split
  · exact Kept.trans (t := { v with helm := { v.helm with queue := [] } }) .same ((hh _).trans (kept_answer ..))
  · exact .refl _

end Sys2Proof.Laws
end

