-- ==== Sys2Proof/Laws/Post.lean ====
section
/-! SUPPORT. What a posted command does, said once: a request that is taken at once runs its body in the state `posted`, and the
answer is written to its mailbox. -/

namespace Sys2Proof.Laws

open Sys2Proof.Machine Sys2Proof.Safety

theorem portUp_awake {s : State} (h : s.portUp = true) : s.boot.inReset = false := by
  simp only [State.portUp, Bool.and_eq_true, Bool.not_eq_true'] at h
  exact h.1.1

/-- What `ready` says, conjunct by conjunct. -/
theorem ready_iff (rom : Bool) (u : State) (q : Req) : ready rom u q = true ↔
    u.portUp = true ∧ u.helm.queue = [] ∧ (u.helm.stage = .run ∨ (rom = true ∧ u.helm.stage = .rom)) ∧ u.helm.open_ = true ∧
    (u.mbx q.mbx).inHand = false ∧ (u.xings.main.getD 0 {}).stale = false ∧ (u.xings.main.getD 1 {}).stale = false ∧
    (∀ x ∈ [14, 15, 16, 17, 18, 19, 20], (u.xings.main.getD x {}).failed = false) ∧ q.rsv = 0 ∧ q.sess = 0 := by
  simp only [ready, Bool.and_eq_true, Bool.or_eq_true, decide_eq_true_eq, List.isEmpty_iff, Bool.not_eq_true', List.all_eq_true]
  constructor
  · rintro ⟨⟨⟨⟨⟨⟨⟨⟨⟨a, b⟩, c⟩, d⟩, e⟩, f⟩, g⟩, h⟩, i⟩, j⟩
    exact ⟨a, b, c, d, e, f, g, h, i, j⟩
  · rintro ⟨a, b, c, d, e, f, g, h, i, j⟩
    exact ⟨⟨⟨⟨⟨⟨⟨⟨⟨a, b⟩, c⟩, d⟩, e⟩, f⟩, g⟩, h⟩, i⟩, j⟩

@[simp] theorem posted_ties (u : State) (op : Byte) (q : Req) : (posted u op q).ties = u.ties := rfl
@[simp] theorem posted_boot (u : State) (op : Byte) (q : Req) : (posted u op q).boot = u.boot := rfl
@[simp] theorem posted_mer (u : State) (op : Byte) (q : Req) : (posted u op q).mer = u.mer := rfl
@[simp] theorem posted_ctl (u : State) (op : Byte) (q : Req) : (posted u op q).ctl = u.ctl := rfl
@[simp] theorem posted_tiles (u : State) (op : Byte) (q : Req) : (posted u op q).tiles = u.tiles := rfl
@[simp] theorem posted_doms (u : State) (op : Byte) (q : Req) : (posted u op q).doms = u.doms := rfl
@[simp] theorem posted_domRet (u : State) (op : Byte) (q : Req) : (posted u op q).domRet = u.domRet := rfl
@[simp] theorem posted_rails (u : State) (op : Byte) (q : Req) : (posted u op q).rails = u.rails := rfl
@[simp] theorem posted_power (u : State) (op : Byte) (q : Req) : (posted u op q).power = u.power := rfl
@[simp] theorem posted_ledger (u : State) (op : Byte) (q : Req) : (posted u op q).ledger = u.ledger := rfl
@[simp] theorem posted_keys (u : State) (op : Byte) (q : Req) : (posted u op q).keys = u.keys := rfl
@[simp] theorem posted_rck (u : State) (op : Byte) (q : Req) : (posted u op q).rck = u.rck := rfl
@[simp] theorem posted_sxt (u : State) (op : Byte) (q : Req) : (posted u op q).sxt = u.sxt := rfl
@[simp] theorem posted_log (u : State) (op : Byte) (q : Req) : (posted u op q).log = u.log := rfl
@[simp] theorem posted_trust (u : State) (op : Byte) (q : Req) : (posted u op q).trust = u.trust := rfl
@[simp] theorem posted_xings (u : State) (op : Byte) (q : Req) : (posted u op q).xings = u.xings := rfl
@[simp] theorem posted_cvy (u : State) (op : Byte) (q : Req) : (posted u op q).cvy = u.cvy := rfl
@[simp] theorem posted_faults (u : State) (op : Byte) (q : Req) : (posted u op q).faults = u.faults := rfl
@[simp] theorem posted_tests (u : State) (op : Byte) (q : Req) : (posted u op q).tests = u.tests := rfl
@[simp] theorem posted_fresh (u : State) (op : Byte) (q : Req) : (posted u op q).fresh = u.fresh := rfl
@[simp] theorem posted_pending (u : State) (op : Byte) (q : Req) : (posted u op q).pending = u.pending := rfl
@[simp] theorem posted_stage (u : State) (op : Byte) (q : Req) : (posted u op q).helm.stage = u.helm.stage := rfl
@[simp] theorem posted_open_ (u : State) (op : Byte) (q : Req) : (posted u op q).helm.open_ = u.helm.open_ := rfl
@[simp] theorem posted_reopen (u : State) (op : Byte) (q : Req) : (posted u op q).helm.reopen = u.helm.reopen := rfl
@[simp] theorem posted_wdogs (u : State) (op : Byte) (q : Req) : (posted u op q).helm.wdogs = u.helm.wdogs := rfl
@[simp] theorem posted_restarts (u : State) (op : Byte) (q : Req) : (posted u op q).helm.restarts = u.helm.restarts := rfl
@[simp] theorem posted_reason (u : State) (op : Byte) (q : Req) : (posted u op q).helm.reason = u.helm.reason := rfl
@[simp] theorem posted_fwVer (u : State) (op : Byte) (q : Req) : (posted u op q).helm.fwVer = u.helm.fwVer := rfl
@[simp] theorem posted_svn (u : State) (op : Byte) (q : Req) : (posted u op q).helm.svn = u.helm.svn := rfl
@[simp] theorem posted_runAt (u : State) (op : Byte) (q : Req) : (posted u op q).helm.runAt = u.helm.runAt := rfl
@[simp] theorem posted_image (u : State) (op : Byte) (q : Req) : (posted u op q).helm.image = u.helm.image := rfl
@[simp] theorem posted_meas (u : State) (op : Byte) (q : Req) : (posted u op q).helm.meas = u.helm.meas := rfl
@[simp] theorem posted_codeBad (u : State) (op : Byte) (q : Req) : (posted u op q).helm.codeBad = u.helm.codeBad := rfl
@[simp] theorem posted_romUp (u : State) (op : Byte) (q : Req) : (posted u op q).helm.romUp = u.helm.romUp := rfl

/-- A request that is taken at once: its body runs in `posted`, and its answer is written. -/
theorem postCmd_ready {c : Cmd} {dt : Nat} {q : Req} {s : State} {rom : Bool} (h : ready rom (s.tick dt) q = true) :
    postCmd c dt q s =
      ((c.handle false (posted (s.tick dt) c.op q) q).1).answer q.mbx (c.handle false (posted (s.tick dt) c.op q) q).2 := by
  obtain ⟨hp, hq, hs, ho, hm, h0, h1, -⟩ := (ready_iff rom _ q).1 h
  have hw : (((s.tick dt).writeReq c.op q).mbx q.mbx).inHand = false := by
    have e : ∀ (l : List Mbx) (f : Mbx → Mbx) (n : Nat), (∀ m, (f m).inHand = m.inHand) →
        ((l.modify n f).getD n {}).inHand = (l.getD n {}).inHand := by
      intro l f n hf
      simp only [List.getD_eq_getElem?_getD, List.getElem?_modify]
      cases l[n]? with
      | none => simp
      | some m => simp [hf]
    exact (e (s.tick dt).mbxs (fun m => { m with
      reqArea := area16 (reqHeader c.op q :: (q.args ++ m.reqArea.drop (q.args.length + 1))) }) q.mbx.toNat (fun _ => rfl)).trans hm
  have hb : ((s.tick dt).writeReq c.op q).bellFail q.mbx = none := by
    rcases hs with hs | ⟨-, hs⟩ <;> (
      simp [State.bellFail, -List.getD_eq_getElem?_getD, hw, hq, hs, ho]
      exact ⟨h0, h1⟩)
  simp only [postCmd, hp, Bool.not_true, Bool.false_eq_true, if_false, hq, List.isEmpty_nil, Bool.true_and, State.bell, hb,
    State.modMbx_helm, State.writeReq_helm, List.nil_append, beq_self_eq_true, if_true]
  rfl

/-- A command whose form is right and that nothing refuses runs. -/
theorem handle_ok {c : Cmd} {s : State} {q : Req} (hf : c.formFail s q = none) (hg : c.gateFail false s q = none) :
    c.handle false s q = c.run s q := by
  simp [Cmd.handle, hf, hg]

/-- The gates are open to a request that is taken at once: the block is not halted where the command changes something, and every
crossing it needs is one of the internal ones. -/
theorem gateFail_ready {c : Cmd} {u : State} {q : Req} {rom : Bool} {op : Byte} (h : ready rom u q = true)
    (hrom : rom = true → c.rom = true) (hh : c.changes = true → u.haltedB = false)
    (hn : c.needs.all (fun x => [14, 15, 16, 17, 18, 19, 20].contains x) = true) :
    c.gateFail false (posted u op q) q = none := by
  obtain ⟨-, -, hs, -, -, -, -, hx, -, hq⟩ := (ready_iff rom u q).1 h
  have h1 : (c.changes && u.haltedB) = false := by
    cases hc : c.changes
    · rfl
    · simp [hh hc]
  have h2 : (posted u op q).haltedB = u.haltedB := rfl
  have h3 : c.needs.any (fun x => ((posted u op q).xings.main.getD x {}).failed) = false := by
    rw [List.any_eq_false]
    intro x hxm
    have := List.all_eq_true.1 hn x hxm
    simp only [posted_xings]
    simpa using hx x (by simpa using this)
  unfold Cmd.gateFail
  rw [h2, h1, h3]
  rcases hs with hs | ⟨hr, hs⟩
  · simp [hs, hq]
  · simp [hs, hq, hrom hr]

/-- The form is right when the length fits, no bit outside the masks is set and the command's own checks pass. -/
theorem formFail_ready {c : Cmd} {s : State} {q : Req} (hq : q.rsv = 0) (hl : c.len q = true)
    (hm : rsvWord 1 c.masks q.args = none) (hf : c.form s q = none) : c.formFail s q = none := by
  simp [Cmd.formFail, hq, hl, hm, hf]

/-- A command that is taken at once and answers with a final status. -/
theorem postCmd_final {c : Cmd} {dt : Nat} {q : Req} {s t : State} {r : Resp} {rom : Bool} (h : ready rom (s.tick dt) q = true)
    (hrom : rom = true → c.rom = true) (hh : c.changes = true → (s.tick dt).haltedB = false)
    (hn : c.needs.all (fun x => [14, 15, 16, 17, 18, 19, 20].contains x) = true) (hl : c.len q = true)
    (hm : rsvWord 1 c.masks q.args = none) (hf : c.form (posted (s.tick dt) c.op q) q = none)
    (hr : c.run (posted (s.tick dt) c.op q) q = (t, .final r)) : postCmd c dt q s = t.finish q.mbx r := by
  rw [postCmd_ready h, handle_ok (formFail_ready ((ready_iff rom _ q).1 h).2.2.2.2.2.2.2.2.1 hl hm hf) (gateFail_ready h hrom hh hn), hr]
  rfl

/-- A command that is taken at once and answers ACCEPTED. -/
theorem postCmd_accepted {c : Cmd} {dt : Nat} {q : Req} {s t : State} {ws : List Word} {rom : Bool}
    (h : ready rom (s.tick dt) q = true)
    (hrom : rom = true → c.rom = true) (hh : c.changes = true → (s.tick dt).haltedB = false)
    (hn : c.needs.all (fun x => [14, 15, 16, 17, 18, 19, 20].contains x) = true) (hl : c.len q = true)
    (hm : rsvWord 1 c.masks q.args = none) (hf : c.form (posted (s.tick dt) c.op q) q = none)
    (hr : c.run (posted (s.tick dt) c.op q) q = (t, .accepted ws)) : postCmd c dt q s = t.accept q.mbx ws := by
  rw [postCmd_ready h, handle_ok (formFail_ready ((ready_iff rom _ q).1 h).2.2.2.2.2.2.2.2.1 hl hm hf) (gateFail_ready h hrom hh hn), hr]
  rfl

end Sys2Proof.Laws
end

