-- ==== Sys2Proof/Tests/Slice0.lean ====
section
/-! SUPPORT. Small tests: an ill-formed term for each check of WellFormed; for the statements with hypotheses, a state and operands that
meet them all together, clause by clause; and the worked examples of the manual. -/

namespace Sys2Proof.Tests

open Sys2Proof.Machine Sys2Proof.Safety

set_option Elab.async false

/-! ## Helpers -/

/-- A request of mailbox 0 with tag 7. -/
def rq (args : List Word) : Req := { mbx := 0, tag := 7, sess := 0, rsv := 0, args := args }

/-- An adaptive, a steady and a service tile; the rest absent. -/
def ties : Ties := { cls := [1, 2, 3], dom := [0, 0, 1], rail := [0, 0, 1] }

/-- The block in RUN and LOCKED, its clocks running, rail 0 active. -/
def up : State := { State.reset with
  ties := ties
  boot := { State.reset.boot with clkRun := 0xFF, lockedOnce := true }
  mer := { State.reset.mer with st := .locked, running := true, plls := true }
  helm := { State.reset.helm with stage := .run, open_ := true, romUp := true }
  rails := State.reset.rails.modify 0 (fun r => { r with active := true }) }

/-- The same block in ROM. -/
def rom : State := { up with helm := { up.helm with stage := .rom } }

/-- `up` with one part changed: tile 0, the clock, the boot domain, the lodestar, channel 59, the Reckoner, the tests, the log, the Helm,
the faults, the power controller, keystone slot 0, the convoy. -/
def upT (f : Tile → Tile) : State := up.modTile 0 f
def upMer (f : Mer → Mer) : State := { up with mer := f up.mer }
def upBoot (f : Boot → Boot) : State := { up with boot := f up.boot }
def upSxt (f : Sxt → Sxt) : State := { up with sxt := f up.sxt }
def upCh (f : Chan → Chan) : State := up.modChan 59 f
def upRck (f : Rck → Rck) : State := { up with rck := f up.rck }
def upTst (f : Tests → Tests) : State := { up with tests := f up.tests }
def upLog (f : Log → Log) : State := { up with log := f up.log }
def upHelm (f : Helm → Helm) : State := { up with helm := f up.helm }
def upFlt (f : Faults → Faults) : State := { up with faults := f up.faults }
def upPow (f : Power → Power) : State := { up with power := f up.power }
def upKs (x : Slot) : State := up.modSlot 0 (fun _ => x)

/-- A block out of reset, in the state in which a command finds it that comes at once; and one that takes the request at once. -/
abbrev Live (s : State) (P : State → Prop) : Prop := s.boot.inReset = false ∧ P (s.tick 0)
abbrev Taken (r : Bool) (s : State) (q : Req) (P : State → Prop) : Prop := ready r (s.tick 0) q = true ∧ P (s.tick 0)

/-! ## The checks of WellFormed refuse -/

theorem test_wf_long_request : Instr.wf (.identify 0 (rq (List.replicate 16 0))) = false := by decide
theorem test_wf_pulse : Instr.wf (.meridianPulse 0 0 .inWindow false [(0, 40000)]) = false := by decide
theorem test_wf_temperature : Instr.wf (.thermalSample 0 [{ tile := 0, s0 := 2048, s1 := 0 }]) = false := by decide
theorem test_wf_domain : Instr.wf (.domainReturnInstant 0 192) = false := by decide
theorem test_wf_notice : Instr.wf (.cvyMoveNotice 0 { words := [] }) = false := by decide
theorem test_wf_crossing : Instr.wf (.xingTimeout 0 25 0) = false := by decide

/-! ## O1 PolicyCommands, O2 IdentityAndChart, O3 TileReads, O4 TileWords, O5 TileStates -/

theorem test_policy_premises :
    Taken false up (rq [2, 0xFF]) (fun u => u.haltedB = false ∧ 0xFF#32 &&& ~~~0xFF#32 = 0 ∧ u.mer.st = .locked ∧ u.member = false) ∧
    Taken false up (rq [192]) (fun u => u.haltedB = false ∧ 192#32 &&& ~~~0xFF#32 = 0) ∧
    Taken false up (rq [0x01000001, 0]) (fun u => u.haltedB = false ∧ 0x01000001#32 &&& ~~~0x01FF01FF#32 = 0 ∧ fld 0x01000001#32 0 9 = 1 ∧
      fld 0x01000001#32 16 9 = 256) ∧
    Taken false up (rq [64]) (fun u => u.haltedB = false ∧ 64#32 &&& ~~~0x7F#32 = 0 ∧ u.safeFloor = false) ∧
    Taken false { up with rails := State.reset.rails } (rq [0xFDFF]) (fun u => u.haltedB = false ∧ 0xFDFF#32 &&& ~~~0xFFFF#32 = 0 ∧
      fld 0xFDFF#32 8 8 = 0xFD ∧ ∀ r < 8, (u.rail r).active = false) ∧
    Taken false up (rq []) (fun _ => True) := by decide +kernel

/-- A tightening that touches every field at the end of its range. -/
def tight : Req := rq [1, 2560, 0, 500, 10000, 10000, 10000]
/-- The new chart of class 1, and one that it does not widen. -/
abbrev tightens (o : Chart) : Prop :=
  tight.args.length = 7 ∧ rsvWord 1 [3, 0xFFFF, 0x1F, 0x3FF] tight.args = none ∧ fld (tight.w 1) 0 2 = 1 ∧
  2560 ≤ (tightChart tight).maxCode.toNat ∧ (tightChart tight).head.toNat ≤ classLim 1 ∧ 500 ≤ (tightChart tight).vmax.toNat ∧
  10000 ≤ (tightChart tight).peak.toNat ∧ (tightChart tight).burst.toNat ≤ (tightChart tight).peak.toNat ∧
  (tightChart tight).sus.toNat ≤ (tightChart tight).burst.toNat ∧ (tightChart tight).maxCode.toNat ≤ o.maxCode.toNat ∧
  o.head.toNat ≤ (tightChart tight).head.toNat ∧ (tightChart tight).vmax.toNat ≤ o.vmax.toNat ∧
  (tightChart tight).peak.toNat ≤ o.peak.toNat ∧ (tightChart tight).burst.toNat ≤ o.burst.toNat ∧
  (tightChart tight).sus.toNat ≤ o.sus.toNat

theorem test_chart_premises :
    Taken true up (rq []) (fun _ => True) ∧ Taken true rom (rq []) (fun _ => True) ∧ Taken true rom (rq [3]) (fun _ => True) ∧
    Taken true rom (rq [512]) (fun u => u.helm.stage = .rom ∧ ∀ x ∈ u.log.inbound, x.kind ≠ .image) ∧
    Taken true rom tight (fun u => u.haltedB = false ∧ u.helm.stage = .rom ∧
      tightens (((u.trust.tightWait.find? (fun x => x.1 == 1)).map (·.2)).getD (u.trust.charts.getD 0 {}))) ∧
    Taken true up tight (fun u => u.haltedB = false ∧ u.helm.stage = .run ∧ u.trust.tightWait = [] ∧ u.trust.charts.length = 3 ∧
      tightens (u.trust.charts.getD 0 {})) := by decide +kernel

theorem test_tile_read_premises :
    Taken false up (rq [0]) (fun u => Sized u ∧ u.present 0 = true) ∧
    Taken false up (rq [2]) (fun u => Sized u ∧ fld 2#32 0 8 = 2 ∧ u.present 2 = true ∧ 2#32 &&& ~~~0xFF#32 = 0 ∧ fld 2#32 8 4 = 0) ∧
    Taken false (upT (fun t => { t with snap := t.pages })) (rq [0x300]) (fun u => Sized u ∧ u.present (fld 0x300#32 0 8) = true ∧
      0x300#32 &&& ~~~0xFFF#32 = 0 ∧ fld 0x300#32 8 4 = 3 ∧ (u.tile (fld 0x300#32 0 8)).snap.length = 4) ∧
    Taken false up (rq [0x102]) (fun u => Sized u ∧ fld 0x102#32 0 8 = 2 ∧ u.present 2 = true ∧ 0x102#32 &&& ~~~0x1FF#32 = 0 ∧
      u.steady 2 = false) := by unfold Sized; decide +kernel

/-- A policy word for tile 0: `react_lim` 16, `plan_lim` 6 and a code. -/
def polW (code : Nat) : Word := w32 (pack [(0, 16, code), (16, 5, 16), (21, 5, 6)])
/-- Tile 0 disabled at code 20,480, alone or with a move due in 200 µs; and owned by a convoy. -/
def sDis : State := upT (fun t => { t with code := 20480, st := .disabled })
def sMov : State := upT (fun t => { t with code := 20480, st := .disabled, sched := [{ at_ := 3200000, act := .code 20490 }] })
def sOwn : State := { sDis with cvy := { sDis.cvy with st := .active, code := 20000 } }
/-- The 200 µs ahead at which changes are scheduled. -/
def T200 : Time := 3200000

abbrev polOk (w : Word) (u : State) : Prop :=
  u.haltedB = false ∧ w &&& ~~~0x07FFFFFF#32 = 0 ∧ u.present 0 = true ∧ (u.tile 0).st ≠ .fenced ∧ (u.tile 0).cause = 0 ∧
  fld w 21 5 + (u.chart 0).head.toNat ≤ fld w 16 5 ∧ fld w 16 5 ≤ classLim (u.clsOf 0) ∧ u.clsOf 0 ≠ 2 ∧ 2 ≤ fld w 16 5

/-- A plumb word with four plumbs enabled at threshold 40 and stretch 16; a steady tile's with one; a droop word. -/
def plW : Word := w32 (pack [(0, 6, 40), (6, 1, 1), (9, 5, 16), (16, 6, 40), (22, 1, 1), (25, 5, 16)])
def plS : Word := w32 (pack [(0, 6, 63), (6, 1, 1), (9, 5, 2), (16, 6, 40), (25, 5, 2)])
def drW : Word := w32 (pack [(0, 8, 8), (11, 9, 256), (20, 7, 85)])

theorem test_tile_policy_premises :
    Taken false sDis (rq [0, polW 20480, 0, 0, 0]) (fun u => polOk (polW 20480) u ∧
      fld (polW 20480) 0 16 = (u.expAt 0 (2 ^ 63 + 1) none []).code) ∧
    Taken false sMov (rq [0, polW 20480, 0, 0, 0]) (fun u => polOk (polW 20480) u ∧
      fld (polW 20480) 0 16 = (u.expAt 0 (2 ^ 63 + 1) none []).code ∧ (u.tile 0).sched ≠ []) ∧
    (∀ s, s = sDis ∨ s = sOwn → Taken false s (rq [0, polW 20000, 0, 3200000, 0]) (fun u => polOk (polW 20000) u ∧
      (rq [0, polW 20000, 0, 3200000, 0]).w64 4 = T200 ∧ fld (polW 20000) 0 16 ≠ (u.expAt 0 (u.key T200) none []).code ∧
      fld (polW 20000) 0 16 ≠ 0 ∧ u.inHorizon T200 = true ∧
      2 ^ 63 + leadOf (u.expAt 0 (u.key T200) none []) (.policy ((rq [0, polW 20000, 0, 3200000, 0]).w64 2)) ≤ u.key T200 ∧
      u.moveClash 0 T200 = false ∧ u.schedulable = true ∧
      u.codeErrs 0 (u.key T200) (u.expAt 0 (u.key T200) none []) (fld (polW 20000) 0 16) true (u.moveTimes 0 none) = [] ∧
      (u.ownsCode 0 = true → fld (polW 20000) 0 16 = u.cvy.code.toNat))) ∧
    (sOwn.tick 0).ownsCode 0 = true := by
  refine ⟨by decide +kernel, by decide +kernel, fun s h => ?_, by decide +kernel⟩
  rcases h with rfl | rfl <;> decide +kernel

theorem test_tile_word_premises :
    Taken false up (rq [0, plW, plW]) (fun u => u.haltedB = false ∧ plW &&& ~~~0x3FFF3FFF#32 = 0 ∧ u.present 0 = true ∧
      (u.tile 0).st ≠ .fenced ∧ (u.tile 0).cause = 0 ∧
      (∀ p < 4, plumbRsv ((rq [0, plW, plW]).w64 2) p = 0 ∧ 2 ≤ plumbStr ((rq [0, plW, plW]).w64 2) p ∧
        plumbStr ((rq [0, plW, plW]).w64 2) p ≤ 16) ∧ u.clsOf 0 ≠ 2 ∧
      2 ≤ ([0, 1, 2, 3].filter (fun p => plumbEn ((rq [0, plW, plW]).w64 2) p &&
        decide (plumbThr ((rq [0, plW, plW]).w64 2) p ≤ 40))).length) ∧
    Taken false up (rq [1, plS, plS]) (fun u => u.haltedB = false ∧ plS &&& ~~~0x3FFF3FFF#32 = 0 ∧ u.present 1 = true ∧
      (u.tile 1).st ≠ .fenced ∧ (u.tile 1).cause = 0 ∧
      (∀ p < 4, plumbRsv ((rq [1, plS, plS]).w64 2) p = 0 ∧ 2 ≤ plumbStr ((rq [1, plS, plS]).w64 2) p ∧
        plumbStr ((rq [1, plS, plS]).w64 2) p ≤ 16) ∧ u.clsOf 1 = 2 ∧ plumbEn ((rq [1, plS, plS]).w64 2) 0 = true) ∧
    Taken false up (rq [0, drW, 0]) (fun u => u.haltedB = false ∧ drW &&& ~~~0x07FFFFFF#32 = 0 ∧ u.present 0 = true ∧
      (u.tile 0).st ≠ .fenced ∧ (u.tile 0).cause = 0 ∧ fld drW 0 8 = 8 ∧ fld drW 11 9 = 256 ∧ fld drW 20 7 = 85) ∧
    Taken false up (rq [2]) (fun u => u.haltedB = false ∧ 2#32 &&& ~~~0xFF#32 = 0 ∧ u.present 2 = true ∧ u.steady 2 = false ∧
      (u.tile 2).st ≠ .fenced ∧ (u.tile 2).cause = 0) ∧
    Taken false up (rq [256]) (fun u => u.haltedB = false ∧ Sized u ∧ u.adaptive 0 = true ∧ u.service 2 = true) := by
  unfold Sized; decide +kernel

/-- Tile 0 in a state, at code 20,480. -/
def sSt (g : GenSt) : State := { upT (fun t => { t with code := 20480, runCode := 20480, st := g }) with
  boot := { up.boot with flowOnce := true } }
/-- A request for a state change of tile 0 at T200, and what every operation needs. -/
def stReq : Req := rq [0, 0, 3200000, 0]
abbrev stOk (u : State) (lead : Nat) : Prop :=
  u.haltedB = false ∧ stReq.w64 3 = T200 ∧ u.present 0 = true ∧ (u.tile 0).st ≠ .fenced ∧ (u.tile 0).cause = 0 ∧
  u.inHorizon T200 = true ∧ u.schedulable = true ∧ 2 ^ 63 + lead ≤ u.key T200

theorem test_tile_state_premises :
    Taken false (sSt .disabled) stReq (fun u => stOk u (leadOf (u.expAt 0 (u.key T200) none []) .enable) ∧ u.granted 0 = false ∧
      (u.expAt 0 (u.key T200) none []).st = .disabled ∧ (u.expAt 0 (u.key T200) none []).code ≠ 0 ∧ u.boot.flowOnce = true ∧
      u.safeFloor = false ∧ (u.rail (u.railOf 0)).active = true ∧ u.steady 0 = false) ∧
    Taken false (sSt .running) stReq (fun u => stOk u 1600) ∧
    Taken false (sSt .running) stReq (fun u => stOk u 1600 ∧ (u.expAt 0 (u.key T200) none []).st ≠ .disabled) ∧
    Taken false (sSt .gated) stReq (fun u => stOk u 1600 ∧ u.granted 0 = false ∧ (u.expAt 0 (u.key T200) none []).st = .gated ∧
      u.steady 0 = false) ∧
    Taken false (sSt .running) stReq (fun u => stOk u 1024000 ∧ (u.expAt 0 (u.key T200) none []).st ≠ .disabled ∧
      (u.tile 0).failA = false ∧ (u.tile 0).failB = false ∧ u.moveClash 0 T200 = false) := by decide +kernel

/-! ## O6 DomainsAndCapture, O7 ReckonerCommands, O8 ReckonerReads -/

theorem test_domain_premises :
    Taken false up (rq [191, 0, 0]) (fun u => u.haltedB = false ∧ 191#32 &&& ~~~0x1FF#32 = 0 ∧ (191#32).toNat % 256 < 192) ∧
    Taken false up (rq [191, 3200000, 0]) (fun u => u.haltedB = false ∧ 191#32 &&& ~~~0x1FF#32 = 0 ∧ (191#32).toNat % 256 < 192 ∧
      (rq [191, 3200000, 0]).w64 2 = T200 ∧ u.inHorizon T200 = true ∧ 2 ^ 63 + 1024000 ≤ u.key T200 ∧ u.schedulable = true) ∧
    Taken false up (rq [8, 0, 0]) (fun u => (8#32).toNat ≤ 8 ∧ (rq [8, 0, 0]).w64 2 = 0 ∧ u.keys.caps.length + u.capsHeld ≤ 3 ∧
      u.schedulable = true) ∧
    Taken false up (rq [0, 3200000, 0]) (fun u => (0#32).toNat ≤ 8 ∧ u.inHorizon ((rq [0, 3200000, 0]).w64 2) = true ∧
      u.keys.caps.length + u.capsHeld ≤ 3 ∧ u.schedulable = true) := by decide +kernel

theorem test_domain_off_premises : ∀ g ∈ [GenSt.running, .starting, .gated],
    0 ∈ (sSt g).domTiles 0 ∧ 0 < (sSt g).tiles.length ∧ ((sSt g).tile 0).st = g := by decide +kernel

/-- A class 0 of one layer for adaptive tiles. -/
def cls0 : Cls := {
  id := 0, kinds := 1, pwr := false, confirm := 0, keep := false, baseMac := 0, opMac := 0, stateB := 0, feat := 0, lastIn := 0,
  lastOut := 0, fprint := 0, layers := [], tensors := [{}, {}] }
/-- A map command that takes tile 0 out of the map, and one that assigns it to class 0. -/
def mapOff : Req := rq [0x100, 0]
def mapOn : Req := rq [0x100, 0x80]

theorem test_reckoner_premises :
    Taken false up (rq [3145728, 0xB]) (fun u => u.haltedB = false ∧ 0xB#32 &&& ~~~0xF#32 = 0 ∧ (3145728#32).toNat ≤ 3145728 ∧
      fld 0xB#32 0 3 = 3 ∧ u.rck.loading = false ∧ u.tests.grant = none ∧ u.boot.lockedOnce = true) ∧
    Taken false (upTst (fun t => { t with grant := some (Grant.mk 0 false false 5 0 0) })) (rq [1, 4]) (fun u => u.haltedB = false ∧
      4#32 &&& ~~~0xF#32 = 0 ∧ fld 4#32 0 3 = 4 ∧ u.rck.loading = false ∧ (∀ g ∈ u.tests.grant, g.rck = false ∧ g.trace = false) ∧
      u.boot.lockedOnce = true) ∧
    Taken false up (rq []) (fun u => u.haltedB = false ∧ u.rck.loading = false) ∧
    Taken false (upRck (fun r => { r with mode := .warmup })) (rq [3]) (fun u => u.haltedB = false ∧ u.rck.mode = .warmup) ∧
    Taken false (upRck (fun r => { r with mode := .warmup })) (rq [4]) (fun u => u.haltedB = false ∧ u.rck.mode = .warmup) ∧
    Taken false (upRck (fun r => { r with mode := .advisory })) (rq [3]) (fun u => u.haltedB = false ∧ u.rck.mode = .advisory) ∧
    Taken false (upRck (fun r => { r with mode := .advisory })) (rq [4]) (fun u => u.haltedB = false ∧ u.rck.mode = .advisory) ∧
    Taken false (upRck (fun r => { r with mode := .active })) (rq [3]) (fun u => u.haltedB = false ∧ u.rck.mode = .active) ∧
    Taken false (upRck (fun r => { r with mode := .active })) (rq [4]) (fun u => u.haltedB = false ∧ u.rck.mode = .active) ∧
    Taken false (upRck (fun r => { r with loading := true })) mapOff (fun u => u.haltedB = false ∧ mapLen mapOff = true ∧
      rsvWord 1 [0x3FFF] mapOff.args = none ∧ mapFormBad mapOff = none ∧ u.rck.loading = true) ∧
    Taken false (upRck (fun r => { r with classes := [cls0] })) mapOn (fun u => u.haltedB = false ∧ mapLen mapOn = true ∧
      rsvWord 1 [0x3FFF] mapOn.args = none ∧ mapFormBad mapOn = none ∧ u.rck.loading = false ∧ u.rckMapErrs mapOn = []) ∧
    Taken false (upRck (fun r => { r with mode := .active, classes := [cls0] })) (rq []) (fun u => u.haltedB = false ∧
      u.rck.mode = .active ∧ u.rck.classes = [cls0]) ∧
    Taken false up (rq [16]) (fun u => u.haltedB = false ∧ 8 ≤ (16#32).toNat ∧ (16#32).toNat ≤ 16) := by decide +kernel

theorem test_reckoner_read_premises :
    Taken false up (rq []) (fun _ => True) ∧ Taken false up (rq [0]) (fun _ => True) ∧
    Taken false (upRck (fun r => { r with snap := [[], []] })) (rq [1]) (fun u => u.rck.snap.length = 2) ∧
    Taken false (upRck (fun r => { r with classes := [cls0] })) (rq [0xFF00]) (fun u => 0xFF00#32 &&& ~~~0xFF0F#32 = 0 ∧
      u.cls (fld 0xFF00#32 0 4) = some cls0) ∧
    Taken false (upRck (fun r => { r with classes := [cls0] })) (rq [0x100]) (fun u => 0x100#32 &&& ~~~0x1FF#32 = 0 ∧
      u.cls (fld 0x100#32 0 4) = some cls0 ∧ 2 * fld 0x100#32 4 4 + fld 0x100#32 8 1 < cls0.tensors.length) := by decide +kernel

/-! ## O9 KeystoneCommands, O10 KeystoneReads -/

/-- An open keystone with its instant 200 µs ahead. -/
def open0 : Slot := { st := .opened, seq := 1, t := T200 }
/-- A host throttle rate of 256 · 3/4 as an action, and the command that stages it. -/
def actQ : BitVec 128 := BitVec.ofNat 128 (pack [(0, 4, 12), (64, 64, 192)])
def stageQ : Req := rq [4, 12, 0, 192, 0]
/-- A committed keystone's record. -/
def res1 : KsRes := { seq := 1, slot := 0, st := .committed, cause := 0, convoy := false, nAct := 0, t := T200 }

theorem test_keystone_premises :
    Taken false up (rq [3200000, 0]) (fun u => u.haltedB = false ∧ u.inHorizon ((rq [3200000, 0]).w64 1) = true ∧
      2 ^ 63 + 32000 ≤ u.key ((rq [3200000, 0]).w64 1) ∧ u.schedulable = true ∧ (u.slot 0).st = .free) ∧
    Taken false (upKs open0) (rq [3200000, 0]) (fun u => u.haltedB = false ∧ u.inHorizon ((rq [3200000, 0]).w64 1) = true ∧
      2 ^ 63 + 32000 ≤ u.key ((rq [3200000, 0]).w64 1) ∧ u.schedulable = true ∧ (u.slot 1).st = .free ∧ ∀ j < 1, (u.slot j).st ≠ .free) ∧
    Taken false (upKs open0) stageQ (fun u => u.haltedB = false ∧ reqActs stageQ = [actQ] ∧ 4#32 &&& ~~~0xF#32 = 0 ∧ fld 4#32 0 2 = 0 ∧
      fld 4#32 2 2 = 1 ∧ (u.slot 0).acts.length + 1 ≤ 512 ∧ (u.slot 0).st = .opened ∧ (u.slot 0).sealing = false ∧
      u.firstFail (2 ^ 63) 0 (u.key (u.slot 0).t) false 0 (u.slot 0).acts (reqActs stageQ) = none) ∧
    Taken false (upKs open0) (rq [0]) (fun u => u.haltedB = false ∧ 0#32 &&& ~~~3#32 = 0 ∧ (u.slot 0).st = .opened ∧
      (u.slot 0).sealing = false ∧ (u.slot 0).acts = []) ∧
    Taken false (upKs { open0 with acts := [actQ] }) (rq [0]) (fun u => u.haltedB = false ∧ (u.slot 0).st = .opened ∧
      (u.slot 0).sealing = false ∧ (u.slot 0).acts ≠ [] ∧ (u.slot 0).acked = true) ∧
    Taken false (upKs { open0 with acts := [actQ], acked := false }) (rq [0]) (fun u => u.haltedB = false ∧ (u.slot 0).st = .opened ∧
      (u.slot 0).sealing = false ∧ (u.slot 0).acts ≠ [] ∧ (u.slot 0).acked = false) ∧
    Taken false (upKs { open0 with st := .sealed }) (rq [0]) (fun u => u.haltedB = false ∧ (u.slot 0).st = .sealed) := by decide +kernel

theorem test_keystone_read_premises :
    Taken false { up with keys := { up.keys with results := [res1] } } (rq [1]) (fun u => (1 : Word) ≠ 0 ∧
      u.keys.results.find? (fun r => r.seq == 1) = some res1 ∧ ∀ k < 4, (u.slot k).seq = 1 → (u.slot k).st ≠ .opened ∧ (u.slot k).st ≠ .sealed) ∧
    Taken false (upKs open0) (rq [1]) (fun u => (u.slot 0).seq = 1 ∧ (u.slot 0).st = .opened) ∧
    Taken false up (rq []) (fun _ => True) := by decide +kernel

/-! ## O11 SextantSetup, O12 SextantReads, O13 LodestarCommands -/

/-- A setup of two pins, not armed; one of the clocks of tiles 0 and 2, armed for a window; and the request of a setup. -/
def sxPins : BitVec 64 := BitVec.ofNat 64 (pack [(0, 12, 0), (12, 12, 1)])
def sxWin : BitVec 64 := BitVec.ofNat 64 (pack [(0, 12, 0x100), (12, 12, 0x102), (24, 2, 1), (26, 2, 1), (29, 2, 2)])
def sxQ (w : BitVec 64) (T : Time) (n : Word) : Req := rq (59 :: wordsOf 2 w.toNat ++ wordsOf 2 T.toNat ++ [n])
/-- What a setup of channel 59 needs in a state. -/
abbrev sxOk (w : BitVec 64) (T : Time) (len : Word) (u : State) : Prop :=
  u.haltedB = false ∧ 59#32 &&& ~~~0x3F#32 = 0 ∧ (sxQ w T len).args.length = 6 ∧ (sxQ w T len).w64 2 = w ∧ (sxQ w T len).w64 4 = T ∧
  (sxQ w T len).w 6 = len ∧ ((u.chan 59).owner = .none ∨ (u.chan 59).owner = .host) ∧ (u.chan 59).failed = false ∧ fld w 44 20 = 0 ∧
  sxArm w ≠ 3 ∧ (∀ c ∈ [sxStart w, sxStop w], u.srcOk 59 c (sxArm w) = true ∧ ∀ i ∈ srcTile c, (u.tile i).st ≠ .fenced) ∧
  edgeOk (sxStart w) (sxStartEdge w) = true ∧ edgeOk (sxStop w) (sxStopEdge w) = true ∧ (∀ g ∈ srcGroups w, u.groupSources 59 w g ≤ 8) ∧
  (sxArm w ≠ 2 → T = 0 ∧ len = 0) ∧ u.boot.lockedOnce = true ∧
  (sxArm w = 2 → u.inHorizon T = true ∧ 32 ≤ len.toNat ∧ u.schedulable = true)

theorem test_sextant_setup_premises :
    Taken false up (sxQ sxPins 0 0) (fun u => sxOk sxPins 0 0 u ∧ (u.chan 59).armed = false ∧ (u.chan 59).caling = false ∧
      (u.chan 59).waits = [] ∧ u.xingOk 16 = true) ∧
    Taken false (up.modXing 16 0 (fun c => { c with stale := true })) (sxQ sxPins 0 0) (fun u => sxOk sxPins 0 0 u ∧ u.xingOk 16 = false) ∧
    Taken false up (sxQ sxWin T200 32) (fun u => sxOk sxWin T200 32 u ∧ (u.chan 59).armed = false ∧ (u.chan 59).caling = false ∧
      (u.chan 59).waits = []) ∧
    Taken false (upCh (fun c => { c with armed := true, owner := .host })) (sxQ sxWin T200 32) (fun u => sxOk sxWin T200 32 u ∧
      (u.chan 59).armed = true) ∧
    Taken false (upCh (fun c => { c with caling := true })) (sxQ sxPins 0 0) (fun u => sxOk sxPins 0 0 u ∧ (u.chan 59).caling = true) ∧
    Taken false (upCh (fun c => { c with armed := true, owner := .host })) (rq [59]) (fun u => u.haltedB = false ∧ (u.chan 59).owner = .host) ∧
    Taken false (upCh (fun c => { c with owner := .host })) (rq [59]) (fun u => u.haltedB = false ∧ (u.chan 59).owner = .host ∧
      (u.chan 59).armed = false) := by
  refine ⟨?_, ?_, ?_, ?_, ?_, ?_, ?_⟩ <;> decide +kernel

theorem test_sextant_read_premises :
    Taken false (upCh (fun c => { c with owner := .host })) (rq [59]) (fun u => fld 59#32 0 6 = 59 ∧ (u.chan 59).owner = .host ∧
      59#32 &&& ~~~0x3F#32 = 0) ∧
    Taken false (upCh (fun c => { c with owner := .host })) (rq [0x13B]) (fun u => fld 0x13B#32 0 6 = 59 ∧ (u.chan 59).owner = .host ∧
      0x13B#32 &&& ~~~0x13F#32 = 0) ∧
    Taken false { upCh (fun c => { c with owner := .host }) with sxt := { (upCh (fun c => { c with owner := .host })).sxt with
        buffer := [BitVec.ofNat 128 (59 * 2 ^ 67)] } } (rq [59]) (fun u => (u.chan 59).owner = .host ∧
      u.sxt.buffer.filter (fun r => fld r 67 6 == 59) ≠ []) := by decide +kernel

/-- An attested operator session 1, and a request in its messages. -/
def opSess : State := { upSxt (fun x => { x with enabled := true }) with
  trust := { up.trust with sess := up.trust.sess.set 1 (some { operator := true, half := false, lastAt := 0 }) } }
def opReq (w : Word) : Req := { rq [w] with sess := 1 }

theorem test_lodestar_premises :
    Taken false { upSxt (fun x => { x with enabled := false }) with boot := { up.boot with uptime := 160000000 } } (rq [])
      (fun u => u.haltedB = false ∧ u.sxt.enabled = false ∧ u.boot.xoGoodAt + 160000000 ≤ u.boot.uptime) ∧
    Taken false opSess { opReq 50 with sess := 0 } (fun u => (opReq 50).sess ≠ 0 ∧ u.isOperator (opReq 50).sess = true ∧
      50#32 &&& ~~~0xFFFF#32 = 0 ∧ u.haltedB = false ∧ u.sxt.enabled = true ∧ u.sxt.age.toNat ≠ (50#32).toNat ∧ 50 ≤ (50#32).toNat) ∧
    Taken false opSess { opReq 0 with sess := 0 } (fun u => (opReq 0).sess ≠ 0 ∧ u.isOperator (opReq 0).sess = true ∧
      u.haltedB = false ∧ u.sxt.enabled = true ∧ u.sxt.age.toNat = (0#32).toNat) := by decide +kernel

/-! ## O14 RailCommands, O15 PowerReads, O16 ConvoyCommands, O17 LogCommands -/

/-- A map word of rail 1 at 750 mV, and rail 1 mapped with it. -/
def mapW : Word := w32 (pack [(0, 1, 1), (20, 12, 750)])
def mapped : State := up.modRail 1 (fun x => { x with map := BitVec.ofNat 64 mapW.toNat })

theorem test_rail_premises :
    Taken false up (rq [1, mapW, 0]) (fun u => u.haltedB = false ∧ 1#32 &&& ~~~7#32 = 0 ∧ mapW &&& ~~~0xFFF7FFFF#32 = 0 ∧
      rmPresent ((rq [1, mapW, 0]).w64 2) = true ∧ rmILsb ((rq [1, mapW, 0]).w64 2) ≠ 7 ∧ rmVInit ((rq [1, mapW, 0]).w64 2) = 750 ∧
      u.power.mapLock = false) ∧
    Taken false up (rq [7, 0, 0]) (fun u => u.haltedB = false ∧ rmPresent ((rq [7, 0, 0]).w64 2) = false ∧
      (∀ i < 256, u.present i = true → u.railOf i ≠ 7) ∧ u.power.mapLock = false) ∧
    Taken false mapped (rq [1]) (fun u => u.haltedB = false ∧ 1#32 &&& ~~~7#32 = 0 ∧ (u.rail 1).acting = none ∧ u.boot.lockedOnce = true ∧
      rmPresent (u.rail 1).map = true ∧ (u.rail 1).active = false ∧ rmVInit (u.rail 1).map ≤ u.railMax 1 ∧ u.power.pmbFail ≤ 2) ∧
    Taken false (up.modRail 1 (fun x => { x with acting := some 3 })) (rq [1]) (fun u => u.haltedB = false ∧ (u.rail 1).acting ≠ none) ∧
    Taken false up (rq [0, 10000]) (fun u => u.haltedB = false ∧ 0#32 &&& ~~~3#32 = 0 ∧ (10000#32).toNat ≤ u.ceiling 0) ∧
    Taken false up (rq [1, 10000]) (fun u => u.haltedB = false ∧ 1#32 &&& ~~~3#32 = 0 ∧ (10000#32).toNat ≤ u.ceiling 1 ∧
      (10000#32).toNat ≤ (u.power.limits.getD 0 0).toNat) ∧
    Taken false up (rq [w32 (5 + 64 * 80)]) (fun u => u.haltedB = false ∧ cfgEst (w32 (5 + 64 * 80)) = 5 ∧ cfgTel (w32 (5 + 64 * 80)) = 80 ∧
      w32 (5 + 64 * 80) &&& ~~~0x3FFF#32 = 0) := by decide +kernel

theorem test_power_read_premises :
    Taken false up mapOn (fun u => u.haltedB = false ∧ mapLen mapOn = true ∧ rsvWord 1 [0x3FFF] mapOn.args = none ∧ mapFormBad mapOn = none ∧
      ∀ p ∈ enumFrom' (mapFirst mapOn) (mapEntries mapOn), bit p.2 7 = true → u.present p.1 = true) ∧
    Taken false up (rq [15]) (fun _ => (15#32).toNat < 16) ∧ Taken false up (rq [25]) (fun _ => 16 ≤ (25#32).toNat ∧ (25#32).toNat ≤ 25) ∧
    Taken false up (rq [0]) (fun _ => True) ∧
    Taken false (upPow (fun p => { p with snapRea := [[], []] })) (rq [1]) (fun u => u.power.snapRea.length = 2) ∧
    Taken false (upPow (fun p => { p with snapPow := List.replicate 6 [] })) (rq [5]) (fun u => u.power.snapPow.length = 6) ∧
    Taken false up (rq [3200000, 0]) (fun u => u.inHorizon ((rq [3200000, 0]).w64 1) = true ∧ u.keys.caps.length + u.capsHeld ≤ 3 ∧
      u.schedulable = true) ∧
    Taken false up (rq []) (fun _ => True) := by decide +kernel

/-- `up` ready to join: the epoch set, the coolant good; and a member in a state, as pilot of convoy 9, tile 0 disabled at its code. -/
def free0 : State := { upMer (fun m => { m with epochSet := true }) with boot := { up.boot with cool := .good } }
def memb (st : CvySt) : State := { upT (fun t => { t with code := 20480, st := .disabled }) with
  cvy := { up.cvy with st := st, join := BitVec.ofNat 64 (pack [(0, 16, 9), (32, 16, 1), (48, 4, 1)]), code := 20480 } }
/-- A join of convoy 9 as member 1 of two, lead 10, at code 40,960 for 200 µs; a move to code 20,000, not exact and exact. -/
def joinQ : Req := rq [0x00010009, 0x000A0001, 40960, 3200000, 0]
def moveQ : Req := rq [20000, 4800000, 0]
def moveX : Req := rq [0x14E20, 4800000, 0]

theorem test_convoy_premises :
    Taken false free0 joinQ (fun u => u.haltedB = false ∧ 0x000A0001#32 &&& ~~~0x003FFFFF#32 = 0 ∧ 40960#32 &&& ~~~0xFFFF#32 = 0 ∧
      joinId (joinQ.w64 1) = 9 ∧ joinMember (joinQ.w64 1) ≤ joinN1 (joinQ.w64 1) ∧ joinLead (joinQ.w64 1) = 10 ∧
      (40960#32).toNat ≤ (u.trust.charts.getD 0 {}).maxCode.toNat ∧ u.inHorizon (joinQ.w64 4) = true ∧ u.mer.st = .locked ∧
      u.mer.epochSet = true ∧ u.member = false ∧ u.boot.cool = .good) ∧
    (∀ st, st = .active ∨ st = .suspended ∨ st = .joining → Taken false (memb st) (rq [3200000, 0]) (fun u => u.haltedB = false ∧
      u.inHorizon ((rq [3200000, 0]).w64 1) = true ∧ 2 ^ 63 + 32000 ≤ u.key ((rq [3200000, 0]).w64 1) ∧ u.cvy.leaveAt = none ∧
      u.schedulable = true ∧ u.cvy.st = st)) ∧
    (∀ q, q = moveQ ∨ q = moveX → Taken false (memb .active) q (fun u => u.haltedB = false ∧ q.w 1 &&& ~~~0x1FFFF#32 = 0 ∧
      fld (q.w 1) 0 16 = 20000 ∧ u.inHorizon (q.w64 2) = true ∧ (bit (q.w 1) 16 = true → u.moveInst (q.w64 2) = q.w64 2) ∧
      u.cvy.st = .active ∧ joinMember u.cvy.join = 0 ∧ u.schedulable = true ∧ (u.slot 3).st = .free ∧ u.cvy.queued = none ∧
      u.convoyRefusal 3 (u.moveInst (q.w64 2)) 20000 false = none)) ∧ bit (moveX.w 1) 16 = true ∧
    Taken false up (rq []) (fun _ => True) ∧ Taken false up (rq [0]) (fun _ => True) ∧
    Taken false { up with cvy := { up.cvy with snap := [[], []] } } (rq [1]) (fun u => u.cvy.snap.length = 2) := by
  refine ⟨by decide +kernel, fun st h => ?_, fun q h => ?_, by decide +kernel⟩
  · rcases h with rfl | rfl | rfl <;> decide +kernel
  · rcases h with rfl | rfl <;> decide +kernel

theorem test_log_premises :
    Taken false up (rq [0x400, 255]) (fun u => u.haltedB = false ∧ 255#32 &&& ~~~0xFF#32 = 0 ∧ 255#32 ≠ 0 ∧ bit 0x400#32 10 = true) ∧
    Taken false up (rq [0xFFFFFBFF, 1]) (fun u => u.haltedB = false ∧ 1#32 &&& ~~~0xFF#32 = 0 ∧ bit 0xFFFFFBFF#32 10 = false) ∧
    Taken false up (rq [255, 3200000, 0]) (fun u => u.haltedB = false ∧ u.tests.grant = none ∧ 255#32 &&& ~~~0xFF#32 = 0 ∧
      u.inHorizon ((rq [255, 3200000, 0]).w64 2) = true ∧ u.log.armed = false ∧ u.log.runs = false ∧ u.schedulable = true) ∧
    Taken false up (rq []) (fun u => u.haltedB = false ∧ u.tests.grant = none) ∧
    (∀ w : Word, w = 0 ∨ w = 64 → Taken false (upLog (fun l => { l with held := 128 })) (rq [64, w]) (fun u => u.haltedB = false ∧
      u.tests.grant = none ∧ (64#32).toNat % 64 = 0 ∧ w.toNat % 64 = 0 ∧ (64#32).toNat + w.toNat ≤ u.log.held ∧ u.log.runs = false ∧
      (64#32).toNat + w.toNat ≤ u.traceCap)) := by
  refine ⟨by decide +kernel, by decide +kernel, by decide +kernel, by decide +kernel, fun w h => ?_⟩
  rcases h with rfl | rfl <;> decide +kernel

/-! ## O18 TestCommands, O19 FaultCommands, O20 SpdmVersion -/

/-- Tile 0 running with two plumbs enabled, both at threshold 40, or one alone, its standby in a state. -/
def trim (w : BitVec 64) (y : StbySt) : State := upT (fun t => { t with st := .running, plumbW := w, stby := y })
def oneP : BitVec 64 := BitVec.ofNat 64 (pack [(0, 6, 40), (6, 1, 1)])
def twoP : BitVec 64 := BitVec.ofNat 64 (pack [(0, 6, 40), (6, 1, 1), (16, 6, 40), (22, 1, 1)])
/-- A deferred test of the Reckoner, and a grant that covers it. -/
def test1 : Test := { handle := 5, id := 0x10, target := 0, res := 0, detail := 0 }
def grant1 : Grant := Grant.mk 0 true false 16000000 0 0
/-- What a grant needs. -/
abbrev quiets (a b : Word) (u : State) : Prop :=
  u.haltedB = false ∧ a &&& ~~~0x3FF#32 = 0 ∧ 1 ≤ b.toNat ∧ b.toNat ≤ 1000 ∧ u.tests.grant = none ∧ u.quiesceTile (fld a 0 8) = none ∧
  (bit a 8 = true → u.rck.mode = .off ∧ u.rck.loading = false) ∧ (bit a 9 = true → u.traceBusy = false)

theorem test_cal_premises :
    Taken false up (rq [59]) (fun u => u.haltedB = false ∧ 59#32 &&& ~~~0x3F#32 = 0 ∧ (u.chan 59).armed = false ∧
      (u.chan 59).caling = false ∧ (u.chan 59).owner = .none) ∧
    Taken false (trim twoP .warm) (rq [0]) (fun u => u.haltedB = false ∧ u.present 0 = true ∧ (u.tile 0).st ≠ .fenced ∧ (u.tile 0).cause = 0 ∧
      ∀ p < 4, plumbEn (u.tile 0).plumbW p = true → u.trimOk 0 p = true) ∧
    Taken false (trim oneP .warm) (rq [0]) (fun u => u.haltedB = false ∧ u.present 0 = true ∧ (u.tile 0).st ≠ .fenced ∧ (u.tile 0).cause = 0 ∧
      plumbEn (u.tile 0).plumbW 0 = true ∧ u.trimOk 0 0 = false) := by decide +kernel

theorem test_test_premises :
    Taken false up (rq [1, 0]) (fun u => u.haltedB = false ∧ 1#32 &&& ~~~0xFF#32 = 0 ∧ testBad u (rq [1, 0]) = none ∧
      u.testBusy 1 0 = false) ∧
    Taken false (trim oneP .warm) (rq [2, 0]) (fun u => u.haltedB = false ∧ testBad u (rq [2, 0]) = none ∧ u.stbyReady 0 = true ∧
      (u.tile 0).stby = .warm) ∧
    Taken false (upRck (fun r => { r with mode := .active })) (rq [0x10, 0]) (fun u => u.haltedB = false ∧ 0x10#32 &&& ~~~0xFF#32 = 0 ∧
      testBad u (rq [0x10, 0]) = none ∧ u.testBusy 0x10 0 = true) ∧
    Taken false (trim oneP .testing) (rq [2, 0]) (fun u => u.haltedB = false ∧ testBad u (rq [2, 0]) = none ∧ u.testBusy 2 0 = true ∧
      u.stbyReady 0 = true) ∧
    Taken false (upTst (fun x => { x with list := [test1] })) (rq [0x100, 1]) (fun u => quiets 0x100 1 u ∧ u.tests.list = [test1] ∧
      test1.res = 0 ∧ (Grant.mk (BitVec.ofNat 8 (fld 0x100#32 0 8)) (bit 0x100#32 8) (bit 0x100#32 9) (u.boot.uptime + 16000000) 0 0).covers
        test1 = true) ∧
    Taken false up (rq [0x3FF, 1000]) (fun u => quiets 0x3FF 1000 u ∧ u.tests.list = []) ∧
    Taken false (upTst (fun x => { x with list := [test1] })) (rq [5]) (fun u => 5#32 &&& ~~~0xFFFF#32 = 0 ∧
      u.tests.list.find? (fun x => x.handle == BitVec.ofNat 16 (5#32).toNat) = some test1) ∧
    Taken false up (rq [0x20, 1]) (fun u => u.haltedB = false ∧ 0x20#32 &&& ~~~0xFF#32 = 0 ∧ fld 0x20#32 0 4 = 0 ∧ fld 0x20#32 4 4 = 2 ∧
      2 ≤ ifDepth 0 ∧ u.ifBusy 0 = false) ∧
    Taken false up (rq [0x06, 1]) (fun u => fld 0x06#32 0 4 = 6 ∧ fld 0x06#32 4 4 ≤ ifDepth 6 ∧ u.ifBusy 6 = false) := by
  refine ⟨?_, ?_, ?_, ?_, ?_, ?_, ?_, ?_, ?_⟩ <;> decide +kernel

/-- Tile 0 fenced, its trial passed by oscillator A. -/
def fenced0 : State := upT (fun t => { t with st := .fenced, cause := 1, trialRun := true, trialA := true })

theorem test_fault_premises :
    Taken false up (rq [0]) (fun u => u.haltedB = false ∧ 0#32 &&& ~~~0xFF#32 = 0 ∧ u.present 0 = true ∧ (u.tile 0).st ≠ .fenced ∧
      (u.tile 0).st ≠ .halted ∧ 0 < u.tiles.length) ∧
    Taken false fenced0 (rq [0]) (fun u => u.haltedB = false ∧ u.present 0 = true ∧ (u.tile 0).st = .fenced ∧ (u.tile 0).trialRun = true ∧
      (u.tile 0).trialA = true ∧ 0 < u.tiles.length) ∧
    Taken false up (rq []) (fun _ => True) ∧ Taken false up (rq [3]) (fun _ => True) ∧
    Taken false up (rq [0x217]) (fun u => 0x217#32 &&& ~~~0xFF1F#32 = 0 ∧ fld 0x217#32 0 5 = 23 ∧ u.present (fld 0x217#32 8 8) = true) ∧
    Taken false up (rq [0x16]) (fun _ => 0x16#32 &&& ~~~0xFF1F#32 = 0 ∧ fld 0x16#32 0 5 = 22) := by decide +kernel

theorem test_spdm_premises : Taken true rom (rq [4, 0x00008410]) (fun _ => True) ∧ Taken true up (rq [4, 0x00008410]) (fun _ => True) := by
  decide +kernel

/-! ## O21 ControlPort, O22 Doorbell, O23 Intake -/

theorem test_port_premises :
    Live up (fun u => u.portUp = true ∧ (∀ x < 6, (u.xings.main.getD x {}).stale = false) ∧ bit u.boot.clkStopped 4 = false ∧
      u.helm.stage = .run ∧ u.mbxs.length = 8 ∧ 0x380#14 ∉ [0x040#14, 0x043#14, 0x080#14] ∧
      0x101#14 ∉ [0x300#14, 0x301#14, 0x302#14, 0x381#14, 0x382#14, 0x3C0#14]) ∧
    Live { up with ctl := { up.ctl with helmLeft := 2 } } (fun u => u.portUp = true ∧ (u.xings.main.getD 4 {}).stale = false ∧
      bit u.boot.clkStopped 4 = false ∧ 2 ≤ u.ctl.helmLeft) ∧
    Live (up.modMbx 2 (fun m => { m with held := .accepted })) (fun u => u.portUp = true ∧ u.helm.stage = .run ∧ u.mbxs.length = 8 ∧
      (u.mbx 2).held = .accepted) := by decide +kernel

/-- Mailbox 2 holding a command, its entry queued. -/
def inMb (w : Word) (h : MbxSt) : State :=
  (upHelm (fun x => { x with queue := [2] })).modMbx 2 (fun m => { m with cmd := [w], held := h, st := h })

theorem test_doorbell_premises :
    Live up (fun u => u.portUp = true ∧ (∀ x < 2, (u.xings.main.getD x {}).stale = false) ∧ (u.mbx 2).inHand = false ∧ u.helm.stage = .run ∧
      u.helm.open_ = true ∧ u.helm.queue.length ≤ 3) ∧
    Live (upHelm (fun h => { h with queue := [0, 1, 3, 4] })) (fun u => u.portUp = true ∧ (∀ x < 2, (u.xings.main.getD x {}).stale = false) ∧
      (u.mbx 2).inHand = false ∧ u.helm.stage = .run ∧ u.helm.open_ = true ∧ 4 ≤ u.helm.queue.length) ∧
    Live (upHelm (fun h => { h with open_ := false })) (fun u => u.portUp = true ∧ (∀ x < 2, (u.xings.main.getD x {}).stale = false) ∧
      (u.mbx 2).inHand = false ∧ u.helm.stage = .run ∧ u.helm.open_ = false) ∧
    Live (upHelm (fun h => { h with stage := .check })) (fun u => u.portUp = true ∧ (∀ x < 2, (u.xings.main.getD x {}).stale = false) ∧
      (u.mbx 2).inHand = false ∧ u.helm.stage ≠ .run ∧ u.helm.stage ≠ .rom) ∧
    Live (inMb 0 .accepted) (fun u => u.portUp = true ∧ (u.mbx 2).inHand = true) := by decide +kernel

theorem test_intake_premises :
    Live (inMb 0x01 .posted) (fun u => u.helm.stage = .run ∧ u.helm.open_ = true ∧ u.helm.queue = [2] ∧ (u.mbx 2).held = .posted ∧
      ∃ c ∈ cmdSpdm :: baseCmds, (u.mbx 2).op = c.op) ∧
    Live (inMb 0xFF .posted) (fun u => u.helm.stage = .run ∧ u.helm.open_ = true ∧ u.helm.queue = [2] ∧ (u.mbx 2).held = .posted ∧
      ∀ c ∈ cmdSpdm :: baseCmds, (u.mbx 2).op ≠ c.op) ∧
    Live { up with ctl := { up.ctl with sync := false } } (fun u => u.helm.stage = .run ∧ u.ctlUp = true ∧ u.ctl.sync = false ∧
      u.mbxs.length = 8) ∧
    Live (up.modMbx 2 (fun m => { m with held := .accepted, final := some (okR []) })) (fun u => (u.mbx 2).held = .accepted ∧
      (u.mbx 2).final = some (okR [])) := by decide +kernel

/-! ## O24 BlockResets, O25 Supplies, O26 PortResets, O27 HelmStages -/

/-- `up` held in reset, with `thr_req_n` high or low. -/
def held (low : Bool) : State := upBoot (fun b => { b with inReset := true, thrPin := low })

theorem test_reset_premises :
    ((held false).boot.inReset = true ∧ ((held false).tick 0).boot.thrPin = false) ∧
    ((held true).boot.inReset = true ∧ ((held true).tick 0).boot.thrPin = true) ∧
    Live State.reset (fun u => u.helm.stage = .reset ∧ u.sxt.ageChk = 0) ∧
    Live { State.reset with sxt := { State.reset.sxt with ageChk := 1 } } (fun u => u.helm.stage = .reset ∧ u.sxt.ageChk ≠ 0) := by
  decide +kernel

theorem test_supply_premises :
    Live up (fun u => u.boot.vddbDip = false ∧ (3 : BitVec 16) ∉ u.boot.vanaLow) ∧
    Live (upBoot (fun b => { b with vddbDip := true, vanaLow := [3] })) (fun u => u.boot.vddbDip = true ∧ (3 : BitVec 16) ∈ u.boot.vanaLow) ∧
    (held false).boot.inReset = true := by decide +kernel

theorem test_port_reset_premises :
    Live up (fun u => 22 < u.xings.main.length ∧ ∀ p ∈ [Port.ctl, .log, .man, .cvy], u.portHeld p = false ∧ bit u.boot.clkRun (portIdx p) = true) ∧
    Live { upBoot (fun b => { b with clkRun := 0xF0 }) with ctl := { up.ctl with rst := true, logRst := true, manRst := true, cvyRst := true, rel := 15 } }
      (fun u => ∀ p ∈ [Port.ctl, .log, .man, .cvy], u.portHeld p = true ∧ bit u.boot.clkRun (portIdx p) = false ∧
        bit u.ctl.rel (portIdx p) = true) ∧ domIdx .cvy = portIdx .cvy ∧ domIdx .ctl = portIdx .ctl ∧
    Live { up with ctl := { up.ctl with rst := true, logRst := true, manRst := true, cvyRst := true } } (fun u => u.ctl.rst = true ∧
      u.ctl.logRst = true ∧ u.ctl.manRst = true ∧ u.ctl.cvyRst = true ∧ 13 < u.xings.main.length) ∧
    (held false).boot.inReset = true := by decide +kernel

theorem test_stage_premises :
    Live (upHelm (fun h => { h with stage := .check })) (fun u => u.helm.stage = .check) ∧
    Live (up.modMbx 2 (fun m => { m with held := .posted })) (fun u => u.helm.stage = .run ∧ u.mbxs.length = 8 ∧ (u.mbx 2).held = .posted) ∧
    Live (upHelm (fun h => { h with stage := .restart, codeBad := true })) (fun u => u.helm.stage = .restart ∧ u.helm.codeBad = true) ∧
    Live { upHelm (fun h => { h with svn := 1 }) with boot := { up.boot with uptime := 960000000000 } } (fun u => u.helm.stage = .run ∧
      u.trust.arbCount < u.helm.svn ∧ u.helm.runAt + 960000000000 ≤ u.boot.uptime ∧ u.boot.vddbDip = false ∧ u.boot.vddbCnt = 0) ∧
    Live { opSess with boot := { opSess.boot with uptime := 480000000000 } } (fun u =>
      u.trust.sess.getD 1 none = some { operator := true, half := false, lastAt := 0 } ∧ 0 + 480000000000 ≤ u.boot.uptime ∧
      u.sxt.chans.length = 64 ∧ ∀ k < 64, (u.chan k).owner ≠ .session 1) := by decide +kernel

/-! ## O28 MeridianClock, O29 LodestarEvents -/

theorem test_meridian_premises :
    Live State.reset (fun u => u.boot.refOk = false ∧ u.mer.st = .unlocked) ∧
    Live (upMer (fun m => { m with st := .holdover })) (fun u => u.boot.refOk = false ∧ u.mer.st = .holdover) ∧
    Live { upMer (fun m => { m with st := .acquiring, plls := false }) with boot := { up.boot with refOk := true } } (fun u =>
      u.boot.refOk = true ∧ u.mer.plls = false ∧ u.mer.st = .acquiring) ∧
    Live up (fun u => bit u.boot.clkRun 4 = true ∧ u.boot.bootCal = false ∧ u.present (255 : BitVec 8).toNat = false ∧
      u.present (0 : BitVec 8).toNat = true ∧ (u.tile 0).st = .disabled ∧ 0 < u.tiles.length) ∧
    Live (upMer (fun m => { m with st := .acquiring, running := false })) (fun u => u.mer.st = .acquiring ∧ u.mer.running = false ∧
      u.mer.plls = true ∧ u.mer.aligned = 0) ∧
    Live (upMer (fun m => { m with st := .acquiring, running := false, aligned := 1 })) (fun u => u.mer.st = .acquiring ∧
      u.mer.running = false ∧ u.mer.plls = true ∧ 1 ≤ u.mer.aligned) ∧
    Live up (fun u => u.mer.st = .locked ∧ u.mer.running = true ∧ u.mer.epochPend = none ∧
      ∀ d ∈ [((0 : BitVec 8), (32 : Int)), (1, -32)], -32 ≤ d.2 ∧ d.2 ≤ 32) := by decide +kernel

theorem test_slew_premises :
    Live (upMer (fun m => { m with st := .slewing, offset := 18, frac := 1, slewMt := 160000 })) (fun u => u.mer.st = .slewing ∧
      160000 ≤ u.mer.slewMt ∧ 17 < u.mer.offset ∧ 0 < u.mer.frac) ∧
    Live (upMer (fun m => { m with st := .slewing, offset := -18, slewMt := 160000 })) (fun u => u.mer.st = .slewing ∧
      160000 ≤ u.mer.slewMt ∧ u.mer.offset < -17) ∧
    Live (upMer (fun m => { m with st := .slewing, offset := -1, slewMt := 160000 })) (fun u => u.mer.st = .slewing ∧
      160000 ≤ u.mer.slewMt ∧ u.mer.offset = -1) ∧
    Live (upMer (fun m => { m with st := .slewing, offset := 18, slewMt := 159999 })) (fun u => u.mer.st = .slewing ∧
      u.mer.slewMt < 160000) := by decide +kernel

/-- The lodestar measuring, 1,000 pulses past its last check. -/
def lode (f : Sxt → Sxt) : State := upSxt (fun x => f { x with enabled := true, locked := true, pulses := some 1000 })
/-- The offset of a check over `delta`. -/
def offOf (delta : Nat) : Int := ((128000000000 - (delta : Int)) * 1000000000).tdiv delta
abbrev checks (u : State) (delta : Nat) : Prop :=
  u.sxt.enabled = true ∧ u.sxt.locked = true ∧ u.mer.st = .locked ∧ 0 < delta ∧ u.checkDue = true ∧ (offOf delta).natAbs ≤ 120000

theorem test_check_due_premises :
    Live (lode id) (fun u => checks u 128000000000 ∧ u.sxt.base = none ∧ u.sxt.offsets.length < 15) ∧
    Live (lode (fun x => { x with offsets := List.replicate 15 0 })) (fun u => checks u 128000128000 ∧ u.sxt.base = none ∧
      u.sxt.offsets.length = 15) ∧
    Live (lode (fun x => { x with base := some 0 })) (fun u => checks u 128000000000 ∧ u.sxt.base = some 0 ∧
      (offOf 128000000000 - 0).natAbs ≤ u.sxt.thr) ∧
    Live (lode (fun x => { x with base := some 120000, dev := 1 })) (fun u => checks u 128000128000 ∧ u.sxt.base = some 120000 ∧
      u.sxt.thr < (offOf 128000128000 - 120000).natAbs ∧ u.sxt.dev < 2) ∧
    Live (lode (fun x => { x with base := some 120000, dev := 2 })) (fun u => checks u 128000128000 ∧ u.sxt.base = some 120000 ∧
      u.sxt.thr < (offOf 128000128000 - 120000).natAbs ∧ u.sxt.dev = 2) := by decide +kernel

theorem test_crystal_premises :
    Live (upSxt (fun x => { x with enabled := false })) (fun u => u.sxt.enabled = false) ∧
    Live { lode id with boot := { up.boot with xoWindow := false } } (fun u => u.sxt.enabled = true ∧ u.boot.xoWindow = false ∧
      u.schedulable = true ∧ u.sxt.locked = true ∧ u.sxt.chans.length = 64) ∧
    Live (upBoot (fun b => { b with xoWindow := true })) (fun u => u.boot.xoWindow = true) ∧
    Live (upSxt (fun x => { x with enabled := true, locked := false })) (fun u => u.sxt.enabled = true ∧ u.sxt.locked = false) ∧
    Live (lode id) (fun u => u.sxt.enabled = true ∧ u.sxt.locked = true ∧ u.sxt.time ≠ BitVec.allOnes 64) ∧
    Live (lode (fun x => { x with time := 16000000 })) (fun u => u.sxt.ageTick < u.sxt.time.toNat / 16000000 ∧ u.xingOk 18 = true) := by
  decide +kernel

/-! ## O30 PlumbEvents, O31 ThermalAndThrottle -/

/-- Tile 0 running with two plumbs enabled, plumb 0 as given; and the same with its rail read back at 720 mV. -/
def plumb0 (p : Plumb) : State := upT (fun t => { t with st := .running, plumbW := twoP, plumbs := [p, {}, {}, {}] })
def plumbR (p : Plumb) : State := (plumb0 p).modRail 0 (fun r => { r with vset := 700, mvs := [720] })
abbrev p00 (u : State) : Plumb := (u.tile 0).plumbs.getD 0 {}

theorem test_plumb_premises :
    Live (plumb0 {}) (fun u => u.heard 0 = true ∧ u.steady 0 = false ∧ plumbEn (u.tile 0).plumbW 0 = true ∧ (p00 u).out = false ∧
      (p00 u).blankTill ≤ u.boot.uptime ∧ (p00 u).calTill ≤ u.boot.uptime ∧ (u.plumbRef 0 0 - 10 : Int) ≤ u.plumbRef 0 0 - 10) ∧
    Live (plumb0 { out := true }) (fun u => u.heard 0 = true ∧ (p00 u).out = true ∧ (p00 u).blankTill ≤ u.boot.uptime ∧
      u.plumbRef 0 0 + (plumbHystMv (u.tile 0).plumbW 0 : Int) < 2000) ∧
    Live (plumb0 { out := true, outMt := 16000000 }) (fun u => u.heard 0 = true ∧ (p00 u).out = true ∧ 16000000 ≤ (p00 u).outMt ∧
      u.railNear (u.railOf 0) 20 = false) ∧
    Live (plumbR { out := true, outMt := 16000000 }) (fun u => u.heard 0 = true ∧ (p00 u).out = true ∧ 16000000 ≤ (p00 u).outMt ∧
      u.railNear (u.railOf 0) 20 = true) ∧
    Live (plumb0 {}) (fun u => u.heard 0 = true ∧ u.trimOk 0 0 = true ∧ ∀ y ∈ (u.tile 0).plumbs, y.calTill ≤ u.boot.uptime) := by
  decide +kernel

/-- Samples in range at its ends, and one at the trip level. -/
def cool3 : List TempReading := [{ tile := 0, s0 := -160, s1 := -100 }, { tile := 1, s0 := 459, s1 := 400 }]
def hot1 : List TempReading := [{ tile := 2, s0 := 460, s1 := 600 }]

theorem test_thermal_premises :
    Live up (fun u => u.mer.running = true ∧ u.boot.thermAt ≠ some u.sampleAt ∧ u.tiles.length = 256 ∧ u.cvy.st = .none ∧
      ∀ i < 256, u.heard i = true → (u.tile i).failS0 = false ∧ (u.tile i).failS1 = false ∧ -160 ≤ (u.readingOf cool3 i).s0 ∧
        (u.readingOf cool3 i).s0 < 460 ∧ -160 ≤ (u.readingOf cool3 i).s1 ∧ (u.readingOf cool3 i).s1 < 460 ∧
        ((u.readingOf cool3 i).s0 - (u.readingOf cool3 i).s1).natAbs ≤ 60) ∧
    Live up (fun u => u.mer.running = true ∧ u.boot.thermAt ≠ some u.sampleAt ∧ u.tiles.length = 256 ∧ u.boot.trip = false ∧
      u.heard 2 = true ∧ (u.tile 2).failS0 = false ∧ (u.tile 2).failS1 = false ∧ 460 ≤ (u.readingOf hot1 2).s0 ∧
      (u.readingOf hot1 2).s0 ≤ 600 ∧ 460 ≤ (u.readingOf hot1 2).s1 ∧ (u.readingOf hot1 2).s1 ≤ 600) := by decide +kernel

theorem test_throttle_premises :
    Live up (fun u => u.boot.thrLow = false) ∧ Live (upBoot (fun b => { b with thrLow := true })) (fun u => u.boot.thrLow = true) ∧
    Live (upBoot (fun b => { b with thrHold := true, uptime := 160000 })) (fun u => u.boot.thrHold = true ∧
      u.boot.thrRiseAt + 160000 ≤ u.boot.uptime) := by decide +kernel

/-! ## O32 StateInstants -/

/-- Tile 0 in a state at code 20,480 with one change due now, placed by mailbox 0. -/
def dueX (a : SchedAct) : Sched := { at_ := 0, act := a, mbx := some 0 }
def dueT (g : GenSt) (a : SchedAct) (f : Tile → Tile) : State := upT (fun t => f { t with
  code := 20480, runCode := 20480, st := g, stby := .warm, sched := [dueX a] })

theorem test_enable_premises :
    (∀ a b : Bool, Live (dueT .disabled .enable (fun t => { t with tapOk := some 0, calA := a, calB := b })) (fun u =>
      u.tiles.length = 256 ∧ dueIs u 0 (dueX .enable) ∧ (u.tile 0).st = .disabled ∧ (u.tile 0).tapOk = some (dueX .enable).at_ ∧
      ((u.tile 0).failA && (u.tile 0).failB) = false)) ∧
    Live (dueT .disabled .enable (fun t => { t with tapOk := some 1 })) (fun u => u.tiles.length = 256 ∧ dueIs u 0 (dueX .enable) ∧
      (u.tile 0).st = .disabled ∧ (u.tile 0).tapOk ≠ some (dueX .enable).at_) := by
  unfold dueIs
  refine ⟨fun a b => ?_, by decide +kernel⟩
  cases a <;> cases b <;> decide +kernel

/-- Rail 0 under a check on tile 0. -/
def chk0 : PlCheck := { tile := 0, plumb := 0, ch := 0, code := 32 }
def withChk (s : State) : State := s.modRail 0 (fun r => { r with check := some chk0 })

theorem test_instant_premises :
    Live (dueT .running .disable id) (fun u => u.tiles.length = 256 ∧ dueIs u 0 (dueX .disable) ∧ (u.tile 0).st = .running ∧
      ∀ r < 8, (u.rail r).check = none) ∧
    Live (withChk (dueT .gated .disable id)) (fun u => dueIs u 0 (dueX .disable) ∧ (u.tile 0).st = .gated ∧
      (u.rail 0).check = some chk0 ∧ chk0.tile.toNat = 0) ∧
    Live (dueT .starting .gate id) (fun u => u.tiles.length = 256 ∧ dueIs u 0 (dueX .gate) ∧ (u.tile 0).st = .starting ∧
      ∀ r < 8, (u.rail r).check = none) ∧
    Live (withChk (dueT .running .gate id)) (fun u => dueIs u 0 (dueX .gate) ∧ (u.tile 0).st = .running ∧
      (u.rail 0).check = some chk0 ∧ chk0.tile.toNat = 0) ∧
    Live (dueT .gated .ungate id) (fun u => dueIs u 0 (dueX .ungate) ∧ (u.tile 0).st = .gated ∧ (u.tile 0).actCal = false) ∧
    Live (dueT .gated .ungate (fun t => { t with actCal := true })) (fun u => dueIs u 0 (dueX .ungate) ∧ (u.tile 0).st = .gated ∧
      (u.tile 0).actCal = true) := by
  unfold dueIs; decide +kernel

/-- A domain whose return is due: tiles 0 and 1 in it, tile 0 off since it held a state. -/
def ret0 (g : GenSt) : State := { upT (fun t => { t with st := .domainOff, ret := g, calA := true }) with
  doms := up.doms.set 0 false, domRet := up.domRet.set 0 (some (0, some 0)) }

theorem test_return_premises : ∀ g, g = .disabled ∨ g = .gated ∨ g = .running →
    Live (ret0 g) (fun u => u.domRet.getD 0 none = some (0, some 0) ∧ u.due 0 = true ∧ 0 < u.doms.length ∧ 0 ∈ u.domTiles 0 ∧
      (u.tile 0).st = .domainOff ∧ (u.tile 0).recEn = false ∧ (u.tile 0).ret = g ∧ ((u.tile 0).failA && (u.tile 0).failB) = false) := by
  intro g h
  rcases h with rfl | rfl | rfl <;> decide +kernel

/-! ## O33 MovesAndOscillators -/

/-- Tile 0 running at code 20,480, its standby in a state; and with a handover in hand. -/
def run0 (y : StbySt) : State := upT (fun t => { t with code := 20480, runCode := 20480, st := .running, stby := y })
def hov1 : Hov := { at_ := 0, code := 30000, tuned := true, aligning := true }
def hov0 (h : Hov) : State := (run0 .calibrating).modTile 0 (fun t => { t with hov := some h, sched := [{ at_ := 0, act := .code 30000 }] })

theorem test_move_premises :
    Live (dueT .running (.code 20490) id) (fun u => u.tiles.length = 256 ∧ dueIs u 0 (dueX (.code 20490)) ∧ (u.tile 0).live = true ∧
      (u.tile 0).runCode ≠ 20490 ∧ slideReach (u.tile 0).runCode.toNat (20490#16).toNat = true) ∧
    Live (dueT .gated .swap id) (fun u => (u.tile 0).st = .gated ∧ (u.tile 0).hov = none ∧ (u.tile 0).failA = false ∧
      (u.tile 0).failB = false ∧ u.nextHov 0 = some { at_ := 0, code := 20480, swap := true }) ∧
    Live (hov0 hov1) (fun u => (u.tile 0).hov = some hov1 ∧ u.key hov1.at_ ≤ 2 ^ 63 + 32000 ∧ hov1.tuned = true) ∧
    Live (hov0 hov1) (fun u => u.tiles.length = 256 ∧ (u.tile 0).hov = some hov1 ∧ u.due hov1.at_ = true ∧ (u.tile 0).withhold = false ∧
      hov1.aligning = true ∧ (u.tile 0).sched.filter hov1.answers ≠ []) := by
  unfold dueIs; decide +kernel

theorem test_oscillator_premises :
    Live (run0 .warm) (fun u => u.tiles.length = 256 ∧ u.present 0 = true ∧ (u.tile 0).st = .running ∧ (u.tile 0).failA = false ∧
      (u.tile 0).failB = false ∧ (u.tile 0).hov = none ∧ (u.tile 0).actB ≠ true ∧ (u.tile 0).actB = false ∧ (u.tile 0).stby = .warm) ∧
    Live (run0 .calibrating) (fun u => u.tiles.length = 256 ∧ u.present 0 = true ∧ (u.tile 0).st = .running ∧ (u.tile 0).failA = false ∧
      (u.tile 0).failB = false ∧ (u.tile 0).hov = none ∧ (u.tile 0).actB = false ∧ (u.tile 0).stby ≠ .warm ∧ (u.tile 0).actB ≠ true ∧
      (u.tile 0).stby = .calibrating) ∧
    Live ((run0 .off).modTile 0 (fun t => { t with failA := true })) (fun u => u.present 0 = true ∧ (u.tile 0).st = .running ∧
      (u.tile 0).failA = true ∧ (u.tile 0).failB = !true) ∧
    Live up (fun u => u.present 0 = true ∧ (u.tile 0).st = .disabled) ∧
    Live (upT (fun t => { t with st := .starting, actCal := true })) (fun u => u.present 0 = true ∧ (u.tile 0).st = .starting ∧
      (u.tile 0).actCal = true ∧ (u.tile 0).actB = false) ∧
    Live (run0 .warm) (fun u => (u.tile 0).st = .running ∧ (u.tile 0).stby = .warm ∧ (u.tile 0).hov = none) := by decide +kernel

/-- The group's rotation with a test of tile 0 begun at uptime 0. -/
def rot0 (s : State) (t : Nat) : State :=
  { s.modRot 0 (fun _ => { at_ := some 0, pos := 0, runs := true }) with boot := { up.boot with uptime := t } }

theorem test_standby_premises :
    Live (run0 .warm) (fun u => (u.tests.stby.getD 0 {}).runs = false ∧ (u.tests.stby.getD 0 {}).at_ = none ∧ u.rotNext 0 = some 0) ∧
    Live (rot0 (run0 .warm) 1600000000) (fun u => (u.tile 0).stby ≠ .testing ∧ (u.tests.stby.getD 0 {}).at_ = some 0 ∧
      0 + 1600000000 ≤ u.boot.uptime ∧ u.rotNext 0 = some 0) ∧
    Live (rot0 (run0 .testing) 2621439) (fun u => u.tests.stby.getD 0 {} = { at_ := some 0, pos := 0, runs := true } ∧
      (u.tile 0).stby = .testing ∧ u.boot.uptime < 0 + 2621440) ∧
    Live (rot0 (run0 .testing) 2621440) (fun u => u.tests.stby.getD 0 {} = { at_ := some 0, pos := 0, runs := true } ∧
      (u.tile 0).stby = .testing ∧ 0 + 2621440 ≤ u.boot.uptime ∧ (u.tile 0).st = .running ∧ (u.tile 0).hov = none ∧ u.present 0 = true ∧
      (u.tile 0).failA = false ∧ (u.tile 0).failB = false) := by decide +kernel

/-- A running tile with an automatic swap at T. -/
def autoAt (T : Time) : State := (run0 .testing).modTile 0 (fun t => { t with sched := [{ at_ := T, act := .swap, auto := true }] })

theorem test_booked_premises :
    Live (run0 .testing) (fun u => (u.tile 0).stby = .testing ∧ (u.tile 0).sched = []) ∧
    Live (autoAt 3360000) (fun u => (u.tile 0).sched = [{ at_ := 3360000, act := .swap, auto := true }] ∧ u.key T200 = 2 ^ 63 + 3200000 ∧
      u.key 3360000 = 2 ^ 63 + 3200000 + 160000) := by decide +kernel

theorem test_swap_premises : Live { run0 .warm with boot := { up.boot with uptime := 9616000000001 } } (fun u => u.swapDue 0 = true ∧
    (∀ j < 256, (u.tile j).sched = []) ∧ (∀ k < 4, (u.slot k).live = false) ∧ u.keys.slots.length = 4) := by decide +kernel

/-! ## O34 FencingAndTaps, O35 KeystoneEvents -/

/-- Tile 0 disabled with an enable at T, its rail read back at its set point; and the same enable recorded for its domain's return. -/
def tap0 (T : Time) : State := State.modRail (upT (fun t => { t with
  st := .disabled, plumbW := twoP, sched := [{ at_ := T, act := .enable, mbx := some 0 }] })) 0 (fun r => { r with vset := 700, mvs := [700] })
def rec0 : State := { upT (fun t => { t with st := .domainOff, recEn := true }) with domRet := up.domRet.set 0 (some (16000, none)) }

theorem test_tap_premises :
    Live (tap0 1024000) (fun u => (u.enables 0).head? = some (1024000, some { at_ := 1024000, act := .enable, mbx := some 0 }, none) ∧
      (u.tile 0).tapOk ≠ some 1024000 ∧ u.key 1024000 = 2 ^ 63 + 1024000 ∧ u.railNear (u.railOf 0) 20 = true ∧
      ∀ p < 4, plumbEn (u.tile 0).plumbW p = true → bit (0 : BitVec 4) p = false) ∧
    Live (tap0 16000) (fun u => (u.enables 0).head? = some (16000, some { at_ := 16000, act := .enable, mbx := some 0 }, none) ∧
      (u.tile 0).tapOk ≠ some 16000 ∧ u.key 16000 ≤ 2 ^ 63 + 16000) ∧
    Live rec0 (fun u => (u.enables 0).head? = some (16000, none, none) ∧ (u.tile 0).tapOk ≠ some 16000 ∧ u.key 16000 ≤ 2 ^ 63 + 16000) := by
  refine ⟨⟨rfl, rfl, ?_⟩, ⟨rfl, rfl, ?_⟩, ⟨rfl, rfl, ?_⟩⟩ <;> decide +kernel

theorem test_fence_premises :
    Live up (fun u => u.tiles.length = 256 ∧ u.present 0 = true ∧ (u.tile 0).st ≠ .fenced ∧ (u.tile 0).st ≠ .halted ∧
      (u.tile 0).mortarAt.length < 15) ∧
    Live fenced0 (fun u => (u.tile 0).st = .fenced ∧ u.granted 0 = false ∧ (u.tile 0).trialAt ≤ u.boot.uptime) ∧
    Live (fenced0.modTile 0 (fun t => { t with trialAt := 1 })) (fun u => (u.tile 0).st = .fenced ∧ u.boot.uptime < (u.tile 0).trialAt) ∧
    Live { fenced0 with tests := { up.tests with grant := some { grant1 with groups := 1 } } } (fun u => (u.tile 0).st = .fenced ∧
      u.granted 0 = true) ∧
    Live (upBoot (fun b => { b with examAt := some 0 })) (fun u => u.mer.running = true ∧ u.boot.examAt = some (u.multAt 16000000)) ∧
    Live State.reset (fun u => u.mer.running = false) ∧
    Live up (fun u => u.mer.running = true ∧ u.boot.examAt ≠ some (u.multAt 16000000) ∧ u.adaptive 0 = true ∧ u.service 2 = true) := by
  decide +kernel

/-- A sealed keystone for T with actions; one that moves tile 0 to code 30,000; one that raises rail 0 to 760 mV. -/
def sealedK (acts : List (BitVec 128)) (T : Time) : Slot := { st := .sealed, seq := 1, t := T, acts := acts, acked := true }
def actC : BitVec 128 := BitVec.ofNat 128 (pack [(0, 4, 1), (64, 64, 30000)])
def actV : BitVec 128 := BitVec.ofNat 128 (pack [(0, 4, 10), (64, 64, 760)])
/-- `up` with the raise in slot 0, the slot and rail 0 changed. -/
def raise0 (T : Time) (f : Slot → Slot) (r : Rail → Rail) : State :=
  (State.modRail up 0 (fun x => r { x with vset := 700, written := 700 })).modSlot 0 (fun _ => f (sealedK [actV] T))

theorem test_keystone_event_premises :
    Live (upKs { open0 with acked := false }) (fun u => u.keys.slots.length = 4 ∧ (u.slot 0).live = true ∧ (u.slot 0).acked = false) ∧
    Live (upKs { open0 with t := 16000 }) (fun u => (u.slot 0).st = .opened ∧ u.key (u.slot 0).t ≤ 2 ^ 63 + 16000) ∧
    Live (upKs { sealedK [actQ] 16000 with acked := false }) (fun u => (u.slot 0).st = .sealed ∧ (u.slot 0).acked = false ∧
      u.key (u.slot 0).t ≤ 2 ^ 63 + 16000) ∧
    Live (upKs (sealedK [actQ] 20)) (fun u => (u.slot 0).st = .sealed ∧ u.key (u.slot 0).t ≤ 2 ^ 63 + 20 ∧ u.launchFail 0 [] = none) ∧
    Live (raise0 20 id id) (fun u => (u.slot 0).st = .sealed ∧ u.launchFail 0 [] = some (9, 0, 0)) ∧
    Live ((run0 .warm).modSlot 0 (fun _ => sealedK [actC] 20)) (fun u => (u.slot 0).st = .sealed ∧ u.launchFail 0 [] = some (8, 0, 0)) ∧
    Live (upKs { sealedK [] 0 with st := .committed }) (fun u => (u.slot 0).st = .committed ∧ u.key (u.slot 0).t ≤ 2 ^ 63 ∧
      u.keys.slots.length = 4) ∧
    Live (upKs (sealedK [actC] 0)) (fun u => u.keys.slots.length = 4 ∧ (u.slot 0).live = true ∧ (u.slot 0).acts = [actC] ∧
      actTarget actC = 0 ∧ actKind actC = 1 ∧ 0 < u.tiles.length ∧ (u.tile 0).live = false) ∧
    Live { up with keys := { up.keys with caps := [{ at_ := 0, groups := none, mbx := some 0 }] } } (fun u =>
      u.keys.caps = [{ at_ := 0, groups := none, mbx := some 0 }] ∧ u.capReady { at_ := 0, groups := none, mbx := some 0 } = true) := by
  decide +kernel

/-! ## O36 RailVoltageEvents, O37 PowerIntervals -/

/-- A state whose link 0 has carried four writes in its interval; and one whose links have failed. -/
def spent (s : State) : State := { s with power := { s.power with writes := [(0, 4), (0, 4)] } }
def onPmb (s : State) : State := { s with power := { s.power with avsBad := 3 } }

theorem test_raise_premises :
    Live (raise0 2400000 id id) (fun u => u.raiseOf 0 (fun x => u.raiseDue x 0) = some (0, 0, 760) ∧ (u.rail 0).active = true ∧
      u.writeTurn (0, u.key (u.slot 0).t, 0) = true) ∧
    Live (spent (raise0 2400000 id id)) (fun u => u.raiseOf 0 (fun x => u.raiseDue x 0) = some (0, 0, 760) ∧ (u.rail 0).active = true ∧
      u.writeTurn (0, u.key (u.slot 0).t, 0) = false) ∧
    Live (onPmb (raise0 3200000 (fun x => { x with raised := [0] }) id)) (fun u => u.onPmbus 0 = true ∧
      u.raiseOf 0 (fun x => decide (u.key x.t ≤ 2 ^ 63 + 3200000) && x.raised.any (fun y => y.toNat == 0)) = some (0, 0, 760)) ∧
    Live (raise0 320000 (fun x => { x with raised := [0] }) (fun r => { r with fresh := true, mvs := [750] })) (fun u =>
      u.raiseOf 0 (fun x => decide (u.key x.t ≤ 2 ^ 63 + 320000) && !x.checked.any (fun y => y.toNat == 0)) = some (0, 0, 760) ∧
      u.raiseGood (u.slot 0) 0 760 = true) ∧
    Live (raise0 320000 (fun x => { x with raised := [0] }) (fun r => { r with fresh := true, mvs := [749] })) (fun u =>
      u.raiseOf 0 (fun x => decide (u.key x.t ≤ 2 ^ 63 + 320000) && !x.checked.any (fun y => y.toNat == 0)) = some (0, 0, 760) ∧
      u.raiseGood (u.slot 0) 0 760 = false) := by decide +kernel

/-- Rail 0 written above its set point, or with a raise to take back. -/
def lower0 : State := up.modRail 0 (fun r => { r with vset := 700, written := 701 })
def back0 : State := up.modRail 0 (fun r => { r with vset := 700, written := 760, wback := some 700 })

theorem test_write_premises :
    Live lower0 (fun u => u.lowerDue 0 = true ∧ u.writeTurn (1, 0, 0) = true ∧ u.boot.cool ≠ .stopped) ∧
    Live back0 (fun u => (u.rail 0).wback = some 700 ∧ u.backDue 0 = true ∧ u.writeTurn (2, 0, 0) = true ∧ u.boot.cool ≠ .stopped) ∧
    Live (spent lower0) (fun u => u.writeTurn (1, 0, 0) = false) ∧ Live (spent back0) (fun u => u.writeTurn (2, 0, 0) = false) ∧
    Live up (fun u => 0 < u.rails.length ∧ 500 ≤ u.railMax 0 ∧ u.railMax 0 < 951 ∧ u.onPmbus 0 = false) ∧
    Live (onPmb up) (fun u => 500 ≤ u.railMax 0 ∧ u.onPmbus 0 = true) := by decide +kernel

theorem test_interval_premises :
    Live { up with rails := State.reset.rails } (fun u => u.mer.running = true ∧ u.power.ivAt ≠ some u.sampleAt ∧ u.activeRails = [] ∧
      u.rails.length = 8 ∧ 0 < u.tiles.length) ∧
    Live up (fun u => u.power.ivAt ≠ some u.sampleAt ∧ u.activeRails = [(0 : BitVec 3).toNat] ∧ (0 : BitVec 3).toNat < u.rails.length ∧
      u.onPmbus 0 = false) ∧
    Live (upPow (fun p => { p with ivAt := some 0 })) (fun u => u.mer.running = true ∧ u.power.ivAt = some u.sampleAt) ∧
    Live (upPow (fun p => { p with hist := [5], means := [{ num := 5 }] })) (fun u => u.cvy.st = .none ∧ ∀ w < 3,
      u.power.capAt.getD w none ≠ some (u.multAt (capPeriod w)) ∧ (u.power.filter w).isSome = true) ∧
    Live up (fun u => ∀ w < 3, u.power.capAt.getD w none ≠ some (u.multAt (capPeriod w)) ∧ u.power.filter w = none) ∧
    Live (upPow (fun p => { p with capAt := [some 0, some 0, some 0] })) (fun u => ∀ w < 3,
      u.power.capAt.getD w none = some (u.multAt (capPeriod w))) ∧
    Live up (fun u => u.mer.running = true ∧ u.ledger.snapAt ≠ some (u.multAt 16000000)) ∧
    Live { up with ledger := { up.ledger with snapAt := some 0 } } (fun u => u.mer.running = true ∧
      u.ledger.snapAt = some (u.multAt 16000000)) := by decide +kernel

/-! ## O38 RailChecksAndBuses, O39 Coolant -/

/-- Rail 0 telemetry-suspect on a grid of 500, tile 0 running on it with three plumbs enabled. -/
def susp : Rail → Rail := fun r => { r with map := BitVec.ofNat 64 (pack [(0, 1, 1), (32, 12, 500)]), suspect := true }
def threeP : BitVec 64 := BitVec.ofNat 64 (pack [(0, 6, 40), (6, 1, 1), (16, 6, 40), (22, 1, 1), (32, 6, 40), (38, 1, 1)])
def chk (g : GenSt) (f : Rail → Rail) : State :=
  State.modRail (upT (fun t => { t with st := g, plumbW := threeP })) 0 (fun r => f (susp r))
/-- A check after `n` steps, in a block that has run for as long as the next one takes, or less. -/
def step0 (n : Nat) (dt : Nat) (g : GenSt) (f : Rail → Rail) : State :=
  { chk g (fun r => f { r with check := some { tile := 0, plumb := 0, ch := 0, code := 32, steps := n } }) with
    boot := { up.boot with uptime := dt } }
abbrev checkable (u : State) : Prop :=
  u.rails.length = 8 ∧ (u.rail 0).suspect = true ∧ (u.rail 0).fault = false ∧ (u.rail 0).check = none ∧ rmRGrid (u.rail 0).map ≠ 0 ∧
  (∀ c ∈ (u.rail 0).clearedAt, c + 160000000000 ≤ u.boot.uptime) ∧ ∀ c ∈ (u.rail 0).plWaitAt, c + 16000000 ≤ u.boot.uptime

theorem test_check_premises :
    Live (chk .running id) (fun u => checkable u ∧ u.checkTile 0 = some (0, 0) ∧ u.checkChan 0 0 = some 0 ∧ 0 < u.sxt.chans.length ∧
      0 < u.tiles.length ∧ 0 < (u.tile 0).plumbs.length) ∧
    Live (chk .disabled id) (fun u => checkable u ∧ u.checkTile 0 = none) ∧
    Live (step0 0 0 .gated id) (fun u => (u.rail 0).check.isSome = true ∧ (u.tile 0).st ≠ .running) ∧
    Live (step0 4 1603999 .running id) (fun u => (u.rail 0).check.isSome = true ∧ (u.tile 0).st = .running ∧
      u.boot.uptime < 0 + 320800 * (4 + 1)) ∧
    Live (step0 4 1604000 .running id) (fun u => (u.rail 0).check.isSome = true ∧ (u.tile 0).st = .running ∧
      0 + 320800 * (4 + 1) ≤ u.boot.uptime) ∧
    Live (step0 5 1924800 .running (fun r => { r with vset := 700, mvs := [700], mas := [100000] })) (fun u => (u.tile 0).st = .running ∧
      0 + 320800 * (5 + 1) ≤ u.boot.uptime ∧ (u.rail 0).drops 32 = true) ∧
    Live (step0 5 1924800 .running (fun r => { r with vset := 700, mvs := [540], mas := [100000] })) (fun u => (u.tile 0).st = .running ∧
      0 + 320800 * (5 + 1) ≤ u.boot.uptime ∧ (u.rail 0).drops 32 = false) := by
  refine ⟨?_, ?_, ?_, ?_, ?_, ?_, ?_⟩ <;> decide +kernel

theorem test_bus_premises :
    Live up (fun u => bit u.power.avsBad (1 : BitVec 1).toNat = false) ∧
    Live (onPmb up) (fun u => bit u.power.avsBad (1 : BitVec 1).toNat = true ∧ (u.rail 0).active = true ∧ u.onPmbus 0 = true ∧
      u.boot.uptime < u.power.avsAt.getD (1 : BitVec 1).toNat 0 + 1600000000 ∧ u.fallbackDue 0 true = true ∧ u.fallbackDue 0 false = true) ∧
    Live ((onPmb up).modRail 0 (fun r => { r with pmVolt := some 0, pmCurr := some 0 })) (fun u => (u.rail 0).active = true ∧
      u.onPmbus 0 = true ∧ u.fallbackDue 0 true = false ∧ u.fallbackDue 0 false = false ∧ (u.rail 0).pmVolt = some 0) ∧
    Live { onPmb up with boot := { up.boot with uptime := 1600000000 } } (fun u => bit u.power.avsBad (1 : BitVec 1).toNat = true ∧
      u.power.avsAt.getD (1 : BitVec 1).toNat 0 + 1600000000 ≤ u.boot.uptime) := by
  decide +kernel

/-- A heartbeat whose last edge is `d` ago, `k` periods good, in a state. -/
def beat (st : CoolSt) (k d : Nat) : State :=
  upBoot (fun b => { b with uptime := 16000000 + d, hbLast := some 16000000, hbGood := k, cool := st, hbLost := 1 })

theorem test_coolant_premises :
    Live (beat .unknown 2 1440000) (fun u => u.boot.hbLast = some 16000000 ∧ 16000000 + 1440000 ≤ u.boot.uptime ∧
      u.boot.uptime ≤ 16000000 + 1760000 ∧ u.boot.hbGood < 3) ∧
    Live (beat .wireFault 3 1760000) (fun u => u.boot.hbLast = some 16000000 ∧ 16000000 + 1440000 ≤ u.boot.uptime ∧
      u.boot.uptime ≤ 16000000 + 1760000 ∧ 3 ≤ u.boot.hbGood ∧ u.boot.cool = .wireFault) ∧
    Live (beat .good 3 7040000) (fun u => u.boot.hbLast = some 16000000 ∧ 16000000 + 5760000 ≤ u.boot.uptime ∧
      u.boot.uptime ≤ 16000000 + 7040000 ∧ 1 ≤ u.boot.hbLost ∧ u.boot.cool = .good ∧ u.boot.chipStop = false ∧ u.tiles.length = 256) ∧
    Live (beat .good 3 16000000) (fun u => u.boot.hbDc = false ∧ u.boot.hbLast.getD 0 + 16000000 ≤ u.boot.uptime ∧ u.boot.cool = .good) ∧
    Live (beat .wireFault 0 480000000000) (fun u => u.boot.cool = .wireFault ∧ u.boot.trayOk = false ∧
      u.boot.waitAt + 480000000000 ≤ u.boot.uptime) ∧
    Live up (fun u => u.boot.polls = false) ∧
    Live (upBoot (fun b => { b with cool := .wireFault, pollAt := some 0 })) (fun u => u.boot.polls = true) ∧
    Live (upBoot (fun b => { b with cool := .wireFault, pollAt := some 1 })) (fun u => u.boot.polls = false) ∧
    Live (upBoot (fun b => { b with cool := .good, pollAt := some 0 })) (fun u => u.boot.polls = true) ∧
    Live (upBoot (fun b => { b with uptime := 16000000000, cool := .wireFault, trayOk := true })) (fun u => u.boot.cool = .wireFault ∧
      u.boot.trayOk = true ∧ u.boot.trayAt + 16000000000 ≤ u.boot.uptime) ∧
    bit (3 : Byte) 0 = true ∧ bit (3 : Byte) 2 = false ∧ bit (3 : Byte) 1 = true ∧ bit (5 : Byte) 0 = true ∧ bit (5 : Byte) 2 = true ∧
    bit (1 : Byte) 2 = false ∧ bit (1 : Byte) 1 = false := by decide +kernel

/-! ## O40 ConvoyEvents -/

/-- The words of a notice of a kind for the convoy of `memb`. -/
def w0 (k : Nat) : Flit := BitVec.ofNat 64 (pack [(0, 4, k), (4, 4, 1), (8, 16, 9)])
def mvW2 : Flit := BitVec.ofNat 64 (pack [(0, 16, 20000), (16, 32, 1)])
/-- The active member with the convoy changed. -/
def memC (f : Cvy → Cvy) : State := { memb .active with cvy := f (memb .active).cvy }
def mv1 : CvyMove := { t := 4800000, code := 20000, mseq := 1 }
abbrev noticed (u : State) (k : Nat) (w1 w2 : Flit) : Prop :=
  u.cviUp = true ∧ u.cviFull = false ∧ (u.xings.main.getD 13 {}).stale = false ∧ noticeBad [w0 k, w1, w2] = false ∧
  fld (w0 k) 8 16 = joinId u.cvy.join ∧ fld (w0 k) 40 16 = u.cvy.tag.toNat ∧ fld (w0 k) 0 4 = k

theorem test_notice_premises :
    Live (memb .active) (fun u => noticed u 1 1280000 mvW2 ∧ w32 (fld mvW2 16 32) ∉ u.cvy.seen ∧ u.cvy.st = .active ∧ u.cvy.leaveAt = none ∧
      2 ^ 63 + 1280000 ≤ u.key 1280000 ∧ u.slot3Free = true ∧ u.cvy.queued = none ∧ fld mvW2 0 16 = 20000) ∧
    Live (memb .active) (fun u => noticed u 2 1280000 128 ∧ u.key 1280000 ≤ 2 ^ 63 + 2560000 ∧ 2 ^ 63 + 32000 ≤ u.key 1280000 ∧
      2 ^ 63 < u.key (1280000 + 16000000)) ∧
    Live (memb .active) (fun u => noticed u 3 1280000 1) ∧ Live (memb .active) (fun u => noticed u 4 1280000 0) ∧
    Live (memC (fun c => { c with inAt := List.replicate 16 800 })) (fun u => u.cviFull = true) ∧
    Live (memC (fun c => { c with queued := some mv1 })) (fun u => u.slot3Free = true ∧ u.cvy.st = .active ∧ u.cvy.queued = some mv1 ∧
      u.cvy.leaveAt = none) := by decide +kernel

/-- The move of that notice passes validation, at a state that has taken it. -/
theorem test_notice_passes : (memC (fun c => { c with seen := [1], latest := some { mv1 with t := 1280000 } })).convoyRefusal 3 1280000
    (BitVec.ofNat 16 (fld mvW2 0 16)).toNat false = none := by decide +kernel

/-- A joining member whose join keystone launches, or whose slot 3 is held. -/
def join0 (x : Slot) : State := State.modSlot { memb .active with cvy := { (memb .active).cvy with
  st := .joining, joinMbx := some 2, joinAt := 20 } } 3 (fun _ => x)
/-- A lease of rate 192 over the present, and a notice that waits. -/
def lease1 (l : Bool) : Lease := { from_ := 0, till := 16000000, q := 192, why := 0, own := false, inst := 0, local_ := l }
def out1 : OutNotice := { words := [w0 2, 0, 192], until_ := some 0, follow := true }

theorem test_convoy_event_premises :
    Live (join0 { st := .opened, t := 3200000 }) (fun u => u.cvy.st = .joining ∧ u.key u.cvy.joinAt ≤ 2 ^ 63 + 20 ∧ u.slot3Is .join = false ∧
      u.slot3Free = false) ∧
    Live (join0 { st := .sealed, kind := .join, t := 20 }) (fun u => u.cvy.st = .joining ∧ u.key u.cvy.joinAt ≤ 2 ^ 63 + 20 ∧
      (u.slot 3).st = .sealed ∧ (u.slot 3).kind = .join ∧ u.key (u.slot 3).t ≤ 2 ^ 63 + 20 ∧
      (∀ j < 3, (u.slot j).st = .sealed → (u.slot j).t ≠ (u.slot 3).t) ∧ u.launchFail 3 [] = none) ∧
    Live (memC (fun c => { c with leaveAt := some 0 })) (fun u => u.cvy.leaveAt = some 0 ∧ u.due 0 = true ∧ (u.slot 3).live = false ∧
      u.cvy.joinMbx = none ∧ u.cvy.moveMbx = []) ∧
    Live (memC (fun c => { c with leases := [lease1 true, lease1 false] })) (fun u => u.leaseNow (lease1 true) = true ∧
      u.leaseNow (lease1 false) = true) ∧
    Live (memC (fun c => { c with oos := true, retry := true, latest := some mv1 })) (fun u => u.cvy.oos = true ∧ u.cvy.retry = true ∧
      u.slot3Free = true ∧ u.cvy.st = .active ∧ u.cvy.latest = some mv1 ∧ u.cvy.leaveAt = none ∧
      u.convoyRefusal 3 u.catchInst mv1.code.toNat false = none) ∧
    Live (memC (fun c => { c with out := [out1] })) (fun u => u.cvy.out = [out1] ∧ out1.words.length = 3 ∧ out1.until_ = some 0 ∧
      u.due 0 = true) ∧
    Live up (fun u => u.cvyUp = true) := by
  refine ⟨?_, ?_, ?_, ?_, ?_, ?_, ?_⟩ <;> decide +kernel

/-! ## O41 SextantEvents -/

/-- Setups of two pins into the FIFO, of a gate on pin 2, and of two tile clocks. -/
def sxFifo : BitVec 64 := BitVec.ofNat 64 (pack [(0, 12, 0), (12, 12, 1), (42, 1, 1)])
def sxGate : BitVec 64 := BitVec.ofNat 64 (pack [(12, 12, 1), (29, 2, 1), (31, 2, 2)])
def sxClk : BitVec 64 := BitVec.ofNat 64 (pack [(0, 12, 0x100), (12, 12, 0x102)])
/-- Movements of a pin over and under every threshold, and none. -/
def rise : PinMove := { before := -1, after := 1201 }
def still : PinMove := { before := 1201, after := 1201 }
/-- Channel 59 armed with a setup. -/
def arm0 (w : BitVec 64) (f : Chan → Chan) : State := upCh (fun c => f { c with setup := w, armed := true })
/-- What an edge at 3 LSB needs on it. -/
abbrev edged (u : State) : Prop :=
  u.sxt.chans.length = 64 ∧ (u.chan 59).armed = true ∧ u.sxRuns 59 = true ∧ sxChain (u.chan 59).setup = false ∧
  (sxArm (u.chan 59).setup = 1 → (u.chan 59).gateAt + 16 ≤ u.boot.uptime) ∧
  (sxArm (u.chan 59).setup = 2 → 0 ≤ lsbDiff 3 (8 * (u.chan 59).open_.toNat) ∧
    lsbDiff 3 (8 * (u.chan 59).open_.toNat) < 8 * ((u.chan 59).len.toNat : Int)) ∧ 3 = 8 * (u.sxNow 59).toNat + (3 : BitVec 3).toNat

theorem test_edge_premises :
    Live (arm0 sxFifo id) (fun u => edged u ∧ u.srcLive (sxStart (u.chan 59).setup) = true ∧ (u.chan 59).lStart = none ∧
      (u.chan 59).pStart = none ∧ (u.chan 59).pStop = none) ∧
    Live { arm0 sxGate (fun c => { c with lStart := some 0 }) with boot := { up.boot with uptime := 16 } } (fun u => edged u ∧
      u.srcLive (sxStart (u.chan 59).setup) = true ∧ (u.chan 59).lStart = some 0 ∧
      sxArm (u.chan 59).setup = 1 ∧ 0 ≤ lsbDiff 3 0 ∧ lsbDiff 3 0 < 256) ∧
    Live (arm0 sxWin (fun c => { c with len := 32 })) (fun u => edged u ∧ sxArm (u.chan 59).setup = 2 ∧
      u.srcLive (sxStart (u.chan 59).setup) = true) ∧
    Live (arm0 sxFifo (fun c => { c with pStart := some 5 })) (fun u => edged u ∧ u.srcLive (sxStop (u.chan 59).setup) = true ∧
      (u.chan 59).pStart = some 5 ∧ (u.chan 59).lStop = none ∧ sxStat (u.chan 59).setup = false ∧ sxPairs (u.chan 59).setup = 0 ∧
      sxDest (u.chan 59).setup = true ∧ (u.chan 59).fifo.length < 7 ∧ (lsbDiff 3 5).natAbs < 2 ^ 31 - 1 ∧ u.xingOk 17 = true) ∧
    Live ((arm0 sxFifo (fun c => { c with pStart := some 5 })).modXing 17 0 (fun c => { c with stale := true })) (fun u => edged u ∧
      u.srcLive (sxStop (u.chan 59).setup) = true ∧ (u.chan 59).pStart = some 5 ∧ (u.chan 59).lStop = none ∧ u.xingOk 17 = false) := by
  refine ⟨?_, ?_, ?_, ?_, ?_⟩ <;> decide +kernel

theorem test_edge_levels :
    (up.tick 0).isEdge (sxStart sxFifo) rise = (true, up.tick 0) ∧ (up.tick 0).isEdge (sxStart sxFifo) still = (false, up.tick 0) ∧
    (up.tick 0).isEdge (sxStart sxClk) still = (true, up.tick 0) ∧ sxArm sxFifo ≠ 1 := ⟨rfl, rfl, rfl, by decide +kernel⟩

theorem test_pin_premises : pinReads (up.sxt.dac.getD 3 0) rise.before = some false ∧ pinReads (up.sxt.dac.getD 3 0) rise.after = some true ∧
    pinReads 255 1214 = some true ∧ pinReads 128 602 = none ∧ pinReads 128 617 = some true ∧ pinReads 128 588 = some false := by decide +kernel

theorem test_arming_premises :
    Live (upCh (fun c => { c with setup := sxGate })) (fun u => u.sxt.chans.length = 64 ∧ sxArm (u.chan 59).setup = 1 ∧
      sxPin (u.chan 59).setup = (2 : BitVec 2).toNat ∧ u.sxRuns 59 = true ∧ (u.chan 59).armed = false ∧ (u.chan 59).waits = [] ∧
      (sxOnce (u.chan 59).setup && (u.chan 59).gateUsed) = false) ∧
    Live (upCh (fun c => { c with setup := sxWin, len := 10 })) (fun u => sxArm (u.chan 59).setup = 2 ∧ (u.chan 59).armed = false ∧
      u.sxRuns 59 = true ∧ (u.sxNow 59 - (u.chan 59).open_).toNat < (u.chan 59).len.toNat ∧ sxStart (u.chan 59).setup ≠ 0x802 ∧
      sxStop (u.chan 59).setup ≠ 0x802) ∧
    Live (upCh (fun c => { c with setup := sxWin, open_ := -20, len := 20, armed := true })) (fun u => sxArm (u.chan 59).setup = 2 ∧
      (u.chan 59).waits = [] ∧ (u.chan 59).pStart = none ∧ (u.chan 59).pStop = none ∧
      (u.chan 59).len.toNat ≤ (u.sxNow 59 - (u.chan 59).open_).toNat ∧ (u.sxNow 59 - (u.chan 59).open_).toNat < 2 ^ 63) := by decide +kernel

theorem test_service_premises :
    Live up (fun u => u.sxRuns 59 = true ∧ u.sxt.svc = none ∧ (u.chan 59).armed = false ∧ sxArm (u.chan 59).setup = 0 ∧
      (u.chan 59).caling = false) ∧
    Live (arm0 sxFifo id) (fun u => u.sxRuns 59 = true ∧ u.sxt.svc = none ∧ (u.chan 59).armed = true) ∧
    Live { upSxt (fun x => { x with svc := some (59, 0) }) with boot := { up.boot with uptime := 33554432 } } (fun u =>
      u.sxRuns 59 = true ∧ u.sxt.svc = some (59, 0) ∧ 0 + 33554432 ≤ u.boot.uptime ∧ (u.chan 59).waits = []) ∧
    Live (upSxt (fun x => { x with svc := some (59, 0) })) (fun u => u.sxt.svc = some (59, 0) ∧ u.boot.uptime < 0 + 33554432) ∧
    Live { arm0 sxFifo id with boot := { up.boot with uptime := 960000000001 } } (fun u => (u.chan 59).armed = true ∧
      (u.chan 59).armAt + 960000000000 < u.boot.uptime) := by decide +kernel

/-! ## O42 ReckonerEvents, O43 LoadEvents, O44 LogEvents -/

/-- The Reckoner active with tile 0 mapped to class 0 and running; a window entry 30,000 · 16 mt ahead, and a statistics record. -/
def man0 : State := { upT (fun t => { t with st := .running, code := 20480 }) with
  rck := { up.rck with mode := .active, map := up.rck.map.set 0 0x80 } }
def recW : Flit := BitVec.ofNat 64 (pack [(0, 2, 1), (16, 16, 30000), (32, 16, 100), (48, 8, 50)])
def recS : Flit := BitVec.ofNat 64 (pack [(0, 2, 2), (10, 2, 3), (16, 8, 9)])

set_option maxRecDepth 10000 in
theorem test_record_premises : Live man0 (fun u => u.tiles.length = 256 ∧ fld recW 2 8 = 0 ∧ fld recS 2 8 = 0 ∧ u.ctl.manRst = false ∧
    bit u.boot.clkRun 2 = true ∧ u.looping 2 = false ∧ (u.xings.main.getD 10 {}).stale = false ∧ (u.xings.main.getD 11 {}).stale = false ∧
    u.rck.mode ≠ .off ∧ u.present 0 = true ∧ bit (u.rck.map.getD 0 0) 7 = true ∧ (u.tile 0).st = .running ∧ fld recW 0 2 = 1 ∧
    u.key (BitVec.ofNat 64 u.nextSnap) < u.key (u.mer.now + BitVec.ofNat 64 (16 * fld recW 16 16)) ∧ (u.tile 0).window.length < 8 ∧
    fld recS 0 2 = 2 ∧ fld recS 12 4 = 0 ∧ fld recS 48 16 = 0) := by decide +kernel

theorem test_course_premises :
    Live (upMer (fun m => { m with now := 3500000 })) (fun u => u.mer.running = true ∧
      BitVec.ofNat 64 (u.mer.now.toNat / courseLen u.rck.course * courseLen u.rck.course) ≠ u.rck.snapAt) ∧
    Live (run0 .warm) (fun u => (u.tile 0).st = .running ∧ (u.tile 0).withhold = false) ∧
    Live (upT (fun t => { t with withhold := true })) (fun u => (u.tile 0).withhold = true) := by decide +kernel

/-- The Reckoner changed in a block in which a course boundary has passed since 0. -/
def past0 (f : Rck → Rck) : State := { upMer (fun m => { m with now := 3500000 }) with rck := f up.rck }
/-- A transfer of 64 bytes; the header of its one packet. -/
def in1 (inPkt : Bool) : Inbound :=
  { kind := .spdm, mbx := 2, tag := 9, bytes := 64, credit := 4, granted := 9, inPkt := inPkt, flits := 3, left := 24 }
def inn (x : Inbound) : State := { upLog (fun l => { l with inbound := [x] }) with boot := { up.boot with uptime := 160000000 } }
def hdr64 : InFlit :=
  { data := BitVec.ofNat 64 (pack [(0, 5, 26), (8, 8, 9), (32, 9, 64), (48, 3, 2), (56, 8, 9)]), sop := true, eop := false }
abbrev streams (u : State) (x : Inbound) : Prop :=
  u.logUp = true ∧ u.looping 1 = false ∧ u.xingOk 8 = true ∧ u.xingOk 9 = true ∧ u.log.inbound = [x] ∧ x.discard = false ∧ x.hole = false ∧
  1 ≤ (Inbound.regrant { x with lastAt := u.boot.uptime }).credit

theorem test_load_premises :
    Live (past0 (fun r => { r with loading := true, loadStep := 3 })) (fun u => u.rck.loading = true ∧ u.rck.loadStep = 3 ∧
      u.boundarySince u.rck.stepAt = true ∧ ∀ x ∈ u.faults.bad, x.1 ≠ .staging) ∧
    Live (past0 (fun r => { r with loading := true, loadStep := 5 })) (fun u => u.rck.loading = true ∧ u.rck.loadStep = 5 ∧
      u.boundarySince u.rck.stepAt = true ∧ u.rck.mapWaits = []) ∧
    Live (past0 (fun r => { r with stepAt := 3500000, unloadAt := 3500000 })) (fun u => u.boundarySince u.rck.stepAt = false ∧
      u.boundarySince u.rck.unloadAt = false) ∧
    Live (past0 (fun r => { r with unload := true })) (fun u => u.rck.unload = true ∧ u.boundarySince u.rck.unloadAt = true ∧
      u.sxt.chans.length = 64) := by decide +kernel

theorem test_inbound_premises :
    Live (inn (in1 false)) (fun u => streams u (in1 false) ∧ (in1 false).inPkt = false ∧ hdr64.sop = true ∧
      Inbound.headerBad { Inbound.regrant { in1 false with lastAt := u.boot.uptime } with
        credit := (Inbound.regrant { in1 false with lastAt := u.boot.uptime }).credit - 1 } hdr64 = false) ∧
    Live (inn (in1 true)) (fun u => streams u (in1 true) ∧ (in1 true).inPkt = true ∧ (in1 true).kind ≠ .container ∧ 2 ≤ (in1 true).flits ∧
      8 ≤ (in1 true).left) ∧
    Live (inn (in1 true)) (fun u => u.log.inbound = [in1 true] ∧ (in1 true).lastAt + 160000000 ≤ u.boot.uptime ∧
      (in1 true).discard = false ∧ 1 ≤ (in1 true).regrant.credit ∧ (in1 true).kind = .spdm) := by decide +kernel

/-- An event packet of one flit waiting to leave. -/
def pkt1 : Packet := { ptype := 1, src := 0, nrec := 1, seq := 0, mst := 2, brk := false, gap := false, epoch := 0, stamp := 0, body := [5, 6] }

theorem test_log_event_premises :
    Live up (fun u => u.logUp = true ∧ u.xingOk 9 = true ∧ u.tests.loopOut = 0 ∧ u.log.credits < 1023) ∧
    Live (upLog (fun l => { l with credits := 1023 })) (fun u => u.logUp = true ∧ u.xingOk 9 = true ∧ u.tests.loopOut = 0 ∧
      1023 ≤ u.log.credits) ∧
    (∀ n, n = 0 ∨ n = 8 → Live (upLog (fun l => { l with q0 := [pkt1], credits := n })) (fun u => u.logUp = true ∧ u.xingOk 7 = true ∧
      u.xingOk 9 = true ∧ u.looping 1 = false ∧ u.log.nextClass = some 0 ∧ u.log.queue 0 = [pkt1] ∧
      (n = 0 → u.log.credits < pkt1.flits) ∧ (n = 8 → pkt1.flits ≤ u.log.credits))) ∧
    Live ((upLog (fun l => { l with q0 := [pkt1] })).modXing 7 0 (fun x => { x with stale := true })) (fun u => u.logUp = true ∧
      u.xingOk 7 = false ∧ 7 < u.xings.main.length ∧ u.looping 1 = false ∧ u.log.nextClass = some 0 ∧ u.log.queue 0 = [pkt1]) ∧
    Live (upLog (fun l => { l with evWait := [0x1203] })) (fun u => u.boot.uptime < u.log.evAt + 3200 ∧ u.boot.uptime < u.log.thrAt + 1600000 ∧
      u.boot.uptime < (u.chan 0).fifoAt.headD 0 + 16000) ∧
    Live { upLog (fun l => { l with evWait := [0x1203] }) with boot := { up.boot with uptime := 3200 } } (fun u => u.log.evWait = [0x1203] ∧
      u.log.evAt + 3200 ≤ u.boot.uptime ∧ bit (0x1203 : BitVec 128) 13 = false ∧ u.roomFor 1 4 = true) := by
  refine ⟨by decide +kernel, by decide +kernel, fun n h => ?_, by decide +kernel, by decide +kernel, by decide +kernel⟩
  rcases h with rfl | rfl <;> decide +kernel

/-! ## O45 ClocksAndCrossings, O46 TestsAndTap -/

theorem test_memory_premises :
    (∀ r, (eccPlace r).isSome = true → 5 < regionWords r) ∧ eccPlace .weight = some 0 ∧
    Live up (fun u => (MemRegion.weight, 5) ∉ u.faults.bad ∧ (MemRegion.weight, 5) ∉ u.faults.once ∧ u.helm.stage = .run) ∧
    Live (upFlt (fun f => { f with once := [(.weight, 5)] })) (fun u => (MemRegion.weight, 5) ∉ u.faults.bad ∧
      (MemRegion.weight, 5) ∈ u.faults.once ∧ (MemRegion.weight, 5) ∉ u.faults.sticky) := by
  refine ⟨fun r => ?_, by decide +kernel⟩
  cases r <;> decide

/-- Crossing 15 stale; crossing 16 with its wait reported. -/
def stale15 : State := up.modXing 15 0 (fun c => { c with stale := true })
def seen16 : State := up.modXing 16 0 (fun c => { c with toSeen := true })

theorem test_crossing_premises :
    Live up (fun u => bit u.boot.clkStopped (domIdx .sxt) = false ∧ bit u.boot.clkStopped 4 = false ∧ xingWaits 16 = true ∧
      xingWaits 24 = true ∧ u.present 0 = true ∧ (u.xing 16 0).toSeen = false ∧ 20 < u.xings.main.length ∧ (u.xing 14 0).stale = false ∧
      (7 : Byte) ≠ (u.xing 14 0).own ∧ (u.xing 20 0).stale = false ∧ (7 : Byte) ≠ (u.xing 20 0).own) ∧
    Live { lode id with boot := { up.boot with clkStopped := 0 } } (fun u => bit u.boot.clkStopped (domIdx .lode) = false ∧ u.sxt.enabled = true) ∧
    Live seen16 (fun u => xingWaits 16 = true ∧ (u.xing 16 0).toSeen = true) ∧
    Live (run0 .warm) (fun u => u.present 0 = true ∧ (u.xing 23 0).stale = false ∧ (7 : Byte) ≠ (u.xing 23 0).own ∧
      (u.xing 24 0).stale = false ∧ (7 : Byte) ≠ (u.xing 24 0).own ∧ 0 < u.tiles.length ∧ (u.tile 0).st = .running) ∧
    Live stale15 (fun u => (u.xing 15 0).stale = true ∧ (u.xing 15 0).failed = false) := by decide +kernel

/-- A deferred test of tile 1's calibration; a lifecycle further on. -/
def test2 : Test := { handle := 6, id := 0x91, target := 1, res := 0, detail := 0 }
def lcAt (k : Nat) : State := { up with trust := up.trust.blow (BitVec.ofNat 3776 (2 ^ k)) }

theorem test_deferred_premises :
    Live (upTst (fun t => { t with list := [test2] })) (fun u => u.tests.list.find? (fun x => x.handle == 6) = some test2 ∧ test2.res = 0 ∧
      u.tests.grant = none ∧ test2.id = 0x91 ∧ (u.tile test2.target.toNat).st ≠ .running ∧ u.haltedB = false) ∧
    Live (upBoot (fun b => { b with trip := true })) (fun u => u.haltedB = true) ∧
    Live (upTst (fun t => { t with list := [test1], grant := some grant1 })) (fun u =>
      u.tests.list.find? (fun x => x.handle == 5) = some test1 ∧ test1.res = 0 ∧ u.tests.grant = some grant1 ∧ grant1.covers test1 = true ∧ u.haltedB = false) ∧
    Live (upTst (fun t => { t with grant := some { grant1 with till := 0 } })) (fun u => u.tests.grant = some { grant1 with till := 0 } ∧
      ({ grant1 with till := 0 } : Grant).till ≤ u.boot.uptime ∧ u.tests.list = []) ∧
    (∀ u, u = (upTst (fun t => { t with lbkCfg := BitVec.ofNat 40 (6 + 256 * 5) })).tick 0 → 6 = fld u.tests.lbkCfg 0 4 ∧
      fld u.tests.lbkCfg 4 4 ≤ min 1 (ifDepth 6) ∧ fld u.tests.lbkCfg 8 32 ≠ 0 ∧ u.ifBusy 6 = false ∧ u.boot.inReset = false ∧
      u.xingOk 22 = true) := by
  refine ⟨by decide +kernel, by decide +kernel, by decide +kernel, by decide +kernel, fun u h => ?_⟩
  subst h
  decide +kernel

theorem test_tap_lifecycles :
    ((held false).tick 0).trust.lcCode = 1 ∧ ((held false).tick 0).boot.inReset = true ∧ ((held false).tick 0).xingOk 22 = true ∧
    (rom.tick 0).trust.lcCode ≤ 2 ∧ (rom.tick 0).helm.stage = .rom ∧ (rom.tick 0).xingOk 22 = true ∧
    (up.tick 0).trust.lcCode = 1 ∧ (up.tick 0).xingOk 22 = true ∧ fusePlace .fwRev = some (1992, 4) ∧
    fld (up.tick 0).trust.fuses 1992 4 = 0 ∧ fld (up.tick 0).trust.fuses 0 384 = 0 := by decide +kernel
theorem test_later_lifecycles :
    ((lcAt 384).tick 0).trust.lcCode = 2 ∧ ((lcAt 385).tick 0).trust.lcCode = 3 ∧ ((lcAt 385).tick 0).xingOk 22 = true ∧
    ((lcAt 386).tick 0).trust.lcCode = 4 ∧ ((lcAt 1993).tick 0).trust.lcCode = 1 ∧ fld ((lcAt 1993).tick 0).trust.fuses 1992 4 ≠ 0 := by
  decide +kernel

/-! ## O47 to O60: rules over every state -/

theorem test_queue_premises : ({ up with pending := [.trst 0] } : State).pending = [.trst 0] ∧ State.reset.pending = [] ∧
    (rq (List.replicate 15 5)).args.length ≤ 15 ∧ (okR (List.replicate 15 5)).words.length ≤ 15 := by decide
theorem test_answer_premises : up.mbxs.length = 8 ∧ up.ctlUp = true ∧ ({ up with ctl := { up.ctl with rst := true } } : State).ctlUp = false := by
  decide +kernel
theorem test_window_premises :
    Live up (fun u => u.portUp = true) ∧ Live (upBoot (fun b => { b with clkStopped := 16 })) (fun u => u.portUp = true ∧ u.coreStopped = true) ∧
    throughCore (4 * (0x300#14).toNat) = true ∧ 4 * (0x3FFF#14).toNat ∉ [0x0100, 0x0104, 0x010C, 0x0200, 0x0C00, 0x0C04, 0x0C08, 0x0E00, 0x0E04,
      0x0E08, 0x0F00] := by decide +kernel
theorem test_throttle_choice_premises : passOf 1 0 = (1, 0, true) ∧ passOf 256 0 = (8, 0, false) ∧ passOf 255 16 = (8, 1, false) := by
  decide +kernel
theorem test_clip_premises : floorClip 256 1 16 1 = (0, 0) ∧ floorClip 1 1 0 0 = (0, 0) ∧
    capStep 8 0 8 2 { num := 1 } = 8 ∧ capStep 250 100 8 2 {} = 256 := by decide +kernel
/-- Tile 0, of a class 0, with a pre-stretch of 4 in force under a floor of f/256. -/
def held4 (f : BitVec 64) : State :=
  ({ upRck (fun r => { r with classes := [cls0] }) with power := { up.power with floorNow := f } } : State).modTile 0 (fun t => { t with
    code := 24576, planLim := 8, events := [{ inst := 9, preStart := 1, preEnd := 8, dipStart := 0, dipEnd := 0, preK := 4, dip := 0
                                              hail := false, need := 0, preOn := true }] })
theorem test_recheck_premises :
    ((held4 1).tile 0).rawPlan = (4, 0) ∧ (held4 1).heldPlan 0 = (4, 0) ∧ ((held4 256).tile 0).rawPlan = (4, 0) ∧
    ¬ (4 = ((held4 256).tile 0).heldK.toNat ∧ 0 = ((held4 256).tile 0).heldD.toNat) ∧ (held4 256).heldPlan 0 = (0, 0) ∧
    (held4 256).cls ((held4 256).classOf 0) = some cls0 := by decide +kernel
/-- 11 R292: the clip counts once while what is held does not change. -/
theorem test_clip_once : (((held4 256).redip 0).redip 0).rck.classes.map (·.clips) = [1] := by decide +kernel
theorem test_event_premises : up.faults.queue.length < 256 ∧ Taken false up (rq []) (fun _ => up.boot.inReset = false) := by decide +kernel
theorem test_events_full : 256 ≤ (upFlt (fun f => { f with queue := List.replicate 256 0 })).faults.queue.length := by
  decide +kernel
theorem test_memory_form : Memory.wf [(3, 7), (4, 1)] = true := by decide
theorem test_structure_premises : MemOk { up with pending := [] } ∧ Sized { up with pending := [] } ∧
    step { up with pending := [] } = .next { up with pending := [] } := ⟨by unfold MemOk; decide +kernel, by unfold Sized; decide +kernel, rfl⟩

/-- A chip stopped by a thermal trip, with its one tile halted. -/
def stopped : State := { up with boot := { up.boot with trip := true, chipStop := true }, tiles := [{ st := .halted }] }

theorem test_halt_inv : HaltInv State.reset ∧ HaltInv stopped ∧ stopped.boot.chipStop = true ∧ (stopped.tile 0).st = .halted := by
  refine ⟨⟨by decide, fun h => by cases h⟩, ⟨by decide, fun _ i h _ => ?_⟩, by decide, by decide⟩
  have : i = 0 := by change i < 1 at h; omega
  subst this
  decide
theorem test_stop_premises : ({ stopped with pending := [.trst 0] } : State).pending = [.trst 0] ∧
    (∀ dt, Instr.trst 0 ≠ .brnRstAssert dt ∧ Instr.trst 0 ≠ .powerOnMonitor dt) ∧
    ∃ t, step { stopped with pending := [.trst 0] } = .next t :=
  ⟨rfl, fun _ => ⟨nofun, nofun⟩, _, rfl⟩

/-! ## The manual's worked examples -/

/-- 09 R245: a limit of 1,800,000 mW with a margin of 2 %. -/
def mW (x : Nat) : Frac := { num := 65536 * x }
theorem test_cap_steps : capStep 256 1800000 8 2 (mW 1890000) = 238 ∧ capStep 238 1800000 8 2 (mW 1860000) = 225 ∧
    capStep 225 1800000 8 2 (mW 1770000) = 224 ∧ capStep 224 1800000 8 2 (mW 1700000) = 224 ∧ capStep 224 1800000 8 2 (mW 1650000) = 232 := by decide
/-- The same example: q = 224 under `plan_lim` 6 gives m = 7 and k = 0. 04 R124: m = 5 passes periods 1, 3, 4, 6 and 7. -/
theorem test_rate_224 : passOf 224 6 = (7, 0, false) ∧ (List.range 8).filter (fun n => passes n 5) = [1, 3, 4, 6, 7] := by decide
/-- 11 R292: floor 208, cost 24,576, stretch 4 and dip 3,072: the dip falls to 2,112. -/
theorem test_floor_clip : floorClip 208 24576 4 3072 = (4, 2112) := by decide

/-! ## Single steps -/

/-- The state after one command. -/
def after (c : Instr) (s : State) : State :=
  match step { s with pending := [c] } with
  | .next t => t
  | _ => s
/-- The response words of mailbox 0 after a command: its status byte, and its first results. -/
def answer (c : Instr) (s : State) : Nat × List Word :=
  let w := ((after c s).mbx 0).resp
  (fld (w.getD 0 0) 16 8, (w.drop 1).take (fld (w.getD 0 0) 28 4))

/-- 14 Table 14.2: IDENTIFY in ROM; CAPS of one tile of each class. -/
theorem test_identify : answer (.identify 0 (rq [])) rom = (0, [0x00040002, 0, 0, 1, 0, 0]) := by decide +kernel
theorem test_caps : answer (.caps 0 (rq [])) up = (0, [0x00040201, 0]) := by decide +kernel
/-- 13 R318: a reserved bit is BAD_ARG naming its word; and a `len` that does not fit. -/
theorem test_reserved_bit : answer (.setSafeQ 0 (rq [0x80000040])) up = (0x10, [0x101, 0, 0]) := by decide +kernel
theorem test_short_request : answer (.setSafeQ 0 (rq [])) up = (0x10, [1, 0, 0]) := by decide +kernel
/-- 14 Table 14.3: SET_SAFE_Q in force. -/
theorem test_safe_q : (after (.setSafeQ 0 (rq [64])) up).power.safeQ = 64 := by decide +kernel
/-- 02 R44: a write to an address that names no register does nothing. 13 R319: a request word is written. -/
theorem test_window : (after (.registerWrite 0 0x3FFF 5) up).ctl.err = false ∧ ((after (.registerWrite 0 0x121 5) up).mbx 2).reqArea.getD 1 0 = 5 := by
  decide +kernel
/-- 13 R320: a doorbell on a mailbox in hand is misuse. -/
theorem test_misuse : ((after (.mbxDoorbell 0 4) (inMb 0x01 .posted)).mbx 2).misuse = 1 ∧
    (after (.mbxDoorbell 0 4) (inMb 0x01 .posted)).ctl.misuse = true := by decide +kernel
/-- 18 R410: IDCODE's part number and version. -/
theorem test_idcode : fld (after (.idcode 0) up).tests.dr 12 16 = 0xB256 := by decide +kernel

end Sys2Proof.Tests
end

section
/-! SUPPORT. The bytes and words of a number (00 R14; 14 R328): what each position holds, and that reading the bytes back gives the number. -/

namespace Sys2Proof.Proofs

open Sys2Proof.Machine

/-- Piece `k + 1` of a number cut into pieces of `w` bits is piece `k` of what stands above its lowest piece. -/
theorem div_two_pow_mul_succ (w x k : Nat) : x / 2 ^ (w * (k + 1)) = (x >>> w) / 2 ^ (w * k) := by
  rw [Nat.shiftRight_eq_div_pow, Nat.div_div_eq_div_mul, ← Nat.pow_add, Nat.mul_succ, Nat.add_comm]

/-! ## Bytes -/

/-- As many bytes as were asked for. -/
@[simp] theorem length_bytesOf (n x : Nat) : (bytesOf n x).length = n := by
  induction n generalizing x with
  | zero => rfl
  | succ n ih => simp [bytesOf, ih]

/-- 00 R14: byte `k` holds bits [8k+7:8k]. -/
theorem toNat_getD_bytesOf {n k : Nat} (x : Nat) (hk : k < n) :
    ((bytesOf n x).getD k 0).toNat = x / 2 ^ (8 * k) % 256 := by
  induction n generalizing x k with
  | zero => omega
  | succ n ih =>
    cases k with
    | zero => simp [bytesOf]
    | succ k =>
      rw [div_two_pow_mul_succ, ← ih (x >>> 8) (Nat.lt_of_succ_lt_succ hk)]
      rfl

/-- The first byte stands lowest, below all the others. -/
theorem natOfBytes_cons (b : Byte) (bs : List Byte) : natOfBytes (b :: bs) = b.toNat + 256 * natOfBytes bs := by
  simp [natOfBytes, Nat.shiftLeft_eq, Nat.mul_comm]

theorem natOfBytes_cons_mod (b : Byte) (bs : List Byte) : natOfBytes (b :: bs) % 256 = b.toNat := by
  have := b.isLt
  rw [natOfBytes_cons]; omega

theorem natOfBytes_cons_shiftRight (b : Byte) (bs : List Byte) : natOfBytes (b :: bs) >>> 8 = natOfBytes bs := by
  have := b.isLt
  rw [natOfBytes_cons, Nat.shiftRight_eq_div_pow]; omega

/-- Cutting a number into `n` bytes loses only what stands above them. -/
theorem natOfBytes_bytesOf (n x : Nat) : natOfBytes (bytesOf n x) = x % 2 ^ (8 * n) := by
  induction n generalizing x with
  | zero => simp [bytesOf, natOfBytes, Nat.mod_one]
  | succ n ih =>
    calc natOfBytes (bytesOf (n + 1) x)
        = x % 2 ^ 8 + 2 ^ 8 * (x / 2 ^ 8 % 2 ^ (8 * n)) := by
          simp [bytesOf, natOfBytes_cons, ih, Nat.shiftRight_eq_div_pow]
      _ = x % 2 ^ (8 * (n + 1)) := by rw [Nat.mul_succ, Nat.add_comm (8 * n), Nat.pow_add, Nat.mod_mul]

/-- 00 R14 read the other way; past the last byte both sides are 0. -/
theorem natOfBytes_div_mod (bs : List Byte) (k : Nat) :
    natOfBytes bs / 2 ^ (8 * k) % 256 = (bs.getD k 0).toNat := by
  induction bs generalizing k with
  | nil => simp [natOfBytes]
  | cons b bs ih =>
    cases k with
    | zero => simpa using natOfBytes_cons_mod b bs
    | succ k => rw [div_two_pow_mul_succ, natOfBytes_cons_shiftRight, ih, List.getD_cons_succ]

/-- Bytes are recovered from the number that they spell. -/
theorem bytesOf_natOfBytes (bs : List Byte) : bytesOf bs.length (natOfBytes bs) = bs := by
  induction bs with
  | nil => rfl
  | cons b bs ih =>
    have hb : BitVec.ofNat 8 (natOfBytes (b :: bs)) = b :=
      BitVec.eq_of_toNat_eq (by rw [BitVec.toNat_ofNat]; exact natOfBytes_cons_mod b bs)
    rw [List.length_cons, bytesOf, hb, natOfBytes_cons_shiftRight, ih]

/-! ## Words -/

/-- 14 R328: word `k` holds bits [32k+31:32k]. -/
theorem toNat_getD_wordsOf {n k : Nat} (x : Nat) (hk : k < n) :
    ((wordsOf n x).getD k 0).toNat = x / 2 ^ (32 * k) % 2 ^ 32 := by
  induction n generalizing x k with
  | zero => omega
  | succ n ih =>
    cases k with
    | zero => simp [wordsOf, w32]
    | succ k =>
      rw [div_two_pow_mul_succ, ← ih (x >>> 32) (Nat.lt_of_succ_lt_succ hk)]
      rfl

/-- Settles O51, from what each position holds and the two ways of reading bytes back. -/
theorem byteOrder : Obligations.ByteOrder :=
  ⟨fun n x => ⟨length_bytesOf n x, fun _ hk => toNat_getD_bytesOf x hk, natOfBytes_bytesOf n x⟩,
    natOfBytes_div_mod, bytesOf_natOfBytes, fun _ x _ hk => toNat_getD_wordsOf x hk⟩

end Sys2Proof.Proofs
end

section
/-! SUPPORT. DOMAIN_POWER and TILE_CAPTURE (14 0x26, 0x2A; 01 R30; 04 R132; 08 R229): what the aborts of a revalidation leave of the
tiles, what an off report leaves of a tile of its domain, and the requests of the three rows. -/

namespace Sys2Proof.Proofs

open Sys2Proof.Machine Sys2Proof.Safety Sys2Proof.Laws

/-! ## What answers, records and events leave alone -/

/-- A change that touches neither tiles, resets nor tie-offs may come first. -/
theorem still_of_update {s t u : State} (h : Still t u) (tiles : t.tiles = s.tiles := by rfl) (boot : t.boot = s.boot := by rfl)
    (ties : t.ties = s.ties := by rfl) : Still s u :=
  Still.trans ⟨tiles, boot, ties⟩ h

theorem still_each_settle {α : Type} (s : State) (l : List α) (m : α → BitVec 3) (r : Resp) :
    Still s (s.each l (fun s x => s.settle (m x) r)) :=
  .each (fun _ _ => still_settle ..) s l

theorem still_sendRecs (s : State) (ty src nrec : Nat) (t : Time) (b : List Flit) : Still s (s.sendRecs ty src nrec t b) := by
  unfold State.sendRecs
  split <;> exact ⟨rfl, rfl, rfl⟩

theorem still_logPacket (s : State) (ty src nrec : Nat) (t : Time) (b : List Flit) : Still s (s.logPacket ty src nrec t b) := by
  unfold State.logPacket
  split
  · exact still_sendRecs ..
  · exact ⟨rfl, rfl, rfl⟩

theorem still_formEvents (s : State) : Still s s.formEvents := by
  unfold State.formEvents
  split
  · exact ⟨rfl, rfl, rfl⟩
  · exact still_of_update (still_sendRecs ..)

theorem still_raiseC (s : State) (code : Nat) (idx : Option Nat) (arg : Nat) (cont : Option (Nat × Nat)) :
    Still s (s.raiseC code idx arg cont) := by
  rw [raiseC_eq]
  dsimp only
  split
  · split
    · exact still_of_update (still_formEvents _)
    · exact ⟨rfl, rfl, rfl⟩
  · exact ⟨rfl, rfl, rfl⟩

theorem still_resolve (s : State) (k : Nat) (r : KsRes) : Still s (s.resolve k r) :=
  (still_of_update (still_logPacket ..)).trans (still_each_settle _ _ id _)

theorem still_settleMove (s : State) (m : Word) (r : Resp) : Still s (s.settleMove m r) :=
  still_of_update (still_each_settle _ _ Prod.snd r)

theorem still_sendNak (s : State) (reason cause status : Nat) (m : Word) (t : Time) : Still s (s.sendNak reason cause status m t) :=
  still_of_update (still_cvyPump _)

theorem still_outOfStep (s : State) (m : Word) (b : Bool) : Still s (s.outOfStep m b) :=
  still_of_update (still_raiseC ..)

theorem still_convoyAbort (s : State) (x : Slot) (cause : Nat) (r : KsRes) : Still s (s.convoyAbort x cause r) := by
  unfold State.convoyAbort
  split
  · exact ⟨rfl, rfl, rfl⟩
  · exact ⟨rfl, rfl, rfl⟩
  · exact (still_settleO ..).trans ⟨rfl, rfl, rfl⟩
  · refine (still_settleMove s x.mseq (abortedR r)).trans ?_
    dsimp only
    split
    · exact (still_sendNak ..).trans (still_outOfStep ..)
    · exact (still_sendNak ..).trans (still_outOfStep ..)

theorem tile_still {s t : State} (h : Still s t) (i : Nat) : t.tile i = s.tile i := by
  unfold State.tile
  rw [h.tiles]

/-! ## Keystones that abort take nothing from a tile that prepares no handover (08 R231, R232) -/

theorem tile_abortOne {s : State} {i : Nat} (h : (s.tile i).hov = none) (k cause : Nat) (f : Option (Nat × Nat)) :
    (s.abortOne k cause f).tile i = s.tile i := by
  unfold State.abortOne
  dsimp only
  split
  · rfl
  · have hv := tile_still ((still_resolve s k ((s.slot k).res k .aborted cause f)).trans
      (still_settleO _ (s.slot k).sealMbx (abortedR ((s.slot k).res k .aborted cause f)))) i
    refine (tile_still ((still_raiseC ..).trans (still_convoyAbort ..)) i).trans ?_
    refine (tile_mapIdx _ _ i).trans ?_
    simp [hv, h]

theorem tile_revalidate {s : State} {i : Nat} (h : (s.tile i).hov = none) (n t0 : Nat) (l : List (Nat × Nat)) :
    (s.revalidate n t0 l).tile i = s.tile i := by
  induction n generalizing s l with
  | zero => rfl
  | succ n ih =>
    unfold State.revalidate
    dsimp only
    split
    · rfl
    · rename_i k a tg x _
      have ha := tile_abortOne h k 10 (some (a, tg))
      rw [ih (by rw [ha]; exact h), ha]

/-! ## What a tile gives up when its clock stops (06 R181; 09 R250) -/

/-- As many tiles, of the same classes. -/
structure SameShape (s t : State) : Prop where
  ties : t.ties = s.ties
  tiles : t.tiles.length = s.tiles.length

theorem SameShape.trans {s t u : State} (a : SameShape s t) (b : SameShape t u) : SameShape s u :=
  ⟨b.ties.trans a.ties, b.tiles.trans a.tiles⟩

theorem SameShape.of_still {s t : State} (h : Still s t) : SameShape s t := ⟨h.ties, by rw [h.tiles]⟩

theorem SameShape.present {s t : State} (h : SameShape s t) (i : Nat) : t.present i = s.present i := by
  unfold State.present State.clsOf
  rw [h.ties]

theorem sameShape_modTile (s : State) (j : Nat) (f : Tile → Tile) : SameShape s (s.modTile j f) := ⟨rfl, List.length_modify ..⟩

theorem sameShape_abandon (s : State) (j : Nat) : SameShape s (s.abandon j) := by
  unfold State.abandon
  split
  · exact ⟨rfl, rfl⟩
  · exact SameShape.trans (t := s.countAbandon j) ⟨rfl, rfl⟩ (sameShape_modTile ..)

theorem sameShape_dropCheck (s : State) (j : Nat) : SameShape s (s.dropCheck j) := by
  refine List.foldlRecOn (motive := SameShape s) _ _ ⟨rfl, rfl⟩ (fun v hv r _ => ?_)
  split
  · split
    · exact hv.trans ⟨rfl, List.length_modify ..⟩
    · exact hv
  · exact hv

theorem tile_abandon_ne {i j : Nat} (s : State) (h : j ≠ i) : (s.abandon j).tile i = s.tile i := by
  unfold State.abandon
  split
  · rfl
  · rw [tile_modTile, if_neg (fun e => h e.1)]
    rfl

theorem st_abandon (s : State) (j i : Nat) : ((s.abandon j).tile i).st = (s.tile i).st := by
  unfold State.abandon
  split
  · rfl
  · rw [tile_modTile]
    split
    · exact foldl_endEvent_st ..
    · rfl

/-- A check that is dropped touches at most the plumbs of its own tile. -/
theorem tile_dropCheck {P : Tile → Prop} {s : State} {i j : Nat} (hP : j = i → ∀ t ps, P t → P { t with plumbs := ps })
    (h : P (s.tile i)) : P ((s.dropCheck j).tile i) := by
  refine List.foldlRecOn (motive := fun v : State => P (v.tile i)) _ _ h (fun v hv r _ => ?_)
  split
  · split
    · rw [State.modPlumb, tile_modTile]
      split
      · next hj => exact hP hj.1 _ _ hv
      · exact hv
    · exact hv
  · exact hv

/-! ## One tile of a domain reported off (04 R132) -/

theorem sameShape_tileOff (s : State) (j : Nat) : SameShape s (s.tileOff j) := by
  unfold State.tileOff
  dsimp only
  split
  · exact ⟨rfl, rfl⟩
  · exact (((sameShape_abandon s j).trans (sameShape_modTile ..)).trans
      (.of_still (.each (fun _ _ => still_settleO ..) _ _))).trans (sameShape_dropCheck _ j)

/-- What an off report makes of a tile that was in state `g`: DOMAIN_OFF, its oscillators stopped, its handover, swaps and window given up,
the state for the return noted (04 R132). -/
structure TurnedOff (g : GenSt) (t : Tile) : Prop where
  st : t.st = .domainOff
  ret : t.ret = if g = .gated then .gated else .running
  stby : t.stby = .off
  runCode : t.runCode = 0
  hov : t.hov = none
  window : t.window = []
  sched : ∀ x ∈ t.sched, x.act ≠ .swap

/-- Another tile of the domain is as it was, and so is a tile that is off already. -/
theorem tile_tileOff_eq {s : State} {i j : Nat} (h : j ≠ i ∨ (s.tile i).st = .domainOff) : (s.tileOff j).tile i = s.tile i := by
  unfold State.tileOff
  dsimp only
  split
  · rfl
  · rename_i hg
    have hji : j ≠ i := by
      rcases h with h | h
      · exact h
      · rintro rfl
        simp [h] at hg
    refine tile_dropCheck (P := (· = s.tile i)) (fun e => absurd e hji) ?_
    rw [tile_still (.each (fun _ _ => still_settleO ..) _ _), tile_modTile, if_neg (fun e => hji e.1), tile_abandon_ne s hji]

theorem turnedOff_tileOff {s : State} {i : Nat} (hp : s.present i = true) (hi : i < s.tiles.length)
    (hs : (s.tile i).st = .running ∨ (s.tile i).st = .starting ∨ (s.tile i).st = .gated) :
    TurnedOff (s.tile i).st ((s.tileOff i).tile i) := by
  unfold State.tileOff
  dsimp only
  rw [if_neg (by rcases hs with hs | hs | hs <;> simp [hs, hp])]
  refine tile_dropCheck (fun _ t ps ht => ⟨ht.st, ht.ret, ht.stby, ht.runCode, ht.hov, ht.window, ht.sched⟩) ?_
  rw [tile_still (.each (fun _ _ => still_settleO ..) _ _), tile_modTile, if_pos ⟨rfl, by rw [(sameShape_abandon s i).tiles]; exact hi⟩]
  refine ⟨rfl, ?_, rfl, rfl, rfl, rfl, fun x hx => by simpa using (List.mem_filter.1 hx).2⟩
  simp only [st_abandon]
  rcases hs with hs | hs | hs <;> simp [hs]

/-! ## The domain (01 R30) -/

/-- The other tiles of the domain do nothing to a tile that is off. -/
theorem tile_each_tileOff {s : State} {i : Nat} (h : (s.tile i).st = .domainOff) (l : List Nat) :
    (s.each l State.tileOff).tile i = s.tile i :=
  List.foldlRecOn (motive := fun v : State => v.tile i = s.tile i) l _ rfl
    (fun _ hv _ _ => (tile_tileOff_eq (.inr (by rw [hv]; exact h))).trans hv)

theorem turnedOff_each {s : State} {i : Nat} {l : List Nat} (hl : i ∈ l) (hp : s.present i = true) (hi : i < s.tiles.length)
    (hs : (s.tile i).st = .running ∨ (s.tile i).st = .starting ∨ (s.tile i).st = .gated) :
    TurnedOff (s.tile i).st ((s.each l State.tileOff).tile i) := by
  induction l generalizing s with
  | nil => cases hl
  | cons j r ih =>
    change TurnedOff _ (((s.tileOff j).each r State.tileOff).tile i)
    by_cases hj : j = i
    · subst hj
      have ho := turnedOff_tileOff hp hi hs
      rw [tile_each_tileOff ho.st]
      exact ho
    · have ht : (s.tileOff j).tile i = s.tile i := tile_tileOff_eq (.inl hj)
      have hr : i ∈ r := (List.mem_cons.1 hl).resolve_left (Ne.symm hj)
      rw [← ht]
      exact ih hr (by rw [(sameShape_tileOff s j).present]; exact hp) (by rw [(sameShape_tileOff s j).tiles]; exact hi)
        (by rw [ht]; exact hs)

theorem turnedOff_domainOff {s : State} {d i : Nat} (hd : i ∈ s.domTiles d) (hi : i < s.tiles.length)
    (hs : (s.tile i).st = .running ∨ (s.tile i).st = .starting ∨ (s.tile i).st = .gated) :
    TurnedOff (s.tile i).st ((s.domainOff d).tile i) := by
  have hp : s.present i = true := (Bool.and_eq_true_iff.1 (List.mem_filter.1 hd).2).1
  have ho := turnedOff_each hd hp hi hs
  have hv : ∀ (v : State) o r, (v.settleO o r).tile i = v.tile i := fun v o r => tile_still (still_settleO v o r) i
  unfold State.domainOff
  dsimp only
  rw [tile_revalidate]
  · rw [hv]; exact ho
  · rw [hv]; exact ho.hov

/-! ## Time, targets and captures as a request finds them, and as an answer leaves them -/

@[simp] theorem key_posted (u : State) (op : Byte) (q : Req) (T : Time) : (posted u op q).key T = u.key T := rfl
@[simp] theorem inHorizon_posted (u : State) (op : Byte) (q : Req) (T : Time) : (posted u op q).inHorizon T = u.inHorizon T := rfl
@[simp] theorem schedulable_posted (u : State) (op : Byte) (q : Req) : (posted u op q).schedulable = u.schedulable := rfl
@[simp] theorem domTiles_posted (u : State) (op : Byte) (q : Req) (d : Nat) : (posted u op q).domTiles d = u.domTiles d := rfl
@[simp] theorem capsHeld_posted (u : State) (op : Byte) (q : Req) : (posted u op q).capsHeld = u.capsHeld := rfl

theorem mer_settleO (v : State) (o : Option (BitVec 3)) (r : Resp) : (v.settleO o r).mer = v.mer := by
  cases o
  · rfl
  · unfold State.settleO State.settle
    dsimp only
    split <;> rfl

theorem key_settleO (v : State) (o : Option (BitVec 3)) (r : Resp) (T : Time) : (v.settleO o r).key T = v.key T := by
  unfold State.key
  rw [mer_settleO]

theorem domTiles_settleO (v : State) (o : Option (BitVec 3)) (r : Resp) (d : Nat) : (v.settleO o r).domTiles d = v.domTiles d := by
  unfold State.domTiles State.present State.clsOf State.domOf
  rw [(still_settleO v o r).ties]

/-! ## The requests (14 0x26, 0x2A) -/

/-- Word 1 of a DOMAIN_POWER row: the operand with the row's direction in bit 8. -/
def domWord (on : Bool) (a : Word) : Word := (a &&& ~~~0x100#32) ||| BitVec.ofNat 32 (if on then 256 else 0)

theorem args_withDomOp {q : Req} {a b c : Word} (on : Bool) (h : q.args = [a, b, c]) : (withDomOp on q).args = [domWord on a, b, c] := by
  simp [withDomOp, h, domWord]

theorem w64_withDomOp {q : Req} {a b c : Word} (on : Bool) (h : q.args = [a, b, c]) : (withDomOp on q).w64 2 = q.w64 2 := by
  simp [Req.w64, Req.w, args_withDomOp on h, h]

theorem w_withDomOp {q : Req} {a b c : Word} (on : Bool) (h : q.args = [a, b, c]) : (withDomOp on q).w 1 = domWord on a := by
  simp [Req.w, args_withDomOp on h]

theorem reqDom_withDomOp {q : Req} {a b c : Word} (on : Bool) (h : q.args = [a, b, c]) :
    reqDom (withDomOp on q) = a.toNat % 256 := by
  have low : (domWord on a).setWidth 8 = a.setWidth 8 &&& BitVec.allOnes 8 := by
    cases on <;> simp [domWord, BitVec.setWidth_and, BitVec.setWidth_or]
  rw [BitVec.and_allOnes] at low
  simpa [reqDom, fld, w_withDomOp on h] using congrArg BitVec.toNat low

/-- Bit 8 of the request carries the row's direction. -/
theorem bit_withDomOp {q : Req} {a b c : Word} (on : Bool) (h : q.args = [a, b, c]) : bit ((withDomOp on q).w 1) 8 = on := by
  rw [w_withDomOp on h]
  cases on <;> simp [bit, domWord]

theorem domWord_fits (on : Bool) {a : Word} (h : a &&& ~~~0x1FF#32 = 0) : domWord on a &&& ~~~0x1FF#32 = 0 := by
  have e : (a &&& ~~~0x100#32) &&& ~~~0x1FF#32 = a &&& ~~~0x1FF#32 := by rw [BitVec.and_assoc]; rfl
  unfold domWord
  rw [BitVec.and_or_distrib_right, e, h]
  cases on <;> rfl

/-- One mask: the first argument word alone is held to it. -/
theorem rsvWord_one {m w : Word} (h : w &&& ~~~m = 0) (ws : List Word) : rsvWord 1 [m] (w :: ws) = none := by
  simp only [rsvWord, h, if_true]

section
variable {dt : Nat} {q : Req} {s : State} {a b c : Word}

theorem len_domainPower (on : Bool) (hq : q.args = [a, b, c]) : cmdDomainPower.len (withDomOp on q) = true := by
  simp [cmdDomainPower, lenIs, args_withDomOp on hq]

theorem masks_domainPower (on : Bool) (hq : q.args = [a, b, c]) (ha : a &&& ~~~0x1FF#32 = 0) :
    rsvWord 1 cmdDomainPower.masks (withDomOp on q).args = none := by
  rw [args_withDomOp on hq]
  exact rsvWord_one (domWord_fits on ha) [b, c]

/-- An off report of a domain that exists, its instant 0. -/
theorem domErrs_off (hq : q.args = [a, b, c]) (hd : a.toNat % 256 < 192) (hb : b = 0) (hc : c = 0) (v : State) :
    domErrs v (withDomOp false q) = [] := by
  have hz : q.w64 2 = 0 := by simp [Req.w64, Req.w, hq, hb, hc]
  simp [domErrs, reqDom_withDomOp false hq, bit_withDomOp false hq, w64_withDomOp false hq, hz, hd]

/-- An on report of a domain that exists, its instant within the horizon and the lead of R132 ahead. -/
theorem domErrs_on (hq : q.args = [a, b, c]) (hd : a.toNat % 256 < 192) {v : State} (hz : v.inHorizon (q.w64 2) = true)
    (hk : 2 ^ 63 + 1024000 ≤ v.key (q.w64 2)) (hr : v.schedulable = true) : domErrs v (withDomOp true q) = [] := by
  have hl : ¬ v.key (q.w64 2) < nowK + 1024000 := Nat.not_lt.2 hk
  simp [domErrs, reqDom_withDomOp true hq, bit_withDomOp true hq, w64_withDomOp true hq, instantBad, hz, hr, hl, hd]

theorem exec_domainPowerOff (h : ready false (s.tick dt) q = true) (hq : q.args = [a, b, c]) (hh : (s.tick dt).haltedB = false)
    (ha : a &&& ~~~0x1FF#32 = 0) (hd : a.toNat % 256 < 192) (hb : b = 0) (hc : c = 0) :
    exec (.domainPowerOff dt q) s =
      .next (State.finish ((posted (s.tick dt) 0x26 (withDomOp false q)).domainOff (a.toNat % 256)) q.mbx (okR [])) := by
  have he := domErrs_off hq hd hb hc (posted (s.tick dt) 0x26 (withDomOp false q))
  refine congrArg Host.Outcome.next (postCmd_final (c := cmdDomainPower) (q := withDomOp false q) h (by simp) (fun _ => hh) rfl
    (len_domainPower false hq) (masks_domainPower false hq ha) ?_ ?_)
  · simp only [cmdDomainPower, he]; rfl
  · simp only [cmdDomainPower, he, bit_withDomOp false hq, reqDom_withDomOp false hq]; rfl

/-- What an on report does where nothing refuses it. -/
theorem run_domainPowerOn (hq : q.args = [a, b, c]) {v : State} (he : domErrs v (withDomOp true q) = []) :
    cmdDomainPower.run v (withDomOp true q) =
      (State.revalidate 4 (v.key (q.w64 2)) ((v.domTiles (a.toNat % 256)).map (fun i => (0, i)))
        (State.settleO { v with domRet := v.domRet.set (a.toNat % 256) (some (q.w64 2, some q.mbx)) }
          ((v.domRet.getD (a.toNat % 256) none).bind (·.2)) (okR [])), .accepted []) := by
  simp only [cmdDomainPower, he, bit_withDomOp true hq, reqDom_withDomOp true hq, w64_withDomOp true hq, key_settleO,
    domTiles_settleO]
  rfl

theorem exec_domainPowerOn (h : ready false (s.tick dt) q = true) (hq : q.args = [a, b, c]) (hh : (s.tick dt).haltedB = false)
    (ha : a &&& ~~~0x1FF#32 = 0) (hd : a.toNat % 256 < 192) (hz : (s.tick dt).inHorizon (q.w64 2) = true)
    (hk : 2 ^ 63 + 1024000 ≤ (s.tick dt).key (q.w64 2)) (hr : (s.tick dt).schedulable = true) :
    exec (.domainPowerOn dt q) s = .next (State.accept (State.revalidate 4 ((s.tick dt).key (q.w64 2))
      (((s.tick dt).domTiles (a.toNat % 256)).map (fun i => (0, i)))
      (State.settleO { posted (s.tick dt) 0x26 (withDomOp true q) with
          domRet := (s.tick dt).domRet.set (a.toNat % 256) (some (q.w64 2, some q.mbx)) }
        (((s.tick dt).domRet.getD (a.toNat % 256) none).bind (·.2)) (okR []))) q.mbx []) := by
  have he : domErrs (posted (s.tick dt) 0x26 (withDomOp true q)) (withDomOp true q) = [] :=
    domErrs_on hq hd (by rw [inHorizon_posted]; exact hz) (by rw [key_posted]; exact hk) (by rw [schedulable_posted]; exact hr)
  refine congrArg Host.Outcome.next (postCmd_accepted (c := cmdDomainPower) (q := withDomOp true q) h (by simp) (fun _ => hh) rfl
    (len_domainPower true hq) (masks_domainPower true hq ha) ?_ ?_)
  · simp only [cmdDomainPower, he]; rfl
  · have run := run_domainPowerOn hq he
    rw [key_posted, domTiles_posted, posted_domRet] at run
    exact run

/-- A group number, or 8 for all groups, keeps within the four bits that the layout names. -/
theorem group_fits (ha : a.toNat ≤ 8) : a &&& ~~~0xF#32 = 0 := by
  have hw : a = BitVec.ofNat 32 (a.toNat) := by simp
  rw [hw]
  generalize a.toNat = n at ha
  interval_cases n <;> rfl

theorem captureErrs_nil {v : State} (hz : q.w64 2 = 0 ∨ v.inHorizon (q.w64 2) = true) (hn : v.keys.caps.length + v.capsHeld ≤ 3)
    (hr : v.schedulable = true) : captureErrs v q 2 true = [] := by
  have hn' : ¬ v.keys.caps.length + v.capsHeld ≥ 4 := by omega
  rcases hz with hz | hz <;> simp [captureErrs, instantBad, hz, hn', hr]

theorem exec_tileCapture (h : ready false (s.tick dt) q = true) (hq : q.args = [a, b, c]) (ha : a.toNat ≤ 8)
    (hz : q.w64 2 = 0 ∨ (s.tick dt).inHorizon (q.w64 2) = true) (hn : (s.tick dt).keys.caps.length + (s.tick dt).capsHeld ≤ 3)
    (hr : (s.tick dt).schedulable = true) :
    exec (.tileCapture dt q) s = .next (State.accept ((posted (s.tick dt) 0x2A q).addCapture (some (BitVec.ofNat 4 a.toNat))
      (if q.w64 2 = 0 then (s.tick dt).mer.now + 1 else q.w64 2) q.mbx) q.mbx []) := by
  have he : captureErrs (posted (s.tick dt) 0x2A q) q 2 true = [] :=
    captureErrs_nil (by rwa [inHorizon_posted]) (by rwa [posted_keys, capsHeld_posted]) (by rwa [schedulable_posted])
  have hg : fld (q.w 1) 0 4 = a.toNat := by
    have hw : q.w 1 = a := by simp [Req.w, hq]
    simp only [hw, fld, Nat.shiftRight_zero]
    omega
  refine congrArg Host.Outcome.next (postCmd_accepted (c := cmdTileCapture) h (by simp) (by simp [cmdTileCapture]) rfl ?_ ?_ ?_ ?_)
  · simp [cmdTileCapture, lenIs, hq]
  · rw [hq]
    exact rsvWord_one (group_fits ha) [b, c]
  · simp only [cmdTileCapture, he, hg, gt_iff_lt, Nat.not_lt.2 ha, if_false]; rfl
  · simp only [cmdTileCapture, he, hg]; rfl

end

/-- Settles O6: the three rows run their bodies, and a tile keeps what its off report makes of it through the revalidation that follows,
since an abort changes only tiles that prepare a handover. -/
theorem domainsAndCapture : Obligations.DomainsAndCapture := by
  rintro dt q s u rfl h a b c hq
  refine ⟨exec_domainPowerOff h hq, fun v d i hd hi hs => ?_, exec_domainPowerOn h hq, exec_tileCapture h hq⟩
  obtain ⟨st, ret, stby, runCode, hov, window, sched⟩ := turnedOff_domainOff hd hi hs
  exact ⟨st, ret, stby, runCode, hov, window, sched⟩

end Sys2Proof.Proofs
end

section
/-! SUPPORT. What the shared operations leave of the halt (02 R66; 04 R131; 09 R261): beside all that `Kept` says, none of them raises
`chip_stop_o`, moves the coolant monitor in or out of STOPPED, trips, or adds a tile. -/

namespace Sys2Proof.Proofs

open Sys2Proof.Machine Sys2Proof.Safety Sys2Proof.Laws

set_option Elab.async false

/-- Everything is kept, and the block is stopped after the change exactly if it was before. -/
structure Calm (s t : State) : Prop extends Kept s t where
  chip : t.boot.chipStop = s.boot.chipStop
  haltB : t.haltedB = s.haltedB
  len : t.tiles.length = s.tiles.length

namespace Calm

theorem refl (s : State) : Calm s s := ⟨.refl s, rfl, rfl, rfl⟩

theorem trans {s t u : State} (a : Calm s t) (b : Calm t u) : Calm s u :=
  ⟨a.toKept.trans b.toKept, b.chip.trans a.chip, b.haltB.trans a.haltB, b.len.trans a.len⟩

/-- The parts of a change from the last to the first: so each is known from the state that it leaves. -/
theorem after {s t u : State} (b : Calm t u) (a : Calm s t) : Calm s u := a.trans b

/-- An update of other fields: each hypothesis is closed by `rfl` where its field is not written. -/
theorem same {s t : State}
    (mem : t.log.mem = s.log.mem := by rfl) (wmem : t.log.wmem = s.log.wmem := by rfl)
    (tiles : t.tiles.length = s.tiles.length := by rfl) (halted : ∀ i, (s.tile i).st = .halted → (t.tile i).st = .halted := by exact fun _ => id)
    (doms : t.doms.length = s.doms.length := by rfl) (domRet : t.domRet.length = s.domRet.length := by rfl)
    (rails : t.rails.length = s.rails.length := by rfl) (mbxs : t.mbxs.length = s.mbxs.length := by rfl)
    (slots : t.keys.slots.length = s.keys.slots.length := by rfl) (chans : t.sxt.chans.length = s.sxt.chans.length := by rfl)
    (pending : t.pending = s.pending := by rfl) (ties : t.ties = s.ties := by rfl)
    (f0 : t.trust.fuse0 = s.trust.fuse0 := by rfl) (f1 : t.trust.fuse1 = s.trust.fuse1 := by rfl) (f2 : t.trust.fuse2 = s.trust.fuse2 := by rfl)
    (stop : t.boot.chipStop = s.boot.chipStop := by rfl) (cool : t.boot.cool = s.boot.cool := by rfl)
    (trip : t.boot.trip = s.boot.trip := by rfl) : Calm s t where
  toKept := .same mem wmem tiles halted doms domRet rails mbxs slots chans pending ties f0 f1 f2 stop (fun h => by rw [cool, h])
    (fun h => by rw [trip, h])
  chip := stop
  haltB := by simp only [State.haltedB, cool, trip]
  len := tiles

theorem of_still {s t : State} (k : Kept s t) (h : Still s t) : Calm s t :=
  ⟨k, by rw [h.boot], by simp only [State.haltedB, h.boot], by rw [h.tiles]⟩

/-- A fold of calm changes. -/
theorem each {α : Type} {f : State → α → State} (h : ∀ s a, Calm s (f s a)) (s : State) (l : List α) : Calm s (s.each l f) :=
  List.foldlRecOn l f (refl s) (fun _ hb a _ => hb.trans (h _ a))

/-- A choice between calm changes. -/
theorem ite {s a b : State} {p : Prop} [Decidable p] (ha : p → Calm s a) (hb : ¬ p → Calm s b) : Calm s (if p then a else b) := by
  split
  · exact ha ‹_›
  · exact hb ‹_›

/-- A change of one tile that was not HALTED at the start. -/
theorem modAwake {s t : State} (k : Calm s t) (i : Nat) (f : Tile → Tile) (h : (s.tile i).st ≠ .halted) : Calm s (t.modTile i f) :=
  ⟨k.toKept.modAwake i f h, k.chip, k.haltB, (List.length_modify ..).trans k.len⟩

/-- The halt's invariant goes through a calm change. -/
theorem haltInv {s t : State} (k : Calm s t) (h : HaltInv s) : HaltInv t := by
  refine ⟨by rw [k.chip, k.haltB]; exact h.1, fun hc i hi hp => k.halted i (h.2 (by rw [← k.chip]; exact hc) i (by rw [← k.len]; exact hi) ?_)⟩
  unfold State.present State.clsOf at hp ⊢
  rw [← k.ties]
  exact hp

end Calm

/-! ## Accessors -/

theorem calm_modTile (s : State) (i : Nat) {f : Tile → Tile} (h : ∀ t : Tile, t.st = .halted → (f t).st = .halted) :
    Calm s (s.modTile i f) :=
  ⟨kept_modTile s i h, rfl, rfl, List.length_modify ..⟩

theorem calm_mapTiles (s : State) {f : Nat → Tile → Tile} (h : ∀ i (t : Tile), t.st = .halted → (f i t).st = .halted) :
    Calm s (s.mapTiles f) :=
  ⟨kept_mapTiles s h, rfl, rfl, List.length_mapIdx ..⟩

theorem calm_modPlumb (s : State) (i p : Nat) (f : Plumb → Plumb) : Calm s (s.modPlumb i p f) := calm_modTile s i (fun _ => id)
theorem calm_modRail (s : State) (r : Nat) (f : Rail → Rail) : Calm s (s.modRail r f) := ⟨kept_modRail s r f, rfl, rfl, rfl⟩
theorem calm_modMbx (s : State) (n : BitVec 3) (f : Mbx → Mbx) : Calm s (s.modMbx n f) := ⟨kept_modMbx s n f, rfl, rfl, rfl⟩
theorem calm_modSlot (s : State) (k : Nat) (f : Slot → Slot) : Calm s (s.modSlot k f) := ⟨kept_modSlot s k f, rfl, rfl, rfl⟩
theorem calm_modChan (s : State) (c : Nat) (f : Chan → Chan) : Calm s (s.modChan c f) := ⟨kept_modChan s c f, rfl, rfl, rfl⟩
theorem calm_modXing (s : State) (x i : Nat) (f : Xing → Xing) : Calm s (s.modXing x i f) := .same
theorem calm_modCls (s : State) (c : Nat) (f : Cls → Cls) : Calm s (s.modCls c f) := .same
theorem calm_take (s : State) (p : Config.Purpose) (n : Nat) : Calm s (s.take p n).2 := .same
theorem calm_takeSeed (s : State) : Calm s s.takeSeed.2 := .same

/-! ## A record of the state replaced -/

theorem calm_setBoot (s : State) (b : Boot) (chip : b.chipStop = s.boot.chipStop := by rfl) (cool : b.cool = s.boot.cool := by rfl)
    (trip : b.trip = s.boot.trip := by rfl) : Calm s { s with boot := b } := .same (stop := chip) (cool := cool) (trip := trip)
theorem calm_setMer (s : State) (m : Mer) : Calm s { s with mer := m } := .same
theorem calm_setMerBoot (s : State) (m : Mer) (b : Boot) (chip : b.chipStop = s.boot.chipStop := by rfl)
    (cool : b.cool = s.boot.cool := by rfl) (trip : b.trip = s.boot.trip := by rfl) : Calm s { s with mer := m, boot := b } :=
  .same (stop := chip) (cool := cool) (trip := trip)
theorem calm_setBootSxt (s : State) (b : Boot) (x : Sxt) (chip : b.chipStop = s.boot.chipStop := by rfl)
    (cool : b.cool = s.boot.cool := by rfl) (trip : b.trip = s.boot.trip := by rfl)
    (chans : x.chans.length = s.sxt.chans.length := by rfl) : Calm s { s with boot := b, sxt := x } :=
  .same (stop := chip) (cool := cool) (trip := trip) (chans := chans)
theorem calm_setCtl (s : State) (c : Ctl) : Calm s { s with ctl := c } := .same
theorem calm_setHelm (s : State) (h : Helm) : Calm s { s with helm := h } := .same
theorem calm_setPower (s : State) (p : Power) : Calm s { s with power := p } := .same
theorem calm_setLedger (s : State) (l : Ledger) : Calm s { s with ledger := l } := .same
theorem calm_setKeys (s : State) (k : Keys) (slots : k.slots.length = s.keys.slots.length := by rfl) : Calm s { s with keys := k } :=
  .same (slots := slots)
theorem calm_setRck (s : State) (r : Rck) : Calm s { s with rck := r } := .same
theorem calm_setSxt (s : State) (x : Sxt) (chans : x.chans.length = s.sxt.chans.length := by rfl) : Calm s { s with sxt := x } :=
  .same (chans := chans)
theorem calm_setLog (s : State) (l : Log) (mem : l.mem = s.log.mem := by rfl) (wmem : l.wmem = s.log.wmem := by rfl) :
    Calm s { s with log := l } := .same (mem := mem) (wmem := wmem)
theorem calm_setTrust (s : State) (t : Trust) (f0 : t.fuse0 = s.trust.fuse0 := by rfl) (f1 : t.fuse1 = s.trust.fuse1 := by rfl)
    (f2 : t.fuse2 = s.trust.fuse2 := by rfl) : Calm s { s with trust := t } := .same (f0 := f0) (f1 := f1) (f2 := f2)
theorem calm_setXings (s : State) (x : Xings) : Calm s { s with xings := x } := .same
theorem calm_setCvy (s : State) (c : Cvy) : Calm s { s with cvy := c } := .same
theorem calm_setFaults (s : State) (f : Faults) : Calm s { s with faults := f } := .same
theorem calm_setTests (s : State) (t : Tests) : Calm s { s with tests := t } := .same

/-! ## Packets, events and answers -/

theorem calm_sendRecs (s : State) (ty src nrec : Nat) (t : Time) (b : List Flit) : Calm s (s.sendRecs ty src nrec t b) :=
  .of_still (kept_sendRecs ..) (still_sendRecs ..)
theorem calm_logPacket (s : State) (ty src nrec : Nat) (t : Time) (b : List Flit) : Calm s (s.logPacket ty src nrec t b) :=
  .of_still (kept_logPacket ..) (still_logPacket ..)
theorem calm_formEvents (s : State) : Calm s s.formEvents := .of_still (kept_formEvents s) (still_formEvents s)
theorem calm_raiseC (s : State) (code : Nat) (idx : Option Nat) (arg : Nat) (cont : Option (Nat × Nat)) :
    Calm s (s.raiseC code idx arg cont) := .of_still (kept_raiseC ..) (still_raiseC ..)
theorem calm_raise (s : State) (code idx arg : Nat) : Calm s (s.raise code idx arg) := calm_raiseC ..
theorem calm_raise0 (s : State) (code arg : Nat) : Calm s (s.raise0 code arg) := calm_raiseC ..
theorem calm_evqFlush (s : State) : Calm s s.evqFlush := .ite (fun _ => Calm.trans .same (calm_raise0 ..)) (fun _ => .refl s)

theorem still_publish (s : State) (n : BitVec 3) : Still s (s.publish n) := by
  unfold State.publish
  dsimp only
  split
  · exact ⟨rfl, rfl, rfl⟩
  · split <;> exact ⟨rfl, rfl, rfl⟩

theorem still_finish (s : State) (n : BitVec 3) (r : Resp) : Still s (s.finish n r) := still_of_update (still_publish ..)
theorem still_accept (s : State) (n : BitVec 3) (ws : List Word) : Still s (s.accept n ws) := still_of_update (still_publish ..)

theorem calm_publish (s : State) (n : BitVec 3) : Calm s (s.publish n) := .of_still (kept_publish ..) (still_publish ..)
theorem calm_finish (s : State) (n : BitVec 3) (r : Resp) : Calm s (s.finish n r) := .of_still (kept_finish ..) (still_finish ..)
theorem calm_accept (s : State) (n : BitVec 3) (ws : List Word) : Calm s (s.accept n ws) := .of_still (kept_accept ..) (still_accept ..)
theorem calm_finishO (s : State) (n : Option (BitVec 3)) (r : Resp) : Calm s (s.finishO n r) := by
  cases n
  · exact .refl s
  · exact calm_finish ..
theorem calm_settle (s : State) (n : BitVec 3) (r : Resp) : Calm s (s.settle n r) := .of_still (kept_settle ..) (still_settle ..)
theorem calm_settleO (s : State) (n : Option (BitVec 3)) (r : Resp) : Calm s (s.settleO n r) := .of_still (kept_settleO ..) (still_settleO ..)
theorem calm_answer (s : State) (n : BitVec 3) (a : Ans) : Calm s (s.answer n a) := by
  cases a
  · exact calm_finish ..
  · exact calm_accept ..
theorem calm_hwBusy (s : State) (n : BitVec 3) (ws : List Word) (why re : Nat) : Calm s (s.hwBusy n ws why re) :=
  Calm.trans (.ite (fun _ => calm_modMbx s n _) (fun _ => .refl s)) .same

theorem calm_bell (s : State) (n : BitVec 3) : Calm s (s.bell n) := by
  unfold State.bell
  split
  · exact Calm.trans (calm_modMbx s n _) .same
  · exact Calm.trans (calm_modMbx s n _) .same
  · exact .refl s
  · exact calm_hwBusy ..

theorem calm_writeReq (s : State) (op : Byte) (q : Req) : Calm s (s.writeReq op q) := calm_modMbx ..

/-! ## Reckoner events given up (06 R178, R181) -/

theorem calm_unsettle (s : State) (i : Nat) : Calm s (s.unsettle i) := ⟨kept_unsettle s i, rfl, rfl, List.length_modify ..⟩
theorem calm_sweepEvents (s : State) (i : Nat) : Calm s (s.sweepEvents i) := ⟨kept_sweepEvents s i, rfl, rfl, List.length_modify ..⟩

theorem calm_recheck (s : State) (i : Nat) : Calm s (s.recheck i) := by
  unfold State.recheck
  dsimp only
  have h : Calm s (s.modTile i (fun t =>
      { t with heldK := BitVec.ofNat 5 (s.tile i).rawPlan.1, heldD := BitVec.ofNat 16 (s.tile i).rawPlan.2 })) :=
    calm_modTile _ _ (fun _ => id)
  split
  · exact .refl s
  · split
    · exact h.trans .same
    · exact h

theorem calm_redip (s : State) (i : Nat) : Calm s (s.redip i) := by
  unfold State.redip
  refine (calm_recheck s i).trans ?_
  generalize s.recheck i = s
  dsimp only
  split
  · exact .refl s
  · have h := calm_modTile s i (f := fun t => { t with dip := BitVec.ofNat 16 (s.heldPlan i).2 }) (fun _ => id)
    split
    · exact h.trans (calm_unsettle _ i)
    · exact h

theorem calm_countAbandon (s : State) (i : Nat) : Calm s (s.countAbandon i) := .same

theorem calm_abandon (s : State) (i : Nat) : Calm s (s.abandon i) :=
  .ite (fun _ => .refl s) (fun _ => (calm_countAbandon s i).trans
    (calm_modTile _ _ (fun t h => by dsimp only; rw [foldl_endEvent_st]; exact h)))

theorem calm_abandonRun (s : State) (i : Nat) : Calm s (s.abandonRun i) := by
  unfold State.abandonRun
  split
  · exact .refl s
  · dsimp only
    refine Calm.trans ?_ (calm_sweepEvents _ i)
    refine Calm.trans ?_ (calm_redip _ i)
    refine Calm.trans ?_ (calm_modTile _ i (fun _ => id))
    exact (calm_countAbandon s i).trans (calm_take _ _ _)

/-! ## Convoy notices (10 R266 to R284) -/

theorem calm_cvyPump (s : State) : Calm s s.cvyPump := .of_still (kept_cvyPump s) (still_cvyPump s)
theorem calm_sendNotice (s : State) (kind inst w : Nat) (u : Option Time) (f : Bool) : Calm s (s.sendNotice kind inst w u f) :=
  Calm.trans .same (calm_cvyPump _)
theorem calm_sendNak (s : State) (reason cause status : Nat) (m : Word) (t : Time) : Calm s (s.sendNak reason cause status m t) :=
  .of_still (kept_sendNak ..) (still_sendNak ..)
theorem calm_outOfStep (s : State) (m : Word) (b : Bool) : Calm s (s.outOfStep m b) := .of_still (kept_outOfStep ..) (still_outOfStep ..)
theorem calm_cvyEnd (s : State) : Calm s s.cvyEnd := .same
theorem calm_leaveSend (s : State) : Calm s s.leaveSend := .of_still (kept_leaveSend s) (still_leaveSend s)
theorem calm_cvyFinish (s : State) (cause : Nat) : Calm s (s.cvyFinish cause) := .of_still (kept_cvyFinish ..) (still_cvyFinish ..)

/-! ## Keystones (08 R222 to R233) -/

theorem calm_resolve (s : State) (k : Nat) (r : KsRes) : Calm s (s.resolve k r) := .of_still (kept_resolve ..) (still_resolve ..)
theorem calm_settleMove (s : State) (m : Word) (r : Resp) : Calm s (s.settleMove m r) := .of_still (kept_settleMove ..) (still_settleMove ..)

/-- An abort changes tiles, rails and a slot between two changes that leave the tiles alone. -/
theorem calm_abortOne (s : State) (k cause : Nat) (f : Option (Nat × Nat)) : Calm s (s.abortOne k cause f) := by
  have h : (s.abortOne k cause f).boot = s.boot ∧ (s.abortOne k cause f).tiles.length = s.tiles.length := by
    unfold State.abortOne
    dsimp only
    split
    · exact ⟨rfl, rfl⟩
    · have a := (still_resolve s k ((s.slot k).res k .aborted cause f)).trans
        (still_settleO _ (s.slot k).sealMbx (abortedR ((s.slot k).res k .aborted cause f)))
      have b : ∀ v : State, Still v ((v.raise 0x602 cause (s.slot k).seq.toNat).convoyAbort (s.slot k) cause
          ((s.slot k).res k .aborted cause f)) := fun v => (still_raiseC ..).trans (still_convoyAbort ..)
      rw [(b _).boot, (b _).tiles]
      exact ⟨a.boot, by simp [a.tiles]⟩
  exact ⟨kept_abortOne .., by rw [h.1], by simp only [State.haltedB, h.1], h.2⟩

theorem calm_revalidate (n t0 : Nat) (l : List (Nat × Nat)) (s : State) : Calm s (s.revalidate n t0 l) := by
  induction n generalizing l s with
  | zero => exact .refl s
  | succ n ih =>
    unfold State.revalidate
    dsimp only
    split
    · exact .refl s
    · exact (calm_abortOne ..).trans (ih ..)

theorem calm_abortKs (s : State) (k cause : Nat) (f : Option (Nat × Nat)) : Calm s (s.abortKs k cause f) :=
  .ite (fun _ => .refl s) (fun _ => (calm_abortOne ..).trans (calm_revalidate ..))

theorem calm_abortNaming (s : State) (i cause : Nat) : Calm s (s.abortNaming i cause) :=
  .each (fun s k => by
    split
    · exact calm_abortKs ..
    · exact .refl s) _ _

theorem calm_setHostRate (s : State) (q : Nat) : Calm s (s.setHostRate q) := .same

theorem calm_commitAct (s : State) (T : Time) (a : BitVec 128) : Calm s (s.commitAct T a) := by
  unfold State.commitAct
  split
  · exact (calm_modTile _ _ (fun t h => by rw [commitChg_st]; exact h)).trans (calm_redip ..)
  · dsimp only
    split
    · exact calm_modRail ..
    · split
      · exact .same
      · exact calm_setHostRate ..

theorem calm_convoyCommit (s : State) (x : Slot) : Calm s (s.convoyCommit x) := by
  unfold State.convoyCommit
  split
  · exact .refl s
  · exact (calm_settleO ..).trans .same
  · exact (calm_settleMove s x.mseq (okR [])).trans .same
  · exact .same

theorem calm_commitKs (s : State) (k : Nat) : Calm s (s.commitKs k) := by
  unfold State.commitKs
  dsimp only
  refine Calm.trans ?_ (calm_convoyCommit ..)
  refine Calm.trans ?_ (calm_raise ..)
  refine Calm.trans ?_ (calm_modSlot ..)
  refine Calm.trans ?_ (calm_resolve ..)
  refine Calm.trans ?_ (calm_settleO ..)
  exact (Calm.each (f := fun (v : State) (a : BitVec 128) => v.commitAct (s.slot k).t a)
    (fun v a => calm_commitAct v (s.slot k).t a) s (s.slot k).acts).trans .same

/-! ## Fences (17 R395) -/

theorem calm_dropSched (s : State) (i : Nat) (r : Resp) : Calm s (s.dropSched i r) :=
  (calm_modTile s i (f := fun t => { t with sched := [], resched := [], hov := none }) (fun _ => id)).trans
    (.each (f := fun (s : State) (e : Sched) => s.settleO e.mbx r) (fun _ _ => calm_settleO _ _ _) _ _)

theorem calm_dropCheck (s : State) (i : Nat) : Calm s (s.dropCheck i) :=
  .each (fun s r => by
    split
    · split
      · exact ((calm_modRail ..).trans (calm_modChan ..)).trans (calm_modPlumb ..)
      · exact .refl s
    · exact .refl s) _ _

theorem calm_fence (s : State) (i cause : Nat) : Calm s (s.fence i cause) := by
  unfold State.fence
  dsimp only
  split
  · exact .refl s
  · split
    · exact calm_modTile _ _ (fun _ => id)
    · rename_i h
      refine Calm.trans ?_ (calm_abortNaming _ i 2)
      refine Calm.trans ?_ (calm_raise _ 0x401 i cause)
      refine Calm.modAwake ?_ i _ (fun e => h (by simp [e]))
      exact ((calm_abandon ..).trans (calm_dropSched ..)).trans (calm_dropCheck ..)

/-! ## The halt (09 R261) -/

/-- Everything is kept, and so is what holds of a stopped block: a change that stops the block halts its tiles too. -/
structure Safe (s t : State) : Prop extends Kept s t where
  haltInv : HaltInv s → HaltInv t

theorem Calm.safe {s t : State} (k : Calm s t) : Safe s t := ⟨k.toKept, k.haltInv⟩

theorem Safe.trans {s t u : State} (a : Safe s t) (b : Safe t u) : Safe s u := ⟨a.toKept.trans b.toKept, b.haltInv ∘ a.haltInv⟩

theorem Safe.after {s t u : State} (b : Safe t u) (a : Safe s t) : Safe s u := a.trans b

/-- The halt of a block that something has stopped, whatever came before it. -/
theorem Safe.halt {s t : State} (k : Kept s t) (h : t.haltedB = true) (cause : Nat) : Safe s (t.halt cause) where
  toKept := k.trans (kept_halt t cause h)
  haltInv := fun _ => by
    obtain ⟨hc, ha⟩ := halt_halts t cause
    have kt := kept_halt t cause h
    have hb : (t.halt cause).haltedB = true := by
      simp only [State.haltedB, Bool.or_eq_true, decide_eq_true_eq] at h ⊢
      exact h.imp kt.cool kt.trip
    exact ⟨⟨fun _ => hb, fun _ => hc⟩, fun _ => ha⟩

/-! ## Time, events, accesses and posted commands -/

theorem calm_elapse (s : State) (dt : Nat) : Calm s (s.elapse dt) := by
  unfold State.elapse
  refine .ite (fun _ => .refl s) (fun _ => ?_)
  refine Calm.trans ?_ (.each (fun s i => calm_raise s 0x309 i 0) _ _)
  refine .same (tiles := by simp) (chans := by dsimp only; split <;> rfl) (halted := fun j hj => ?_)
  show (({ s with tiles := s.tiles.mapIdx (fun i t => s.elapseTile s.movers dt i t) } : State).tile j).st = .halted
  rw [tile_mapIdx]
  split
  · rw [elapseTile_st]; exact hj
  · exact hj

theorem calm_followSend (s : State) : Calm s s.followSend := by
  unfold State.followSend
  split
  · exact .refl s
  · dsimp only
    refine .ite (fun _ => .same) (fun _ => Calm.trans ?_ (calm_sendNotice ..))
    exact .same

theorem calm_tick (s : State) (dt : Nat) : Calm s (s.tick dt) := by
  unfold State.tick
  have h : Calm s (if dt = 0 then s else s.followSend.elapse dt) :=
    .ite (fun _ => .refl s) (fun _ => (calm_followSend s).trans (calm_elapse _ dt))
  exact h.trans .same

/-- An event is calm if its effect is. -/
theorem calm_event {dt : Nat} {s t : State} {f : State → State} (h : event dt s f = .next t) (hf : ∀ u, Calm u (f u)) : Calm s t := by
  simp only [event, Host.Outcome.next.injEq] at h
  subst h
  split
  · exact calm_tick s dt
  · exact (calm_tick s dt).trans (hf _)

/-- An event is safe if its effect is. -/
theorem safe_event {dt : Nat} {s t : State} {f : State → State} (h : event dt s f = .next t) (hf : ∀ u, Safe u (f u)) : Safe s t := by
  simp only [event, Host.Outcome.next.injEq] at h
  subst h
  split
  · exact (calm_tick s dt).safe
  · exact (calm_tick s dt).safe.trans (hf _)

/-- An access is calm if its effect is. -/
theorem calm_access {dt : Nat} {s t : State} {f : State → State} (h : access dt s f = .next t) (hf : ∀ u, Calm u (f u)) : Calm s t :=
  calm_event h (fun _ => .ite (fun _ => Calm.trans .same (hf _)) (fun _ => .refl _))

theorem calm_handle {c : Cmd} {q : Req} (b : Bool) (hc : ∀ u, Calm u (c.run u q).1) (u : State) : Calm u (c.handle b u q).1 := by
  unfold Cmd.handle
  split
  · exact .refl u
  · split
    · exact .refl u
    · exact hc u

/-- A posted command is calm if its body is. -/
theorem calm_postCmd {c : Cmd} {dt : Nat} {q : Req} {s t : State} (h : .next (postCmd c dt q s) = (.next t : Host.Outcome State Fault Refusal))
    (hc : ∀ u, Calm u (c.run u q).1) : Calm s t := by
  obtain rfl : postCmd c dt q s = t := by simpa using h
  have hb : Calm (s.tick dt) (((s.tick dt).writeReq c.op q).bell q.mbx) := (calm_writeReq ..).trans (calm_bell ..)
  refine (calm_tick s dt).trans ?_
  unfold postCmd
  refine .ite (fun _ => .refl _) (fun _ => hb.trans ?_)
  generalize ((s.tick dt).writeReq c.op q).bell q.mbx = v
  dsimp only
  split
  · exact Calm.trans (t := { v with helm := { v.helm with queue := [] } }) .same ((calm_handle false hc _).trans (calm_answer ..))
  · exact .refl _

end Sys2Proof.Proofs
end

section
/-! SUPPORT. The tile configuration commands and the generators are calm (04; 05 R147; 14 R335; 17 R396, R399; 18 R406 to R410): none takes
a tile out of HALTED, for each change of a tile's state is guarded by the state it leaves. -/

namespace Sys2Proof.Proofs

open Sys2Proof.Machine Sys2Proof.Safety Sys2Proof.Laws

set_option Elab.async false

/-- A command that answers its refusal, or goes on, is calm if it is where it goes on. -/
theorem calm_orElse {s : State} {ok : State × Ans} (l : List Resp) (h : Calm s ok.1) : Calm s (orElse s l ok).1 := by
  unfold orElse
  split
  · exact .refl s
  · exact h

theorem calm_fst_ite {α : Type} {s : State} {a b : State × α} {p : Prop} [Decidable p] (ha : p → Calm s a.1) (hb : ¬ p → Calm s b.1) :
    Calm s (if p then a else b).1 := by
  split
  · exact ha ‹_›
  · exact hb ‹_›

theorem calm_snd_ite {α : Type} {s : State} {a b : α × State} {p : Prop} [Decidable p] (ha : p → Calm s a.2) (hb : ¬ p → Calm s b.2) :
    Calm s (if p then a else b).2 := by
  split
  · exact ha ‹_›
  · exact hb ‹_›

/-! ## Tile commands, 0x20 to 0x2A -/

theorem calm_stopTest (s : State) (i : Nat) : Calm s (s.stopTest i) := .ite (fun _ => calm_modTile _ _ (fun _ => id)) (fun _ => .refl s)

theorem calm_placeSwap (s : State) (i : Nat) : Calm s (s.placeSwap i) := by
  unfold State.placeSwap
  dsimp only
  split
  · exact .after (calm_stopTest ..) (calm_modTile s i (fun _ => id))
  · exact .refl s

theorem calm_yieldSwap (s : State) (i : Nat) (T : Time) : Calm s (s.yieldSwap i T) := by
  unfold State.yieldSwap
  dsimp only
  exact .ite (fun _ => .refl s) (fun _ => .after (calm_placeSwap ..) (calm_modTile s i (fun _ => id)))

theorem calm_booked (s : State) (i : Nat) (T : Time) (b : Bool) : Calm s (s.booked i T b) :=
  .after (calm_yieldSwap ..) (.ite (fun _ => calm_stopTest s i) (fun _ => .refl s))

theorem calm_bookActs (k : Nat) (T : Time) (prior acts : List (BitVec 128)) (s : State) : Calm s (State.bookActs k T prior acts s) := by
  induction acts generalizing prior s with
  | nil => exact .refl s
  | cons a r ih =>
    refine Calm.trans ?_ (ih ..)
    split
    · exact calm_booked ..
    · exact .refl s

theorem setLimits_st (t : Tile) (w : BitVec 64) : (t.setLimits w).st = t.st := rfl
theorem setPlumbW_st (t : Tile) (w : BitVec 64) (b : Bool) (n : Nat) : (t.setPlumbW w b n).st = t.st := rfl

theorem calm_cmdTilePolicy (u : State) (q : Req) : Calm u (cmdTilePolicy.run u q).1 := by
  have h : Calm u ((u.modTile (reqTile q) (fun t => t.setLimits (q.w64 2))).redip (reqTile q)) :=
    .after (calm_redip ..) (calm_modTile _ _ (fun t h => (setLimits_st t _).trans h))
  unfold cmdTilePolicy
  dsimp only
  refine calm_orElse _ (calm_fst_ite (fun _ => h) (fun _ => ?_))
  exact .after (calm_revalidate ..) <| .after (calm_booked ..) <| .after (calm_modTile _ _ (fun _ => id)) h

theorem calm_cmdTilePlumb (u : State) (q : Req) : Calm u (cmdTilePlumb.run u q).1 :=
  calm_orElse _ (calm_modTile _ _ (fun t h => (setPlumbW_st t _ _ _).trans h))
theorem calm_cmdTileDroop (u : State) (q : Req) : Calm u (cmdTileDroop.run u q).1 := calm_orElse _ (calm_modTile _ _ (fun _ => id))

theorem calm_cmdTileState (u : State) (q : Req) : Calm u (cmdTileState.run u q).1 := by
  unfold cmdTileState
  dsimp only
  refine calm_orElse _ ?_
  split
  · exact .refl u
  · exact .after (calm_revalidate ..) <| .after (calm_booked ..) (calm_modTile _ _ (fun _ => id))

theorem calm_tileOff (s : State) (i : Nat) : Calm s (s.tileOff i) := by
  unfold State.tileOff
  dsimp only
  split
  · exact .refl s
  · rename_i h
    exact .after (calm_dropCheck _ i) <| .after (.each (fun _ _ => calm_settleO ..) _ _) <|
      (calm_abandon s i).modAwake i _ (fun e => h (by simp [e]))

theorem calm_domainOff (s : State) (d : Nat) : Calm s (s.domainOff d) := by
  unfold State.domainOff
  dsimp only
  exact .after (calm_revalidate ..) <| .after (calm_settleO ..) <| .after (.same (doms := by simp) (domRet := by simp)) <|
    .each calm_tileOff s _

theorem calm_cmdDomainPower (u : State) (q : Req) : Calm u (cmdDomainPower.run u q).1 := by
  unfold cmdDomainPower
  dsimp only
  refine calm_orElse _ (calm_fst_ite (fun _ => ?_) (fun _ => calm_domainOff ..))
  exact .after (calm_revalidate ..) <| .after (calm_settleO ..) (.same (domRet := by simp))

theorem calm_cmdTileCounters (u : State) (q : Req) : Calm u (cmdTileCounters.run u q).1 :=
  .ite (fun _ => calm_modTile _ _ (fun _ => id)) (fun _ => .refl u)
theorem calm_cmdFloorOver (u : State) (q : Req) : Calm u (cmdFloorOver.run u q).1 :=
  .ite (fun _ => calm_modTile _ _ (fun _ => id)) (fun _ => .refl u)

theorem calm_learnReset (s : State) (i : Nat) : Calm s (s.learnReset i) := calm_modTile _ _ (fun _ => id)

theorem calm_cmdLearnReset (u : State) (q : Req) : Calm u (cmdLearnReset.run u q).1 :=
  calm_fst_ite (fun _ => .each calm_learnReset u _)
    (fun _ => calm_orElse _ (.ite (fun _ => .refl u) (fun _ => calm_learnReset ..)))

theorem calm_moveCaps (s : State) (T : Time) : Calm s (s.moveCaps T) := .same

theorem calm_addCapture (s : State) (g : Option (BitVec 4)) (T : Time) (n : BitVec 3) : Calm s (s.addCapture g T n) :=
  .after (.each calm_moveCaps _ _) .same

theorem calm_cmdTileCapture (u : State) (q : Req) : Calm u (cmdTileCapture.run u q).1 := calm_orElse _ (calm_addCapture ..)

end Sys2Proof.Proofs
end

section
/-! SUPPORT. The generators are calm (04 R108 to R132; 05 R147; 11 R294; 17 R396, R399; 18 R406 to R410): none takes a tile out of HALTED,
for each change of a tile's state is guarded by the state it leaves. -/

namespace Sys2Proof.Proofs

open Sys2Proof.Machine Sys2Proof.Safety Sys2Proof.Laws

set_option Elab.async false

/-! ## Moves (04 R111 to R116) -/

theorem calm_dropOne (s : State) (i : Nat) (x : Sched) : Calm s (s.dropOne i x) := calm_modTile _ _ (fun _ => id)
theorem calm_settleState (s : State) (i : Nat) (x : Sched) : Calm s (s.settleState i x) := calm_settleO ..
theorem calm_cancelDips (s : State) (i : Nat) : Calm s (s.cancelDips i) := calm_modTile _ _ (fun _ => id)

theorem calm_slideInstant (s : State) (i : Nat) : Calm s (s.slideInstant i) := by
  unfold State.slideInstant
  split
  · split
    · dsimp only
      split
      · exact .after (calm_modTile _ _ (fun _ => id)) (calm_dropOne ..)
      · split
        · exact .after (calm_modTile _ _ (fun _ => id)) (calm_dropOne ..)
        · split
          · exact .after (calm_unsettle ..) <| .after (calm_modTile _ _ (fun _ => id)) <| .after (calm_cancelDips ..) (calm_dropOne ..)
          · exact .refl s
    · exact .refl s
  · exact .refl s

theorem calm_retuneStart (s : State) (i : Nat) : Calm s (s.retuneStart i) := by
  unfold State.retuneStart
  dsimp only
  split
  · exact .refl s
  · split
    · exact calm_modTile _ _ (fun _ => id)
    · exact .refl s

theorem calm_countMiss (s : State) (i : Nat) : Calm s (s.countMiss i) := .after (calm_raise ..) (calm_modTile _ _ (fun _ => id))

theorem calm_missHandover (s : State) (i : Nat) (h : Hov) (cause : Nat) : Calm s (s.missHandover i h cause) := by
  unfold State.missHandover
  exact .after (.each (fun _ _ => calm_abortKs ..) _ _) <| .after (calm_countMiss ..) <|
    .after (.each (fun _ _ => calm_settleO ..) _ _) (calm_modTile _ _ (fun _ => id))

theorem calm_alignStart (s : State) (i : Nat) : Calm s (s.alignStart i) := by
  unfold State.alignStart
  split
  · split
    · exact .refl s
    · split
      · exact calm_modTile _ _ (fun _ => id)
      · exact calm_missHandover ..
  · exact .refl s

theorem rephase_st (t : Tile) (o : Orig) (n c1 c2 : Nat) : (t.rephase o n c1 c2).st = t.st := by cases o <;> rfl

theorem transit_st (t : Tile) (c1 c2 : Nat) (e : Frac) : (t.transit c1 c2 e).st = t.st := by
  unfold Tile.transit
  exact ite_st rfl ((rephase_st ..).trans (ite_st (ite_st rfl rfl) (ite_st rfl rfl)))

theorem switched_st (t : Tile) (h : Hov) (e : Frac) (n : Nat) : (t.switched h e n).st = t.st := by
  unfold Tile.switched
  exact ite_st (transit_st ..) rfl

theorem calm_switchTile (s : State) (i n : Nat) (h : Hov) (e : Frac) (p : Sched → Bool) :
    Calm s (s.modTile i (fun t => { (t.switched h e n) with sched := t.sched.filter p })) :=
  calm_modTile _ _ (fun t ht => (switched_st t h e n).trans ht)

theorem calm_hovSwitch (s : State) (i : Nat) (aligned : Bool) (fs : Nat) : Calm s (s.hovSwitch i aligned fs) := by
  unfold State.hovSwitch
  split
  · dsimp only
    split
    · exact .refl s
    · split
      · exact calm_missHandover ..
      · exact .after (.each (fun _ _ => calm_settleState ..) _ _) <|
          .after (calm_switchTile ..) (.ite (fun _ => .refl s) (fun _ => calm_cancelDips ..))
  · split
    · exact .ite (fun _ => calm_missHandover ..) (fun _ => .ite (fun _ => .after (calm_settleState ..) (calm_dropOne ..))
        (fun _ => .refl s))
    · exact .refl s

/-! ## Starts and stops (04 R128, R129, R132, R428) -/

theorem calm_tapRefuse (s : State) (i : Nat) (x : Sched) : Calm s (s.tapRefuse i x) := .after (calm_settleO ..) (calm_dropOne ..)

/-- A tile starts that was not HALTED. -/
theorem Calm.startTile {s t : State} {i : Nat} (k : Calm s t) (h : (s.tile i).st ≠ .halted) : Calm s (t.startTile i) := by
  unfold State.startTile
  dsimp only
  split
  · exact k.trans (calm_fence ..)
  · have hx := k.trans (calm_modXing t 23 i (fun x => { x with toSeen := false }))
    split
    · exact .after (calm_unsettle ..) (hx.modAwake i _ h)
    · exact hx.modAwake i _ h

theorem calm_enableInstant (s : State) (i : Nat) : Calm s (s.enableInstant i) := by
  unfold State.enableInstant
  split
  · dsimp only
    split
    · next h =>
      split
      · exact calm_tapRefuse ..
      · have hs := (Calm.refl s).startTile (i := i) (by simp [h])
        split
        · exact hs
        · exact .after (calm_settleState ..) <| .after (calm_dropOne ..) hs
    · split
      · exact .after (calm_settleState ..) <| .after (calm_modTile _ _ (fun _ => id)) (calm_dropOne ..)
      · exact .after (calm_settleState ..) (calm_dropOne ..)
  · exact .refl s

theorem st_of_live {t : Tile} (h : t.live = true) : t.st ≠ .halted := by
  intro e
  simp [Tile.live, e] at h

theorem calm_disableTile (s : State) (i : Nat) : Calm s (s.disableTile i) := by
  unfold State.disableTile
  dsimp only
  split
  · next h => exact ((calm_abandon s i).trans (calm_dropCheck ..)).modAwake i _ (st_of_live h)
  · exact .ite (fun _ => calm_modTile _ _ (fun _ => id)) (fun _ => .refl s)

theorem calm_disableInstant (s : State) (i : Nat) : Calm s (s.disableInstant i) := by
  unfold State.disableInstant
  split
  · exact .after (calm_settleState ..) <| .after (calm_disableTile ..) (calm_dropOne ..)
  · exact .refl s

theorem calm_gateTile (s : State) (i : Nat) : Calm s (s.gateTile i) := by
  unfold State.gateTile
  dsimp only
  split
  · next h => exact ((calm_abandon s i).trans (calm_dropCheck ..)).modAwake i _ (fun e => by simp [e] at h)
  · exact .ite (fun _ => calm_modTile _ _ (fun _ => id)) (fun _ => .refl s)

theorem calm_gateInstant (s : State) (i : Nat) : Calm s (s.gateInstant i) := by
  unfold State.gateInstant
  split
  · exact .after (calm_settleState ..) <| .after (calm_gateTile ..) (calm_dropOne ..)
  · exact .refl s

theorem calm_ungateTile (s : State) (i : Nat) : Calm s (s.ungateTile i) := by
  unfold State.ungateTile
  dsimp only
  split
  · next h => exact (Calm.refl s).modAwake i _ (by simp [h])
  · exact .ite (fun _ => calm_modTile _ _ (fun _ => id)) (fun _ => .refl s)

theorem calm_ungateInstant (s : State) (i : Nat) : Calm s (s.ungateInstant i) := by
  unfold State.ungateInstant
  split
  · exact .after (calm_settleState ..) <| .after (calm_ungateTile ..) (calm_dropOne ..)
  · exact .refl s

theorem calm_tileReturn (T : Time) (s : State) (i : Nat) : Calm s (State.tileReturn T s i) := by
  unfold State.tileReturn
  dsimp only
  split
  · exact .refl s
  · next h =>
    have ha : (s.tile i).st ≠ .halted := by simp [Classical.not_not.1 h]
    have h1 := calm_modTile s i (f := fun t => { t with recEn := false, ret := .disabled }) (fun _ => id)
    exact .ite (fun _ => h1.startTile ha) (fun _ => .ite
      (fun _ => .ite (fun _ => .after (calm_fence ..) h1) (fun _ => .after (calm_unsettle ..) (h1.modAwake i _ ha)))
      (fun _ => h1.modAwake i _ ha))

theorem calm_domainReturn (s : State) (d : Nat) : Calm s (s.domainReturn d) := by
  unfold State.domainReturn
  split
  · split
    · exact .refl s
    · exact .after (calm_settleO ..) <| .after (.each (calm_tileReturn _) _ _) (.same (doms := by simp) (domRet := by simp))
  · exact .refl s

/-! ## Oscillators (04 R108 to R110; 18 R406, R407, R410) -/

theorem calm_becomeSingle (s : State) (i : Nat) (done : Option Time) : Calm s (s.becomeSingle i done) := by
  unfold State.becomeSingle
  refine .after (.each (fun _ _ => calm_abortKs ..) _ _) <| .after (.each (fun _ _ => calm_settleO ..) _ _) <|
    .after (calm_modTile _ _ (fun _ => id)) ?_
  split
  · exact calm_missHandover ..
  · exact .refl s

theorem calm_failBoth (s : State) (i : Nat) : Calm s (s.failBoth i) := .after (calm_fence ..) (calm_abortNaming ..)

theorem calm_failoverAligned (s : State) (i : Nat) (h : Hov) : Calm s (s.failoverAligned i h) := by
  unfold State.failoverAligned
  refine .after (calm_becomeSingle ..) <| .after (.each (fun _ _ => calm_settleState ..) _ _) <|
    .after (calm_modTile _ _ (fun t ht => ?_)) (calm_take s .failoverGap 321)
  have hu := (switched_st t h {} s.boot.uptime).trans ht
  exact ite_st hu hu

theorem calm_failoverWarm (s : State) (i : Nat) : Calm s (s.failoverWarm i) := by
  unfold State.failoverWarm
  exact .after (calm_becomeSingle ..) <| .after (calm_modTile _ _ (fun t ht => by simp only [ht, reduceCtorEq, if_false]; exact ht))
    (calm_take s .failoverGap 321)

theorem calm_failoverCold {s : State} {i : Nat} (h : (s.tile i).st ≠ .halted) : Calm s (s.failoverCold i) :=
  .after (calm_becomeSingle ..) ((calm_dropCheck s i).modAwake i _ h)

theorem calm_failover {s : State} {i : Nat} (h : (s.tile i).st ≠ .halted) : Calm s (s.failover i) := by
  have hc := Calm.ite (p := (s.tile i).stby = .warm) (fun _ => calm_failoverWarm s i) (fun _ => calm_failoverCold h)
  unfold State.failover
  dsimp only
  split
  · exact .ite (fun _ => calm_failoverAligned ..) (fun _ => hc)
  · exact hc

theorem calm_failOsc (s : State) (i : Nat) (b : Bool) (why : Nat) : Calm s (s.failOsc i b why) := by
  unfold State.failOsc
  refine .ite (fun _ => .refl s) (fun _ => ?_)
  extract_lets v w t
  have hw : Calm s w := .after (calm_raise ..) (calm_modTile _ _ (fun _ => id))
  exact hw.trans (.ite (fun _ => calm_failBoth ..) (fun _ => .ite
    (fun h => .ite (fun _ => calm_failover (st_of_live h)) (fun _ => .after (calm_becomeSingle ..) (calm_modTile _ _ (fun _ => id))))
    (fun _ => calm_becomeSingle ..)))

theorem calm_stbyTuned (s : State) (i : Nat) : Calm s (s.stbyTuned i) := .after (calm_modTile _ _ (fun _ => id)) (calm_take s .settle 3200001)

theorem calm_actTuned (s : State) (i : Nat) : Calm s (s.actTuned i) :=
  .ite (fun _ => .refl s) (fun _ => .after (calm_unsettle ..)
    (calm_modTile _ _ (fun t ht => by simp only [ht, reduceCtorEq, if_false])))

theorem calm_calDone (s : State) (i : Nat) (b tuned : Bool) : Calm s (s.calDone i b tuned) := by
  unfold State.calDone
  exact .ite (fun _ => .refl s) (fun _ => .ite (fun _ => calm_failOsc ..) (fun _ => .ite
    (fun _ => .ite (fun _ => calm_actTuned ..) (fun _ => .ite (fun _ => calm_stbyTuned ..) (fun _ => .refl s)))
    (fun _ => calm_modTile _ _ (fun _ => id))))

theorem calm_autoSwap (s : State) (i : Nat) : Calm s (s.autoSwap i) := .ite (fun _ => calm_placeSwap ..) (fun _ => .refl s)

theorem calm_standbyTest (s : State) (i : Nat) (pass : Bool) : Calm s (s.standbyTest i pass) := by
  unfold State.standbyTest
  dsimp only
  exact .ite (fun _ => .ite (fun _ => calm_modTile _ _ (fun _ => id)) (fun _ => .after (calm_failOsc ..) (calm_take s .race 2))) (fun _ => .refl s)

theorem calm_modRot (s : State) (g : Nat) (f : StbyRot → StbyRot) : Calm s (s.modRot g f) := .same

theorem calm_rotTest (s : State) (i : Nat) (pass : Bool) : Calm s (s.rotTest i pass) := by
  unfold State.rotTest
  exact .ite (fun _ => .ite (fun _ => .after (calm_standbyTest ..) (calm_modRot ..)) (fun _ => .refl s))
    (fun _ => .ite (fun _ => .after (calm_modTile _ _ (fun _ => id)) (calm_modRot ..))
      (fun _ => .ite (fun _ => calm_modRot ..) (fun _ => .refl s)))

/-! ## Tap checks, the learned limit, trials and mortar (05 R147; 11 R294; 17 R396, R399) -/

theorem calm_tapCheck (s : State) (i : Nat) (fired : BitVec 4) : Calm s (s.tapCheck i fired) := by
  unfold State.tapCheck
  split
  · exact .refl s
  · dsimp only
    refine .ite (fun _ => .refl s) (fun _ => .ite (fun _ => calm_modTile _ _ (fun _ => id)) (fun _ => .after (calm_fence ..) ?_))
    split
    · exact .after (calm_settleO ..) <| .after (calm_dropOne ..) (.each (fun _ _ => calm_raise ..) _ _)
    · exact .each (fun _ _ => calm_raise ..) _ _

theorem calm_tapDeadline (s : State) (i : Nat) : Calm s (s.tapDeadline i) := by
  unfold State.tapDeadline
  split
  · exact .refl s
  · split
    · exact .refl s
    · split
      · exact calm_tapRefuse ..
      · exact calm_abortKs ..
      · exact calm_modTile _ _ (fun _ => id)

theorem calm_examTile (s : State) (i : Nat) : Calm s (s.examTile i) := by
  unfold State.examTile
  dsimp only
  have h := fun f (hf : ∀ t : Tile, (f t).st = t.st) => calm_modTile s i (f := f) (fun t ht => (hf t).trans ht)
  exact .ite (fun _ => .after (calm_raise ..) (h _ (fun _ => rfl))) (fun _ => h _ (fun _ => rfl))

theorem calm_learnExam (s : State) : Calm s s.learnExam := by
  unfold State.learnExam
  exact .ite (fun _ => .refl s) (fun _ => .after (.each calm_examTile _ _) .same)

theorem calm_fenceTrial (s : State) (i : Nat) (okA okB vosc : Bool) (s0 s1 : Int) : Calm s (s.fenceTrial i okA okB vosc s0 s1) := by
  unfold State.fenceTrial
  dsimp only
  exact .ite (fun _ => .refl s) (fun _ => .ite (fun _ => calm_modTile _ _ (fun _ => id)) (fun _ => calm_modTile _ _ (fun _ => id)))

theorem calm_mortarDiscard (s : State) (i : Nat) (config : Bool) (nth : Nat) : Calm s (s.mortarDiscard i config nth) := by
  unfold State.mortarDiscard
  dsimp only
  exact .ite (fun _ => .refl s) (fun _ => .ite (fun _ => .after (calm_fence ..) (calm_modTile _ _ (fun _ => id)))
    (fun _ => calm_modTile _ _ (fun _ => id)))

theorem calm_rampStep (s : State) (i : Nat) : Calm s (s.modTile i Tile.rampStep) := calm_modTile _ _ (fun _ h => ite_st h h)

end Sys2Proof.Proofs
end

section
/-! SUPPORT. Plumbs, thermal samples and the throttle input are calm but for a trip, which halts the block (05 R139 to R157; 02 R65). -/

namespace Sys2Proof.Proofs

open Sys2Proof.Machine Sys2Proof.Safety Sys2Proof.Laws

set_option Elab.async false

theorem calm_plumbFires (s : State) (i p : Nat) (mv : Int) : Calm s (s.plumbFires i p mv).2 := by
  unfold State.plumbFires
  exact calm_snd_ite (fun _ => .refl s) (fun _ => calm_snd_ite (fun _ => .refl s) (fun _ => calm_take s .plumbBand 2))

theorem calm_unshedIf (s : State) (i why : Nat) : Calm s (s.unshedIf i why) :=
  .ite (fun _ => .after (calm_raise ..) (calm_modTile _ _ (fun _ => id))) (fun _ => .refl s)

theorem calm_enterDroop (s : State) (i p : Nat) : Calm s (s.enterDroop i p) := by
  unfold State.enterDroop
  extract_lets w d str v
  have hv : Calm s v := calm_modPlumb ..
  exact .ite (fun _ => hv) (fun _ => hv.trans (calm_unshedIf ..))

theorem calm_plumbFire (s : State) (i p : Nat) (mv : Int) : Calm s (s.plumbFire i p mv) := by
  unfold State.plumbFire
  have h := calm_plumbFires s i p mv
  exact .ite (fun _ => .refl s) (fun _ => .ite (fun _ => h.trans (calm_enterDroop ..)) (fun _ => h))

theorem calm_plumbRelease (s : State) (i p : Nat) (mv : Int) : Calm s (s.plumbRelease i p mv) :=
  .ite (fun _ => .refl s) (fun _ => calm_modPlumb ..)
theorem calm_plumbHoldEnd (s : State) (i p : Nat) : Calm s (s.plumbHoldEnd i p) := calm_modPlumb ..
theorem calm_plumbDecay (s : State) (i p : Nat) : Calm s (s.plumbDecay i p) := calm_modPlumb ..
theorem calm_tapFault (s : State) (i p : Nat) : Calm s (s.tapFault i p) := .after (calm_fence ..) (calm_raise ..)

theorem calm_droopExam (s : State) (i p : Nat) : Calm s (s.droopExam i p) := by
  unfold State.droopExam
  exact .ite (fun _ => .refl s) (fun _ => .ite
    (fun _ => .after (calm_tapFault ..) (calm_modTile _ _ (fun t h => (setPlumbW_st t _ _ _).trans h)))
    (fun _ => .after (calm_raise ..) <| .after (calm_modRail ..) (calm_modPlumb ..)))

theorem calm_plumbCal (s : State) (i p : Nat) (b : Bool) : Calm s (s.plumbCal i p b) := by
  unfold State.plumbCal
  exact .ite (fun _ => .refl s) (fun _ => .ite (fun _ => calm_tapFault ..)
    (fun _ => .after (calm_modPlumb ..) (calm_modTile _ _ (fun _ => id))))

/-! ## Thermal sensors (05 R150 to R153) -/

theorem calm_senseOne (s : State) (i k : Nat) (v : Int) : Calm s (s.senseOne i k v) := by
  unfold State.senseOne
  exact .ite (fun _ => .refl s) (fun _ => .ite (fun _ => calm_modTile _ _ (fun _ h => ite_st h h))
    (fun _ => .after (calm_raise ..) (calm_modTile _ _ (fun _ => id))))

theorem calm_sampleTile (s : State) (r : TempReading) : Calm s (s.sampleTile r) := by
  unfold State.sampleTile
  refine .ite (fun _ => .refl s) (fun _ => ?_)
  extract_lets v t apart n q w x
  have hv : Calm s v := .after (calm_senseOne ..) (calm_senseOne ..)
  have hw : Calm s w := .after (calm_modTile _ _ (fun _ => id)) hv
  have hx : Calm s x := .ite (fun _ => .after (calm_raise ..) hw) (fun _ => hw)
  exact .ite (fun _ => hv.trans (calm_fence ..)) (fun _ => .ite (fun _ => hx.trans (calm_unshedIf ..)) (fun _ => hx))

theorem calm_followCheck (s : State) : Calm s s.followCheck := .ite (fun _ => .same) (fun _ => .refl s)

theorem calm_sampleTiles (s : State) (l : List Nat) (rs : List TempReading) :
    Calm s (s.each l (fun s i => s.sampleTile (s.readingOf rs i))) := .each (fun _ _ => calm_sampleTile ..) s l

/-- A trip halts the block. -/
theorem safe_tripAt (s : State) (i : Nat) : Safe s (s.tripAt i) := by
  unfold State.tripAt
  split
  · exact (Calm.refl s).safe
  · have k := calm_raise ({ s with boot := { s.boot with trip := true } } : State) 0x308 i 0
    refine .halt (.trans (.same (trip := fun _ => rfl)) k.toKept) ?_ 4
    rw [k.haltB]
    simp [State.haltedB]

theorem safe_thermalSample (s : State) (rs : List TempReading) : Safe s (s.thermalSample rs) := by
  unfold State.thermalSample
  split
  · exact (Calm.refl s).safe
  · dsimp only
    refine .after (calm_followCheck _).safe ?_
    split
    on_goal 2 => refine .after (safe_tripAt ..) ?_
    all_goals
      refine Calm.safe <| .after (calm_mapTiles _ (fun _ _ h => by split <;> exact h)) ?_
      exact .after (calm_sampleTiles ..) .same

/-! ## The emergency throttle input (02 R65) -/

theorem calm_thrConfirm (s : State) : Calm s s.thrConfirm := .same
theorem calm_thrFall (s : State) (n : Nat) : Calm s (s.thrFall n) :=
  .ite (fun _ => .same) (fun _ => .ite (fun _ => .refl s) (fun _ => calm_thrConfirm s))
theorem calm_thrRise (s : State) : Calm s s.thrRise := .ite (fun _ => .same) (fun _ => .refl s)
theorem calm_thrEnd (s : State) : Calm s s.thrEnd := .ite (fun _ => .same) (fun _ => .refl s)
theorem calm_holdThr (s : State) (b : Bool) : Calm s (s.holdThr b) := .same

/-- An outcome that is one of two calm changes after the time that has passed. -/
theorem calm_next_ite {dt : Nat} {s t : State} {b : Bool} {f g : State → State}
    (h : (.next (if b then f (s.tick dt) else g (s.tick dt)) : Step) = .next t) (hf : ∀ u, Calm u (f u)) (hg : ∀ u, Calm u (g u)) :
    Calm s t := by
  simp only [Host.Outcome.next.injEq] at h
  subst h
  split
  · exact (calm_tick s dt).trans (hf _)
  · exact (calm_tick s dt).trans (hg _)

end Sys2Proof.Proofs
end

section
/-! SUPPORT. The sextant channels are calm (03 R88 to R104; 14 R338). -/

namespace Sys2Proof.Proofs

open Sys2Proof.Machine Sys2Proof.Safety Sys2Proof.Laws

set_option Elab.async false

/-! ## Results (03 R96 to R98) -/

theorem calm_putPacket (s : State) (ty src nrec : Nat) (t : Time) (b : List Flit) : Calm s (s.putPacket ty src nrec t b) :=
  ⟨kept_putPacket .., rfl, rfl, rfl⟩

theorem calm_drain (s : State) (ch : Nat) : Calm s (s.drain ch) := by
  unfold State.drain
  exact .ite (fun _ => .refl s) (fun _ => .after .same (calm_modChan ..))

theorem calm_sxPacket (s : State) (ch : Nat) : Calm s (s.sxPacket ch) := by
  unfold State.sxPacket
  exact .ite (fun _ => .refl s) (fun _ => .after (calm_putPacket ..) (calm_modChan ..))

theorem calm_feedSample (s : State) (ch : Nat) (p : Pair) : Calm s (s.feedSample ch p) := by
  unfold State.feedSample
  exact .ite (fun _ => calm_modChan ..) (fun _ => .same)

theorem calm_deliver (s : State) (ch : Nat) (p : Pair) : Calm s (s.deliver ch p) := by
  unfold State.deliver
  extract_lets c v
  have hv : Calm s v := .ite (fun _ => calm_feedSample ..) (fun _ => .refl s)
  refine hv.trans (.ite (fun _ => calm_modChan ..) (fun _ => .ite (fun _ => calm_modChan ..) (fun _ => ?_)))
  exact .after (.ite (fun _ => .ite (fun _ => calm_sxPacket ..) (fun _ => .refl _)) (fun _ => calm_drain ..)) (calm_modChan ..)

/-! ## Setup, arming and disarming (03 R91 to R94) -/

theorem calm_applySetup (s : State) (ch : Nat) (w : BitVec 64) (o : Time) (l : Word) : Calm s (s.applySetup ch w o l) := calm_modChan ..

theorem calm_nextSetup (s : State) (ch : Nat) : Calm s (s.nextSetup ch) := by
  unfold State.nextSetup
  dsimp only
  split
  · exact .ite (fun _ => .refl s) (fun _ => .ite (fun _ => .after (calm_finishO ..) (calm_modChan ..))
      (fun _ => .after (calm_finishO ..) <| .after (calm_applySetup ..) (calm_modChan ..)))
  · exact .refl s

theorem calm_takeSetups (s : State) (ch : Nat) : Calm s (s.takeSetups ch) := .each (fun _ _ => calm_nextSetup ..) _ _

theorem calm_lone (s : State) (ch : Nat) : Calm s (s.lone ch).1 := by
  unfold State.lone
  dsimp only
  split
  · exact .after (calm_deliver ..) (calm_modChan ..)
  · exact .after (calm_deliver ..) (calm_modChan ..)
  · exact .refl s

theorem calm_disarm (s : State) (ch : Nat) : Calm s (s.disarm ch).1 := by
  unfold State.disarm
  exact calm_fst_ite (fun _ => .refl s) (fun _ => .after (calm_modChan ..) (calm_lone ..))

theorem calm_disarmNow (s : State) (ch : Nat) : Calm s (s.disarmNow ch) := .after (calm_takeSetups ..) (calm_disarm ..)
theorem calm_armNow (s : State) (ch : Nat) : Calm s (s.armNow ch) := calm_modChan ..

/-! ## Edges (03 R92 to R95) -/

theorem calm_complete (s : State) (ch a b : Nat) (chain : Option Nat) : Calm s (s.complete ch a b chain) := by
  unfold State.complete
  extract_lets v p w x c
  have hx : Calm s x := .after (calm_deliver ..) <| .after (calm_modChan ..) (calm_modChan ..)
  exact hx.trans (.ite (fun _ => .after (calm_disarmNow ..) (calm_modChan ..)) (fun _ => .refl x))

theorem calm_accept94 (s : State) (ch : Nat) (stop : Bool) (t : Nat) : Calm s (s.accept94 ch stop t) := by
  unfold State.accept94
  extract_lets v c
  have hv : Calm s v := calm_modChan ..
  refine hv.trans ?_
  split
  · split
    · exact calm_complete ..
    · exact calm_modChan ..
    · exact calm_modChan ..
  · split
    · exact calm_complete ..
    · exact calm_modChan ..
    · exact calm_modChan ..

theorem calm_pinEdge (s : State) (pin : Nat) (lv : PinMove) : Calm s (s.pinEdge pin lv).2 := by
  unfold State.pinEdge
  dsimp only
  split
  · exact .refl s
  · exact calm_take s .race 2

theorem calm_isEdge (s : State) (src : Nat) (lv : PinMove) : Calm s (s.isEdge src lv).2 :=
  calm_snd_ite (fun _ => calm_pinEdge ..) (fun _ => .refl s)

theorem calm_gateTakes (s : State) (c : Chan) : Calm s (s.gateTakes c).2 := by
  unfold State.gateTakes
  exact calm_snd_ite (fun _ => calm_take s .race 2) (fun _ => .refl s)

theorem calm_edgeAt (s : State) (ch : Nat) (stop : Bool) (t : Nat) (lv : PinMove) : Calm s (s.edgeAt ch stop t lv) := by
  unfold State.edgeAt
  refine .ite (fun _ => .refl s) (fun _ => ?_)
  extract_lets x y v
  have hv : Calm s v := (calm_isEdge ..).trans (calm_gateTakes ..)
  refine .ite (fun _ => hv) (fun _ => hv.trans ?_)
  split
  · exact .ite (fun _ => calm_modChan ..) (fun _ => calm_accept94 ..)
  · exact calm_accept94 ..

theorem calm_gateRise (s : State) (pin : Nat) : Calm s (s.gateRise pin) := by
  unfold State.gateRise
  refine .after (.each (fun v ch => ?_) _ _) .same
  exact .ite (fun _ => .after (.ite (fun _ => .refl _) (fun _ => .after (calm_modChan ..) (calm_armNow ..))) (calm_modChan ..))
    (fun _ => .refl v)

theorem calm_gateFall (s : State) (pin : Nat) : Calm s (s.gateFall pin) := by
  unfold State.gateFall
  refine .after (.each (fun v ch => ?_) _ _) .same
  exact .ite (fun _ => .after (calm_disarmNow ..) (calm_modChan ..)) (fun _ => .refl v)

theorem calm_windowOpen (s : State) (ch : Nat) : Calm s (s.windowOpen ch) := by
  unfold State.windowOpen
  refine .ite (fun _ => .refl s) (fun _ => ?_)
  extract_lets v t w
  have hv : Calm s v := calm_armNow ..
  have hw : Calm v w := .ite (fun _ => calm_edgeAt ..) (fun _ => .refl v)
  exact (hv.trans hw).trans (.ite (fun _ => calm_edgeAt ..) (fun _ => .refl w))

theorem calm_windowClose (s : State) (ch : Nat) : Calm s (s.windowClose ch) := by
  unfold State.windowClose
  exact .ite (fun _ => .refl s) (fun _ => .after (calm_disarmNow ..) (calm_modChan ..))

theorem calm_endCal (s : State) (ch : Nat) (pass : Bool) : Calm s (s.endCal ch pass) := .after (calm_takeSetups ..) (calm_modChan ..)
theorem calm_freeChan (s : State) (ch : Nat) : Calm s (s.freeChan ch) := calm_modChan ..

theorem calm_setService (s : State) (b : Bool) (v : Option (Nat × Nat)) :
    Calm s { s with sxt := { s.sxt with locked := b, svc := v } } := .same

theorem calm_lodeOff (s : State) (why : Resp) : Calm s (s.lodeOff why) := by
  unfold State.lodeOff
  generalize [60, 61, 62, 63] = l
  refine .after (calm_setService _ _ _) (.each (fun v ch => ?_) s _)
  have h : Calm v (State.each ((v.disarm ch).1.modChan ch (fun c => { c with waits := [], lock := false, caling := false }))
      (v.chan ch).waits (fun s w => s.finishO w.2.2.2 why)) :=
    .after (.each (fun _ _ => calm_finishO ..) _ _) <| .after (calm_modChan ..) (calm_disarm ..)
  exact .ite (fun _ => h) (fun _ => .after (calm_freeChan ..) h)

/-! ## The commands 0x50 to 0x55, and the rotation of R99 -/

theorem calm_cmdSxtSetup (u : State) (q : Req) : Calm u (cmdSxtSetup.run u q).1 := by
  unfold cmdSxtSetup
  dsimp only
  exact calm_orElse _ (calm_fst_ite (fun _ => .after (calm_modChan ..) (calm_modChan ..))
    (fun _ => .after (calm_applySetup ..) (calm_modChan ..)))

theorem calm_cmdSxtDisarm (u : State) (q : Req) : Calm u (cmdSxtDisarm.run u q).1 :=
  calm_orElse _ (.after (calm_takeSetups ..) <| .after (calm_modChan ..) (calm_disarm ..))
theorem calm_cmdSxtFree (u : State) (q : Req) : Calm u (cmdSxtFree.run u q).1 := calm_orElse _ (calm_freeChan ..)
theorem calm_cmdSxtRead (u : State) (q : Req) : Calm u (cmdSxtRead.run u q).1 :=
  calm_orElse _ (.after (.each calm_drain _ _) .same)
theorem calm_cmdSxtStats (u : State) (q : Req) : Calm u (cmdSxtStats.run u q).1 :=
  calm_orElse _ (.ite (fun _ => calm_modChan ..) (fun _ => .refl u))
theorem calm_cmdSxtInfo (u : State) (q : Req) : Calm u (cmdSxtInfo.run u q).1 := calm_orElse _ (.refl u)

theorem calm_serviceBegin (s : State) (ch : Nat) : Calm s (s.serviceBegin ch) := .after .same (calm_modChan ..)
theorem calm_serviceEnd (s : State) (ch : Nat) (pass : Bool) : Calm s (s.serviceEnd ch pass) :=
  .after .same <| .after (calm_endCal ..) (calm_modChan ..)

theorem calm_serviceCal (s : State) (ch : Nat) (pass : Bool) : Calm s (s.serviceCal ch pass) := by
  unfold State.serviceCal
  split
  · exact .refl s
  · split
    · exact .ite (fun _ => calm_serviceEnd ..) (fun _ => .refl s)
    · exact .ite (fun _ => .refl s) (fun _ => calm_serviceBegin ..)

end Sys2Proof.Proofs
end

section
/-! SUPPORT. Keystones are calm (08 R214 to R234; 14 R337; 02 R59). -/

namespace Sys2Proof.Proofs

open Sys2Proof.Machine Sys2Proof.Safety Sys2Proof.Laws

set_option Elab.async false

/-! ## The commands 0x40 to 0x47 -/

theorem calm_openSlot (s : State) (k : Nat) (T : Time) (kind : KsKind) (m : Word) : Calm s (s.openSlot k T kind m) :=
  .after .same (calm_modSlot ..)
theorem calm_stage (s : State) (k : Nat) (acts : List (BitVec 128)) : Calm s (s.stage k acts) :=
  .after (calm_modSlot ..) (calm_bookActs ..)

theorem calm_cmdKsOpen (u : State) (q : Req) : Calm u (cmdKsOpen.run u q).1 := by
  unfold cmdKsOpen
  dsimp only
  split
  · exact calm_orElse _ (.refl u)
  · exact calm_orElse _ (calm_openSlot ..)

theorem calm_cmdKsStage (u : State) (q : Req) : Calm u (cmdKsStage.run u q).1 := by
  unfold cmdKsStage
  dsimp only
  refine calm_orElse _ ?_
  split
  · exact .refl u
  · exact calm_stage ..

theorem calm_cmdKsSeal (u : State) (q : Req) : Calm u (cmdKsSeal.run u q).1 := by
  unfold cmdKsSeal
  dsimp only
  exact calm_orElse _ (calm_fst_ite (fun _ => calm_commitKs ..) (fun _ => calm_fst_ite (fun _ => calm_modSlot ..)
    (fun _ => calm_modSlot ..)))

theorem calm_cmdKsAbort (u : State) (q : Req) : Calm u (cmdKsAbort.run u q).1 := calm_orElse _ (calm_abortKs ..)

theorem calm_cmdKsResult (u : State) (q : Req) : Calm u (cmdKsResult.run u q).1 := by
  unfold cmdKsResult
  dsimp only
  split <;> exact .refl u

theorem calm_cmdKsWait (u : State) (q : Req) : Calm u (cmdKsWait.run u q).1 := by
  unfold cmdKsWait
  dsimp only
  split
  · exact calm_modSlot ..
  · exact .refl u
  · exact .refl u

/-! ## Seals and the launch edge (08 R222 to R227) -/

theorem calm_sealComplete (s : State) (k : Nat) : Calm s (s.sealComplete k) := by
  unfold State.sealComplete
  exact .ite (fun _ => .refl s) (fun _ => .after (calm_settleO ..) (calm_modSlot ..))

theorem calm_sealDeadline (s : State) (k : Nat) : Calm s (s.sealDeadline k) := .ite (fun _ => .refl s) (fun _ => calm_abortKs ..)

theorem calm_strobeMiss (s : State) (seq : Word) (i : Nat) : Calm s (s.strobeMiss seq i) :=
  .after (calm_raise ..) <| .after .same (calm_modTile s i (f := fun y => { y with strobes := satInc y.strobes }) (fun _ => id))

theorem calm_launchOne (missed late : List (BitVec 8)) (s : State) (k : Nat) : Calm s (State.launchOne missed late s k) := by
  unfold State.launchOne
  dsimp only
  split
  · exact .refl s
  · split
    · exact .after (.each (fun _ _ => calm_countMiss ..) _ _) (calm_abortKs ..)
    · exact .after (.each (fun _ _ => calm_strobeMiss ..) _ _) (calm_commitKs ..)

theorem calm_launch (s : State) (k : Nat) (missed late : List (BitVec 8)) : Calm s (s.launch k missed late) :=
  .ite (fun _ => .refl s) (fun _ => .each (calm_launchOne missed late) _ _)

theorem calm_ackDeadline (s : State) (k : Nat) (unacked : List (BitVec 8)) : Calm s (s.ackDeadline k unacked) := by
  unfold State.ackDeadline
  exact .ite (fun _ => .refl s) (fun _ => .after .same <| .after (calm_modSlot ..) (.each (fun _ _ => calm_fence ..) _ _))

/-! ## Voltage writes (02 R59; 08 R224, R225) -/

theorem calm_writeRail (s : State) (r v : Nat) : Calm s (s.writeRail r v) := by
  unfold State.writeRail
  refine .ite (fun _ => .after (calm_raise ..) .same) (fun _ => .after (calm_modRail ..) ?_)
  exact .after (calm_setPower _ _) (.ite (fun _ => .refl s) (fun _ => calm_setPower ..))

theorem calm_raiseWrite (s : State) (r : Nat) : Calm s (s.raiseWrite r) := by
  unfold State.raiseWrite
  split
  · exact .ite (fun _ => .after (calm_modSlot ..) (calm_writeRail ..)) (fun _ => .refl s)
  · exact .refl s

theorem calm_raiseCheck (s : State) (r : Nat) : Calm s (s.raiseCheck r) := by
  unfold State.raiseCheck
  split
  · exact .ite (fun _ => calm_modSlot ..) (fun _ => calm_abortKs ..)
  · exact .refl s

theorem calm_lowerWrite (s : State) (r : Nat) : Calm s (s.lowerWrite r) := by
  unfold State.lowerWrite
  exact .ite (fun _ => .refl s) (fun _ => .after (calm_modRail ..) (calm_writeRail ..))

theorem calm_writeBack (s : State) (r : Nat) : Calm s (s.writeBack r) := by
  unfold State.writeBack
  split
  · exact .ite (fun _ => .refl s) (fun _ => .after .same <| .after (calm_modRail ..) (calm_writeRail ..))
  · exact .refl s

end Sys2Proof.Proofs
end

section
/-! SUPPORT. Convoys are calm (10 R266 to R287; 02 R50; 14 R340). -/

namespace Sys2Proof.Proofs

open Sys2Proof.Machine Sys2Proof.Safety Sys2Proof.Laws

set_option Elab.async false

/-! ## Convoy keystones (10 R268, R275 to R277) -/

theorem calm_convoyStage (s : State) (T : Time) (kind : KsKind) (code mseq : Nat) (all : Bool) :
    Calm s (s.convoyStage T kind code mseq all) := by
  unfold State.convoyStage
  extract_lets acts v w
  have hw : Calm s w := .after (calm_modSlot ..) <| .after (calm_stage ..) (calm_openSlot ..)
  exact hw.trans (.ite (fun _ => calm_commitKs ..) (fun _ => .refl w))

theorem calm_stageJoin (s : State) : Calm s s.stageJoin := .ite (fun _ => calm_convoyStage ..) (fun _ => .refl s)

theorem calm_failMove (s : State) (m : CvyMove) (reason status cause : Nat) (retry : Bool) :
    Calm s (s.failMove m reason status cause retry) :=
  .after (calm_outOfStep ..) <| .after (calm_sendNak ..) (calm_settleMove ..)

theorem calm_stageMove (s : State) (m : CvyMove) : Calm s (s.stageMove m) := by
  unfold State.stageMove
  split
  · exact calm_failMove ..
  · exact calm_convoyStage ..

/-! ## The commands 0x70 to 0x74 and their instants -/

theorem calm_cmdCvyJoin (u : State) (q : Req) : Calm u (cmdCvyJoin.run u q).1 :=
  calm_orElse _ (.after (calm_stageJoin _) (calm_setCvy ..))

theorem calm_joinInstant (s : State) : Calm s s.joinInstant := by
  unfold State.joinInstant
  refine .ite (fun _ => .refl s) (fun _ => .ite (fun _ => .refl s) (fun _ => ?_))
  refine .ite (fun _ => .ite (fun _ => calm_launch ..) (fun _ => calm_abortKs ..)) (fun _ => ?_)
  exact (calm_stageJoin s).trans (.ite (fun _ => calm_cvyFinish ..) (fun _ => .refl _))

theorem calm_endJoin (s : State) (cause : Nat) : Calm s (s.endJoin cause) :=
  .after (calm_setCvy _ _) (.ite
    (fun _ => .after (calm_abortKs ..) <| .after (calm_modSlot ..) (calm_settleO ..)) (fun _ => calm_settleO ..))

theorem calm_cmdCvyLeave (u : State) (q : Req) : Calm u (cmdCvyLeave.run u q).1 :=
  calm_orElse _ (.after (calm_setCvy _ _) (.ite (fun _ => calm_endJoin ..) (fun _ => .refl u)))

theorem calm_leaveInstant (s : State) : Calm s s.leaveInstant := by
  unfold State.leaveInstant
  split
  · refine .ite (fun _ => .refl s) (fun _ => .after (calm_cvyFinish ..) <| .after (calm_leaveSend _) ?_)
    exact .ite (fun _ => .after (calm_setCvy _ _) (calm_abortKs ..)) (fun _ => .refl s)
  · exact .refl s

theorem calm_nextMove (s : State) : Calm s s.nextMove := by
  unfold State.nextMove
  split
  · refine .ite (fun _ => .refl s) (fun _ => ?_)
    extract_lets _ v
    have hv : Calm s v := calm_setCvy ..
    exact hv.trans (.ite (fun _ => .after (calm_setCvy _ _) (calm_settleMove ..)) (fun _ => calm_stageMove ..))
  · exact .refl s

theorem calm_cmdCvyMove (u : State) (q : Req) : Calm u (cmdCvyMove.run u q).1 := by
  unfold cmdCvyMove
  dsimp only
  refine (calm_nextMove u).trans ?_
  generalize u.nextMove = v
  exact calm_orElse _ (.after (.ite (fun _ => calm_convoyStage ..) (fun _ => calm_setCvy _ _)) <| .after (calm_sendNotice ..)
    (calm_setCvy ..))

theorem calm_cmdCvyStatus (u : State) (q : Req) : Calm u (cmdCvyStatus.run u q).1 := .refl u
theorem calm_cmdCvyCounters (u : State) (q : Req) : Calm u (cmdCvyCounters.run u q).1 :=
  .ite (fun _ => calm_setCvy ..) (fun _ => .refl u)

/-! ## Inbound notices (10 R272, R274, R276, R280, R281) -/

theorem calm_queueMove (s : State) (m : CvyMove) : Calm s (s.queueMove m) :=
  .ite (fun _ => calm_setCvy ..) (fun _ => calm_failMove ..)

theorem calm_takeMove (s : State) (m : CvyMove) : Calm s (s.takeMove m) := by
  unfold State.takeMove
  refine .ite (fun _ => .refl s) (fun _ => ?_)
  extract_lets _ v
  have hv : Calm s v := calm_setCvy ..
  refine hv.trans ?_
  refine .ite (fun _ => calm_failMove ..) (fun _ => .ite (fun _ => calm_setCvy ..) (fun _ => .ite (fun _ => calm_failMove ..) (fun _ => ?_)))
  exact .ite (fun _ => .ite (fun _ => calm_queueMove ..) (fun _ => calm_failMove ..))
    (fun _ => .ite (fun _ => calm_stageMove ..) (fun _ => calm_queueMove ..))

theorem calm_takeFollow (s : State) (inst : Time) (q why : Nat) : Calm s (s.takeFollow inst q why) := by
  unfold State.takeFollow
  exact .ite (fun _ => calm_setCvy ..) (fun _ => calm_setCvy ..)

theorem calm_cviQueue (s : State) : Calm s s.cviQueue := .after (calm_setCvy _ _) (calm_take s .latency 801)

theorem calm_takeNotice (s : State) (n : Notice) : Calm s (s.takeNotice n) := by
  unfold State.takeNotice
  refine .ite (fun _ => .refl s) (fun _ => (calm_cviQueue s).trans ?_)
  refine .ite (fun _ => calm_modXing ..) (fun _ => .ite (fun _ => calm_setCvy ..) (fun _ => .ite (fun _ => calm_setCvy ..) (fun _ => ?_)))
  split
  · exact calm_takeMove ..
  · exact calm_takeFollow ..
  · exact calm_setCvy ..
  · exact calm_setCvy ..

/-! ## Slot 3, spans, catch-up and suspension -/

theorem calm_queuedStage (s : State) : Calm s s.queuedStage :=
  .ite (fun _ => .refl s) (fun _ => .ite (fun _ => calm_stageJoin s) (fun _ => calm_nextMove s))

theorem calm_spanStart (s : State) : Calm s s.spanStart := calm_setCvy ..

theorem calm_catchUp (s : State) : Calm s s.catchUp := by
  unfold State.catchUp
  refine .ite (fun _ => .refl s) (fun _ => ?_)
  split
  · exact .refl s
  · refine .ite (fun _ => .refl s) (fun _ => ?_)
    split
    · exact .ite (fun _ => calm_setCvy ..) (fun _ => .refl s)
    · exact calm_convoyStage ..

theorem calm_noticeWithdraw (s : State) : Calm s s.noticeWithdraw := calm_setCvy ..

theorem calm_cvySuspend (s : State) : Calm s s.cvySuspend := by
  unfold State.cvySuspend
  have h : ∀ l : List CvyMove, Calm s (State.each { s with cvy := { s.cvy with st := .suspended, queued := none } } l
      (fun s m => s.failMove m 4 0 4 true)) := fun l => (calm_setCvy s _).trans (.each (fun _ _ => calm_failMove ..) _ _)
  split
  · exact .ite (fun _ => .refl s) (fun _ => calm_cvyFinish ..)
  · exact h _
  · exact h _
  · exact .refl s

theorem calm_cvyResume (s : State) : Calm s s.cvyResume := .ite (fun _ => calm_setCvy ..) (fun _ => .refl s)
theorem calm_cvyLost (s : State) : Calm s s.cvyLost := .ite (fun _ => .after (calm_raise0 ..) (calm_cvyFinish ..)) (fun _ => .refl s)

theorem calm_cvoReady (s : State) (words : Option Nat) : Calm s (s.cvoReady words) := by
  cases words
  · exact .after (calm_cvyPump _) (calm_setCvy ..)
  · exact calm_setCvy ..

end Sys2Proof.Proofs
end

section
/-! SUPPORT. Meridian time and the lodestar are calm (03 R75 to R104; 02 R55 to R58; 18 R403). -/

namespace Sys2Proof.Proofs

open Sys2Proof.Machine Sys2Proof.Safety Sys2Proof.Laws

set_option Elab.async false

/-! ## States and the loss of reference (03 R81, R83) -/

theorem calm_clearHistory (s : State) : Calm s s.clearHistory := calm_setRck ..

theorem calm_enterWarmup (s : State) : Calm s s.enterWarmup := by
  unfold State.enterWarmup
  dsimp only
  split
  · exact .after (calm_setRck _ _) (.each calm_abandonRun _ _)
  · exact calm_setRck ..
  · exact calm_setRck ..
  · exact .refl s

theorem calm_setMerSt (s : State) (m : MerSt) : Calm s (s.setMer m) :=
  .ite (fun _ => .refl s) (fun _ => .after (calm_raise0 ..) (calm_setMer ..))

theorem calm_newBaseline (s : State) : Calm s s.newBaseline := calm_setSxt ..

theorem calm_enterLocked (s : State) : Calm s s.enterLocked :=
  .after (calm_cvyResume _) <| .after (calm_newBaseline _) <| .after (calm_setMerBoot ..) (calm_setMerSt ..)

theorem calm_withdraw (s : State) (i : Nat) (gone keep : List Sched) : Calm s (s.withdraw i gone keep) := by
  unfold State.withdraw
  exact .ite (fun _ => .refl s) (fun _ => .after (.each (fun _ _ => calm_settleO ..) _ _) (calm_modTile _ _ (fun _ => id)))

theorem calm_holdover (s : State) : Calm s s.holdover := by
  unfold State.holdover
  exact .after (calm_cvySuspend _) <| .after (.each (fun _ _ => calm_withdraw ..) _ _) <|
    .after (.each (fun v k => .ite (fun _ => calm_abortKs ..) (fun _ => .refl v)) _ _) <| .after (calm_setMerSt ..) (calm_setMer ..)

theorem calm_reschedule (s : State) (i : Nat) (a : SchedAct) : Calm s (s.reschedule i a) := by
  unfold State.reschedule
  generalize 2 ^ 40 - 1024000 = n
  exact .after (.ite (fun _ => .refl _) (fun _ => calm_modTile _ _ (fun _ => id))) (calm_take s .latency n)

theorem calm_rescheduleAll (s : State) : Calm s s.rescheduleAll := by
  unfold State.rescheduleAll
  refine .each (fun v i => ?_) _ _
  exact .ite (fun _ => .refl v) (fun _ => .after (.each (f := fun s a => s.reschedule i a) (fun v a => calm_reschedule v i a) _ _)
    (calm_modTile _ _ (fun _ => id)))

theorem calm_refLost (s : State) (pulse : Bool) : Calm s (s.refLost pulse) := by
  unfold State.refLost
  extract_lets gone old
  have hg : ∀ v, Calm v (gone v) := fun v => calm_setMerBoot ..
  have hr : ∀ v, Calm v ((gone v).raise 0x101 (b2n pulse) old) := fun v => .after (calm_raise ..) (hg v)
  split
  · exact .refl s
  · exact .after (calm_setMer ..) <| .after (calm_setMerSt ..) (hr s)
  · exact .after (calm_holdover _) (hr s)
  · exact .after (calm_holdover _) (hr s)
  · exact .ite (fun _ => hr s) (fun _ => .refl s)

theorem calm_refValid (s : State) : Calm s s.refValid := by
  unfold State.refValid
  refine .ite (fun _ => .refl s) (fun _ => ?_)
  extract_lets _ v
  have hv : Calm s v := calm_setBoot ..
  split
  · exact .after (calm_setMerSt ..) hv
  · exact .after (calm_setMer ..) hv
  · exact hv

theorem calm_pllLock (s : State) : Calm s s.pllLock := by
  unfold State.pllLock
  refine .ite (fun _ => .refl s) (fun _ => ?_)
  extract_lets first _ _ v
  have hv : Calm s v := calm_setMerBoot ..
  exact hv.trans (.ite (fun _ => calm_setSxt _ _ (by simp)) (fun _ => .refl v))

/-! ## Bring-up calibration (18 R403) -/

theorem calm_setCal (s : State) (a b c d : Bool) :
    Calm s { s with boot := { s.boot with bootCal := a, sxtCal := b, lodeCal := c, calFail := d } } := .same

theorem calm_bringup (s : State) (part : BringupPart) (tiles : List (BitVec 8)) (sens : List (BitVec 8 × Bool)) (chans : List (BitVec 6)) :
    Calm s (s.bringup part tiles sens chans) := by
  unfold State.bringup
  cases part with
  | mortarThermal =>
    refine .ite (fun _ => .refl s) (fun _ => ?_)
    extract_lets bt bs
    refine .after (calm_setBoot _ _) <| .after (.each (fun v x => ?_) _ _) (.each (fun _ _ => calm_fence ..) _ _)
    refine .ite (fun _ => .refl v) (fun _ => .after (.ite (fun _ => calm_fence ..) (fun _ => .refl _)) ?_)
    exact .after (calm_raise ..) (calm_modTile _ _ (fun _ => id))
  | sextants =>
    exact .ite (fun _ => .refl s) (fun _ => .after (calm_setBoot _ _) (.each (fun _ _ => calm_endCal ..) _ _))
  | lodestar =>
    exact .ite (fun _ => .refl s) (fun _ => .after (calm_setBoot _ _) (.each (fun _ _ => calm_endCal ..) _ _))

/-! ## Breaks (03 R86) -/

theorem calm_dropWindows (s : State) (ch : Nat) : Calm s (s.dropWindows ch) :=
  .after (.each (fun _ _ => calm_finishO ..) _ _) (calm_modChan ..)

theorem calm_breakWindows (s : State) : Calm s s.breakWindows := by
  refine .each (fun v ch => ?_) _ _
  extract_lets w c x
  have hw : Calm v w := calm_dropWindows ..
  have hx : Calm w x := .ite (fun _ => calm_modChan ..) (fun _ => .refl w)
  exact (hw.trans hx).trans (.ite (fun _ => .after (calm_disarmNow ..) (calm_modChan ..)) (fun _ => .refl x))

theorem calm_breakDrop (s : State) : Calm s s.breakDrop := by
  unfold State.breakDrop
  refine .after (.each (fun _ _ => .after (calm_outOfStep ..) <| .after (calm_sendNak ..) (calm_settleMove ..)) _ _) ?_
  refine .after (.ite (fun _ => calm_cvyFinish ..) (fun _ => .refl _)) ?_
  exact .same (domRet := by simp)

theorem calm_breakSched (s : State) : Calm s s.breakSched :=
  .after (calm_breakDrop _) <| .after (calm_settleO ..) <| .after (.each (fun _ _ => calm_settle ..) _ _) <|
    .after (.each (fun _ _ => calm_settle ..) _ _) (.each (fun _ _ => calm_withdraw ..) _ _)

theorem st_getD_map {f : Tile → Tile} (h : ∀ x, (f x).st = x.st) (l : List Tile) (i : Nat) :
    ((l.map f).getD i {}).st = (l.getD i {}).st := by
  simp only [List.getD_eq_getElem?_getD, List.getElem?_map]
  cases l[i]? with
  | none => rfl
  | some x => exact h x

theorem calm_breakTo (s : State) (new : Time) (unset : Bool) : Calm s (s.breakTo new unset) := by
  unfold State.breakTo
  dsimp only
  refine .after (.ite (fun _ => calm_cvyLost _) (fun _ => .refl _)) ?_
  refine .after (calm_enterWarmup _) <| .after (calm_clearHistory _) <| .after (calm_raiseC ..) ?_
  refine .after (.each calm_abandonRun _ _) ?_
  have hv : Calm s (s.each [0, 1, 2, 3] (fun s k => s.abortKs k 5 none)).breakSched.breakWindows :=
    .after (calm_breakWindows _) <| .after (calm_breakSched _) (.each (fun _ k => calm_abortKs _ k 5 none) _ _)
  refine hv.trans ?_
  generalize (s.each [0, 1, 2, 3] (fun s k => s.abortKs k 5 none)).breakSched.breakWindows = v
  refine .same (tiles := by simp) (rails := by simp) (halted := fun i h => ?_)
  refine Eq.trans (st_getD_map (l := v.tiles) ?_ i) h
  exact fun _ => rfl

theorem calm_refReturn (s : State) : Calm s s.refReturn := by
  unfold State.refReturn
  dsimp only
  refine .ite (fun _ => .after (calm_rescheduleAll _) ?_) (fun _ => .after (calm_rescheduleAll _) <| .after (calm_enterLocked _) (calm_breakTo ..))
  refine .after (.ite (fun _ => calm_enterLocked _) (fun _ => .ite (fun _ => calm_cvyResume _) (fun _ => .refl _))) ?_
  exact .after (calm_setMerSt ..) (calm_setMer ..)

theorem calm_slewStep (s : State) (dt : Nat) : Calm s (s.slewStep dt) := by
  unfold State.slewStep
  refine .ite (fun _ => .refl s) (fun _ => ?_)
  extract_lets v
  have hv : Calm s v := calm_setMer ..
  refine hv.trans ?_
  exact .ite (fun _ => calm_enterLocked _) (fun _ => .ite (fun _ => calm_cvyResume _) (fun _ => .refl _))

/-! ## Pulses (03 R75, R78, R79, R81, R82; 02 R55, R56) -/

theorem calm_broadcast (s : State) (diffs : List (BitVec 8 × Int)) : Calm s (s.broadcast diffs) := by
  unfold State.broadcast
  refine .after (.each (fun v d => ?_) _ _) (calm_mapTiles _ (fun _ _ h => by split <;> exact h))
  exact .after (.ite (fun _ => calm_fence ..) (fun _ => .refl _)) (calm_raise ..)

theorem calm_epochPulse (s : State) : Calm s s.epochPulse := by
  unfold State.epochPulse
  split
  · exact .refl s
  · exact .ite (fun _ => calm_setMer ..) (fun _ => .after (.ite (fun _ => .refl _) (fun _ => calm_breakTo ..)) (calm_setMer ..))

theorem calm_goodPulse (s : State) (periods : Nat) : Calm s (s.goodPulse periods) := by
  unfold State.goodPulse
  extract_lets _ v
  have hv : Calm s v := calm_setMer ..
  refine hv.trans ?_
  split
  · exact .ite (fun _ => .refl v) (fun _ => .ite (fun _ => .after (calm_enterLocked _) (calm_setMer ..)) (fun _ => calm_setMer ..))
  · exact .ite (fun _ => .refl v) (fun _ => .ite (fun _ => calm_refReturn v) (fun _ => calm_setMer ..))
  · exact .refl v

theorem calm_badPulse (s : State) : Calm s s.badPulse :=
  .after (.ite (fun _ => calm_refLost ..) (fun _ => .refl _)) (calm_setMer s _)

theorem calm_swapFix (s : State) (mer : Bool) : Calm s (s.swapFix mer) := by
  unfold State.swapFix
  extract_lets v _ w
  have hv : Calm s v := .ite (fun _ => calm_refLost ..) (fun _ => .refl s)
  have hw : Calm v w := calm_setMer ..
  refine (hv.trans hw).trans ?_
  exact .ite (fun _ => .after (calm_raise0 ..) (calm_setBoot ..)) (fun _ => .after (calm_raise0 ..) (calm_setBoot ..))

theorem calm_pulse63 (s : State) : Calm s s.pulse63 := .ite (fun _ => .refl s) (fun _ => calm_setSxt ..)

theorem pulse63_boot (s : State) : s.pulse63.boot = s.boot := by
  unfold State.pulse63
  split <;> rfl

theorem calm_meridianPulse (s : State) (periods : Nat) (al : PulseAlign) (longHigh : Bool) (diffs : List (BitVec 8 × Int)) :
    Calm s (s.meridianPulse periods al longHigh diffs) := by
  unfold State.meridianPulse
  refine .ite (fun _ => .refl s) (fun _ => .ite (fun _ => calm_swapFix ..) (fun _ => ?_))
  extract_lets _ _ _ v w x
  have hv : Calm s v := .after (calm_setMerBoot _ _ _ (by rw [pulse63_boot]) (by rw [pulse63_boot]) (by rw [pulse63_boot])) (calm_pulse63 s)
  have hw : Calm v w := .ite (fun _ => calm_epochPulse _) (fun _ => .refl _)
  have hx : Calm w x := .ite (fun _ => calm_broadcast ..) (fun _ => .refl _)
  exact ((hv.trans hw).trans hx).trans
    (.ite (fun _ => calm_swapFix ..) (fun _ => .ite (fun _ => calm_goodPulse ..) (fun _ => calm_badPulse _)))

/-! ## The lodestar (03 R101 to R104, 02 R58) -/

theorem calm_suspect (s : State) : Calm s s.suspect := .after (calm_raise0 ..) (calm_setSxt ..)

theorem calm_refCheck (s : State) (delta : Nat) : Calm s (s.refCheck delta) := by
  unfold State.refCheck
  refine .ite (fun _ => .refl s) (fun _ => ?_)
  exact .after (.ite (fun _ => calm_suspect _) (fun _ => .refl _)) (calm_setSxt s _)

theorem calm_xoFail (s : State) (k : XoFault) : Calm s (s.xoFail k) := by
  refine .after (calm_raise0 ..) <| (calm_lodeOff s xoR).trans ?_
  generalize s.lodeOff xoR = v
  exact calm_setBootSxt ..

theorem calm_xoFault (s : State) (k : XoFault) : Calm s (s.xoFault k) :=
  .ite (fun _ => calm_setBoot ..) (fun _ => .ite (fun _ => .refl s) (fun _ => calm_xoFail ..))

theorem calm_xoWindowEnd (s : State) (low : Bool) : Calm s (s.xoWindowEnd low) :=
  .ite (fun _ => .refl s) (fun _ => .ite (fun _ => calm_xoFail ..) (fun _ => calm_setBoot ..))

theorem calm_lodeLock (s : State) : Calm s s.lodeLock := by
  unfold State.lodeLock
  exact .ite (fun _ => .refl s) (fun _ => .after (calm_newBaseline _) <| calm_setBootSxt _ _ _ (chans := by simp))

theorem calm_lodeTick (s : State) : Calm s s.lodeTick := by
  unfold State.lodeTick
  refine .ite (fun _ => .refl s) (fun _ => .after (.ite (fun _ => .each (fun _ _ => calm_disarmNow ..) _ _) (fun _ => .refl _)) ?_)
  exact calm_setSxt s _

theorem calm_cmdLodeAge (u : State) (q : Req) : Calm u (cmdLodeAge.run u q).1 := by
  unfold cmdLodeAge
  dsimp only
  refine calm_orElse _ (.after (.ite (fun _ => .refl _) (fun _ => .after (calm_newBaseline _) (calm_raise0 ..))) ?_)
  exact calm_setSxt u _

theorem calm_cmdLodeCheck (u : State) (q : Req) : Calm u (cmdLodeCheck.run u q).1 := by
  unfold cmdLodeCheck
  dsimp only
  exact calm_orElse _ (.ite (fun _ => .refl u) (fun _ => calm_setSxt ..))

theorem calm_cmdLodeEnable (u : State) (q : Req) : Calm u (cmdLodeEnable.run u q).1 := by
  unfold cmdLodeEnable
  dsimp only
  exact calm_fst_ite (fun _ => .refl u) (fun _ => calm_orElse _ <| calm_setBootSxt u _ _)

end Sys2Proof.Proofs
end

section
/-! SUPPORT. Trust, policy and the power controller's intervals are calm (16 R364 to R384; 09 R238 to R257; 02 R59). -/

namespace Sys2Proof.Proofs

open Sys2Proof.Machine Sys2Proof.Safety Sys2Proof.Laws

set_option Elab.async false

/-! ## Stages and charts (16 R364 to R384) -/

theorem calm_setHelmTrust (s : State) (h : Helm) (t : Trust) (f0 : t.fuse0 = s.trust.fuse0 := by rfl)
    (f1 : t.fuse1 = s.trust.fuse1 := by rfl) (f2 : t.fuse2 = s.trust.fuse2 := by rfl) : Calm s { s with helm := h, trust := t } :=
  .same (f0 := f0) (f1 := f1) (f2 := f2)

theorem calm_enterRom (s : State) : Calm s s.enterRom := calm_setHelmTrust ..

theorem calm_enterRun (s : State) (fresh : Bool) : Calm s (s.enterRun fresh) := by
  cases fresh <;> exact calm_setHelmTrust ..

theorem calm_seedLedger (s : State) : Calm s s.seedLedger := .each (fun v _ => .after (calm_setLedger _ _) (calm_takeSeed v)) _ _

theorem calm_romStart (s : State) : Calm s s.romStart := by
  unfold State.romStart
  refine .ite (fun _ => .refl s) (fun _ => .after (.ite (fun _ => .after (calm_raise0 ..) (calm_setSxt ..)) (fun _ => .refl _)) ?_)
  exact .after (calm_seedLedger _) <| .after (calm_enterRom _) <| .after (calm_setHelm _ _) (calm_setTrust s _)

theorem tighten_st (t : Tile) (c : Chart) (cls : Nat) : (t.tighten c cls).st = t.st := rfl

theorem calm_tighten (s : State) (cls : Nat) (c : Chart) : Calm s (s.tighten cls c) := by
  unfold State.tighten
  refine .after (calm_raise0 ..) <| .after (.each (fun v w => ?_) _ _) <| .after (.each (fun v i => ?_) _ _) <|
    .after (.each (fun v k => ?_) _ _) ?_
  · exact .ite (fun _ => .after (calm_raise ..) (calm_setPower ..)) (fun _ => .refl v)
  · exact .ite (fun _ => .refl v) (fun _ => .after (.each (fun _ _ => calm_settleO ..) _ _) (calm_modTile _ _ (fun _ => id)))
  · split
    · exact calm_abortKs ..
    · exact .refl v
  · refine .after (calm_mapTiles { s with trust := { s.trust with charts := s.trust.charts.set (cls - 1) c } } (fun i t h => ?_))
      (calm_setTrust s _)
    split
    · exact (tighten_st t c cls).trans h
    · exact h

theorem calm_cmdChartRead (u : State) (q : Req) : Calm u (cmdChartRead.run u q).1 := .refl u

theorem calm_cmdChartTighten (u : State) (q : Req) : Calm u (cmdChartTighten.run u q).1 := by
  unfold cmdChartTighten
  dsimp only
  split
  · exact .refl u
  · exact calm_fst_ite (fun _ => calm_setTrust ..) (fun _ => calm_tighten ..)

theorem calm_tightenHeld (s : State) : Calm s s.tightenHeld := .after (calm_setTrust _ _) (.each (fun _ _ => calm_tighten ..) _ _)

/-! ## The commands 0x00 to 0x15 -/

theorem calm_cmdIdentify (u : State) (q : Req) : Calm u (cmdIdentify.run u q).1 := .refl u
theorem calm_cmdCaps (u : State) (q : Req) : Calm u (cmdCaps.run u q).1 := .refl u
theorem calm_openInbound (s : State) (x : Inbound) : Calm s (s.openInbound x) := calm_setLog ..

theorem calm_cmdFwLoad (u : State) (q : Req) : Calm u (cmdFwLoad.run u q).1 := by
  unfold cmdFwLoad
  dsimp only
  exact calm_fst_ite (fun _ => .refl u) (fun _ => calm_fst_ite (fun _ => .refl u) (fun _ => calm_openInbound ..))

theorem calm_cmdSetEpoch (u : State) (q : Req) : Calm u (cmdSetEpoch.run u q).1 := calm_orElse _ (calm_setMer ..)
theorem calm_cmdSetHostQ (u : State) (q : Req) : Calm u (cmdSetHostQ.run u q).1 := calm_setHostRate ..
theorem calm_cmdSetFloor (u : State) (q : Req) : Calm u (cmdSetFloor.run u q).1 := calm_setPower ..
theorem calm_cmdSetSafeQ (u : State) (q : Req) : Calm u (cmdSetSafeQ.run u q).1 := calm_orElse _ (calm_setPower ..)
theorem calm_cmdSetPmbus (u : State) (q : Req) : Calm u (cmdSetPmbus.run u q).1 := calm_orElse _ (calm_setPower ..)
theorem calm_cmdReadPolicy (u : State) (q : Req) : Calm u (cmdReadPolicy.run u q).1 := .refl u

end Sys2Proof.Proofs
end

section
/-! SUPPORT. The power controller's intervals are calm (09 R238 to R257; 07 R208; 02 R59). -/

namespace Sys2Proof.Proofs

open Sys2Proof.Machine Sys2Proof.Safety Sys2Proof.Laws

set_option Elab.async false

/-! ## Readbacks (09 R238, R241) -/

theorem calm_overCheck (s : State) (r mv : Nat) : Calm s (s.overCheck r mv) := by
  unfold State.overCheck
  refine .ite (fun _ => .after (.ite (fun _ => .after (calm_raise ..) (calm_modRail ..)) (fun _ => .refl _)) (calm_modRail s r _)) (fun _ => ?_)
  exact .ite (fun _ => calm_modRail ..) (fun _ => calm_modRail ..)

theorem calm_takeVolt (s : State) (r mv : Nat) : Calm s (s.takeVolt r mv) := .after (calm_overCheck ..) (calm_modRail ..)
theorem calm_takeCurrent (s : State) (r ma : Nat) : Calm s (s.takeCurrent r ma) := calm_modRail ..

theorem calm_pmbus (s : State) (bad : Nat) (ops : List BusOp) {f : State → State} (hf : ∀ u, Calm u (f u)) : Calm s (s.pmbus bad ops f) :=
  .after (.ite (fun _ => calm_setPower ..) (fun _ => hf _)) (calm_setPower s _)

theorem calm_raiseRead (s : State) (r mv bad : Nat) : Calm s (s.raiseRead r mv bad) := by
  unfold State.raiseRead
  split
  · exact .ite (fun _ => calm_pmbus _ _ _ (fun _ => calm_takeVolt ..)) (fun _ => .refl s)
  · exact .refl s

/-! ## The estimate, the guard and the caps (09 R242 to R249) -/

theorem calm_compareRail (s : State) (r : Nat) : Calm s (s.compareRail r) := by
  unfold State.compareRail
  refine .ite (fun _ => calm_modRail ..) (fun _ => .ite (fun _ => calm_modRail ..) (fun _ => ?_))
  extract_lets p up dn v _ w
  have hv : Calm s v := calm_modRail ..
  have hw : Calm v w := .ite (fun _ => .after (calm_raise ..) (calm_setPower ..)) (fun _ => .refl v)
  exact (hv.trans hw).trans (.ite (fun _ => .after (calm_raise ..) (calm_modRail ..)) (fun _ => .refl w))

theorem calm_trustAgain (s : State) : Calm s s.trustAgain := .ite (fun _ => .refl s) (fun _ => .after (calm_raise0 ..) (calm_setPower ..))

theorem calm_trustStep (s : State) (dist : Bool) : Calm s (s.trustStep dist) := by
  unfold State.trustStep
  refine .ite (fun _ => .refl s) (fun _ => ?_)
  exact .after (.ite (fun _ => calm_trustAgain _) (fun _ => .refl _)) (calm_setPower s _)

theorem calm_fastGuard (s : State) (p : Nat) : Calm s (s.fastGuard p) := by
  unfold State.fastGuard
  exact .ite (fun _ => calm_setPower ..) (fun _ => .refl s)

theorem calm_capEval (s : State) (which : Nat) : Calm s (s.capEval which) := by
  unfold State.capEval
  refine .ite (fun _ => .refl s) (fun _ => ?_)
  extract_lets _ v
  have hv : Calm s v := calm_setPower ..
  refine hv.trans ?_
  split
  · exact .refl v
  · exact .after (calm_followCheck _) (calm_setPower v _)

/-! ## The ledger and the throttle records (09 R254 to R257; 15 Table 15.6) -/

theorem calm_integrate (s : State) (sp : List Split) : Calm s (s.integrate sp) := calm_setLedger ..
theorem calm_takeMap (s : State) : Calm s s.takeMap := calm_setLedger ..

theorem calm_ledgerSnap (s : State) : Calm s s.ledgerSnap :=
  .ite (fun _ => .refl s) (fun _ => .after (calm_logPacket ..) (calm_setLedger ..))

theorem calm_formThrottle (s : State) : Calm s s.formThrottle :=
  .ite (fun _ => .refl s) (fun _ => .after (calm_sendRecs ..) (calm_setLog ..))

theorem calm_throttleRec (s : State) (idx : Nat) : Calm s (s.throttleRec idx) := by
  unfold State.throttleRec
  extract_lets now p all cap rec form v
  have hv : Calm s v := calm_setPower ..
  refine hv.trans ?_
  exact .ite (fun _ => .refl _) (fun _ => .after (.ite (fun _ => calm_formThrottle _) (fun _ => .refl _)) (calm_setLog _ _))

/-! ## The sampling interval (09 R241) -/

theorem calm_takeReadings (s : State) (rs : List RailReading) : Calm s (s.takeReadings rs) :=
  .after (.each (fun v _ => .ite (fun _ => .after (calm_takeCurrent ..) (calm_takeVolt ..)) (fun _ => .refl v)) _ _) (calm_setPower s _)

theorem calm_closeInterval (s : State) (missing : List Nat) : Calm s (s.closeInterval missing) := by
  unfold State.closeInterval
  refine (calm_takeMap s).trans ?_
  generalize s.takeMap = v
  refine .same (tiles := by simp) (rails := by simp) (halted := fun j hj => ?_)
  show (({ v with tiles := v.tiles.mapIdx _ } : State).tile j).st = .halted
  rw [tile_mapIdx]
  split <;> exact hj

theorem calm_sample (s : State) (rs : List RailReading) (missing : List Nat) : Calm s (s.sample rs missing) := by
  unfold State.sample
  refine .ite (fun _ => .refl s) (fun _ => ?_)
  extract_lets idx _ v w act dist _ a b inp c _ x y z
  have hw : Calm s w := .after (calm_takeReadings ..) (calm_setPower s _)
  have hc : Calm w c := .after (calm_fastGuard ..) <| .after (calm_trustStep ..) (.each calm_compareRail _ _)
  have hx : Calm w x := .ite (fun _ => calm_setPower ..) (fun _ => .after (calm_setPower _ _) hc)
  have hz : Calm x z := .after (calm_throttleRec ..) (calm_integrate ..)
  exact .after (calm_followCheck _) <| .after (calm_closeInterval ..) <| (hw.trans hx).trans hz

end Sys2Proof.Proofs
end

section
/-! SUPPORT. The power and ledger commands, the buses and the coolant monitor: all calm but the stop (09 R236 to R263; 02 R60 to R64). -/

namespace Sys2Proof.Proofs

open Sys2Proof.Machine Sys2Proof.Safety Sys2Proof.Laws

set_option Elab.async false

/-! ## The commands 0x60 to 0x69 -/

theorem calm_setWait (s : State) (n : BitVec 3) (w : Wait) : Calm s (s.setWait n w) := calm_modMbx ..

theorem calm_cmdRailMap (u : State) (q : Req) : Calm u (cmdRailMap.run u q).1 := calm_orElse _ (calm_modRail ..)

theorem calm_actStart (s : State) (r : Nat) (n : BitVec 3) : Calm s (s.actStart r n) :=
  .after (calm_setPower _ _) <| .after (calm_setWait ..) (calm_modRail ..)

theorem calm_cmdRailAct (u : State) (q : Req) : Calm u (cmdRailAct.run u q).1 := by
  unfold cmdRailAct
  dsimp only
  exact calm_fst_ite (fun _ => calm_setWait ..) (fun _ => calm_orElse _ (calm_actStart ..))

theorem calm_railOn (s : State) (r : Nat) : Calm s (s.railOn r) := calm_modRail ..

theorem calm_actWrites (s : State) (r : Nat) (k : Option Nat) (reads : List (Nat × Nat)) : Calm s (s.actWrites r k reads) := by
  unfold State.actWrites
  extract_lets v w _ x
  have hw : Calm s w := .ite (fun _ => calm_writeRail ..) (fun _ => .refl s)
  have hx : Calm w x := calm_setPower ..
  exact (hw.trans hx).trans (.ite (fun _ => .refl x) (fun _ => .after (calm_modRail ..) (calm_railOn ..)))

theorem calm_railActDone (s : State) (r : Nat) (x : OpResult) : Calm s (s.railActDone r x) := by
  unfold State.railActDone
  split
  · exact .refl s
  · extract_lets v fails _ w next
    have hv : Calm s v := calm_modRail ..
    have hf : ∀ u k, Calm u (fails u k) := fun _ _ => calm_settle ..
    have hw : Calm v w := by
      dsimp only [w]
      split
      · split
        · exact .after (calm_settle ..) (calm_actWrites ..)
        · exact .after (hf _ _) (calm_actWrites ..)
      · exact .after (hf _ _) <| .after (calm_actWrites ..) (.ite (fun _ => calm_setPower ..) (fun _ => .refl v))
      · exact calm_settle ..
      · exact .after (hf _ _) (calm_actWrites ..)
    refine (hv.trans hw).trans ?_
    clear_value next
    cases next with
    | none => exact .refl w
    | some m =>
      dsimp only
      split
      · exact calm_settle ..
      · exact calm_actStart ..

theorem calm_cmdPowerLimit (u : State) (q : Req) : Calm u (cmdPowerLimit.run u q).1 := by
  unfold cmdPowerLimit
  dsimp only
  exact calm_orElse _ (.after (calm_revalidate ..) (calm_setPower u _))

theorem calm_cmdPowerCfg (u : State) (q : Req) : Calm u (cmdPowerCfg.run u q).1 := calm_setPower ..
theorem calm_cmdPartMap (u : State) (q : Req) : Calm u (cmdPartMap.run u q).1 := calm_setLedger ..
theorem calm_cmdLedgerRead (u : State) (q : Req) : Calm u (cmdLedgerRead.run u q).1 := .refl u
theorem calm_cmdCaptureAt (u : State) (q : Req) : Calm u (cmdCaptureAt.run u q).1 := by
  unfold cmdCaptureAt
  dsimp only
  exact calm_orElse _ (calm_addCapture ..)
theorem calm_cmdReasons (u : State) (q : Req) : Calm u (cmdReasons.run u q).1 := .ite (fun _ => calm_setPower ..) (fun _ => .refl u)
theorem calm_cmdPowerCounters (u : State) (q : Req) : Calm u (cmdPowerCounters.run u q).1 :=
  .ite (fun _ => calm_setPower ..) (fun _ => .refl u)
theorem calm_cmdPowerStatus (u : State) (q : Req) : Calm u (cmdPowerStatus.run u q).1 := .refl u

/-! ## The plausibility check and the buses (09 R240, R250, R251; 02 R60, R61) -/

theorem calm_checkStart (s : State) (r : Nat) : Calm s (s.checkStart r) := by
  unfold State.checkStart
  refine .ite (fun _ => .refl s) (fun _ => ?_)
  split
  · exact .after (calm_modPlumb ..) <| .after (calm_modChan ..) (calm_modRail ..)
  · exact calm_modRail ..

theorem calm_checkStep (s : State) (r droop : Nat) : Calm s (s.checkStep r droop) := by
  unfold State.checkStep
  split
  · exact .refl s
  · refine .ite (fun _ => calm_dropCheck ..) (fun _ => .ite (fun _ => .refl s) (fun _ => .ite (fun _ => calm_modRail ..) (fun _ => ?_)))
    extract_lets bad v w
    have hw : Calm s w := .after (calm_modRail ..) (calm_dropCheck ..)
    refine hw.trans (.ite (fun _ => ?_) (fun _ => ?_))
    · exact .after (calm_raise ..) (calm_modRail ..)
    · exact .after (calm_raise ..) (calm_modRail ..)

theorem calm_avsFault (s : State) (l : Nat) : Calm s (s.avsFault l) :=
  .ite (fun _ => .refl s) (fun _ => .after (calm_raise ..) (calm_setPower ..))

theorem calm_avsRetry (s : State) (l good : Nat) : Calm s (s.avsRetry l good) :=
  .ite (fun _ => .refl s) (fun _ => .ite (fun _ => calm_setPower ..) (fun _ => .after (calm_raise ..) (calm_setPower ..)))

theorem calm_fallbackRead (s : State) (r : Nat) (volt : Bool) (v bad : Nat) : Calm s (s.fallbackRead r volt v bad) :=
  .ite (fun _ => .refl s) (fun _ => .after (calm_pmbus _ _ _ (fun _ => .ite (fun _ => calm_takeVolt ..) (fun _ => calm_takeCurrent ..)))
    (calm_modRail ..))

theorem calm_pmbAlert (s : State) (r : Nat) (st : BitVec 16) (bad : Nat) : Calm s (s.pmbAlert r st bad) :=
  calm_pmbus _ _ _ (fun _ => .after (calm_raise ..) <| .after (calm_modRail ..) (calm_setPower ..))

theorem calm_pmbRecover (s : State) (ok : Bool) : Calm s (s.pmbRecover ok) := calm_setPower ..

/-! ## The coolant monitor (02 R62 to R64; 09 R258 to R262) -/

/-- The monitor moves between two states neither of which is STOPPED. -/
theorem calm_setCool (s : State) (b : Boot) (h : s.boot.cool ≠ .stopped) (hb : b.cool ≠ .stopped)
    (chip : b.chipStop = s.boot.chipStop := by rfl) (trip : b.trip = s.boot.trip := by rfl) : Calm s { s with boot := b } where
  toKept := .same (stop := chip) (cool := fun e => absurd e h) (trip := fun e => trip.trans e)
  chip := chip
  haltB := by simp [State.haltedB, h, hb, trip]
  len := rfl

theorem calm_wireFault (s : State) : Calm s s.wireFault := by
  unfold State.wireFault
  refine .after (calm_raise0 ..) ?_
  dsimp only
  split
  · rename_i h
    exact calm_setCool _ _ (by rw [h]; decide) nofun
  · exact calm_setBoot ..

/-- STOPPED: a block that the trip has stopped already stays as it is, any other is halted. -/
theorem safe_coolStop (s : State) (cause : Nat) : Safe s (s.coolStop cause) := by
  unfold State.coolStop
  by_cases h : s.boot.cool = .stopped
  · rw [if_pos h]
    exact (Calm.refl s).safe
  · rw [if_neg h]
    extract_lets _ v
    have hv : Kept s v := .same (cool := fun _ => rfl)
    have hb : v.haltedB = true := by simp [State.haltedB, v]
    refine .after (calm_raise0 ..).safe ?_
    split
    · rename_i hc
      exact ⟨hv, fun hs => ⟨⟨fun _ => hb, fun _ => hc⟩, fun _ => hs.2 hc⟩⟩
    · exact .halt hv hb cause

theorem safe_flowLost (s : State) : Safe s s.flowLost := by
  unfold State.flowLost
  split
  · exact (calm_raise0 ..).safe
  · exact safe_coolStop ..
  · exact safe_coolStop ..
  · exact (Calm.refl s).safe

theorem calm_flowGood (s : State) : Calm s s.flowGood := by
  unfold State.flowGood
  split
  case h_1 h => exact calm_setCool _ _ (by rw [h]; decide) nofun
  case h_2 h => exact calm_setCool _ _ (by rw [h]; decide) nofun
  · exact .refl s
  · exact .refl s

theorem Safe.ite {s a b : State} {p : Prop} [Decidable p] (ha : p → Safe s a) (hb : ¬ p → Safe s b) : Safe s (if p then a else b) := by
  split
  · exact ha ‹_›
  · exact hb ‹_›

theorem safe_flowEdge (s : State) (high : Nat) : Safe s (s.flowEdge high) := by
  unfold State.flowEdge
  refine .ite (fun _ => (Calm.refl s).safe) (fun _ => ?_)
  dsimp only
  split
  · exact (calm_setBoot ..).safe
  · refine .ite (fun _ => Calm.safe ?_) (fun _ => .ite (fun _ => .ite (fun _ => ?_) (fun _ => ?_)) (fun _ => Calm.safe ?_))
    · exact .after (.ite (fun _ => calm_flowGood _) (fun _ => .refl _)) (calm_setBoot s _)
    · exact .after (safe_flowLost _) (calm_setBoot ..).safe
    · exact (calm_setBoot ..).safe
    · exact .ite (fun _ => .after (calm_wireFault _) (calm_setBoot ..)) (fun _ => calm_setBoot ..)

theorem calm_flowDc (s : State) : Calm s s.flowDc := .ite (fun _ => .refl s) (fun _ => .after (calm_wireFault _) (calm_setBoot ..))

theorem safe_trayPoll (s : State) (a : Option Byte) : Safe s (s.trayPoll a) := by
  unfold State.trayPoll
  refine .ite (fun _ => (Calm.refl s).safe) (fun _ => ?_)
  extract_lets w _ v _ x
  have hx : Calm s x := .after (calm_setPower v _) (calm_setBoot ..)
  refine .trans hx.safe ?_
  cases a with
  | none => exact (Calm.same).safe
  | some b =>
    exact .ite (fun _ => (Calm.refl x).safe) (fun _ => .ite (fun _ => safe_coolStop ..) (fun _ => Calm.safe <|
      .ite (fun _ => calm_setBoot ..) (fun _ => .refl x)))

theorem safe_wireExpiry (s : State) : Safe s s.wireExpiry := .ite (fun _ => safe_coolStop ..) (fun _ => (Calm.refl s).safe)
theorem calm_trayLapse (s : State) : Calm s s.trayLapse := .ite (fun _ => calm_setBoot ..) (fun _ => .refl s)

/-! ## Captures (08 R229; 09 R263) -/

theorem calm_keepPacket (s : State) (ty src nrec : Nat) (t : Time) (b : List Flit) : Calm s (s.keepPacket ty src nrec t b) :=
  .ite (fun _ => calm_putPacket ..) (fun _ => calm_setLog ..)

theorem calm_captureOut (s : State) (c : Capture) : Calm s (s.captureOut c) := by
  unfold State.captureOut
  split
  · exact .after (calm_keepPacket ..) (calm_keepPacket ..)
  · exact .each (fun _ _ => calm_keepPacket ..) _ _

theorem calm_capLatch (s : State) : Calm s s.capLatch :=
  .after (.each (fun _ _ => .after (calm_settleO ..) (calm_captureOut ..)) _ _) (calm_setKeys s _)

end Sys2Proof.Proofs
end

section
/-! SUPPORT. The evaluation of models and the courses of the Reckoner are calm (06 R159 to R182; 07 R187 to R204; 15 R351 to R359). -/

namespace Sys2Proof.Proofs

open Sys2Proof.Machine Sys2Proof.Safety Sys2Proof.Laws

set_option Elab.async false

/-- A fold over a pair is calm in its state if each of its steps is. -/
theorem calm_foldl {α β : Type} {f : State × β → α → State × β} (h : ∀ a x, Calm a.1 (f a x).1) (a : State × β) (l : List α) :
    Calm a.1 (l.foldl f a).1 :=
  List.foldlRecOn (motive := fun b => Calm a.1 b.1) l f (Calm.refl a.1) (fun _ hb x _ => hb.trans (h _ x))

/-- The memories replaced by memories in canonical form. -/
theorem calm_setMem (s : State) (l : Log) (f : Faults) (mem : Memory.wf s.log.mem = true → Memory.wf l.mem = true)
    (wmem : Memory.wf s.log.wmem = true → Memory.wf l.wmem = true) : Calm s { s with faults := f, log := l } where
  toKept := { Kept.refl s with mem := fun h => ⟨mem h.1, wmem h.2⟩ }
  chip := rfl
  haltB := rfl
  len := rfl

theorem calm_modRck (s : State) (f : Rck → Rck) : Calm s (s.modRck f) := calm_setRck ..

/-! ## Evaluation (06 R430; 07 R187 to R203) -/

theorem calm_setFlag (s : State) (c b : Nat) : Calm s (s.setFlag c b) := by
  unfold State.setFlag
  split
  · exact .refl s
  · exact .ite (fun _ => .refl s) (fun _ => .after (.ite (fun _ => calm_raise ..) (fun _ => .refl _)) (calm_modCls s c _))

theorem calm_countNan (s : State) (c n : Nat) : Calm s (s.countNan c n) :=
  .ite (fun _ => .refl s) (fun _ => .after (calm_setFlag ..) (calm_modCls ..))

theorem calm_setFresh (s : State) (n : Nat) : Calm s { s with fresh := n } := .same

theorem calm_noteDot (s : State) (c tile layer j : Nat) (at_ : Time) (o : DotOut) : Calm s (s.noteDot c tile layer j at_ o) := by
  unfold State.noteDot
  extract_lets u v w x
  have hu : Calm s u := calm_setFresh ..
  have hv : Calm u v := .ite (fun _ => calm_countNan ..) (fun _ => .refl _)
  have hw : Calm v w := .ite (fun _ => .after (calm_setFlag ..) (calm_modCls ..)) (fun _ => .refl _)
  have hx : Calm w x := .ite (fun _ => calm_setFlag ..) (fun _ => .refl _)
  refine ((hu.trans hv).trans (hw.trans hx)).trans (.ite (fun _ => .refl x) (fun _ => ?_))
  refine Calm.trans (t := (x.modCls c (fun x => { x with nv := satInc x.nv })).setFlag c 1) (.after (calm_setFlag ..) (calm_modCls ..)) ?_
  split
  · exact .ite (fun _ => .refl _) (fun _ => .after (calm_raise ..) (calm_setRck ..))
  · exact .refl _

theorem calm_setScales (s : State) (c n : Nat) : Calm s (s.setScales c n) := by
  unfold State.setScales
  split
  · exact .refl s
  · exact .each (fun v p => .after (.ite (fun _ => calm_setFlag ..) (fun _ => .refl _)) (calm_modCls v c _)) _ _

theorem calm_evalLayer (s : State) (c tile li : Nat) (at_ : Time) (l : Layer) (xs : List (BitVec 32)) :
    Calm s (s.evalLayer c tile li at_ l xs).1 := by
  unfold State.evalLayer
  refine .after (calm_modCls ..) <| .after (calm_foldl (fun a j => .after (calm_countNan ..) (calm_noteDot ..)) _ _) ?_
  dsimp only
  refine .after (.ite (fun _ => calm_setFlag ..) (fun _ => .refl _)) <| .after (.ite (fun _ => calm_setFlag ..) (fun _ => .refl _)) ?_
  exact calm_modCls ..

theorem calm_evalLayers (c tile : Nat) (at_ : Time) (n : Nat) (ls : List Layer) (s : State) (xs cx : List (BitVec 32)) :
    Calm s (State.evalLayers c tile at_ n ls s xs cx).1 := by
  induction ls generalizing n s xs cx with
  | nil => exact .refl s
  | cons l r ih => exact (calm_evalLayer ..).trans (ih ..)

theorem calm_freeElems (s : State) (n : Nat) : Calm s (s.freeElems n).1 :=
  calm_foldl (a := (s, [])) (fun a _ => calm_take a.1 .element (2 ^ 32)) (List.range n)

theorem calm_lookRows (c : Nat) (ts : List LookTable) (n : Nat) (s : State) : Calm s (State.lookRows c ts n s).1 := by
  induction ts generalizing n s with
  | nil => exact calm_freeElems ..
  | cons t ts ih =>
    unfold State.lookRows
    extract_lets k r row rest
    have hk : Calm s k.2 := calm_snd_ite (fun _ => .refl s) (fun _ => calm_take ..)
    have hr : Calm k.2 row.1 := by
      refine calm_fst_ite (fun _ => .refl _) (fun _ => calm_fst_ite (fun _ => calm_freeElems ..) (fun _ => ?_))
      exact .after (calm_fst_ite (fun _ => calm_setFlag ..) (fun _ => .refl _)) (calm_take k.2 .element (t.rows k.1))
    exact calm_fst_ite (fun _ => hk.trans hr) (fun _ => (hk.trans hr).trans (ih ..))

theorem calm_lookups (s : State) (c : Nat) (x : Cls) (n : Nat) : Calm s (s.lookups c x n).1 :=
  calm_fst_ite (fun _ => .refl s) (fun _ => calm_lookRows ..)

theorem calm_evalTile (s : State) (mv : List (Nat × Nat × Nat)) (i : Nat) (at_ : Time) (len : Nat) : Calm s (s.evalTile mv i at_ len) := by
  unfold State.evalTile
  dsimp only
  split
  · exact .refl s
  · rename_i x _
    have h : ∀ n xs cx, Calm s (State.evalLayers (s.classOf i) i at_ 0 x.layers (s.lookups (s.classOf i) x n).1 xs cx).1 :=
      fun _ _ _ => .after (calm_evalLayers ..) (calm_lookups ..)
    split
    · exact h ..
    · refine .after (calm_modTile _ _ (fun _ => id)) ?_
      split
      · exact .ite (fun _ => h ..) (fun _ => .after (calm_setFlag ..) <| .after (calm_modCls ..) (h ..))
      · exact .after (calm_setFlag ..) <| .after (calm_modCls ..) (h ..)

/-! ## Emissions (06 R172 to R180) -/

theorem calm_hail (s : State) (i kind : Nat) (inst : Time) : Calm s (s.hail i kind inst) := calm_setRck ..

theorem calm_laneHails (at_ : Time) (n : Nat) (hs : List HailReq) (s : State) : Calm s (laneHails at_ n hs s) := by
  induction hs generalizing n s with
  | nil => exact .refl s
  | cons h r ih => exact .after (ih ..) <| .after (calm_setRck _ _) (calm_take s .latency _)

theorem calm_sendHails (s : State) (at_ : Time) : Calm s (s.sendHails at_) :=
  .after (calm_setRck _ _) (.each (fun _ _ => calm_laneHails ..) _ _)

theorem calm_takePlan (s : State) (m : Emit) (i : Nat) (w : BitVec 64) : Calm s (s.takePlan m i w) := by
  unfold State.takePlan
  extract_lets t c need inst k0 d0 kd v start far near
  have hv : Calm s v := .ite (fun _ => .refl s) (fun _ => calm_modCls ..)
  refine hv.trans ?_
  split
  · exact .after (calm_redip ..) (calm_modTile _ _ (fun _ => id))
  · refine .ite (fun _ => calm_modRck ..) (fun _ => .ite (fun _ => .refl v) (fun _ => ?_))
    exact .after (.ite (fun _ => calm_hail ..) (fun _ => .refl _)) <| .after (calm_modRck _ _) (calm_modTile v i (fun _ => id))

theorem calm_resolveEvent (s : State) (m : Emit) (i : Nat) (e : Event) (commit : Bool) : Calm s (s.resolveEvent m i e commit) := by
  unfold State.resolveEvent
  extract_lets v w x
  refine .after (calm_sweepEvents ..) <| .after (calm_redip ..) ?_
  have hw : Calm s w := .after (calm_modRck ..) (calm_modTile _ _ (fun _ => id))
  exact hw.trans (.ite (fun _ => calm_hail ..) (fun _ => .refl _))

theorem calm_resolveTile (s : State) (m : Emit) (i : Nat) : Calm s (s.resolveTile m i) :=
  .each (fun v _ => .ite (fun _ => calm_resolveEvent ..) (fun _ => .ite (fun _ => calm_resolveEvent ..) (fun _ => .refl v))) _ _

theorem calm_logPlans (s : State) (m : Emit) (ws : List (Nat × BitVec 64)) : Calm s (s.logPlans m ws) :=
  .each (fun _ _ => calm_logPacket ..) _ _

theorem calm_setRails (s : State) (f : Nat → Rail → Rail) : Calm s { s with rails := s.rails.mapIdx f } := .same (rails := by simp)

theorem calm_estimates (s : State) : Calm s s.estimates := by
  unfold State.estimates
  refine .after (calm_setRails _ _) (.each (fun v i => .ite (fun _ => ?_) (fun _ => .refl v)) _ _)
  split
  · exact calm_modTile _ _ (fun _ => (fun h => h))
  · exact .refl v

theorem calm_emission (s : State) (b : Time) : Calm s (s.emission b) := by
  unfold State.emission
  refine (calm_take s .latency 1121).trans ?_
  generalize s.take .latency 1121 = p
  obtain ⟨n, u⟩ := p
  dsimp -zeta only
  extract_lets m ws up ws' w x y z
  have hw : Calm u w := calm_logPlans ..
  have hx : Calm w x := .each calm_sweepEvents _ _
  have hy : Calm x y := .each (fun _ _ => .ite (fun _ => calm_takePlan ..) (fun _ => calm_modRck ..)) _ _
  have hz : Calm y z := .after (calm_sendHails ..) (.ite (fun _ => .each (fun v i => calm_resolveTile v m i) _ _) (fun _ => .refl _))
  exact ((hw.trans hx).trans (hy.trans hz)).trans (.ite (fun _ => calm_estimates _) (fun _ => .refl _))

/-! ## Records of a course (07 R203; 15 R355, R359) -/

theorem calm_closeWatch (s : State) (n : Nat) (end_ : Time) : Calm s (s.closeWatch n end_) := by
  unfold State.closeWatch
  extract_lets bad close _ v w
  have hv : Calm s v := calm_setRck ..
  have hw : Calm v w := .each (fun _ _ => .each (fun _ _ => calm_logPacket ..) _ _) _ _
  refine (hv.trans hw).trans ?_
  clear_value bad
  cases bad with
  | nil => exact .refl w
  | cons x r => exact calm_raise ..

theorem calm_closeCourse (s : State) : Calm s s.closeCourse := by
  unfold State.closeCourse
  extract_lets n skip _ v
  have hv : Calm s v := calm_setRck ..
  exact hv.trans (.ite (fun _ => calm_closeWatch ..) (fun _ => .refl v))

theorem calm_traceCourse (s : State) (mv : List (Nat × Nat × Nat)) : Calm s (s.traceCourse mv) := by
  unfold State.traceCourse
  refine .ite (fun _ => .refl s) (fun _ => .each (fun v i => .ite (fun _ => calm_setLog ..) (fun _ => ?_)) _ _)
  dsimp only
  generalize bytesOf 64 _ = bs
  exact calm_setMem v _ _ (fun h => memWriteList_wf h _ _) id

theorem calm_clearTelem (s : State) (i : Nat) (gap : Bool) : Calm s (s.clearTelem i gap) := calm_modTile _ _ (fun _ => (fun h => h))
theorem calm_dropRecs (s : State) (ty n : Nat) : Calm s (s.dropRecs ty n) := .same

theorem calm_telemCourse (s : State) (i : Nat) : Calm s (s.telemCourse i) :=
  .after (calm_modTile _ _ (fun _ => id)) (.ite (fun _ => .after (calm_clearTelem ..) (calm_dropRecs ..)) (fun _ => .refl s))

theorem calm_telemPacket (s : State) (mv : List (Nat × Nat × Nat)) (b : Time) (f : Nat) : Calm s (s.telemPacket mv b f) := by
  unfold State.telemPacket
  refine .ite (fun _ => .refl s) (fun _ => .ite (fun _ => calm_setLog ..) (fun _ => ?_))
  exact .after (.each (fun _ _ => calm_clearTelem ..) _ _) (calm_putPacket ..)

theorem calm_telemetry (s : State) (mv : List (Nat × Nat × Nat)) (b : Time) : Calm s (s.telemetry mv b) := by
  unfold State.telemetry
  refine .ite (fun _ => .each (fun _ _ => calm_clearTelem ..) _ _) (fun _ => ?_)
  extract_lets v cnt _ w first _ x
  have hv : Calm s v := .each calm_telemCourse _ _
  have hw : Calm v w := calm_setLog ..
  have hx : Calm w x := calm_setLog ..
  exact (hv.trans hw).trans (.ite (fun _ => .refl w) (fun _ => hx.trans (.each (fun _ _ => calm_telemPacket ..) _ _)))

theorem calm_traceStart (s : State) (b : Time) : Calm s (s.traceStart b) := .ite (fun _ => calm_setLog ..) (fun _ => .refl s)

/-! ## Boundaries (06 R162, R172, R173) -/

theorem calm_relen (s : State) (b : Time) : Calm s (s.relen b) :=
  .ite (fun _ => .refl s) (fun _ => .after (calm_raise0 ..) (calm_modRck ..))

theorem calm_takeClassMap (s : State) : Calm s s.takeClassMap := by
  unfold State.takeClassMap
  refine .after (calm_modRck _ _) (.each (fun v i => ?_) _ _)
  exact .after (calm_modTile _ _ (fun _ => id)) (calm_abandonRun ..)

theorem calm_schedule (s : State) (act : List Nat) (len : Nat) : Calm s (s.schedule act len).1 := by
  unfold State.schedule
  extract_lets cost demand v
  have hv : Calm s v := calm_modRck ..
  refine calm_fst_ite (fun _ => hv) (fun _ => hv.trans ?_)
  dsimp only
  exact calm_modRck ..

theorem calm_setTilesRck (s : State) (f : Tile → Tile) (r : Rck) (h : ∀ t, (f t).st = t.st) :
    Calm s { s with tiles := s.tiles.map f, rck := r } :=
  .same (tiles := by simp) (halted := fun i hi => Eq.trans (st_getD_map h s.tiles i) hi)

theorem calm_snapshot (s : State) (b : Time) : Calm s (s.snapshot b) := by
  unfold State.snapshot
  extract_lets len u _ v x w ids y mv z
  have hu : Calm s u := calm_takeClassMap s
  have hv : Calm u v := calm_setTilesRck _ _ _ (fun _ => rfl)
  have hw : Calm v w := calm_schedule ..
  have hy : Calm w y := .each (fun _ _ => calm_setScales ..) _ _
  have hz : Calm y z := by
    refine .each (fun t i => ?_) _ _
    exact .ite (fun _ => calm_evalTile ..) (fun _ => calm_modTile _ _ (fun _ => id))
  exact ((hu.trans hv).trans (hw.trans hy)).trans (hz.trans (calm_modRck ..))

end Sys2Proof.Proofs
end

section
/-! SUPPORT. Adaptation, the course boundary, predicted actions and the manifest port are calm (06 R159 to R178; 07 R205 to R212). -/

namespace Sys2Proof.Proofs

open Sys2Proof.Machine Sys2Proof.Safety Sys2Proof.Laws

set_option Elab.async false

/-! ## Adaptation (07 R205 to R211) -/

theorem calm_useSample (s : State) (c : Nat) (l : Layer) (x : Sample) : Calm s (s.useSample c l x) := by
  unfold State.useSample
  extract_lets tgt skip
  have hs : Calm s skip := calm_modCls ..
  refine .ite (fun _ => hs) (fun _ => ?_)
  split
  · exact .after (calm_modTile _ _ (fun _ => id)) (calm_modCls ..)
  · exact hs

theorem calm_drainSamples (s : State) (c : Nat) (l : Layer) : Calm s (s.drainSamples c l) :=
  .after (.each (fun _ _ => calm_useSample ..) _ _) (calm_modCls ..)

theorem calm_writeWeight (s : State) (a : Nat) (bs : List Byte) : Calm s (s.writeWeight a bs) :=
  calm_setMem s _ _ id (fun h => memWriteList_wf h a bs)

theorem calm_rebuildBlock (s : State) (l : Layer) (b : Nat) (ms : List (BitVec 32)) : Calm s (s.rebuildBlock l b ms).1 :=
  .after (calm_writeWeight ..) (calm_writeWeight ..)

theorem calm_rebuild (s : State) (c : Nat) (l : Layer) : Calm s (s.rebuild c l) := by
  unfold State.rebuild
  split
  · exact .refl s
  · extract_lets r v
    have hr : Calm s r.1 := by
      refine calm_foldl (a := (s, 0)) (fun a b => ?_) _
      exact calm_rebuildBlock ..
    have hv : Calm r.1 v := .ite (fun _ => calm_writeWeight ..) (fun _ => .refl _)
    exact (hr.trans hv).trans (.ite (fun _ => .refl v) (fun _ => .after (calm_setFlag ..) (calm_modCls ..)))

theorem calm_watchPair (s : State) (ch : Nat) (p : Option (BitVec 8 × BitVec 2)) : Calm s (s.watchPair ch p) := by
  cases p with
  | none => exact .after (calm_modChan ..) (calm_lone s ch)
  | some x => exact .after (calm_armNow ..) <| .after (calm_modChan ..) (calm_lone s ch)

theorem calm_movePairs (s : State) (c : Nat) : Calm s (s.movePairs c) := by
  unfold State.movePairs
  split
  · exact .refl s
  · exact .each (fun _ _ => .after (calm_watchPair ..) (calm_modCls ..)) _ _

theorem calm_stallStep (s : State) (c : Nat) : Calm s (s.stallStep c) := by
  unfold State.stallStep
  split
  · exact .refl s
  · exact .after (.ite (fun _ => .after (calm_raise ..) (calm_setFlag ..)) (fun _ => .refl _)) (calm_modCls s c _)

theorem calm_adaptClass (s : State) (c : Nat) (len : Nat) : Calm s (s.adaptClass c len) := by
  unfold State.adaptClass
  split
  · exact .refl s
  · split
    · exact .refl s
    · extract_lets ps new v w
      have hw : Calm s w := .after (calm_modCls ..) <| .after (calm_drainSamples ..) (calm_modCls ..)
      exact hw.trans (.ite (fun _ => .refl w) (fun _ => .after (calm_movePairs ..) <| .after (calm_stallStep ..) (calm_rebuild ..)))

theorem calm_clearSums (s : State) (f : Chan → Chan) : Calm s { s with sxt := { s.sxt with chans := s.sxt.chans.map f } } :=
  calm_setSxt _ _ (by simp)

theorem calm_adapt (s : State) (len : Nat) : Calm s (s.adapt len) :=
  .after (calm_clearSums _ _) (.ite (fun _ => .each (fun _ _ => calm_adaptClass ..) _ _) (fun _ => .refl s))

/-! ## The course boundary (06 R159, R172, R173) -/

theorem calm_setTiles (s : State) (f : Tile → Tile) (h : ∀ t, (f t).st = t.st) : Calm s { s with tiles := s.tiles.map f } :=
  .same (tiles := by simp) (halted := fun i hi => Eq.trans (st_getD_map h s.tiles i) hi)

theorem endCourse_st (t : Tile) (len : Nat) : (t.endCourse len).st = t.st := rfl

theorem calm_courseBoundary (s : State) : Calm s s.courseBoundary := by
  unfold State.courseBoundary
  refine .ite (fun _ => .refl s) (fun _ => ?_)
  extract_lets len _ u ended v mv w x y z a b
  have hu : Calm s u := calm_setPower ..
  have hv : Calm u v := .ite (fun _ => .after (calm_closeCourse _) (calm_emission ..)) (fun _ => .refl _)
  have hw : Calm v w := .after (calm_traceStart ..) <| .after (calm_telemetry ..) (calm_traceCourse ..)
  have hx : Calm w x := .ite (fun _ => calm_adapt ..) (fun _ => .refl _)
  have hy : Calm x y := calm_setTiles _ _ (fun t => endCourse_st t len)
  have hz : Calm y z := .each calm_redip _ _
  have ha : Calm z a := .ite (fun _ => calm_modRck ..) (fun _ => .refl _)
  have hb : Calm a b := .after (calm_modRck ..) (calm_relen ..)
  exact .after (calm_modRck _ _) <| ((((hu.trans hv).trans (hw.trans hx)).trans (hy.trans hz)).trans (ha.trans hb)).trans
    (.ite (fun _ => calm_snapshot ..) (fun _ => .refl b))

/-! ## Predicted actions and the manifest port (06 R160 to R162, R177) -/

theorem calm_preStart (s : State) (i : Nat) : Calm s (s.preStart i) :=
  .ite (fun _ => .refl s) (fun _ => .after (calm_redip ..) (calm_modTile _ _ (fun _ => id)))

theorem calm_preStop (s : State) (i : Nat) : Calm s (s.preStop i) :=
  .after (calm_sweepEvents ..) <| .after (calm_redip ..) (calm_modTile _ _ (fun _ => id))

theorem calm_dipBegin (s : State) (i : Nat) : Calm s (s.dipBegin i) :=
  .ite (fun _ => .refl s) (fun _ => .after (calm_redip ..) (calm_modTile _ _ (fun _ => id)))

theorem calm_dipStop (s : State) (i : Nat) : Calm s (s.dipStop i) :=
  .after (calm_sweepEvents ..) <| .after (calm_redip ..) (calm_modTile _ _ (fun _ => id))

theorem calm_manifest (s : State) (w : Flit) : Calm s (s.manifest w) := by
  unfold State.manifest
  refine .ite (fun _ => .refl s) (fun _ => .ite (fun _ => calm_modXing ..) (fun _ => .ite (fun _ => calm_modRck ..) (fun _ => ?_)))
  refine .ite (fun _ => calm_modRck ..) (fun _ => .ite (fun _ => calm_modRck ..) (fun _ => .ite (fun _ => calm_modRck ..) (fun _ => ?_)))
  refine .ite (fun _ => ?_) (fun _ => ?_)
  · exact .after (calm_modRck _ _) (calm_modTile _ _ (fun _ => id))
  · exact .after (calm_modRck _ _) (calm_modTile _ _ (fun _ => id))

end Sys2Proof.Proofs
end

section
/-! SUPPORT. Reckoner programs and the commands 0x30 to 0x3B are calm (06 R164 to R171; 07 R189 to R212; 14 R336). -/

namespace Sys2Proof.Proofs

open Sys2Proof.Machine Sys2Proof.Safety Sys2Proof.Laws

set_option Elab.async false

/-! ## Class maps and the start of a load (06 R164 to R169) -/

theorem calm_cmdRckMap (u : State) (q : Req) : Calm u (cmdRckMap.run u q).1 := by
  unfold cmdRckMap
  dsimp only
  exact calm_fst_ite (fun _ => calm_setRck ..) (fun _ => calm_orElse _ (calm_setRck ..))

theorem calm_runMaps (s : State) : Calm s s.runMaps := by
  unfold State.runMaps
  refine .after (.each (fun v n => ?_) _ _) (calm_modRck s _)
  refine .ite (fun _ => .refl v) (fun _ => ?_)
  have h := calm_handle (c := cmdRckMap) (q := reqOfWords n (v.mbx n).cmd) false (fun _ => calm_cmdRckMap ..) v
  generalize cmdRckMap.handle false v _ = a at h ⊢
  obtain ⟨u, a⟩ := a
  cases a with
  | final r => exact .after (calm_settle ..) h
  | accepted ws => exact h

theorem calm_trimTrace (s : State) : Calm s s.trimTrace :=
  .ite (fun _ => .refl s) (fun _ => calm_setMem s _ s.faults (fun h => memClear_wf h _ _) id)

theorem calm_loadFail (s : State) (r : Resp) : Calm s (s.loadFail r) :=
  .after (calm_runMaps _) <| .after (calm_settleO ..) (calm_modRck ..)

theorem calm_loadBytesDone (s : State) : Calm s s.loadBytesDone := by
  unfold State.loadBytesDone
  refine .ite (fun _ => calm_loadFail ..) (fun _ => ?_)
  split
  · exact calm_loadFail ..
  · exact calm_modRck ..

theorem calm_cmdRckLoad (u : State) (q : Req) : Calm u (cmdRckLoad.run u q).1 := by
  unfold cmdRckLoad
  dsimp only
  refine calm_fst_ite (fun _ => calm_setRck ..) (fun _ => calm_fst_ite (fun _ => .refl u) (fun _ => ?_))
  refine calm_fst_ite (fun _ => calm_setRck ..) (fun _ => calm_fst_ite (fun _ => calm_setRck ..) (fun _ => ?_))
  exact .after (calm_openInbound _ _) <| .after (calm_trimTrace _) <| .after (calm_modRck _ _) (calm_setFaults u _)

/-! ## The swap of programs (06 R169 to R171; 07 R207 to R212) -/

theorem calm_startMasters (s : State) (x : Cls) (old : Option Cls) : Calm s (s.startMasters x old) := by
  unfold State.startMasters
  split
  · exact .refl s
  · exact .after (calm_modCls ..) (calm_takeSeed s)

theorem calm_putRow (s : State) (x old : Cls) (row : List Byte × List Byte × List Byte) : Calm s (s.putRow x old row) := by
  unfold State.putRow
  split
  · refine .ite (fun _ => calm_rebuild ..) (fun _ => ?_)
    extract_lets f nb v
    have hv : Calm s v := .after (calm_writeWeight ..) (calm_writeWeight ..)
    exact hv.trans (.ite (fun _ => calm_writeWeight ..) (fun _ => .refl v))
  · exact .refl s

theorem calm_copySegs (s : State) (c : List Byte) (base : Nat) : Calm s (s.copySegs c base) := by
  unfold State.copySegs
  refine .each (fun v x => ?_) _ _
  extract_lets bs
  exact .ite (fun _ => calm_setMem v _ _ (fun h => memWriteList_wf h _ bs) id) (fun _ => calm_writeWeight ..)

theorem calm_dropClaims (s : State) : Calm s s.dropClaims :=
  .each (fun v _ => .ite (fun _ => .after (calm_freeChan ..) (calm_disarm ..)) (fun _ => .refl v)) _ _

theorem calm_takeClaims (s : State) (claim : Nat) : Calm s (s.takeClaims claim) := by
  unfold State.takeClaims
  extract_lets chs v ids
  have hv : Calm s v := .each (fun _ _ => calm_modChan ..) _ _
  exact hv.trans (.ite (fun _ => .refl v) (fun _ => .each (fun _ _ => .after (calm_watchPair ..) (calm_modCls ..)) _ _))

theorem calm_retire (s : State) : Calm s s.retire := calm_modRck ..

theorem calm_setClassMap (s : State) (m : List Byte) : Calm s (s.setClassMap m) := by
  unfold State.setClassMap
  refine .after (calm_modRck _ _) (.each (fun v i => ?_) _ _)
  exact calm_modTile _ _ (fun _ => id)

theorem newProgram_st (t : Tile) : t.newProgram.st = t.st := rfl

theorem calm_setTilesTrust (s : State) (t : Trust) (f0 : t.fuse0 = s.trust.fuse0 := by rfl) (f1 : t.fuse1 = s.trust.fuse1 := by rfl)
    (f2 : t.fuse2 = s.trust.fuse2 := by rfl) : Calm s { s with tiles := s.tiles.map Tile.newProgram, trust := t } :=
  .after (calm_setTiles { s with trust := t } _ newProgram_st) (calm_setTrust s t f0 f1 f2)

theorem calm_dropProgram (s : State) : Calm s s.dropProgram := by
  unfold State.dropProgram
  extract_lets u v _ w
  have hu : Calm s u := .after (calm_retire _) <| .after (calm_dropClaims _) (.each calm_abandonRun _ _)
  have hv : Calm u v := calm_setClassMap ..
  clear_value v
  have hw : Calm v w := calm_setTilesTrust ..
  exact ((hu.trans hv).trans hw).trans (calm_modRck ..)

theorem calm_stageLost (s : State) : Calm s s.stageLost := .after (calm_loadFail ..) (calm_dropProgram s)

theorem calm_loadSwap (s : State) : Calm s s.loadSwap := by
  unfold State.loadSwap
  refine .ite (fun _ => .refl s) (fun _ => .ite (fun _ => calm_stageLost s) (fun _ => ?_))
  extract_lets c h u old rows m v g retired new w x y z carry a b n _ d
  have hu : Calm s u := .each calm_abandonRun _ _
  have hv : Calm u v := .after (calm_retire _) (calm_dropClaims _)
  have hw : Calm v w := calm_modRck ..
  have hx : Calm w x := .after (calm_copySegs ..) (calm_trimTrace _)
  have hy : Calm x y := calm_setTiles _ _ newProgram_st
  have hz : Calm y z := calm_setClassMap ..
  have ha : Calm z a := by
    refine .each (fun e x => ?_) _ _
    dsimp only
    split
    · exact .after (calm_putRow ..) (calm_startMasters ..)
    · exact calm_startMasters ..
  have hb : Calm a b := .after (calm_takeClaims ..) (calm_clearHistory _)
  have hd : Calm b d := calm_setTrust ..
  exact (((hu.trans hv).trans (hw.trans hx)).trans ((hy.trans hz).trans (ha.trans hb))).trans
    (hd.trans (.ite (fun _ => .refl d) (fun _ => calm_raise0 ..)))

theorem calm_loadComplete (s : State) : Calm s s.loadComplete :=
  .ite (fun _ => .refl s) (fun _ => .after (calm_runMaps _) <| .after (calm_settleO ..) <| .after (calm_trustAgain _) (calm_modRck ..))

theorem calm_unloadEffect (s : State) : Calm s s.unloadEffect := .ite (fun _ => calm_dropProgram s) (fun _ => .refl s)

/-! ## The other Reckoner commands (14 Table 14.5) -/

theorem calm_cmdRckUnload (u : State) (q : Req) : Calm u (cmdRckUnload.run u q).1 := calm_fst_ite (fun _ => .refl u) (fun _ => calm_setRck ..)

theorem calm_cmdRckMode (u : State) (q : Req) : Calm u (cmdRckMode.run u q).1 := by
  unfold cmdRckMode
  dsimp only
  split
  · exact .refl u
  · exact .refl u
  · exact calm_setRck ..
  · exact .ite (fun _ => .refl u) (fun _ => .after (calm_modRck ..) (.each calm_abandonRun _ _))
  · exact .ite (fun _ => .refl u) (fun _ => calm_modRck ..)

theorem calm_cmdRckStatus (u : State) (q : Req) : Calm u (cmdRckStatus.run u q).1 := .refl u
theorem calm_cmdRckCounters (u : State) (q : Req) : Calm u (cmdRckCounters.run u q).1 := .ite (fun _ => calm_modRck ..) (fun _ => .refl u)

theorem calm_cmdRckClass (u : State) (q : Req) : Calm u (cmdRckClass.run u q).1 := by
  unfold cmdRckClass
  dsimp only
  split
  · exact .refl u
  · exact calm_modCls ..

theorem calm_cmdRckNv (u : State) (q : Req) : Calm u (cmdRckNv.run u q).1 := .ite (fun _ => calm_modRck ..) (fun _ => .refl u)
theorem calm_cmdRckHistory (u : State) (q : Req) : Calm u (cmdRckHistory.run u q).1 := .after (calm_enterWarmup _) (calm_clearHistory u)
theorem calm_cmdWatchSet (u : State) (q : Req) : Calm u (cmdWatchSet.run u q).1 := calm_setRck ..

theorem calm_cmdWatchRead (u : State) (q : Req) : Calm u (cmdWatchRead.run u q).1 := by
  unfold cmdWatchRead
  dsimp only
  split <;> exact .refl u

theorem calm_cmdRckScales (u : State) (q : Req) : Calm u (cmdRckScales.run u q).1 := .refl u

end Sys2Proof.Proofs
end

section
/-! SUPPORT. The log port, the trace and the tests are calm (15 R348 to R360; 14 R341 to R343; 18 R408 to R416; 02 R72; 16 R365). -/

namespace Sys2Proof.Proofs

open Sys2Proof.Machine Sys2Proof.Safety Sys2Proof.Laws

set_option Elab.async false

/-! ## Sending (15 R348, R352) -/

theorem calm_addCredit (s : State) : Calm s s.addCredit :=
  .ite (fun _ => .refl s) (fun _ => .ite (fun _ => calm_setTests ..) (fun _ => .ite (fun _ => calm_raise0 ..) (fun _ => calm_setLog ..)))

theorem calm_formDump (s : State) : Calm s s.formDump := by
  unfold State.formDump
  split
  · exact .refl s
  · exact .ite (fun _ => .refl s) (fun _ => .after (calm_setLog _ _) (calm_putPacket ..))

theorem calm_formDumps (s : State) (l : List Nat) : Calm s (s.each l (fun s _ => s.formDump)) := .each (fun v _ => calm_formDump v) _ _

theorem calm_drainCaps (n : Nat) (s : State) : Calm s (State.drainCaps n s) := by
  induction n generalizing s with
  | zero => exact .refl s
  | succ n ih =>
    unfold State.drainCaps
    split
    · exact .refl s
    · exact .ite (fun _ => .refl s) (fun _ => .after (ih _) <| .after (calm_putPacket ..) (calm_setLog ..))

theorem calm_refill (s : State) : Calm s s.refill :=
  .after (calm_formDumps _ _) <| .after (.each (fun v _ => .ite (fun _ => calm_sxPacket ..) (fun _ => .refl v)) _ _) (calm_drainCaps _ s)

theorem calm_dumpSent (s : State) (p : Packet) : Calm s (s.dumpSent p) := by
  unfold State.dumpSent
  refine .ite (fun _ => .refl s) (fun _ => ?_)
  split
  · exact .refl s
  · exact .ite (fun _ => .after (calm_settleO ..) (calm_setLog ..)) (fun _ => .refl s)

theorem setQueue_mem (l : Log) (c : Nat) (q : List Packet) : (l.setQueue c q).mem = l.mem := by
  unfold Log.setQueue
  split
  · rfl
  · split <;> rfl

theorem setQueue_wmem (l : Log) (c : Nat) (q : List Packet) : (l.setQueue c q).wmem = l.wmem := by
  unfold Log.setQueue
  split
  · rfl
  · split <;> rfl

theorem calm_sendPacket (s : State) : Calm s s.sendPacket := by
  unfold State.sendPacket
  refine .ite (fun _ => .refl s) (fun _ => ?_)
  split
  · exact .refl s
  · split
    · exact .refl s
    · refine .ite (fun _ => ?_) (fun _ => .ite (fun _ => calm_setLog ..) (fun _ => ?_))
      · exact .after (calm_refill _) <| .after (calm_dumpSent ..) <| .after (calm_modXing ..) <|
          calm_setLog _ _ (setQueue_mem ..) (setQueue_wmem ..)
      · exact .after (calm_refill _) <| .after (calm_dumpSent ..) <| calm_setLog _ _ (setQueue_mem ..) (setQueue_wmem ..)

theorem calm_formTimeout (s : State) (ty ch : Nat) : Calm s (s.formTimeout ty ch) :=
  .ite (fun _ => .refl s) (fun _ => .ite (fun _ => calm_formEvents s) (fun _ => .ite (fun _ => calm_formThrottle s)
    (fun _ => .ite (fun _ => calm_sxPacket ..) (fun _ => .refl s))))

/-! ## The log commands 0x80 to 0x84 (14 R341) -/

theorem calm_clearAll (s : State) (l : List Nat) : Calm s (s.each l (fun s i => s.clearTelem i false)) :=
  .each (fun _ _ => calm_clearTelem ..) _ _

theorem calm_cmdLogSelect (u : State) (q : Req) : Calm u (cmdLogSelect.run u q).1 := by
  unfold cmdLogSelect
  dsimp only
  refine calm_fst_ite (fun _ => calm_setLog ..) (fun _ => ?_)
  dsimp only
  exact .after (calm_clearAll _ _) (calm_setLog u _)

theorem calm_cmdTraceArm (u : State) (q : Req) : Calm u (cmdTraceArm.run u q).1 := by
  unfold cmdTraceArm
  dsimp only
  exact calm_orElse _ (calm_setMem u _ u.faults (fun h => memClear_wf h _ _) id)

theorem calm_cmdTraceStop (u : State) (q : Req) : Calm u (cmdTraceStop.run u q).1 := calm_orElse _ (calm_setLog ..)

theorem calm_cmdTraceDump (u : State) (q : Req) : Calm u (cmdTraceDump.run u q).1 := by
  unfold cmdTraceDump
  dsimp only
  refine calm_orElse _ (calm_fst_ite (fun _ => .refl u) (fun _ => ?_))
  dsimp only
  exact .after (calm_formDumps _ _) (calm_setLog u _)

theorem calm_cmdLogStatus (u : State) (q : Req) : Calm u (cmdLogStatus.run u q).1 := .refl u

/-! ## Handles, tests and grants (14 R343; 18 R408 to R416) -/

theorem calm_modTests (s : State) (f : Tests → Tests) : Calm s (s.modTests f) := calm_setTests ..
theorem calm_newTest (s : State) (id : Nat) (w : Word) : Calm s (s.newTest id w).2 := calm_setTests ..
theorem calm_setTest (s : State) (h : BitVec 16) (r : BitVec 2) (d : Word) : Calm s (s.setTest h r d) := calm_setTests ..

theorem calm_testReset (s : State) (id target : Nat) : Calm s (s.testReset id target) := by
  unfold State.testReset
  dsimp only
  refine .ite (fun _ => ?_) (fun _ => .ite (fun _ => ?_) (fun _ => .ite (fun _ => .each (fun v i => ?_) _ _) (fun _ => .refl s)))
  · refine .after (calm_setFaults _ _) <| .after (calm_setTiles { s with log := { s.log with wmem := [] } } _ newProgram_st) ?_
    exact calm_setMem s _ s.faults (fun h => h) (fun _ => rfl)
  · exact calm_setMem s _ _ (fun _ => rfl) (fun h => h)
  · exact calm_modTile _ _ (fun _ h => h)

theorem calm_trimTile (s : State) (i : Nat) (x : OpResult) : Calm s (s.trimTile i x) := by
  unfold State.trimTile
  split
  · exact calm_tapFault ..
  · exact .after (.each (fun _ _ => calm_plumbCal ..) _ _) (calm_modTile _ _ (fun _ => id))

theorem calm_ranTest (s : State) (t : Test) (pass : Bool) (detail : Word) : Calm s (s.ranTest t pass detail) := by
  unfold State.ranTest
  refine .after (.ite (fun _ => calm_standbyTest ..) (fun _ => .ite (fun _ => ?_) (fun _ => ?_))) (calm_setTest s ..)
  · exact .ite (fun _ => calm_endCal ..) (fun _ => .refl _)
  · exact .ite (fun _ => calm_trimTile ..) (fun _ => calm_testReset ..)

theorem calm_endGrant (s : State) : Calm s s.endGrant := by
  unfold State.endGrant
  split
  · exact .refl s
  · exact .after (calm_settle ..) <| .after (calm_modTests _ _) <| .each (fun _ _ => .after (calm_testReset ..) (calm_setTest ..)) _ _

theorem calm_testDone (s : State) (h : BitVec 16) (pass : Bool) (detail : Word) : Calm s (s.testDone h pass detail) := by
  unfold State.testDone
  split
  · exact .refl s
  · refine .ite (fun _ => .refl s) (fun _ => .ite (fun _ => ?_) (fun _ => ?_))
    · extract_lets v w
      have hw : Calm s w := .after (calm_modTests ..) (calm_ranTest ..)
      exact hw.trans (.ite (fun _ => .refl w) (fun _ => calm_endGrant w))
    · exact .ite (fun _ => calm_ranTest ..) (fun _ => .ite (fun _ => calm_ranTest ..) (fun _ => .refl s))

theorem calm_grantEnd (s : State) : Calm s s.grantEnd := by
  unfold State.grantEnd
  split
  · exact .ite (fun _ => calm_endGrant s) (fun _ => .refl s)
  · exact .refl s

/-! ## The commands 0x90 to 0x95 (14 Table 14.11) -/

theorem calm_cmdCalSextant (u : State) (q : Req) : Calm u (cmdCalSextant.run u q).1 :=
  calm_orElse _ (.after (calm_setWait ..) (calm_modChan ..))

theorem calm_cmdCalPlumb (u : State) (q : Req) : Calm u (cmdCalPlumb.run u q).1 := by
  unfold cmdCalPlumb
  dsimp only
  refine calm_orElse _ (calm_fst_ite (fun _ => calm_setWait ..) (fun _ => ?_))
  exact .after (calm_modTile _ _ (fun _ => id)) (calm_newTest u ..)

theorem calm_cmdTestRun (u : State) (q : Req) : Calm u (cmdTestRun.run u q).1 := by
  unfold cmdTestRun
  dsimp only
  have h := calm_newTest u (reqTest q) (q.w 2)
  refine calm_fst_ite (fun _ => .refl u) (fun _ => calm_fst_ite (fun _ => h) (fun _ => .after (calm_setWait ..) (.ite (fun _ => ?_) (fun _ => h))))
  exact .after (calm_modRot ..) <| .after (calm_modTile _ _ (fun _ => id)) h

theorem calm_cmdQuiesce (u : State) (q : Req) : Calm u (cmdQuiesce.run u q).1 := by
  unfold cmdQuiesce
  dsimp only
  refine calm_orElse _ (calm_fst_ite (fun _ => calm_setTests ..) (fun _ => ?_))
  dsimp only
  exact .after (calm_modTests _ _) (calm_modTests u _)

theorem calm_cmdTestResult (u : State) (q : Req) : Calm u (cmdTestResult.run u q).1 := by
  unfold cmdTestResult
  dsimp only
  split <;> exact .refl u

theorem calm_setLogTests (s : State) (l : Log) (t : Tests) (mem : l.mem = s.log.mem := by rfl) (wmem : l.wmem = s.log.wmem := by rfl) :
    Calm s { s with log := l, tests := t } := .same (mem := mem) (wmem := wmem)

theorem calm_cmdLoopback (u : State) (q : Req) : Calm u (cmdLoopback.run u q).1 := by
  unfold cmdLoopback
  dsimp only
  refine calm_fst_ite (fun _ => .refl u) (fun _ => ?_)
  refine calm_fst_ite (fun _ => ?_) (fun _ => calm_fst_ite (fun _ => ?_) (fun _ => .after (calm_setWait _ _ _) (calm_modTests u _)))
  · exact .after (calm_setCtl _ _) <| .after (calm_setWait _ _ _) (calm_modTests u _)
  · exact .after (calm_setLogTests _ _ _) <| .after (calm_setWait _ _ _) (calm_modTests u _)

theorem calm_loopDone (s : State) (x : OpResult) : Calm s (s.loopDone x) := by
  unfold State.loopDone
  split
  · exact .refl s
  · exact .after (calm_settle ..) <| .after (.ite (fun _ => calm_setCtl ..) (fun _ => .refl _)) (calm_modTests s _)

/-! ## The end of an operation (14 R329) -/

theorem calm_testEnds (s : State) (n : BitVec 3) (h : BitVec 16) (x : OpResult) : Calm s (s.testEnds n h x) := by
  unfold State.testEnds
  split
  · exact calm_settle ..
  · exact .ite (fun _ => calm_settle ..) (fun _ => .after (calm_settle ..) (calm_ranTest ..))

theorem calm_instantDone (s : State) (n : BitVec 3) (x : OpResult) : Calm s (s.instantDone n x) := by
  unfold State.instantDone
  extract_lets m v
  refine .ite (fun _ => .refl s) (fun _ => ?_)
  have hv : Calm s v := by
    dsimp only [v]
    split
    · exact .refl s
    · clear_value m
      cases m.wait with
      | railAct r => exact calm_railActDone ..
      | calSextant ch => exact .after (calm_settle ..) (calm_endCal ..)
      | calPlumb i => exact .after (calm_settle ..) (calm_trimTile ..)
      | test h => exact calm_testEnds ..
      | loopback => exact calm_loopDone ..
      | none => exact .refl s
      | railQueued r => exact .refl s
      | inbound => exact .refl s
  clear_value v
  refine hv.trans ?_
  cases (v.mbx n).final with
  | none => exact .refl v
  | some r => exact calm_finish ..

/-! ## The test port (18 R415; 02 R72) -/

theorem calm_tap (s : State) (ir : Byte) (dr : Nat) : Calm s (s.tap ir dr) := calm_setTests ..

theorem calm_tapIf (s : State) (ok : Bool) {f : State → State} (hf : ∀ u, Calm u (f u)) : Calm s (s.tapIf ok f) :=
  .ite (fun _ => calm_tap ..) (fun _ => .ite (fun _ => hf s) (fun _ => .refl s))

theorem calm_lbkRun (s : State) (mis : Nat) : Calm s (s.lbkRun mis) := by
  unfold State.lbkRun
  exact .after (calm_modTests _ _) (calm_tap s 0x11 0)

theorem calm_mbist (s : State) (a b : Bool) : Calm s (s.mbist a b) :=
  calm_tapIf _ _ (fun _ => .after (calm_tap ..) <| .after (calm_testReset ..) (calm_testReset ..))

/-- Bits that are blown stay blown. -/
theorem calm_blow (s : State) (m : BitVec 3776) : Calm s { s with trust := s.trust.blow m } where
  toKept := { Kept.refl s with
    fuse0 := fun b h => by simp [Trust.blow, h]
    fuse1 := fun b h => by simp [Trust.blow, h]
    fuse2 := fun b h => by simp [Trust.blow, h] }
  chip := rfl
  haltB := rfl
  len := rfl

theorem calm_fuseWrite (s : State) (f : FuseField) (v : Nat) : Calm s (s.fuseWrite f v) := by
  refine calm_tapIf _ _ (fun u => ?_)
  refine (calm_tap u 0x22 0).trans ?_
  generalize u.tap 0x22 0 = w
  dsimp only
  split
  · exact .refl w
  · refine .ite (fun _ => .refl w) (fun _ => .after (calm_blow _ _) ?_)
    exact calm_snd_ite (fun _ => calm_take w .nonce _) (fun _ => .refl w)

theorem calm_lcAdvance (s : State) : Calm s s.lcAdvance := calm_tapIf _ _ (fun u => .after (calm_blow _ _) (calm_tap u 0x23 0))

theorem calm_rmaToken (s : State) (tok : BitVec 768) : Calm s (s.rmaToken tok) := by
  refine calm_tapIf _ _ (fun u => (calm_tap u 0x24 0).trans ?_)
  generalize u.tap 0x24 0 = w
  refine .ite (fun _ => ?_) (fun _ => .refl w)
  exact .after (calm_setTrust { w with trust := w.trust.blow _ } _) (calm_blow w _)

/-- A test port access is calm if its effect is. -/
theorem calm_tapStep {dt : Nat} {s t : State} {f : State → State} (h : tapStep dt s f = .next t) (hf : ∀ u, Calm u (f u)) : Calm s t := by
  obtain rfl : f (s.tick dt) = t := by simpa [tapStep] using h
  exact (calm_tick s dt).trans (hf _)

end Sys2Proof.Proofs
end

section
/-! SUPPORT. Faults, resets of the ports and stages of the Helm are calm (17 R386 to R400; 16 R366 to R377; 02 R70, R71; 13 R315, R316). -/

namespace Sys2Proof.Proofs

open Sys2Proof.Machine Sys2Proof.Safety Sys2Proof.Laws

set_option Elab.async false

/-! ## The commands 0xA0 to 0xA6 and the memories (17 R386 to R395) -/

theorem calm_cmdFence (u : State) (q : Req) : Calm u (cmdFence.run u q).1 := calm_fence ..

/-- Only a fenced tile is released, and it is not HALTED. -/
theorem calm_unfence {s : State} {i : Nat} (h : (s.tile i).st ≠ .halted) : Calm s (s.unfence i) := by
  unfold State.unfence
  refine .after (calm_raise ..) <| .modAwake (.after (calm_modXing ..) (calm_modXing ..)) i _ h

theorem calm_cmdFenceRelease (u : State) (q : Req) : Calm u (cmdFenceRelease.run u q).1 := by
  unfold cmdFenceRelease
  dsimp only
  refine calm_fst_ite (fun _ => .refl u) (fun h => calm_unfence (fun e => ?_))
  simp [Tile.fenced, e] at h

theorem calm_cmdFaultSummary (u : State) (q : Req) : Calm u (cmdFaultSummary.run u q).1 := calm_setFaults ..

theorem calm_cmdEventRead (u : State) (q : Req) : Calm u (cmdEventRead.run u q).1 := .after (calm_evqFlush _) (calm_setFaults u _)
theorem calm_cmdXingRead (u : State) (q : Req) : Calm u (cmdXingRead.run u q).1 := .refl u
theorem calm_cmdHelmCounters (u : State) (q : Req) : Calm u (cmdHelmCounters.run u q).1 := .refl u

theorem calm_scrub (s : State) (r : MemRegion) (idx : Nat) (c : Bool) : Calm s (s.scrub r idx c) := by
  unfold State.scrub
  dsimp only
  split
  · exact .refl s
  · refine .ite (fun _ => .refl s) (fun _ => .ite (fun _ => calm_setFaults ..) (fun _ => ?_))
    exact .ite (fun _ => .after (calm_raise ..) (calm_setFaults ..)) (fun _ => calm_setFaults ..)

theorem calm_reloadMaster (s : State) (idx : Nat) : Calm s (s.reloadMaster idx) := by
  unfold State.reloadMaster
  split
  · exact .refl s
  · split
    · exact .refl s
    · exact calm_modCls ..

theorem calm_eccEffect (s : State) (r : MemRegion) (idx : Nat) : Calm s (s.eccEffect r idx) := by
  unfold State.eccEffect
  split
  · exact .after (calm_enterWarmup _) (calm_clearHistory s)
  · exact calm_reloadMaster ..
  · exact calm_modTile _ _ (fun t h => (newProgram_st t).trans h)
  · exact .ite (fun _ => calm_stageLost s) (fun _ => .refl s)
  · exact .refl s

theorem calm_eccCount (s : State) (r : MemRegion) (idx : Nat) : Calm s (s.eccCount r idx) := .after (calm_raise ..) (calm_setFaults s _)

/-! ## Supplies (02 R70, R71) and the release of the block's reset -/

theorem calm_release (s : State) : Calm s s.release := by
  unfold State.release
  exact .ite (fun _ => .refl s) (fun _ => .after (.ite (fun _ => calm_thrConfirm _) (fun _ => .refl _)) (calm_setBoot s _))

theorem calm_vddbLow (s : State) : Calm s s.vddbLow := .ite (fun _ => .refl s) (fun _ => .after (calm_raise0 ..) (calm_setBoot ..))
theorem calm_vddbOk (s : State) : Calm s s.vddbOk := .ite (fun _ => .refl s) (fun _ => calm_setBoot ..)

theorem calm_vanaFall (s : State) (inst : BitVec 16) : Calm s (s.vanaFall inst) := by
  unfold State.vanaFall
  exact .ite (fun _ => .refl s) (fun _ => .after (calm_raise ..) (calm_setBootSxt s _ _ (chans := by simp)))

theorem calm_vanaOk (s : State) (inst : BitVec 16) : Calm s (s.vanaOk inst) := .ite (fun _ => .refl s) (fun _ => calm_setBoot ..)

theorem calm_supply {dt : Nat} {s t : State} {level f : State → State} (h : supply dt s level f = .next t) (hl : ∀ u, Calm u (level u))
    (hf : ∀ u, Calm u (f u)) : Calm s t := by
  obtain rfl : (if s.boot.inReset then level (s.tick dt) else f (s.tick dt)) = t := by simpa [supply] using h
  exact (calm_tick s dt).trans (.ite (fun _ => hl _) (fun _ => hf _))

/-! ## Sessions and RESTART (16 R370, R376, R377; 13 R316) -/

theorem calm_dropClaim (s : State) (ch : Nat) : Calm s (s.dropClaim ch) :=
  .after (calm_freeChan ..) <| .after (.each (fun _ _ => calm_finishO ..) _ _) <| .after (calm_modChan ..) (calm_disarm s ch)

theorem calm_endSess (s : State) (h : BitVec 3) : Calm s (s.endSess h) := by
  unfold State.endSess
  split
  · exact .refl s
  · exact .after (.ite (fun _ => .refl _) (fun _ => calm_raise ..)) <| .after (.each calm_dropClaim _ _) (calm_setTrust s _)

theorem calm_sessTimeout (s : State) (h : BitVec 3) : Calm s (s.sessTimeout h) := by
  unfold State.sessTimeout
  split
  · exact .ite (fun _ => calm_endSess ..) (fun _ => .refl s)
  · exact .refl s

theorem calm_dropWait (s : State) (n : BitVec 3) : Calm s (s.dropWait n) := by
  unfold State.dropWait
  split
  · exact .after (calm_takeSetups ..) (calm_modChan ..)
  · split
    · exact .after (calm_testReset ..) (calm_setTest ..)
    · exact .refl s
  · exact .refl s

theorem calm_failAll (s : State) (reason : Nat) : Calm s (s.failAll reason) := by
  unfold State.failAll
  exact .after (.each (fun _ _ => .after (calm_finish ..) (calm_dropWait ..)) _ _) (calm_clearSums s _)

theorem calm_dropAnswers (s : State) : Calm s s.dropAnswers := by
  unfold State.dropAnswers
  refine .same (tiles := by simp) (domRet := by simp) (rails := by simp) (slots := by simp) (chans := by simp) (halted := fun i hi => ?_)
  refine Eq.trans (st_getD_map (l := s.tiles) ?_ i) hi
  exact fun _ => rfl

theorem calm_setHelmCtlTrust (s : State) (h : Helm) (c : Ctl) (t : Trust) (f0 : t.fuse0 = s.trust.fuse0 := by rfl)
    (f1 : t.fuse1 = s.trust.fuse1 := by rfl) (f2 : t.fuse2 = s.trust.fuse2 := by rfl) :
    Calm s { s with helm := h, ctl := c, trust := t } := .same (f0 := f0) (f1 := f1) (f2 := f2)

theorem calm_restart (s : State) (reason : Nat) : Calm s (s.restart reason) := by
  unfold State.restart
  extract_lets lvl v w x y
  have hv : Calm s v := calm_failAll ..
  have hw : Calm v w := .after (calm_dropAnswers _) (calm_endGrant _)
  have hx : Calm w x := .ite (fun _ => calm_loadFail ..) (fun _ => .refl w)
  have hy : Calm x y := .each calm_endSess _ _
  clear_value y
  exact ((hv.trans hw).trans (hx.trans hy)).trans (calm_setHelmCtlTrust ..)

theorem calm_wdogExpires (s : State) : Calm s s.wdogExpires :=
  .ite (fun _ => .refl s) (fun _ => .after (calm_restart ..) <| .after (calm_raise0 ..) (calm_setHelm ..))

theorem calm_askRestart (s : State) : Calm s s.askRestart := .ite (fun _ => .refl s) (fun _ => .after (calm_restart ..) (calm_setHelm ..))

theorem calm_restartDone (s : State) : Calm s s.restartDone := by
  unfold State.restartDone
  refine .ite (fun _ => .refl s) (fun _ => .ite (fun _ => calm_enterRun ..) (fun _ => ?_))
  exact .after (calm_setHelm _ _) (calm_enterRom s)

/-! ## The image check and the anti-rollback count (16 R368, R369) -/

theorem calm_takeBytes (s : State) (n : Nat) : Calm s (s.takeBytes n).2 := .same

theorem calm_makeChain (s : State) : Calm s s.makeChain := by
  unfold State.makeChain
  refine .ite (fun _ => .refl s) (fun _ => ?_)
  have hu := calm_takeBytes s 48
  generalize s.takeBytes 48 = a at hu ⊢
  obtain ⟨root, u⟩ := a
  dsimp only at hu ⊢
  have hv := calm_take u .nonce 2048
  generalize u.take .nonce 2048 = b at hv ⊢
  obtain ⟨len, v⟩ := b
  dsimp only at hv ⊢
  exact (hu.trans hv).trans <| .after (calm_setTrust _ _) (calm_takeBytes v len)

theorem calm_imageDone (s : State) : Calm s s.imageDone := by
  unfold State.imageDone
  refine .ite (fun _ => .refl s) (fun _ => ?_)
  extract_lets r n _ v
  have hv : Calm s v := calm_setHelm ..
  refine hv.trans (.ite (fun _ => ?_) (fun _ => .after (calm_settleO ..) (calm_enterRom v)))
  exact .after (calm_settleO ..) <| .after (calm_tightenHeld _) <| .after (calm_makeChain _) (calm_enterRun v true)

theorem calm_arbAdvance (s : State) (blown : Bool) : Calm s (s.arbAdvance blown) := by
  unfold State.arbAdvance
  dsimp only
  refine .ite (fun _ => .refl s) (fun _ => .ite (fun _ => ?_) (fun _ => calm_raise0 ..))
  exact .after (calm_raise0 ..) (calm_blow ..)

/-! ## Uncorrectable words and crossing 4 (17 Table 17.3; 12 Table 12.3) -/

theorem calm_eccUnc (s : State) (r : MemRegion) (idx : Nat) : Calm s (s.eccUnc r idx) := by
  unfold State.eccUnc
  refine .ite (fun _ => .refl s) (fun _ => (calm_eccCount s r idx).trans ?_)
  generalize s.eccCount r idx = v
  dsimp only
  split
  · exact .ite (fun _ => .after (calm_askRestart _) (calm_setHelm ..)) (fun _ => .refl v)
  · exact .ite (fun _ => .after (calm_askRestart _) (calm_failAll ..)) (fun _ => .refl v)
  · exact calm_eccEffect ..

theorem calm_waitExpired (s : State) (x tile : Nat) : Calm s (s.waitExpired x tile) := by
  unfold State.waitExpired
  exact .after (.ite (fun _ => .refl _) (fun _ => calm_raise ..)) (calm_modXing s x tile _)

theorem calm_cross4Fail (s : State) : Calm s s.cross4Fail := .after (calm_setCtl _ _) (calm_waitExpired s 4 0)
theorem calm_noErr (s : State) : Calm s s.noErr := calm_setCtl ..

theorem calm_writeHelm (s : State) : Calm s s.writeHelm :=
  .ite (fun _ => .refl s) (fun _ => .ite (fun _ => calm_cross4Fail s) (fun _ => .ite (fun _ => calm_noErr s)
    (fun _ => .after (calm_askRestart _) (calm_noErr s))))

end Sys2Proof.Proofs
end

section
/-! SUPPORT. The responder, its sessions and the inbound transfers are calm (16 R373 to R380; 14 R345; 15 R349, R361, R362; 02 R46). -/

namespace Sys2Proof.Proofs

open Sys2Proof.Machine Sys2Proof.Safety Sys2Proof.Laws

set_option Elab.async false

/-! ## The commands that a session's request may name -/

theorem calm_cmdTileInfo (u : State) (q : Req) : Calm u (cmdTileInfo.run u q).1 := .refl u
theorem calm_cmdTileStatus (u : State) (q : Req) : Calm u (cmdTileStatus.run u q).1 := .refl u
theorem calm_cmdKsCounters (u : State) (q : Req) : Calm u (cmdKsCounters.run u q).1 := .refl u
theorem calm_cmdKsSlots (u : State) (q : Req) : Calm u (cmdKsSlots.run u q).1 := .refl u

theorem calm_baseCmds : ∀ c ∈ baseCmds, ∀ u q, Calm u (c.run u q).1 := by
  simp only [baseCmds, List.forall_mem_append, List.forall_mem_cons, List.not_mem_nil, false_implies, implies_true, and_true]
  exact ⟨⟨⟨⟨calm_cmdIdentify, calm_cmdFwLoad, calm_cmdCaps, calm_cmdSetEpoch, calm_cmdSetHostQ, calm_cmdSetFloor, calm_cmdSetSafeQ,
      calm_cmdSetPmbus, calm_cmdReadPolicy, calm_cmdTileInfo, calm_cmdTilePolicy, calm_cmdTilePlumb, calm_cmdTileDroop, calm_cmdTileState,
      calm_cmdTileStatus, calm_cmdDomainPower, calm_cmdTileCounters, calm_cmdFloorOver, calm_cmdLearnReset, calm_cmdTileCapture⟩,
    ⟨calm_cmdRckLoad, calm_cmdRckUnload, calm_cmdRckMode, calm_cmdRckMap, calm_cmdRckStatus, calm_cmdRckCounters, calm_cmdRckClass,
      calm_cmdRckNv, calm_cmdRckHistory, calm_cmdWatchSet, calm_cmdWatchRead, calm_cmdRckScales, calm_cmdKsOpen, calm_cmdKsStage,
      calm_cmdKsSeal, calm_cmdKsAbort, calm_cmdKsResult, calm_cmdKsWait, calm_cmdKsCounters, calm_cmdKsSlots⟩⟩,
    ⟨calm_cmdSxtSetup, calm_cmdSxtDisarm, calm_cmdSxtFree, calm_cmdSxtRead, calm_cmdSxtStats, calm_cmdSxtInfo, calm_cmdLodeAge,
      calm_cmdLodeCheck, calm_cmdLodeEnable, calm_cmdRailMap, calm_cmdRailAct, calm_cmdPowerLimit, calm_cmdPowerCfg, calm_cmdPartMap,
      calm_cmdLedgerRead, calm_cmdCaptureAt, calm_cmdReasons, calm_cmdPowerCounters, calm_cmdPowerStatus⟩⟩,
    ⟨calm_cmdCvyJoin, calm_cmdCvyLeave, calm_cmdCvyMove, calm_cmdCvyStatus, calm_cmdCvyCounters, calm_cmdLogSelect, calm_cmdTraceArm,
      calm_cmdTraceStop, calm_cmdTraceDump, calm_cmdLogStatus, calm_cmdCalSextant, calm_cmdCalPlumb, calm_cmdTestRun, calm_cmdQuiesce,
      calm_cmdTestResult, calm_cmdLoopback, calm_cmdFence, calm_cmdFenceRelease, calm_cmdFaultSummary, calm_cmdEventRead,
      calm_cmdXingRead, calm_cmdHelmCounters, calm_cmdChartRead, calm_cmdChartTighten⟩⟩

theorem calm_runCmd (s : State) {l : List Cmd} (hl : ∀ c ∈ l, ∀ u q, Calm u (c.run u q).1) (inSess : Bool) (op : Byte) (q : Req) :
    Calm s (s.runCmd l inSess op q).1 := by
  unfold State.runCmd
  split
  · rename_i c h
    exact calm_handle _ (fun u => hl c (List.mem_of_find?_eq_some h) u q) s
  · exact .refl s

/-! ## Signing (16 R371, R373) -/

theorem calm_signTry (n d : Nat) (dig : List Byte) (s : State) : Calm s (State.signTry n d dig s).2 := by
  induction n generalizing s with
  | zero => exact .refl s
  | succ n ih =>
    unfold State.signTry
    have h := calm_take s .nonce p384N
    generalize s.take .nonce p384N = x at h ⊢
    exact calm_snd_ite (fun _ => h) (fun _ => .after (ih _) <| .after (calm_setTrust _ _) h)

theorem calm_sign (s : State) (ctx : String) (msg : List Byte) : Calm s (s.sign ctx msg).2 := by
  unfold State.sign
  extract_lets d x
  have hx : Calm s x.2 := calm_signTry ..
  have hy := calm_take x.2 .race 2
  generalize x.2.take .race 2 = y at hy ⊢
  obtain ⟨shut, u⟩ := y
  dsimp only at hy ⊢
  have hz := calm_take u .reopen 2001
  generalize u.take .reopen 2001 = z at hz ⊢
  obtain ⟨re, v⟩ := z
  dsimp only at hz ⊢
  refine ((hx.trans hy).trans hz).trans ?_
  exact .ite (fun _ => calm_setHelm ..) (fun _ => .refl v)

/-! ## Messages (16 R375 to R380) -/

theorem calm_modTrust (s : State) (f : Trust → Trust) (f0 : (f s.trust).fuse0 = s.trust.fuse0 := by rfl)
    (f1 : (f s.trust).fuse1 = s.trust.fuse1 := by rfl) (f2 : (f s.trust).fuse2 = s.trust.fuse2 := by rfl) : Calm s (s.modTrust f) :=
  calm_setTrust s _ f0 f1 f2

theorem calm_err (s : State) (code : Nat) : Calm s (s.err code).1 := .refl s

theorem calm_spVersion (s : State) (m : List Byte) : Calm s (s.spVersion m).1 := calm_setTrust ..

theorem calm_spCaps (s : State) (m : List Byte) : Calm s (s.spCaps m).1 := by
  unfold State.spCaps
  refine calm_fst_ite (fun _ => .refl s) (fun _ => ?_)
  have hu := calm_take s .element 32
  generalize s.take .element 32 = x at hu ⊢
  obtain ⟨ct, u⟩ := x
  dsimp only at hu ⊢
  exact hu.trans (calm_modTrust ..)

theorem calm_spAlgs (s : State) (m : List Byte) : Calm s (s.spAlgs m).1 := calm_fst_ite (fun _ => .refl s) (fun _ => calm_setTrust ..)
theorem calm_spDigests (s : State) (m : List Byte) : Calm s (s.spDigests m).1 := calm_setTrust ..
theorem calm_spCert (s : State) (m : List Byte) : Calm s (s.spCert m).1 := calm_fst_ite (fun _ => .refl s) (fun _ => calm_setTrust ..)

theorem calm_spChallenge (s : State) (m : List Byte) : Calm s (s.spChallenge m).1 := by
  unfold State.spChallenge
  refine calm_fst_ite (fun _ => .refl s) (fun _ => calm_fst_ite (fun _ => .refl s) (fun _ => ?_))
  have hu := calm_takeBytes s 32
  generalize s.takeBytes 32 = x at hu ⊢
  obtain ⟨nonce, u⟩ := x
  dsimp only at hu ⊢
  exact hu.trans <| .after (calm_modTrust _ _) (calm_sign u ..)

theorem calm_spMeas (s : State) (inSess : Bool) (m : List Byte) : Calm s (s.spMeas inSess m).1 := by
  unfold State.spMeas
  dsimp only
  refine calm_fst_ite (fun _ => .refl s) (fun _ => calm_fst_ite (fun _ => .refl s) (fun _ => calm_fst_ite (fun _ => .refl s) (fun _ => ?_)))
  refine calm_fst_ite (fun _ => .refl s) (fun _ => calm_fst_ite (fun _ => .refl s) (fun _ => ?_))
  have hu := calm_takeBytes s 32
  generalize s.takeBytes 32 = x at hu ⊢
  obtain ⟨nonce, u⟩ := x
  dsimp only at hu ⊢
  exact hu.trans <| calm_fst_ite (fun _ => .after (calm_setTrust _ _) (calm_sign u ..)) (fun _ => calm_setTrust ..)

/-! ## Key exchange and sessions (16 R376) -/

theorem calm_modSess (s : State) (h : Nat) (f : Sess → Sess) : Calm s (s.modSess h f) := calm_modTrust ..

theorem calm_spKeyEx (s : State) (m : List Byte) : Calm s (s.spKeyEx m).1 := by
  unfold State.spKeyEx
  dsimp only
  refine calm_fst_ite (fun _ => .refl s) (fun _ => calm_fst_ite (fun _ => .refl s) (fun _ => ?_))
  split
  · exact .refl s
  · have hu := calm_takeBytes s 32
    generalize s.takeBytes 32 = x at hu ⊢
    obtain ⟨rnd, u⟩ := x
    dsimp only at hu ⊢
    have hv := calm_take u .nonce (p384N - 1)
    generalize u.take .nonce (p384N - 1) = y at hv ⊢
    obtain ⟨e, v⟩ := y
    dsimp only at hv ⊢
    exact (hu.trans hv).trans <| .after (calm_modTrust _ _) (calm_sign v ..)

theorem calm_spEncap (s : State) (m : List Byte) : Calm s (s.spEncap m).1 := by
  unfold State.spEncap
  split
  · exact .refl s
  · dsimp only
    refine calm_fst_ite (fun _ => calm_fst_ite (fun _ => .refl s) (fun _ => calm_setTrust ..)) (fun _ => ?_)
    refine calm_fst_ite (fun _ => calm_setTrust ..) (fun _ => calm_fst_ite (fun _ => ?_) (fun _ => .refl s))
    exact calm_fst_ite (fun _ => calm_setTrust ..) (fun _ => calm_setTrust ..)

theorem calm_spFinish (s : State) (m : List Byte) : Calm s (s.spFinish m).1 := by
  unfold State.spFinish
  split
  · exact .refl s
  · dsimp only
    refine calm_fst_ite (fun _ => .refl s) (fun _ => calm_fst_ite (fun _ => calm_endSess ..) (fun _ => calm_setTrust ..))

theorem calm_unhook (s : State) (n : BitVec 3) : Calm s (s.unhook n) := .each (fun _ _ => calm_modChan ..) _ _

theorem calm_spVendor (s : State) (n h : BitVec 3) (m : List Byte) : Calm s (s.spVendor n h m).1 := by
  unfold State.spVendor
  refine calm_fst_ite (fun _ => .refl s) (fun _ => .after (calm_unhook _ n) ?_)
  exact calm_fst_ite (fun _ => calm_runCmd s calm_baseCmds ..) (fun _ => .refl s)

theorem calm_keyed {s : State} {r : Reply} (h : Calm s r.1) : Calm s (s.keyed r).1 := calm_fst_ite (fun _ => .refl s) (fun _ => h)

theorem calm_spPlain (s : State) (m : List Byte) (code : Nat) : Calm s (s.spPlain m code).1 := by
  unfold State.spPlain
  split
  · exact calm_keyed (calm_spDigests s m)
  · exact calm_keyed (calm_spCert s m)
  · exact calm_keyed (calm_spChallenge s m)
  · exact calm_spMeas ..
  · exact calm_keyed (calm_spKeyEx s m)
  · exact calm_spFinish ..
  · exact calm_spEncap ..
  · exact calm_spEncap ..
  · exact .refl s
  · exact .refl s
  · exact .refl s

theorem calm_spSecured (s : State) (n h : BitVec 3) (m : List Byte) (code : Nat) : Calm s (s.spSecured n h m code).1 := by
  unfold State.spSecured
  extract_lets v
  have hv : Calm s v := calm_modSess ..
  refine hv.trans ?_
  split
  · exact calm_spMeas ..
  · exact .refl v
  · exact calm_endSess ..
  · exact calm_spVendor ..
  · exact calm_fst_ite (fun _ => .refl v) (fun _ => .refl v)

theorem calm_spdmMsg (s : State) (n h : BitVec 3) (m : List Byte) : Calm s (s.spdmMsg n h m).1 := by
  unfold State.spdmMsg
  extract_lets code
  refine calm_fst_ite (fun _ => .refl s) (fun _ => calm_fst_ite (fun _ => ?_) (fun _ => calm_fst_ite (fun _ => ?_) (fun _ => ?_)))
  · exact calm_fst_ite (fun _ => .refl s) (fun _ => calm_spSecured ..)
  · exact calm_fst_ite (fun _ => .refl s) (fun _ => calm_spVersion ..)
  refine calm_fst_ite (fun _ => .refl s) (fun _ => calm_fst_ite (fun _ => .refl s) (fun _ => calm_fst_ite (fun _ => ?_) (fun _ => ?_)))
  · exact calm_fst_ite (fun _ => calm_spCaps ..) (fun _ => .refl s)
  refine calm_fst_ite (fun _ => ?_) (fun _ => calm_fst_ite (fun _ => .refl s) (fun _ => ?_))
  · exact calm_fst_ite (fun _ => calm_spAlgs ..) (fun _ => .refl s)
  exact calm_fst_ite (fun _ => calm_spMeas ..) (fun _ => calm_spPlain ..)

/-! ## Command 0xB0 (14 Table 14.14) -/

theorem calm_sendLong (s : State) (n : BitVec 3) (r : List Byte) : Calm s (s.sendLong n r) := .each (fun _ _ => calm_keepPacket ..) _ _

theorem calm_spdmRun (s : State) (n h : BitVec 3) (m : List Byte) : Calm s (s.spdmRun n h m) := by
  unfold State.spdmRun
  exact .after (calm_modMbx ..) <| .after (.ite (fun _ => calm_sendLong ..) (fun _ => .refl _)) (calm_spdmMsg ..)

theorem calm_cmdSpdm (u : State) (q : Req) : Calm u (cmdSpdm.run u q).1 := by
  unfold cmdSpdm
  dsimp only
  exact calm_fst_ite (fun _ => .refl u) (fun _ => calm_fst_ite (fun _ => calm_openInbound ..) (fun _ => calm_spdmRun ..))

/-- A session's command is calm if its body is. -/
theorem calm_sessCmd {c : Cmd} {dt : Nat} {q : Req} {s t : State} (h : .next (sessCmd c dt q s) = (.next t : Host.Outcome State Fault Refusal))
    (hc : ∀ u, Calm u (c.run u q).1) : Calm s t := by
  unfold sessCmd at h
  split at h
  · exact calm_postCmd h hc
  · exact calm_postCmd h (fun _ => calm_spdmRun ..)

/-! ## Inbound transfers (15 R349, R361, R362) -/

theorem calm_setIn (s : State) (x : Inbound) : Calm s (s.setIn x) := calm_setLog ..
theorem calm_closeIn (s : State) : Calm s s.closeIn := calm_setLog ..
theorem calm_discardFlit (s : State) : Calm s s.discardFlit := calm_setLog ..

theorem calm_failIn (s : State) (x : Inbound) (r : Resp) : Calm s (s.failIn x r) := by
  unfold State.failIn
  split
  · exact calm_loadFail ..
  · exact calm_settle ..

theorem calm_refuseIn (s : State) (x : Inbound) (r : Resp) : Calm s (s.refuseIn x r) :=
  .after (.ite (fun _ => calm_closeIn _) (fun _ => calm_setIn ..)) (calm_failIn s x r)

theorem calm_abandonIn (s : State) : Calm s s.abandonIn := by
  unfold State.abandonIn
  split
  · exact .refl s
  · exact .ite (fun _ => calm_closeIn s) (fun _ => .after (calm_closeIn _) <| .after (calm_failIn ..) <|
      .ite (fun _ => calm_setHelm ..) (fun _ => .refl s))

theorem calm_doneIn (s : State) (x : Inbound) : Calm s (s.doneIn x) := by
  unfold State.doneIn
  refine (calm_closeIn s).trans ?_
  generalize s.closeIn = v
  dsimp only
  split
  · exact calm_setHelm ..
  · exact calm_loadBytesDone v
  · exact .ite (fun _ => calm_settle ..) (fun _ => calm_spdmRun ..)

theorem calm_stageBytes (s : State) (x : Inbound) (bs : List Byte) : Calm s (s.stageBytes x bs) := by
  unfold State.stageBytes
  extract_lets before v need
  have hv : Calm s v := calm_modRck ..
  refine hv.trans (.ite (fun _ => ?_) (fun _ => calm_setIn ..))
  split
  · exact calm_refuseIn ..
  · exact .after (calm_setIn ..) (calm_modRck ..)

theorem calm_dataFlit (s : State) (x : Inbound) (f : InFlit) : Calm s (s.dataFlit x f) := by
  unfold State.dataFlit
  refine .ite (fun _ => calm_refuseIn ..) (fun _ => ?_)
  extract_lets bs y v
  have hv : Calm s v := .ite (fun _ => calm_stageBytes ..) (fun _ => calm_setIn ..)
  refine hv.trans ?_
  split
  · exact .ite (fun _ => calm_doneIn ..) (fun _ => .refl v)
  · exact .refl v

theorem calm_takeFlit (s : State) (f : InFlit) : Calm s (s.takeFlit f) := by
  unfold State.takeFlit
  refine .ite (fun _ => .refl s) (fun _ => .ite (fun _ => calm_modXing ..) (fun _ => ?_))
  split
  · exact calm_discardFlit s
  · dsimp only
    refine .ite (fun _ => .after (.ite (fun _ => calm_closeIn _) (fun _ => calm_setIn ..)) (calm_discardFlit s)) (fun _ => ?_)
    refine .ite (fun _ => .after (calm_setIn ..) (calm_discardFlit s)) (fun _ => .ite (fun _ => ?_) (fun _ => ?_))
    · exact .ite (fun _ => calm_refuseIn ..) (fun _ => .after (calm_setIn ..) (calm_discardFlit s))
    · refine .ite (fun _ => calm_dataFlit ..) (fun _ => .ite (fun _ => .after (calm_setIn ..) (calm_discardFlit s)) (fun _ => ?_))
      exact .ite (fun _ => calm_refuseIn ..) (fun _ => calm_setIn ..)

theorem calm_inTimeout (s : State) : Calm s s.inTimeout := by
  unfold State.inTimeout
  split
  · exact .refl s
  · exact .ite (fun _ => .refl s) (fun _ => .ite (fun _ => calm_abandonIn s) (fun _ => .refl s))

end Sys2Proof.Proofs
end

section
/-! SUPPORT. Clocks, crossings, the resets of the ports and the control port are calm (12 R304 to R314; 02 R42; 13 R319 to R326; 19 R417 to R426). -/

namespace Sys2Proof.Proofs

open Sys2Proof.Machine Sys2Proof.Safety Sys2Proof.Laws

set_option Elab.async false

/-! ## Clocks and ports (12 R308 to R310) -/

theorem calm_holdMer (s : State) : Calm s s.holdMer := calm_setCtl ..

theorem calm_clkStop (s : State) (d : Dom) : Calm s (s.clkStop d) := by
  unfold State.clkStop
  refine .ite (fun _ => .refl s) (fun _ => .after (calm_raise ..) ?_)
  exact .after (calm_setBoot _ _) (.ite (fun _ => calm_holdMer s) (fun _ => .refl s))

theorem calm_publishHeld (s : State) : Calm s s.publishHeld := .each calm_publish _ _
theorem calm_freshGroup (s : State) (lo hi : Nat) (e : BitVec 8) : Calm s (s.freshGroup lo hi e) := calm_setXings ..

theorem calm_portUpAgain (s : State) (p : Port) : Calm s (s.portUpAgain p) := by
  cases p with
  | ctl => exact .after (calm_setCtl _ _) (calm_freshGroup s ..)
  | log => exact .after (calm_setCtl _ _) (calm_freshGroup s ..)
  | man => exact .after (calm_setCtl _ _) (calm_freshGroup s ..)
  | cvy => exact .after (calm_cvyPump _) <| .after (calm_setCtl _ _) (calm_freshGroup s 12 13 s.xings.eCvy)

theorem calm_portRelease (s : State) (p : Port) : Calm s (s.portRelease p) :=
  .ite (fun _ => .refl s) (fun _ => .ite (fun _ => .after (calm_portUpAgain ..) (calm_setCtl ..)) (fun _ => calm_setCtl ..))

theorem calm_releaseHeld (s : State) (d : Dom) : Calm s (s.releaseHeld d) := by
  unfold State.releaseHeld
  split
  · exact .ite (fun _ => calm_portRelease ..) (fun _ => .refl s)
  · exact .ite (fun _ => calm_portRelease ..) (fun _ => .refl s)
  · exact .ite (fun _ => calm_portRelease ..) (fun _ => .refl s)
  · exact .ite (fun _ => calm_portRelease ..) (fun _ => .refl s)
  · exact .refl s

theorem calm_setBootXings (s : State) (b : Boot) (x : Xings) (chip : b.chipStop = s.boot.chipStop := by rfl)
    (cool : b.cool = s.boot.cool := by rfl) (trip : b.trip = s.boot.trip := by rfl) : Calm s { s with boot := b, xings := x } :=
  .same (stop := chip) (cool := cool) (trip := trip)

theorem calm_clkBack (s : State) (d : Dom) : Calm s (s.clkBack d) := by
  unfold State.clkBack
  extract_lets k stopped _ _ v w x y
  have hv : Calm s v := calm_setBootXings ..
  have hw : Calm v w := calm_releaseHeld ..
  have hx : Calm w x := .ite (fun _ => calm_cvyPump _) (fun _ => .refl w)
  have hy : Calm x y := .ite (fun _ => calm_publishHeld _) (fun _ => .refl x)
  exact ((hv.trans hw).trans (hx.trans hy)).trans (.ite (fun _ => calm_raise ..) (fun _ => .refl y))

theorem calm_xingTimeout (s : State) (x tile : Nat) : Calm s (s.xingTimeout x tile) := .ite (fun _ => .refl s) (fun _ => calm_waitExpired ..)

/-! ## Stale crossings (12 R311 to R313) -/

theorem calm_holdStale (s : State) (x : Nat) : Calm s (s.holdStale x) := by
  unfold State.holdStale
  split
  · exact calm_setCtl ..
  · exact calm_setCtl ..
  · exact calm_holdMer s
  · exact calm_setCtl ..
  · exact calm_modRck ..
  · exact .refl s

theorem calm_reportStale (s : State) (x tile : Nat) (b : Bool) : Calm s (s.reportStale x tile b) :=
  .ite (fun _ => .ite (fun _ => .refl s) (fun _ => calm_setCtl ..)) (fun _ => calm_raise ..)

theorem calm_xingStale (s : State) (x tile : Nat) (other : BitVec 8) (ctlEnd : Bool) : Calm s (s.xingStale x tile other ctlEnd) := by
  unfold State.xingStale
  extract_lets c ctl u v w
  have hw : Calm s w := .after (calm_reportStale ..) <| .after (calm_modXing ..) (calm_holdStale s x)
  refine .ite (fun _ => .refl s) (fun _ => .ite (fun _ => ?_) (fun _ => .ite (fun _ => .refl s) (fun _ => hw.trans ?_)))
  · exact .ite (fun _ => calm_reportStale ..) (fun _ => .refl s)
  · exact .ite (fun _ => calm_fence ..) (fun _ => .ite (fun _ => calm_abandonIn w) (fun _ => .refl w))

theorem calm_takeAllSetups (s : State) (l : List Nat) : Calm s (s.each l State.takeSetups) := .each calm_takeSetups _ _

theorem calm_xingResync (s : State) (x : Nat) (ok : Bool) : Calm s (s.xingResync x ok) := by
  unfold State.xingResync
  refine .ite (fun _ => .refl s) (fun _ => .ite (fun _ => ?_) (fun _ => ?_))
  · refine .after (.ite (fun _ => calm_takeAllSetups ..) (fun _ => .ite (fun _ => calm_takeAllSetups ..) (fun _ => .refl _))) ?_
    exact .after (calm_raise ..) (calm_modXing ..)
  · exact .after (.ite (fun _ => calm_raise ..) (fun _ => .refl _)) (calm_modXing s x 0 _)

/-! ## Port resets (12 Table 12.4; 02 R42) -/

theorem calm_setCtlSide (s : State) (x : Xings) (c : Ctl) (f : Mbx → Mbx) :
    Calm s { s with xings := x, mbxs := s.mbxs.map f, ctl := c } := .same (mbxs := List.length_map ..)

theorem calm_ctlReset (s : State) : Calm s s.ctlReset := by
  unfold State.ctlReset
  refine .after (calm_setCtlSide _ _ _ _) ?_
  split
  · exact .ite (fun _ => calm_loopDone ..) (fun _ => .refl s)
  · exact .refl s

theorem calm_setLogSide (s : State) (x : Xings) (c : Ctl) (l : Log) (mem : l.mem = s.log.mem := by rfl)
    (wmem : l.wmem = s.log.wmem := by rfl) : Calm s { s with xings := x, ctl := c, log := l } := .same (mem := mem) (wmem := wmem)

theorem calm_logReset (s : State) : Calm s s.logReset := by
  unfold State.logReset
  extract_lets _ _ _ v w
  have hv : Calm s v := calm_setLogSide ..
  refine .after (calm_abandonIn w) <| .after ?_ hv
  dsimp only [w]
  split
  · exact .ite (fun _ => calm_dropRecs ..) (fun _ => .refl v)
  · exact .refl v

theorem calm_setXingsCtl (s : State) (x : Xings) (c : Ctl) : Calm s { s with xings := x, ctl := c } := .same

theorem calm_portReset (s : State) (p : Port) : Calm s (s.portReset p) := by
  cases p with
  | ctl => exact .after (calm_ctlReset _) (calm_setCtl ..)
  | log => exact .after (calm_logReset _) (calm_setCtl ..)
  | man => exact calm_setXingsCtl ..
  | cvy => exact calm_setXingsCtl ..

theorem calm_holdPort (s : State) (p : Port) (low : Bool) : Calm s (s.holdPort p low) := by
  cases p <;> exact calm_setCtl ..

theorem calm_trst (s : State) : Calm s s.trst := by
  unfold State.trst
  exact .after (calm_modTests _ _) <| .after (calm_freshGroup _ 22 22 _) (calm_setXings s _)

/-! ## The control port (13 R319 to R326; 19 R417 to R426) -/

theorem calm_reads (s : State) (v : Word) : Calm s (s.reads v) := calm_setCtl ..

theorem calm_read4 (s : State) (v : Word) {f : State → State} (hf : ∀ u, Calm u (f u)) : Calm s (s.read4 v f) :=
  .ite (fun _ => calm_cross4Fail s) (fun _ => .ite (fun _ => calm_reads ..) (fun _ => .after (hf _) (calm_setCtl ..)))

theorem calm_doorbells (s : State) (ring : BitVec 8) : Calm s (s.doorbells ring) := .each calm_bell _ _
theorem calm_clearInt (s : State) (w : Word) : Calm s (s.clearInt w) := calm_setCtl ..
theorem calm_readMer (s : State) : Calm s s.readMer := calm_setCtl ..
theorem calm_readXing (s : State) : Calm s s.readXing := calm_read4 _ _ (fun _ => calm_setCtl ..)

theorem calm_readLoop (s : State) : Calm s s.readLoop := by
  unfold State.readLoop
  refine calm_read4 _ _ (fun u => .ite (fun _ => .refl u) (fun _ => ?_))
  exact .after (.ite (fun _ => calm_loopDone ..) (fun _ => .refl _)) (calm_setCtl u _)

theorem calm_regWrite (s : State) (a : Nat) (w : Word) : Calm s (s.regWrite a w) := by
  unfold State.regWrite
  refine .ite (fun _ => calm_clearInt ..) (fun _ => .ite (fun _ => calm_setCtl ..) (fun _ => .ite (fun _ => ?_) (fun _ => ?_)))
  · exact .ite (fun _ => calm_writeHelm s) (fun _ => .refl s)
  refine .ite (fun _ => calm_doorbells ..) (fun _ => .ite (fun _ => calm_modMbx ..) (fun _ => .ite (fun _ => calm_setCtl ..) (fun _ => ?_)))
  exact .ite (fun _ => calm_cross4Fail s) (fun _ => .refl s)

theorem calm_intakeTake (s : State) : Calm s s.intakeTake := by
  unfold State.intakeTake
  refine .ite (fun _ => .refl s) (fun _ => ?_)
  split
  · exact .refl s
  · rename_i n r _
    extract_lets _ v x
    have hv : Calm s v := calm_setHelm ..
    refine hv.trans (.ite (fun _ => .refl v) (fun _ => .after (calm_answer ..) ?_))
    exact calm_runCmd v (List.forall_mem_cons.2 ⟨calm_cmdSpdm, calm_baseCmds⟩) ..

theorem calm_intakeReopen (s : State) : Calm s s.intakeReopen := .ite (fun _ => calm_setHelm ..) (fun _ => .refl s)

theorem calm_republish (s : State) : Calm s s.republish :=
  .ite (fun _ => .refl s) (fun _ => .after (calm_setCtl _ _) (.each calm_publish _ _))

end Sys2Proof.Proofs
end

section
/-! SUPPORT. Every command but the two block resets is safe: one arm per command, each through the lemma about its meaning. -/

namespace Sys2Proof.Proofs

open Sys2Proof.Machine Sys2Proof.Safety Sys2Proof.Laws

set_option Elab.async false

/-- A command that goes on at once is calm if its effect is. -/
theorem calm_next {dt : Nat} {s t : State} {f : State → State} (h : .next (f (s.tick dt)) = (.next t : Host.Outcome State Fault Refusal))
    (hf : ∀ u, Calm u (f u)) : Calm s t := by
  obtain rfl : f (s.tick dt) = t := by simpa using h
  exact (calm_tick s dt).trans (hf _)

theorem safe_exec {c : Instr} {s t : State} (hr : ∀ dt, c ≠ .brnRstAssert dt ∧ c ≠ .powerOnMonitor dt) (h : exec c s = .next t) : Safe s t := by
  unfold exec at h
  cases c with
  | identify dt q => exact (calm_postCmd h (fun _ => calm_cmdIdentify ..)).safe
  | fwLoad dt q => exact (calm_postCmd h (fun _ => calm_cmdFwLoad ..)).safe
  | caps dt q => exact (calm_postCmd h (fun _ => calm_cmdCaps ..)).safe
  | setEpoch dt q => exact (calm_postCmd h (fun _ => calm_cmdSetEpoch ..)).safe
  | setHostQ dt q => exact (calm_postCmd h (fun _ => calm_cmdSetHostQ ..)).safe
  | setFloor dt q => exact (calm_postCmd h (fun _ => calm_cmdSetFloor ..)).safe
  | setSafeQ dt q => exact (calm_postCmd h (fun _ => calm_cmdSetSafeQ ..)).safe
  | setPmbus dt q => exact (calm_postCmd h (fun _ => calm_cmdSetPmbus ..)).safe
  | readPolicy dt q => exact (calm_postCmd h (fun _ => calm_cmdReadPolicy ..)).safe
  | tileInfo dt q => exact (calm_postCmd h (fun _ => calm_cmdTileInfo ..)).safe
  | tilePolicy dt q => exact (calm_postCmd h (fun _ => calm_cmdTilePolicy ..)).safe
  | tilePlumb dt q => exact (calm_postCmd h (fun _ => calm_cmdTilePlumb ..)).safe
  | tileDroop dt q => exact (calm_postCmd h (fun _ => calm_cmdTileDroop ..)).safe
  | tileStateEnable dt q => exact (calm_postCmd h (fun _ => calm_cmdTileState ..)).safe
  | tileStateDisable dt q => exact (calm_postCmd h (fun _ => calm_cmdTileState ..)).safe
  | tileStateGate dt q => exact (calm_postCmd h (fun _ => calm_cmdTileState ..)).safe
  | tileStateUngate dt q => exact (calm_postCmd h (fun _ => calm_cmdTileState ..)).safe
  | tileStateSwap dt q => exact (calm_postCmd h (fun _ => calm_cmdTileState ..)).safe
  | tileStatus dt q => exact (calm_postCmd h (fun _ => calm_cmdTileStatus ..)).safe
  | domainPowerOff dt q => exact (calm_postCmd h (fun _ => calm_cmdDomainPower ..)).safe
  | domainPowerOn dt q => exact (calm_postCmd h (fun _ => calm_cmdDomainPower ..)).safe
  | tileCounters dt q => exact (calm_postCmd h (fun _ => calm_cmdTileCounters ..)).safe
  | floorOver dt q => exact (calm_postCmd h (fun _ => calm_cmdFloorOver ..)).safe
  | learnReset dt q => exact (calm_postCmd h (fun _ => calm_cmdLearnReset ..)).safe
  | tileCapture dt q => exact (calm_postCmd h (fun _ => calm_cmdTileCapture ..)).safe
  | rckLoad dt q => exact (calm_postCmd h (fun _ => calm_cmdRckLoad ..)).safe
  | rckUnload dt q => exact (calm_postCmd h (fun _ => calm_cmdRckUnload ..)).safe
  | rckMode dt q => exact (calm_postCmd h (fun _ => calm_cmdRckMode ..)).safe
  | rckMap dt q => exact (calm_postCmd h (fun _ => calm_cmdRckMap ..)).safe
  | rckStatus dt q => exact (calm_postCmd h (fun _ => calm_cmdRckStatus ..)).safe
  | rckCounters dt q => exact (calm_postCmd h (fun _ => calm_cmdRckCounters ..)).safe
  | rckClass dt q => exact (calm_postCmd h (fun _ => calm_cmdRckClass ..)).safe
  | rckNv dt q => exact (calm_postCmd h (fun _ => calm_cmdRckNv ..)).safe
  | rckHistory dt q => exact (calm_postCmd h (fun _ => calm_cmdRckHistory ..)).safe
  | watchSet dt q => exact (calm_postCmd h (fun _ => calm_cmdWatchSet ..)).safe
  | watchRead dt q => exact (calm_postCmd h (fun _ => calm_cmdWatchRead ..)).safe
  | rckScales dt q => exact (calm_postCmd h (fun _ => calm_cmdRckScales ..)).safe
  | ksOpen dt q => exact (calm_postCmd h (fun _ => calm_cmdKsOpen ..)).safe
  | ksStage dt q => exact (calm_postCmd h (fun _ => calm_cmdKsStage ..)).safe
  | ksSeal dt q => exact (calm_postCmd h (fun _ => calm_cmdKsSeal ..)).safe
  | ksAbort dt q => exact (calm_postCmd h (fun _ => calm_cmdKsAbort ..)).safe
  | ksResult dt q => exact (calm_postCmd h (fun _ => calm_cmdKsResult ..)).safe
  | ksWait dt q => exact (calm_postCmd h (fun _ => calm_cmdKsWait ..)).safe
  | ksCounters dt q => exact (calm_postCmd h (fun _ => calm_cmdKsCounters ..)).safe
  | ksSlots dt q => exact (calm_postCmd h (fun _ => calm_cmdKsSlots ..)).safe
  | sxtSetup dt q => exact (calm_postCmd h (fun _ => calm_cmdSxtSetup ..)).safe
  | sxtDisarm dt q => exact (calm_postCmd h (fun _ => calm_cmdSxtDisarm ..)).safe
  | sxtFree dt q => exact (calm_postCmd h (fun _ => calm_cmdSxtFree ..)).safe
  | sxtRead dt q => exact (calm_postCmd h (fun _ => calm_cmdSxtRead ..)).safe
  | sxtStats dt q => exact (calm_postCmd h (fun _ => calm_cmdSxtStats ..)).safe
  | sxtInfo dt q => exact (calm_postCmd h (fun _ => calm_cmdSxtInfo ..)).safe
  | lodeAge dt q => exact (calm_sessCmd h (fun _ => calm_cmdLodeAge ..)).safe
  | lodeCheck dt q => exact (calm_sessCmd h (fun _ => calm_cmdLodeCheck ..)).safe
  | lodeEnable dt q => exact (calm_postCmd h (fun _ => calm_cmdLodeEnable ..)).safe
  | railMap dt q => exact (calm_postCmd h (fun _ => calm_cmdRailMap ..)).safe
  | railAct dt q => exact (calm_postCmd h (fun _ => calm_cmdRailAct ..)).safe
  | powerLimit dt q => exact (calm_postCmd h (fun _ => calm_cmdPowerLimit ..)).safe
  | powerCfg dt q => exact (calm_postCmd h (fun _ => calm_cmdPowerCfg ..)).safe
  | partMap dt q => exact (calm_postCmd h (fun _ => calm_cmdPartMap ..)).safe
  | ledgerRead dt q => exact (calm_postCmd h (fun _ => calm_cmdLedgerRead ..)).safe
  | captureAt dt q => exact (calm_postCmd h (fun _ => calm_cmdCaptureAt ..)).safe
  | reasons dt q => exact (calm_postCmd h (fun _ => calm_cmdReasons ..)).safe
  | powerCounters dt q => exact (calm_postCmd h (fun _ => calm_cmdPowerCounters ..)).safe
  | powerStatus dt q => exact (calm_postCmd h (fun _ => calm_cmdPowerStatus ..)).safe
  | cvyJoin dt q => exact (calm_postCmd h (fun _ => calm_cmdCvyJoin ..)).safe
  | cvyLeave dt q => exact (calm_postCmd h (fun _ => calm_cmdCvyLeave ..)).safe
  | cvyMove dt q => exact (calm_postCmd h (fun _ => calm_cmdCvyMove ..)).safe
  | cvyStatus dt q => exact (calm_postCmd h (fun _ => calm_cmdCvyStatus ..)).safe
  | cvyCounters dt q => exact (calm_postCmd h (fun _ => calm_cmdCvyCounters ..)).safe
  | logSelect dt q => exact (calm_postCmd h (fun _ => calm_cmdLogSelect ..)).safe
  | traceArm dt q => exact (calm_postCmd h (fun _ => calm_cmdTraceArm ..)).safe
  | traceStop dt q => exact (calm_postCmd h (fun _ => calm_cmdTraceStop ..)).safe
  | traceDump dt q => exact (calm_postCmd h (fun _ => calm_cmdTraceDump ..)).safe
  | logStatus dt q => exact (calm_postCmd h (fun _ => calm_cmdLogStatus ..)).safe
  | calSextant dt q => exact (calm_postCmd h (fun _ => calm_cmdCalSextant ..)).safe
  | calPlumb dt q => exact (calm_postCmd h (fun _ => calm_cmdCalPlumb ..)).safe
  | testRun dt q => exact (calm_postCmd h (fun _ => calm_cmdTestRun ..)).safe
  | quiesce dt q => exact (calm_postCmd h (fun _ => calm_cmdQuiesce ..)).safe
  | testResult dt q => exact (calm_postCmd h (fun _ => calm_cmdTestResult ..)).safe
  | loopback dt q => exact (calm_postCmd h (fun _ => calm_cmdLoopback ..)).safe
  | fence dt q => exact (calm_postCmd h (fun _ => calm_cmdFence ..)).safe
  | fenceRelease dt q => exact (calm_postCmd h (fun _ => calm_cmdFenceRelease ..)).safe
  | faultSummary dt q => exact (calm_postCmd h (fun _ => calm_cmdFaultSummary ..)).safe
  | eventRead dt q => exact (calm_postCmd h (fun _ => calm_cmdEventRead ..)).safe
  | xingRead dt q => exact (calm_postCmd h (fun _ => calm_cmdXingRead ..)).safe
  | helmCounters dt q => exact (calm_postCmd h (fun _ => calm_cmdHelmCounters ..)).safe
  | spdm dt q => exact (calm_postCmd h (fun _ => calm_cmdSpdm ..)).safe
  | chartRead dt q => exact (calm_postCmd h (fun _ => calm_cmdChartRead ..)).safe
  | chartTighten dt q => exact (calm_postCmd h (fun _ => calm_cmdChartTighten ..)).safe
  | mbxDoorbell dt ring => exact (calm_access h (fun u => calm_doorbells u ..)).safe
  | helmRestart dt => exact (calm_event h calm_writeHelm).safe
  | ctlIntClear dt w => exact (calm_access h (fun u => calm_clearInt u ..)).safe
  | merLoRead dt => exact (calm_access h calm_readMer).safe
  | lbkXingRead dt => exact (calm_access h calm_readXing).safe
  | lbkHelmRead dt => exact (calm_access h calm_readLoop).safe
  | registerWrite dt addr w => exact (calm_access h (fun u => calm_regWrite u ..)).safe
  | helmIntakeTake dt => exact (calm_event h calm_intakeTake).safe
  | intakeReopen dt => exact (calm_event h calm_intakeReopen).safe
  | mailboxRepublish dt => exact (calm_event h calm_republish).safe
  | instantCompletion dt mbx r => exact (calm_event h (fun u => calm_instantDone u ..)).safe
  | brnRstAssert dt => exact absurd rfl (hr _).1
  | brnRstRelease dt => exact (calm_next h (fun u => calm_release u)).safe
  | romStart dt => exact (calm_event h calm_romStart).safe
  | powerOnMonitor dt => exact absurd rfl (hr _).2
  | vddbLow dt => exact (calm_supply h (fun _ => calm_setBoot ..) calm_vddbLow).safe
  | portResetAssert dt p => exact (calm_next_ite (f := (·.holdPort p true)) (g := (·.portReset p)) h (calm_holdPort · p true) (calm_portReset · p)).safe
  | portResetRelease dt p => exact (calm_next_ite (f := (·.holdPort p false)) (g := (·.portRelease p)) h (calm_holdPort · p false) (calm_portRelease · p)).safe
  | trst dt => exact (calm_tapStep h calm_trst).safe
  | imageCheckDone dt => exact (calm_event h calm_imageDone).safe
  | helmWdog dt => exact (calm_event h calm_wdogExpires).safe
  | restartCheckDone dt => exact (calm_event h calm_restartDone).safe
  | arbAdvance dt blown => exact (calm_event h (fun u => calm_arbAdvance u ..)).safe
  | sessionTimeout dt h => exact (calm_event h (fun u => calm_sessTimeout u ..)).safe
  | refValid dt => exact (calm_event h calm_refValid).safe
  | pllLock dt => exact (calm_event h calm_pllLock).safe
  | hardwareBringupCal dt part badTiles badSensors badChannels => exact (calm_event h (fun u => calm_bringup u ..)).safe
  | meridianPulse dt periods al longHigh diffs => exact (calm_event h (fun u => calm_meridianPulse u ..)).safe
  | refLoss dt pulse => exact (calm_event h (fun u => calm_refLost u ..)).safe
  | slewStep dt => exact (calm_event h (fun u => calm_slewStep u ..)).safe
  | refCheck dt delta => exact (calm_event h (fun u => calm_refCheck u ..)).safe
  | xoFault dt k => exact (calm_event h (fun u => calm_xoFault u ..)).safe
  | xoStartupWindowEnd dt low => exact (calm_event h (fun u => calm_xoWindowEnd u ..)).safe
  | plumbFire dt tile p mv => exact (calm_event h (fun u => calm_plumbFire u ..)).safe
  | plumbRelease dt tile p mv => exact (calm_event h (fun u => calm_plumbRelease u ..)).safe
  | plumbHoldEnd dt tile p => exact (calm_event h (fun u => calm_plumbHoldEnd u ..)).safe
  | plumbDecayStep dt tile p => exact (calm_event h (fun u => calm_plumbDecay u ..)).safe
  | plumbDroopExam dt tile p => exact (calm_event h (fun u => calm_droopExam u ..)).safe
  | plumbCalibration dt tile p inRange => exact (calm_event h (fun u => calm_plumbCal u ..)).safe
  | tapCheckAttempt dt tile fired => exact (calm_event h (fun u => calm_tapCheck u ..)).safe
  | tapCheckDeadline dt tile => exact (calm_event h (fun u => calm_tapDeadline u ..)).safe
  | thermalSample dt rs => exact safe_event h (fun u => safe_thermalSample u ..)
  | thrReqFall dt lowNs => exact (calm_next_ite (f := (·.holdThr (s.boot.thrPin || decide (10 ≤ lowNs)))) (g := (·.thrFall lowNs)) h
      (calm_holdThr · _) (calm_thrFall · lowNs)).safe
  | thrReqRise dt => exact (calm_next_ite (f := (·.holdThr false)) h (calm_holdThr · false) calm_thrRise).safe
  | thrReqHoldEnd dt => exact (calm_event h calm_thrEnd).safe
  | oscFail dt tile b f => exact (calm_event h (fun u => calm_failOsc u ..)).safe
  | oscCalDone dt tile b tuned => exact (calm_event h (fun u => calm_calDone u ..)).safe
  | voscLow dt tile => exact (calm_event h (fun u => calm_fence u ..)).safe
  | vanaLow dt inst => exact (calm_supply h (fun _ => calm_setBoot ..) (fun u => calm_vanaFall u ..)).safe
  | slideInstant dt tile => exact (calm_event h (fun u => calm_slideInstant u ..)).safe
  | handoverRetuneStart dt tile => exact (calm_event h (fun u => calm_retuneStart u ..)).safe
  | handoverAlignStart dt tile => exact (calm_event h (fun u => calm_alignStart u ..)).safe
  | handoverSwitch dt tile aligned extraFs => exact (calm_event h (fun u => calm_hovSwitch u ..)).safe
  | enableInstant dt tile => exact (calm_event h (fun u => calm_enableInstant u ..)).safe
  | disableInstant dt tile => exact (calm_event h (fun u => calm_disableInstant u ..)).safe
  | gateInstant dt tile => exact (calm_event h (fun u => calm_gateInstant u ..)).safe
  | ungateInstant dt tile => exact (calm_event h (fun u => calm_ungateInstant u ..)).safe
  | domainReturnInstant dt dom => exact (calm_event h (fun u => calm_domainReturn u ..)).safe
  | softStartStep dt tile => exact (calm_event h (calm_rampStep · tile.toNat)).safe
  | autoCalibrationSwap dt tile => exact (calm_event h (fun u => calm_autoSwap u ..)).safe
  | standbyTest dt tile pass => exact (calm_event h (fun u => calm_rotTest u ..)).safe
  | learnExam dt => exact (calm_event h calm_learnExam).safe
  | fenceTrial dt tile okA okB voscLow s0 s1 => exact (calm_event h (fun u => calm_fenceTrial u ..)).safe
  | mortarWordDiscard dt tile config nth => exact (calm_event h (fun u => calm_mortarDiscard u ..)).safe
  | manifestRecord dt r => exact (calm_event h (fun u => calm_manifest u ..)).safe
  | courseBoundary dt => exact (calm_event h calm_courseBoundary).safe
  | prestretchStart dt tile => exact (calm_event h (fun u => calm_preStart u ..)).safe
  | prestretchEnd dt tile => exact (calm_event h (fun u => calm_preStop u ..)).safe
  | dipStart dt tile => exact (calm_event h (fun u => calm_dipBegin u ..)).safe
  | dipEnd dt tile => exact (calm_event h (fun u => calm_dipStop u ..)).safe
  | inboundFlit dt f => exact (calm_event h (fun u => calm_takeFlit u ..)).safe
  | programLoadSwap dt => exact (calm_event h calm_loadSwap).safe
  | loadComplete dt => exact (calm_event h calm_loadComplete).safe
  | unloadEffect dt => exact (calm_event h calm_unloadEffect).safe
  | inboundTransferTimeout dt => exact (calm_event h calm_inTimeout).safe
  | loCredit dt => exact (calm_event h calm_addCredit).safe
  | packetSend dt => exact (calm_event h calm_sendPacket).safe
  | packetFormTimeout dt ty ch => exact (calm_event h (fun u => calm_formTimeout u ..)).safe
  | ksSealComplete dt slot => exact (calm_event h (fun u => calm_sealComplete u ..)).safe
  | ksSealDeadline dt slot => exact (calm_event h (fun u => calm_sealDeadline u ..)).safe
  | ksLaunchEdge dt slot tiles => exact (calm_event h (fun u => calm_launch u ..)).safe
  | ksAckDeadline dt slot unacked => exact (calm_event h (fun u => calm_ackDeadline u ..)).safe
  | ksRailRaiseWrite dt rail => exact (calm_event h (fun u => calm_raiseWrite u ..)).safe
  | ksRailPmbusRead dt rail mv => exact (calm_event h (fun u => calm_raiseRead u ..)).safe
  | ksRailCheck dt rail => exact (calm_event h (fun u => calm_raiseCheck u ..)).safe
  | ksRailLowerWrite dt rail => exact (calm_event h (fun u => calm_lowerWrite u ..)).safe
  | railWriteBack dt rail => exact (calm_event h (fun u => calm_writeBack u ..)).safe
  | captureLatch dt => exact (calm_event h calm_capLatch).safe
  | samplingInterval dt rs missing => exact (calm_event h (fun u => calm_sample u ..)).safe
  | capEvaluation dt lim => exact (calm_event h (fun u => .ite (fun _ => .refl u) (fun _ => calm_capEval u ..))).safe
  | ledgerSnapshot dt => exact (calm_event h (fun u => .ite (fun _ => calm_ledgerSnap u) (fun _ => .refl u))).safe
  | plausibilityCheck dt rail => exact (calm_event h (fun u => calm_checkStart u ..)).safe
  | plausibilitySearchStep dt rail droopMt => exact (calm_event h (fun u => calm_checkStep u ..)).safe
  | avsLinkFault dt link => exact (calm_event h (fun u => calm_avsFault u ..)).safe
  | avsLinkRetry dt link goodFrames => exact (calm_event h (fun u => calm_avsRetry u ..)).safe
  | pmbusFallbackRead dt rail volt val => exact (calm_event h (fun u => calm_fallbackRead u ..)).safe
  | pmbusAlert dt rail status => exact (calm_event h (fun u => calm_pmbAlert u ..)).safe
  | pmbusBusRecovery dt rovered => exact (calm_event h (fun u => calm_pmbRecover u ..)).safe
  | flowHbEdge dt highMt => exact safe_event h (fun u => safe_flowEdge u ..)
  | flowHbDcTimeout dt => exact (calm_event h calm_flowDc).safe
  | trayPoll dt answer => exact safe_event h (fun u => safe_trayPoll u ..)
  | wireFaultWaitExpiry dt => exact safe_event h safe_wireExpiry
  | trayConfirmLapse dt => exact (calm_event h calm_trayLapse).safe
  | cvyMoveNotice dt n => exact (calm_event h (fun u => calm_takeNotice u ..)).safe
  | cvyFollowNotice dt n => exact (calm_event h (fun u => calm_takeNotice u ..)).safe
  | cvyNakNotice dt n => exact (calm_event h (fun u => calm_takeNotice u ..)).safe
  | cvyLeaveNotice dt n => exact (calm_event h (fun u => calm_takeNotice u ..)).safe
  | cvyQueuedMoveStage dt => exact (calm_event h calm_queuedStage).safe
  | cvyJoinInstant dt => exact (calm_event h calm_joinInstant).safe
  | cvyLeaveInstant dt => exact (calm_event h calm_leaveInstant).safe
  | spanStart dt => exact (calm_event h calm_spanStart).safe
  | catchUp dt => exact (calm_event h calm_catchUp).safe
  | noticeWithdraw dt => exact (calm_event h calm_noticeWithdraw).safe
  | sextantEdge dt ch stop edge => exact (calm_event h (fun u => calm_edgeAt u ..)).safe
  | gateEdge dt pin rise => exact (calm_event h (fun u => .ite (fun _ => calm_gateRise u ..) (fun _ => calm_gateFall u ..))).safe
  | windowOpen dt ch => exact (calm_event h (fun u => calm_windowOpen u ..)).safe
  | windowClose dt ch => exact (calm_event h (fun u => calm_windowClose u ..)).safe
  | sextantServiceCal dt ch pass => exact (calm_event h (fun u => calm_serviceCal u ..)).safe
  | scrub dt r idx corrected => exact (calm_event h (fun u => calm_scrub u ..)).safe
  | eccUnc dt r idx => exact (calm_event h (fun u => calm_eccUnc u ..)).safe
  | clkStop dt d => exact (calm_event h (fun u => calm_clkStop u ..)).safe
  | clkBack dt d => exact (calm_event h (fun u => calm_clkBack u ..)).safe
  | xingTimeout dt x tile => exact (calm_event h (fun u => calm_xingTimeout u ..)).safe
  | xingStale dt x tile other ctlEnd => exact (calm_event h (fun u => calm_xingStale u ..)).safe
  | xingResync dt x ok => exact (calm_event h (fun u => calm_xingResync u ..)).safe
  | grantEnd dt => exact (calm_event h calm_grantEnd).safe
  | testDone dt handle pass detail => exact (calm_event h (fun u => calm_testDone u ..)).safe
  | idcode dt => exact (calm_tapStep h (fun u => calm_tap u ..)).safe
  | lbkCfg dt v => exact (calm_tapStep h (fun u => .after (calm_modTests ..) (calm_tap u ..))).safe
  | lbkRun dt compared mismatches => exact (calm_tapStep h (fun u => calm_lbkRun u ..)).safe
  | lbkRes dt => exact (calm_tapStep h (fun u => calm_tap u ..)).safe
  | scan dt => exact (calm_tapStep h (fun u => calm_tapIf u _ (calm_tap · 0x20 0))).safe
  | mbist dt pass10 pass11 => exact (calm_tapStep h (fun u => calm_mbist u ..)).safe
  | fuseWrite dt f v => exact (calm_tapStep h (fun u => calm_fuseWrite u ..)).safe
  | lcAdvance dt => exact (calm_tapStep h calm_lcAdvance).safe
  | rmaToken dt tok => exact (calm_tapStep h (fun u => calm_rmaToken u ..)).safe
  | bypass dt => exact (calm_tapStep h (fun u => calm_tap u ..)).safe
  | lodestarPllLock dt => exact (calm_event h calm_lodeLock).safe
  | lodestarTick dt => exact (calm_event h calm_lodeTick).safe
  | cvoReady rise => exact (calm_event h (fun u => calm_cvoReady u ..)).safe
  | vddbBackInRange dt => exact (calm_supply h (fun _ => calm_setBoot ..) calm_vddbOk).safe
  | vanaBackInRange dt inst => exact (calm_supply h (fun _ => calm_setBoot ..) (fun u => calm_vanaOk u ..)).safe
  | calAge dt ch => exact (calm_event h (fun u => .ite (fun _ => calm_modChan u ..) (fun _ => .refl u))).safe

/-- A block reset ends the stop with what caused it. -/
theorem haltInv_inBlockReset (s : State) (por : Bool) : HaltInv (s.inBlockReset por) :=
  ⟨⟨nofun, nofun⟩, nofun⟩

/-- Settles O57: every command but the two block resets is safe, and safety keeps a stop, its cause and what is HALTED. -/
theorem stopStays : Obligations.StopStays := by
  unfold Obligations.StopStays
  intro s t c r hp hr h
  simp only [step, hp] at h
  have k : Safe { s with pending := r } t := safe_exec hr h
  exact ⟨k.stop, fun h0 h1 => (k.rise h1).resolve_left (by simp [h0]), k.halted⟩

/-- Settles O58: an empty queue changes nothing, a block reset ends the stop, and every other command is safe. -/
theorem haltInvariant : Obligations.HaltInvariant := by
  unfold Obligations.HaltInvariant
  intro s t hs h
  unfold step at h
  split at h
  · obtain rfl : s = t := by simpa using h
    exact hs
  · rename_i c r _
    have hq : HaltInv { s with pending := r } := hs
    by_cases hr : ∀ dt, c ≠ .brnRstAssert dt ∧ c ≠ .powerOnMonitor dt
    · exact (safe_exec hr h).haltInv hq
    · obtain ⟨dt, hc⟩ := not_forall.1 hr
      obtain rfl | rfl : c = .brnRstAssert dt ∨ c = .powerOnMonitor dt := by simpa [or_iff_not_imp_left] using hc
      · obtain rfl : (State.tick { s with pending := r } dt).inBlockReset false = t := by simpa [exec, execBrnRstAssert] using h
        exact haltInv_inBlockReset ..
      · obtain rfl : (State.tick { s with pending := r } dt).inBlockReset true = t := by simpa [exec, execPowerOnMonitor] using h
        exact haltInv_inBlockReset ..

end Sys2Proof.Proofs
end

section
/-! SUPPORT. The shared shapes of a step at a live block, and what time and a report leave alone (00 R7; 15 R347 to R354; 17 R386). -/

namespace Sys2Proof.Proofs

open Sys2Proof.Machine Sys2Proof.Safety Sys2Proof.Laws

set_option Elab.async false

/-! ## The shapes of a step -/

theorem event_live {dt : Nat} {s : State} (f : State → State) (h : s.boot.inReset = false) : event dt s f = .next (f (s.tick dt)) := by
  simp [event, h]

theorem supply_live {dt : Nat} {s : State} (level f : State → State) (h : s.boot.inReset = false) :
    supply dt s level f = .next (f (s.tick dt)) := by
  simp [supply, h]

theorem supply_held {dt : Nat} {s : State} (level f : State → State) (h : s.boot.inReset = true) :
    supply dt s level f = .next (level (s.tick dt)) := by
  simp [supply, h]

theorem access_live {dt : Nat} {s : State} (f : State → State) (h : s.boot.inReset = false) (hp : (s.tick dt).portUp = true) :
    access dt s f = .next (f (s.tick dt).noErr) := by
  rw [access, event_live _ h, if_pos hp]

/-! ## What a report leaves alone -/

/-- The two states differ in the event queue and the log port's queues at most. -/
structure Logged (s t : State) : Prop where
  eq : t = { s with faults := t.faults, log := t.log }

namespace Logged

variable {s t u : State}

theorem refl (s : State) : Logged s s := ⟨rfl⟩
theorem trans (a : Logged s t) (b : Logged t u) : Logged s u := by
  obtain ⟨a⟩ := a
  rw [a] at b
  exact ⟨b.eq⟩
theorem ties (h : Logged s t) : t.ties = s.ties := by rw [h.eq]
theorem boot (h : Logged s t) : t.boot = s.boot := by rw [h.eq]
theorem mer (h : Logged s t) : t.mer = s.mer := by rw [h.eq]
theorem ctl (h : Logged s t) : t.ctl = s.ctl := by rw [h.eq]
theorem mbxs (h : Logged s t) : t.mbxs = s.mbxs := by rw [h.eq]
theorem helm (h : Logged s t) : t.helm = s.helm := by rw [h.eq]
theorem tiles (h : Logged s t) : t.tiles = s.tiles := by rw [h.eq]
theorem rails (h : Logged s t) : t.rails = s.rails := by rw [h.eq]
theorem power (h : Logged s t) : t.power = s.power := by rw [h.eq]
theorem ledger (h : Logged s t) : t.ledger = s.ledger := by rw [h.eq]
theorem keys (h : Logged s t) : t.keys = s.keys := by rw [h.eq]
theorem rck (h : Logged s t) : t.rck = s.rck := by rw [h.eq]
theorem sxt (h : Logged s t) : t.sxt = s.sxt := by rw [h.eq]
theorem trust (h : Logged s t) : t.trust = s.trust := by rw [h.eq]
theorem xings (h : Logged s t) : t.xings = s.xings := by rw [h.eq]
theorem cvy (h : Logged s t) : t.cvy = s.cvy := by rw [h.eq]
theorem tests (h : Logged s t) : t.tests = s.tests := by rw [h.eq]

end Logged

theorem logged_sendRecs (s : State) (ty src nrec : Nat) (t : Time) (b : List Flit) : Logged s (s.sendRecs ty src nrec t b) := by
  unfold State.sendRecs
  split <;> exact ⟨rfl⟩

theorem logged_logPacket (s : State) (ty src nrec : Nat) (t : Time) (b : List Flit) : Logged s (s.logPacket ty src nrec t b) := by
  unfold State.logPacket
  split
  · exact logged_sendRecs ..
  · exact ⟨rfl⟩

theorem logged_formEvents (s : State) : Logged s s.formEvents := by
  unfold State.formEvents
  split
  · exact ⟨rfl⟩
  · exact Logged.trans ⟨rfl⟩ (logged_sendRecs ..)

theorem logged_raiseC (s : State) (code : Nat) (idx : Option Nat) (arg : Nat) (cont : Option (Nat × Nat)) :
    Logged s (s.raiseC code idx arg cont) := by
  rw [raiseC_eq]
  dsimp only
  split
  · split
    · exact Logged.trans ⟨rfl⟩ (logged_formEvents _)
    · exact ⟨rfl⟩
  · exact ⟨rfl⟩

theorem logged_raise (s : State) (code idx arg : Nat) : Logged s (s.raise code idx arg) := logged_raiseC ..
theorem logged_raise0 (s : State) (code arg : Nat) : Logged s (s.raise0 code arg) := logged_raiseC ..

/-! ## What time leaves alone -/

theorem inReset_elapse (s : State) (dt : Nat) : (s.elapse dt).boot.inReset = s.boot.inReset := by
  unfold State.elapse
  split
  · rfl
  · exact (congrArg Boot.inReset (Still.each (fun _ _ => still_raiseC ..) _ _).boot).trans rfl

theorem inReset_followSend (s : State) : s.followSend.boot.inReset = s.boot.inReset := by
  unfold State.followSend
  split
  · rfl
  · dsimp only
    split
    · rfl
    · exact (congrArg Boot.inReset (still_cvyPump _).boot).trans rfl

theorem inReset_tick (s : State) (dt : Nat) : (s.tick dt).boot.inReset = s.boot.inReset := by
  unfold State.tick
  dsimp only
  split
  · rfl
  · rw [inReset_elapse, inReset_followSend]

end Sys2Proof.Proofs
end

section
/-! SUPPORT. Resets and supplies (02 R39, R41, R65, R70, R71, R73; 04 Table 4.7; 16 R364, R366, R373, R381; 17 R395). -/

namespace Sys2Proof.Proofs

open Sys2Proof.Machine Sys2Proof.Safety Sys2Proof.Laws

set_option Elab.async false

/-! ## Supplies -/

theorem vddbLow_first {u : State} (h : u.boot.vddbDip = false) :
    u.vddbLow = State.raise0 { u with boot := { u.boot with vddbDip := true, vddbCnt := satInc u.boot.vddbCnt } } 0x201 0 := by
  simp [State.vddbLow, h]

theorem vddbOk_low {u : State} (h : u.boot.vddbDip = true) :
    u.vddbOk = { u with boot := { u.boot with
      vddbDip := false, vddbBack := u.boot.uptime, signHold := u.boot.uptime + 16000000 } } := by
  simp [State.vddbOk, h, msMt]

theorem vanaFall_first {u : State} {k : BitVec 16} (h : k ∉ u.boot.vanaLow) :
    u.vanaFall k = State.raise { u with
      boot := { u.boot with vanaLow := k :: u.boot.vanaLow }
      sxt := { u.sxt with chans := u.sxt.chans.map (fun c => if c.pStart ≠ none ∨ c.pStop ≠ none then { c with fAna := true } else c) } }
      0x202 k.toNat 0 := by
  have hc : (fun c : Chan => if c.pStart.isSome || c.pStop.isSome then { c with fAna := true } else c) =
      fun c => if c.pStart ≠ none ∨ c.pStop ≠ none then { c with fAna := true } else c := by
    funext c
    simp [Option.isSome_iff_ne_none]
  simp only [State.vanaFall, List.contains_eq_mem, h, decide_false, Bool.false_eq_true, if_false, hc]

theorem vanaOk_low {u : State} {k : BitVec 16} (h : k ∈ u.boot.vanaLow) :
    u.vanaOk k = { u with boot := { u.boot with
      vanaLow := u.boot.vanaLow.filter (fun x => x != k), signHold := u.boot.uptime + 16000000 } } := by
  simp [State.vanaOk, h, msMt]

/-- Settles O25: each monitor's effect at a live block, and the levels alone at one held in reset. -/
theorem supplies : Obligations.Supplies := by
  rintro dt s u k rfl
  refine ⟨fun hr => ⟨fun h => ?_, fun h => ?_, fun h => ?_, fun h => ?_⟩, fun hr =>
    ⟨(supply_held _ _ hr : execVddbLow dt s = _), (supply_held _ _ hr : execVanaBackInRange dt k s = _)⟩⟩
  · exact (supply_live _ _ hr : execVddbLow dt s = _).trans (congrArg _ (vddbLow_first h))
  · exact (supply_live _ _ hr : execVddbBackInRange dt s = _).trans (congrArg _ (vddbOk_low h))
  · exact (supply_live _ _ hr : execVanaLow dt k s = _).trans (congrArg _ (vanaFall_first h))
  · exact (supply_live _ _ hr : execVanaBackInRange dt k s = _).trans (congrArg _ (vanaOk_low h))

/-! ## The block's resets -/

theorem tile_inBlockReset (s : State) (por : Bool) {j : Nat} (hj : j < 256) :
    ((s.inBlockReset por).tile j).st = (if s.present j then .disabled else .absent) ∧ ((s.inBlockReset por).tile j).code = 0 ∧
      ((s.inBlockReset por).tile j).sched = [] ∧ ((s.inBlockReset por).tile j).reactLim = BitVec.ofNat 5 (classLim (s.clsOf j)) := by
  have ht : (s.inBlockReset por).tile j = { ({} : Tile) with
      st := if s.clsOf j = 0 then .absent else .disabled
      learn := (s.trust.fusedCharts.getD (s.clsOf j - 1) {}).maxCode, reactLim := BitVec.ofNat 5 (classLim (s.clsOf j)) } := by
    have hz : State.reset.tiles[j]? = some {} := List.getElem?_replicate_of_lt hj
    simp only [State.inBlockReset, State.tile, State.clsOf, List.getD_eq_getElem?_getD, List.getElem?_mapIdx, hz, Option.map_some,
      Option.getD_some]
  rw [ht]
  refine ⟨?_, rfl, rfl, rfl⟩
  by_cases hc : s.clsOf j = 0 <;> simp [State.present, hc]

/-! ## The release and the ROM -/

theorem release_free {u : State} (hr : u.boot.inReset = true) (h : u.boot.thrPin = false) :
    u.release = { u with boot := { u.boot with inReset := false, uptime := 0 } } := by
  simp [State.release, hr, h]

theorem release_throttled {u : State} (hr : u.boot.inReset = true) (h : u.boot.thrPin = true) :
    u.release = { u with
      boot := { u.boot with inReset := false, uptime := 0, thrPin := true, thrLow := true, thrHold := false, thrCnt := satInc u.boot.thrCnt }
      power := { u.power with hostQNow := if u.boot.thrLow || u.boot.thrHold then u.power.hostQNow else u.power.hostQ } } := by
  simp [State.release, hr, h, State.thrConfirm, State.thrOn]

/-- Only the energy counters and the count of free values differ. -/
structure Seeded (s t : State) : Prop where
  eq : t = { s with ledger := t.ledger, fresh := t.fresh }

theorem seeded_seedLedger (s : State) : Seeded s s.seedLedger := by
  refine List.foldlRecOn (motive := fun t => Seeded s t) _ _ ⟨rfl⟩ (fun b hb a _ => ⟨?_⟩)
  obtain ⟨hb⟩ := hb
  rw [hb]
  rfl

/-- The block as the ROM starts, before its counters are seeded. -/
def romUp (s : State) : State :=
  State.enterRom { s with
    trust := { s.trust with devKey := if s.trust.lcCode = 4 then none else some (BitVec.ofNat 384 s.trust.deviceKey) }
    helm := { s.helm with romUp := true, reason := if s.trust.fuseFail then 10 else s.helm.reason } }

theorem romStart_reset {s : State} (h : s.helm.stage = .reset) :
    s.romStart = if (romUp s).seedLedger.sxt.ageChk ≠ 0 then
      State.raise0 { (romUp s).seedLedger with sxt := { (romUp s).seedLedger.sxt with age := 0, ageChk := 0 } } 0x108 0
    else (romUp s).seedLedger := if_neg (not_not.2 h)

/-- What the ROM's start leaves: the block as it comes up, but for the counters' seeds, the report, and an ageing adjustment that failed its
check. -/
theorem romStart_facts {s t : State} (h : s.helm.stage = .reset) (ht : t = s.romStart) :
    t.helm = (romUp s).helm ∧ t.trust = (romUp s).trust ∧ t.tiles = s.tiles ∧ t.rails = s.rails ∧ t.keys = s.keys ∧
      t.sxt = (if s.sxt.ageChk ≠ 0 then { s.sxt with age := 0, ageChk := 0 } else s.sxt) := by
  have hs := (seeded_seedLedger (romUp s)).eq
  have hx : (romUp s).seedLedger.sxt = s.sxt := by rw [hs]; rfl
  rw [romStart_reset h, hx] at ht
  subst ht
  split
  · have hl := logged_raise0 { (romUp s).seedLedger with sxt := { s.sxt with age := 0, ageChk := 0 } } 0x108 0
    rw [hl.helm, hl.trust, hl.tiles, hl.rails, hl.keys, hl.sxt, hs]
    exact ⟨rfl, rfl, rfl, rfl, rfl, rfl⟩
  · rw [hs]
    exact ⟨rfl, rfl, rfl, rfl, rfl, rfl⟩

/-- Settles O24: a reset's parts by their values, the release by its pin, the ROM's start by what it leaves. -/
theorem blockResets : Obligations.BlockResets := by
  rintro dt s u rfl
  refine ⟨fun por => ⟨(s.tick dt).inBlockReset por, by cases por <;> rfl, ?_⟩, fun hr hp => ?_, fun hr hp => ?_, fun hr hs => ?_⟩
  · refine ⟨rfl, rfl, rfl, rfl, rfl, rfl, rfl, rfl, rfl, rfl, rfl, rfl, rfl, rfl, rfl, rfl, rfl, rfl, rfl, rfl, rfl, rfl, rfl, rfl, rfl,
      rfl, rfl, rfl, rfl, rfl, fun j hj => tile_inBlockReset _ por hj⟩
  · exact congrArg Host.Outcome.next (release_free ((inReset_tick s dt).trans hr) hp)
  · exact congrArg Host.Outcome.next (release_throttled ((inReset_tick s dt).trans hr) hp)
  · obtain ⟨helm, trust, tiles, rails, keys, sxt⟩ := romStart_facts hs rfl
    refine ⟨(s.tick dt).romStart, (event_live _ hr : execRomStart dt s = _), ?_⟩
    rw [helm, trust, sxt]
    refine ⟨rfl, rfl, rfl, rfl, ?_, ?_, fun ha => by rw [if_pos ha], fun ha => by rw [if_neg (not_not.2 ha)], tiles, rails, keys⟩
    · simp only [romUp, State.enterRom]
      split <;> simp [*]
    · simp only [romUp, State.enterRom]
      split <;> simp [*]

end Sys2Proof.Proofs
end

section
/-! SUPPORT. Fields of a packed word, and the control port's window and interrupt (02 R44, R45; 19 R417, R419, Table 19.3). -/

namespace Sys2Proof.Proofs

open Sys2Proof.Machine Sys2Proof.Safety Sys2Proof.Laws

set_option Elab.async false

/-! ## Packed words -/

/-- A bit of a packed word is that bit of one of its fields. -/
theorem testBit_pack (l : List (Nat × Nat × Nat)) (i : Nat) :
    (pack l).testBit i = l.any (fun x => decide (x.1 ≤ i ∧ i < x.1 + x.2.1) && x.2.2.testBit (i - x.1)) := by
  induction l with
  | nil => simp [pack]
  | cons x l ih =>
    obtain ⟨lo, w, v⟩ := x
    have hd : (decide (lo ≤ i) && (decide (i - lo < w) && v.testBit (i - lo))) =
        (decide (lo ≤ i ∧ i < lo + w) && v.testBit (i - lo)) := by
      by_cases hl : lo ≤ i
      · simp [hl, show i - lo < w ↔ i < lo + w by omega]
      · simp [hl]
    simp [pack, Nat.testBit_or, Nat.testBit_shiftLeft, Nat.testBit_mod_two_pow, ih, hd]

theorem bit_w32 (n i : Nat) : bit (w32 n) i = (decide (i < 32) && n.testBit i) := by
  simp [bit, w32, BitVec.getLsbD_ofNat]

theorem testBit_b2n (b : Bool) (i : Nat) : (b2n b).testBit i = (b && decide (i = 0)) := by
  cases b
  · simp [b2n]
  · simpa [b2n, eq_comm] using Nat.testBit_two_pow (n := 0) (m := i)

/-! ## The interrupt -/

/-- CTL_INT by its bits. -/
theorem bit_ctlInt (s : State) (i : Nat) :
    bit s.ctlInt i = if i < 8 then bit s.ctl.done i else if i = 8 then s.ctl.misuse else if i = 9 then s.ctl.xstale
      else if i = 10 then s.evtPend else if i = 11 then (if s.xingOk 6 then s.boot.chipStop else s.ctl.snapStop) else false := by
  have hi : i < 12 ∨ 12 ≤ i := Nat.lt_or_ge i 12
  rw [State.ctlInt, bit_w32, testBit_pack]
  rcases hi with hi | hi
  · interval_cases i <;> simp [testBit_b2n, bit, BitVec.testBit_toNat, -Nat.testBit_zero]
  · have h8 : ¬ i < 8 := by omega
    simp [testBit_b2n, show ¬ i < 9 by omega, show ¬ i < 10 by omega, show ¬ i < 11 by omega, show ¬ i < 12 by omega, h8,
      show i ≠ 8 by omega, show i ≠ 9 by omega, show i ≠ 10 by omega, show i ≠ 11 by omega]

theorem ctlIrq_iff (s : State) : s.ctlIrq = true ↔ ∃ i, i < 12 ∧ bit s.ctlInt i = true ∧ bit s.ctl.en i = true := by
  have hb : ∀ i, (s.ctlInt.toNat % 4096 &&& s.ctl.en.toNat).testBit i = (decide (i < 12) && bit s.ctlInt i && bit s.ctl.en i) := by
    intro i
    rw [Nat.testBit_and, show 4096 = 2 ^ 12 from rfl, Nat.testBit_mod_two_pow, BitVec.testBit_toNat, BitVec.testBit_toNat]
    rfl
  simp only [State.ctlIrq, decide_eq_true_eq]
  constructor
  · intro h
    obtain ⟨i, hi⟩ := Nat.exists_testBit_of_ne_zero h
    exact ⟨i, by simpa [hb, and_assoc] using hi⟩
  · rintro ⟨i, hi, hc, he⟩ h
    have hn := hb i
    simp [h, hi, hc, he] at hn

/-! ## Reads -/

theorem regRead_core {s : State} {a : Nat} : (s.regRead a).2 = true ↔ throughCore a = true ∧ s.coreStopped = true := by
  unfold State.regRead
  cases throughCore a <;> cases s.coreStopped <;> cases s.xingOk 4 <;> simp

theorem regRead_err_zero {s : State} {a : Nat} (h : (s.regRead a).2 = true) : (s.regRead a).1 = 0 := by
  obtain ⟨ha, hs⟩ := regRead_core.1 h
  simp [State.regRead, ha, hs]

/-- Outside the registers and both mailbox areas a read gives 0. -/
theorem regRead_unnamed {s : State} {a : Nat}
    (ha : a ∉ [0x0000, 0x0004, 0x0100, 0x0104, 0x0108, 0x010C, 0x0110, 0x0200, 0x0204, 0x0208, 0x0C00, 0x0C04, 0x0C08, 0x0D00, 0x0D04,
      0x0D08, 0x0E00, 0x0E04, 0x0E08, 0x0F00]) (hq : ¬ (0x0400 ≤ a ∧ a < 0x0600)) (hp : ¬ (0x0800 ≤ a ∧ a < 0x0A00)) :
    s.regRead a = (0, false) := by
  simp only [List.mem_cons, List.not_mem_nil, or_false, not_or] at ha
  simp [State.regRead, throughCore, State.regValue, ha, hq, hp]

/-! ## Writes -/

/-- A write that names no register that takes one changes nothing. -/
theorem regWrite_unnamed {s : State} {a : Nat} {w : Word}
    (ha : a ∉ [0x0100, 0x0104, 0x010C, 0x0200, 0x0C00, 0x0C04, 0x0C08, 0x0E00, 0x0E04, 0x0E08, 0x0F00])
    (hq : ¬ (0x0400 ≤ a ∧ a < 0x0600)) : s.regWrite a w = s := by
  simp only [List.mem_cons, List.not_mem_nil, or_false, not_or] at ha
  simp [State.regWrite, throughCore, ha, hq]

theorem regWrite_stopped {s : State} {a : Nat} {w : Word} (hp : s.portUp = true) (ha : throughCore a = true) (hs : s.coreStopped = true) :
    s.regWrite a w = s.cross4Fail := by
  have hm : a = 0x010C ∨ a = 0x0C00 ∨ a = 0x0C04 ∨ a = 0x0C08 ∨ a = 0x0E04 ∨ a = 0x0E08 ∨ a = 0x0F00 := by simpa [throughCore] using ha
  rcases hm with rfl | rfl | rfl | rfl | rfl | rfl | rfl
  · simp [State.regWrite, State.writeHelm, hp, hs]
  all_goals simp [State.regWrite, throughCore, hs]

/-- The wait at crossing 4 shows in the crossing's counters and the report alone. -/
theorem cross4Fail_ctl (s : State) : s.cross4Fail.ctl = { s.ctl with rdata := 0, err := true } ∧ s.cross4Fail.helm = s.helm ∧
    s.cross4Fail.mbxs = s.mbxs ∧ s.cross4Fail.tiles = s.tiles := by
  have hw : Logged (s.modXing 4 0 (fun x => { x with tos := satInc x.tos, toSeen := true })) (s.waitExpired 4 0) := by
    unfold State.waitExpired
    dsimp only
    split
    · exact .refl _
    · exact logged_raise ..
  refine ⟨?_, hw.helm, hw.mbxs, hw.tiles⟩
  rw [State.cross4Fail, hw.ctl]
  rfl

/-- Settles O50: the interrupt by the bits of its causes, and the window by the addresses that it names. -/
theorem registerWindow : Obligations.RegisterWindow := by
  refine ⟨fun s => ⟨ctlIrq_iff s, fun i hi => ?_, ?_, ?_, ?_, fun h => ?_, fun i hi => ?_⟩,
    fun s a => ⟨regRead_unnamed, regRead_core, regRead_err_zero⟩, ?_⟩
  · rw [bit_ctlInt, if_pos hi]
  · simp [bit_ctlInt]
  · simp [bit_ctlInt]
  · simp [bit_ctlInt]
  · simp [bit_ctlInt, h]
  · simp [bit_ctlInt, show ¬ i < 8 by omega, show i ≠ 8 by omega, show i ≠ 9 by omega, show i ≠ 10 by omega, show i ≠ 11 by omega]
  · rintro dt s u v a w rfl hr hp rfl
    have he : exec (.registerWrite dt a w) s = .next ((s.tick dt).noErr.regWrite (4 * a.toNat) w) :=
      (access_live _ hr hp : execRegisterWrite dt a w s = _)
    refine ⟨fun ha hq => ?_, fun ha hs => ⟨_, he, ?_⟩⟩
    · rw [he, regWrite_unnamed ha hq]
      rfl
    · obtain ⟨ctl, helm, mbxs, tiles⟩ := cross4Fail_ctl (s.tick dt).noErr
      rw [regWrite_stopped (s := (s.tick dt).noErr) hp ha hs, ctl, helm, mbxs, tiles]
      exact ⟨rfl, rfl, rfl, rfl, rfl, rfl, rfl⟩

end Sys2Proof.Proofs
end

section
/-! SUPPORT. The port resets, their releases and TRST (02 R39, R42; 12 R310, Table 12.4; 13 R326; 19 R417). -/

namespace Sys2Proof.Proofs

open Sys2Proof.Machine Sys2Proof.Safety Sys2Proof.Laws

set_option Elab.async false

/-! ## What a transfer given up leaves alone -/

/-- The two states differ in the mailboxes and the Reckoner at most. -/
structure Answered (s t : State) : Prop where
  eq : t = { s with mbxs := t.mbxs, rck := t.rck }

namespace Answered

variable {s t u : State}

theorem refl (s : State) : Answered s s := ⟨rfl⟩
theorem trans (a : Answered s t) (b : Answered t u) : Answered s u := by
  obtain ⟨a⟩ := a
  rw [a] at b
  exact ⟨b.eq⟩
theorem ctl (h : Answered s t) : t.ctl = s.ctl := by rw [h.eq]
theorem helm (h : Answered s t) : t.helm = s.helm := by rw [h.eq]
theorem tiles (h : Answered s t) : t.tiles = s.tiles := by rw [h.eq]
theorem keys (h : Answered s t) : t.keys = s.keys := by rw [h.eq]
theorem log (h : Answered s t) : t.log = s.log := by rw [h.eq]
theorem xings (h : Answered s t) : t.xings = s.xings := by rw [h.eq]

end Answered

theorem answered_settle (s : State) (n : BitVec 3) (r : Resp) : Answered s (s.settle n r) := by
  unfold State.settle
  split <;> exact ⟨rfl⟩

theorem answered_settleO (s : State) (o : Option (BitVec 3)) (r : Resp) : Answered s (s.settleO o r) := by
  cases o
  · exact .refl s
  · exact answered_settle ..

/-- What a refusal and the body leave, a command leaves. -/
theorem handle_fst {c : Cmd} {b : Bool} {s : State} {q : Req} {P : State → Prop} (h0 : P s) (h1 : P (c.run s q).1) :
    P (c.handle b s q).1 := by
  unfold Cmd.handle
  split
  · exact h0
  · split
    · exact h0
    · exact h1

theorem answered_cmdRckMap (s : State) (q : Req) : Answered s (cmdRckMap.run s q).1 := by
  unfold cmdRckMap
  dsimp only
  split
  · exact ⟨rfl⟩
  · unfold orElse
    split <;> exact ⟨rfl⟩

theorem answered_runMaps (s : State) : Answered s s.runMaps := by
  refine List.foldlRecOn (motive := fun t => Answered s t) _ _ ⟨rfl⟩ (fun v hv n _ => hv.trans ?_)
  have h : Answered v (cmdRckMap.handle false v (reqOfWords n (v.mbx n).cmd)).1 := handle_fst (.refl v) (answered_cmdRckMap ..)
  split
  · exact .refl v
  · split
    · rename_i hx
      rw [hx] at h
      exact h.trans (answered_settle ..)
    · rename_i hx
      rw [hx] at h
      exact h

theorem answered_failIn (s : State) (x : Inbound) (r : Resp) : Answered s (s.failIn x r) := by
  unfold State.failIn
  split
  · exact (Answered.mk rfl).trans ((answered_settleO ..).trans (answered_runMaps _))
  · exact answered_settle ..

/-- A transfer given up shows in the mailboxes, the Reckoner, the Helm's reason and the transfers alone. -/
theorem abandonIn_facts (s : State) : s.abandonIn.ctl = s.ctl ∧ s.abandonIn.xings = s.xings ∧ s.abandonIn.log.credits = s.log.credits ∧
    s.abandonIn.tiles = s.tiles ∧ s.abandonIn.keys = s.keys := by
  unfold State.abandonIn
  split
  · exact ⟨rfl, rfl, rfl, rfl, rfl⟩
  · rename_i x _ _
    split
    · exact ⟨rfl, rfl, rfl, rfl, rfl⟩
    · have hf := fun v : State => answered_failIn v x (notPermR 0xA { item := 1, idx := 1, extra := x.got })
      simp only [State.closeIn, (hf _).ctl, (hf _).xings, (hf _).log, (hf _).tiles, (hf _).keys]
      split <;> exact ⟨rfl, rfl, rfl, rfl, rfl⟩

/-! ## Assertions -/

theorem held_settle (s : State) (n m : BitVec 3) (r : Resp) : ((s.settle n r).mbx m).held = (s.mbx m).held := by
  unfold State.settle
  split
  · simp only [State.mbx, State.modMbx, List.getD_eq_getElem?_getD, List.getElem?_modify]
    split
    · cases s.mbxs[m.toNat]? <;> rfl
    · cases s.mbxs[m.toNat]? <;> rfl
  · rfl

/-- The end of a loop-back leaves of the port its own registers but for the loop's, and what the Helm holds. -/
theorem loopDone_facts (s : State) (x : OpResult) : (s.loopDone x).ctl.busy = s.ctl.busy ∧ (s.loopDone x).xings = s.xings ∧
    (s.loopDone x).helm = s.helm ∧ (s.loopDone x).tiles = s.tiles ∧ ∀ m, ((s.loopDone x).mbx m).held = (s.mbx m).held := by
  unfold State.loopDone
  split
  · exact ⟨rfl, rfl, rfl, rfl, fun _ => rfl⟩
  · dsimp only
    rw [(answered_settle ..).ctl, (answered_settle ..).xings, (answered_settle ..).helm, (answered_settle ..).tiles]
    simp only [held_settle]
    split <;> exact ⟨rfl, rfl, rfl, rfl, fun _ => rfl⟩

/-- The mailboxes of a control port in reset. -/
theorem mbx_ctlSide (l : List Mbx) (n : Nat) (m : Mbx)
    (h : m = (l.map (fun m => { m with reqArea := List.replicate 16 0, resp := List.replicate 16 0, st := .idle })).getD n {}) :
    m.st = .idle ∧ m.resp = List.replicate 16 0 ∧ m.held = (l.getD n {}).held := by
  subst h
  simp only [List.getD_eq_getElem?_getD, List.getElem?_map]
  cases l[n]? <;> exact ⟨rfl, rfl, rfl⟩

theorem ctlReset_facts (s : State) : s.ctlReset.ctl.rst = true ∧ s.ctlReset.ctl.en = 0 ∧ s.ctlReset.ctl.done = 0 ∧
    s.ctlReset.ctl.sync = false ∧ s.ctlReset.ctl.busy = s.ctl.busy ∧ s.ctlReset.xings.eCtl = s.xings.eCtl + 1 ∧ s.ctlReset.helm = s.helm ∧
    s.ctlReset.tiles = s.tiles ∧
    ∀ n, (s.ctlReset.mbx n).st = .idle ∧ (s.ctlReset.mbx n).resp = List.replicate 16 0 ∧ (s.ctlReset.mbx n).held = (s.mbx n).held := by
  obtain ⟨v, busy, xings, helm, tiles, held, hv⟩ : ∃ v : State, v.ctl.busy = s.ctl.busy ∧ v.xings = s.xings ∧ v.helm = s.helm ∧
      v.tiles = s.tiles ∧ (∀ m, (v.mbx m).held = (s.mbx m).held) ∧ s.ctlReset = { v with
        xings := { v.xings with eCtl := v.xings.eCtl + 1 }
        mbxs := v.mbxs.map (fun m => { m with reqArea := List.replicate 16 0, resp := List.replicate 16 0, st := .idle })
        ctl := { v.ctl with
          rst := true, done := 0, misuse := false, xstale := false, en := 0, sync := false, merHi := 0, merSt := 0, echo := none, xing := 1
          rdata := 0, err := false, snap4 := 0 } } := by
    unfold State.ctlReset
    split
    · split
      · obtain ⟨busy, xings, helm, tiles, held⟩ := loopDone_facts s (.loop 0 0)
        exact ⟨_, busy, xings, helm, tiles, held, rfl⟩
      · exact ⟨s, rfl, rfl, rfl, rfl, fun _ => rfl, rfl⟩
    · exact ⟨s, rfl, rfl, rfl, rfl, fun _ => rfl, rfl⟩
  rw [hv]
  refine ⟨rfl, rfl, rfl, rfl, busy, by rw [← xings], helm, tiles, fun n => ?_⟩
  rw [← held n]
  exact mbx_ctlSide v.mbxs n.toNat _ rfl

theorem logReset_facts (s : State) : s.logReset.ctl.logRst = true ∧ s.logReset.xings.eLog = s.xings.eLog + 1 ∧
    s.logReset.log.credits = 0 ∧ s.logReset.tiles = s.tiles ∧ s.logReset.keys = s.keys := by
  unfold State.logReset
  extract_lets _ _ _ v w
  have hw : w.ctl = v.ctl ∧ w.xings = v.xings ∧ w.log.credits = v.log.credits ∧ w.tiles = v.tiles ∧ w.keys = v.keys := by
    unfold w
    split
    · split <;> exact ⟨rfl, rfl, rfl, rfl, rfl⟩
    · exact ⟨rfl, rfl, rfl, rfl, rfl⟩
  obtain ⟨ctl, xings, credits, tiles, keys⟩ := abandonIn_facts w
  obtain ⟨ctl', xings', credits', tiles', keys'⟩ := hw
  rw [ctl, xings, credits, tiles, keys, ctl', xings', credits', tiles', keys']
  exact ⟨rfl, rfl, rfl, rfl, rfl⟩

end Sys2Proof.Proofs
end

section
/-! SUPPORT. The releases of the port resets, with the clocks that they wait for (02 R42; 12 R310, R313). -/

namespace Sys2Proof.Proofs

open Sys2Proof.Machine Sys2Proof.Safety Sys2Proof.Laws

set_option Elab.async false

/-! ## The crossings of a group -/

theorem freshGroup_main (s : State) (lo hi : Nat) (e : BitVec 8) {x : Nat} (hl : lo ≤ x) (hh : x ≤ hi) (hx : x < s.xings.main.length) :
    ((s.freshGroup lo hi e).xings.main.getD x {}).stale = false ∧ ((s.freshGroup lo hi e).xings.main.getD x {}).own = e ∧
      ((s.freshGroup lo hi e).xings.main.getD x {}).other = e := by
  have h : (s.freshGroup lo hi e).xings.main.getD x {} = (s.xings.main.getD x {}).fresh e := by
    simp [State.freshGroup, hx, hl, hh]
  rw [h]
  exact ⟨rfl, rfl, rfl⟩

/-- The notices that leave show in the convoy port alone. -/
theorem cvyPump_eq (s : State) : ∃ c, s.cvyPump = { s with cvy := c } := by
  unfold State.cvyPump
  dsimp only
  split
  · exact ⟨s.cvy, rfl⟩
  · exact ⟨_, rfl⟩

/-! ## The release -/

theorem portRelease_up {s : State} {p : Port} (h : s.portHeld p = false) : s.portRelease p = s := by
  simp [State.portRelease, h]

theorem portRelease_waits {s : State} {p : Port} (h : s.portHeld p = true) (hk : bit s.boot.clkRun (portIdx p) = false) :
    s.portRelease p = { s with ctl := { s.ctl with rel := setFld s.ctl.rel (portIdx p) 1 1 } } := by
  simp [State.portRelease, h, hk]

theorem portRelease_runs {s : State} {p : Port} (h : s.portHeld p = true) (hk : bit s.boot.clkRun (portIdx p) = true) :
    s.portRelease p = State.portUpAgain { s with ctl := { s.ctl with rel := setFld s.ctl.rel (portIdx p) 1 0 } } p := by
  simp [State.portRelease, h, hk]

theorem portUpAgain_held (s : State) (p : Port) : (s.portUpAgain p).portHeld p = false := by
  cases p with
  | ctl => rfl
  | log => rfl
  | man => rfl
  | cvy =>
    obtain ⟨c, hc⟩ := cvyPump_eq { s.freshGroup 12 13 s.xings.eCvy with ctl := { s.ctl with cvyRst := false } }
    exact (congrArg (fun v : State => v.ctl.cvyRst) hc).trans rfl

theorem portUpAgain_keeps (s : State) (p : Port) : (s.portUpAgain p).tiles = s.tiles ∧ (s.portUpAgain p).helm = s.helm := by
  cases p with
  | ctl => exact ⟨rfl, rfl⟩
  | log => exact ⟨rfl, rfl⟩
  | man => exact ⟨rfl, rfl⟩
  | cvy =>
    obtain ⟨c, hc⟩ := cvyPump_eq { s.freshGroup 12 13 s.xings.eCvy with ctl := { s.ctl with cvyRst := false } }
    exact ⟨(congrArg State.tiles hc).trans rfl, (congrArg State.helm hc).trans rfl⟩

/-- The crossings of a port. -/
def portXings : Port → Nat × Nat
  | .ctl => (0, 6)
  | .log => (7, 9)
  | .man => (10, 11)
  | .cvy => (12, 13)

/-- The epoch of a port's group. -/
def portEpoch (s : State) : Port → BitVec 8
  | .ctl => s.xings.eCtl
  | .log => s.xings.eLog
  | .man => s.xings.eMan
  | .cvy => s.xings.eCvy

theorem portUpAgain_xings (s : State) (p : Port) :
    (s.portUpAgain p).xings = (s.freshGroup (portXings p).1 (portXings p).2 (portEpoch s p)).xings := by
  cases p with
  | ctl => rfl
  | log => rfl
  | man => rfl
  | cvy =>
    obtain ⟨c, hc⟩ := cvyPump_eq { s.freshGroup 12 13 s.xings.eCvy with ctl := { s.ctl with cvyRst := false } }
    exact (congrArg State.xings hc).trans rfl

/-- A port held in reset whose clock runs comes up, and both sides of its crossings with it. -/
theorem portRelease_fresh {s : State} {p : Port} (h : s.portHeld p = true) (hk : bit s.boot.clkRun (portIdx p) = true) :
    (s.portRelease p).portHeld p = false ∧ ∀ x, (portXings p).1 ≤ x → x ≤ (portXings p).2 → x < s.xings.main.length →
      ((s.portRelease p).xings.main.getD x {}).stale = false ∧ ((s.portRelease p).xings.main.getD x {}).own = portEpoch s p ∧
        ((s.portRelease p).xings.main.getD x {}).other = portEpoch s p := by
  rw [portRelease_runs h hk]
  refine ⟨portUpAgain_held .., fun x hl hh hx => ?_⟩
  rw [portUpAgain_xings]
  exact freshGroup_main _ _ _ _ hl hh hx

theorem portRelease_keeps (s : State) (p : Port) : (s.portRelease p).tiles = s.tiles ∧ (s.portRelease p).helm = s.helm := by
  unfold State.portRelease
  split
  · exact ⟨rfl, rfl⟩
  · split
    · exact portUpAgain_keeps ..
    · exact ⟨rfl, rfl⟩

/-! ## The clock's return -/

/-- The levels of the ports' resets are the same. -/
def SamePorts (s t : State) : Prop := ∀ p, t.portHeld p = s.portHeld p

theorem samePorts_of_ctl {s t : State} (h : t.ctl = s.ctl) : SamePorts s t := by
  intro p
  cases p <;> simp [State.portHeld, h]

theorem samePorts_publish (s : State) (n : BitVec 3) : SamePorts s (s.publish n) := by
  unfold State.publish
  dsimp only
  split
  · exact samePorts_of_ctl rfl
  · split
    · intro p
      cases p <;> rfl
    · exact samePorts_of_ctl rfl

theorem samePorts_publishHeld (s : State) : SamePorts s s.publishHeld :=
  List.foldlRecOn (motive := fun t => SamePorts s t) _ _ (fun _ => rfl) (fun _ hb _ _ p => (samePorts_publish _ _ p).trans (hb p))

/-- The clock of a port. -/
def portDom : Port → Dom
  | .ctl => .ctl
  | .log => .log
  | .man => .man
  | .cvy => .cvy

theorem eq_portDom {p : Port} {d : Dom} (h : domIdx d = portIdx p) : d = portDom p := by
  revert h
  cases p <;> cases d <;> decide

theorem releaseHeld_frees {s : State} {p : Port} {d : Dom} (h : s.portHeld p = true) (hd : domIdx d = portIdx p)
    (hk : bit s.boot.clkRun (portIdx p) = true) (hr : bit s.ctl.rel (portIdx p) = true) : (s.releaseHeld d).portHeld p = false := by
  have he : s.releaseHeld (portDom p) = s.portRelease p := by
    cases p <;> exact if_pos hr
  rw [eq_portDom hd, he]
  exact (portRelease_fresh h hk).1

theorem bit_setFld_one (x : BitVec 8) (p : Port) : bit (setFld x (portIdx p) 1 1) (portIdx p) = true := by
  cases p <;> simp [bit, setFld, portIdx]

/-- The clock of a port whose reset has ended meanwhile runs again: the port comes up. -/
theorem clkBack_frees {s : State} {p : Port} {d : Dom} (h : s.portHeld p = true) (hd : domIdx d = portIdx p)
    (hr : bit s.ctl.rel (portIdx p) = true) : (s.clkBack d).portHeld p = false := by
  unfold State.clkBack
  extract_lets k stopped _ _ u v w x
  have hu : u.portHeld p = true := by rw [← h]; cases p <;> rfl
  have hk : bit u.boot.clkRun (portIdx p) = true := by
    show bit (setFld _ (domIdx d) 1 1) _ = true
    rw [hd]
    exact bit_setFld_one ..
  have hv : v.portHeld p = false := releaseHeld_frees hu hd hk hr
  have hw : SamePorts v w := by
    unfold w
    split
    · obtain ⟨c, hc⟩ := cvyPump_eq v
      exact samePorts_of_ctl (by rw [hc])
    · exact fun _ => rfl
  have hx : SamePorts w x := by
    unfold x
    split
    · exact samePorts_publishHeld w
    · exact fun _ => rfl
  have hp : x.portHeld p = false := by rw [hx, hw, hv]
  split
  · rw [samePorts_of_ctl (logged_raise ..).ctl, hp]
  · exact hp

/-! ## TRST -/

theorem trst_facts (s : State) : s.trst.tests.ir = 0x01 ∧ s.trst.tests.dr = 0 ∧ s.trst.tests.lbkCfg = 0 ∧ s.trst.tests.lbkRes = 0 ∧
    s.trst.xings.eTest = s.xings.eTest + 1 ∧ (22 < s.xings.main.length → (s.trst.xings.main.getD 22 {}).own = s.xings.eTest + 1 ∧
      (s.trst.xings.main.getD 22 {}).other = s.xings.eTest + 1 ∧ (s.trst.xings.main.getD 22 {}).stale = false) ∧
    s.trst.tiles = s.tiles ∧ s.trst.helm = s.helm ∧ s.trst.tests.list = s.tests.list := by
  refine ⟨rfl, rfl, rfl, rfl, rfl, fun hx => ?_, rfl, rfl, rfl⟩
  obtain ⟨stale, own, other⟩ := freshGroup_main { s with xings := { s.xings with eTest := s.xings.eTest + 1 } } 22 22 (s.xings.eTest + 1)
    (Nat.le_refl 22) (Nat.le_refl 22) hx
  exact ⟨own, other, stale⟩

/-! ## The ports' rows -/

theorem exec_portReset {dt : Nat} {s : State} (p : Port) (h : s.boot.inReset = false) :
    exec (.portResetAssert dt p) s = .next ((s.tick dt).portReset p) := by
  show execPortResetAssert dt p s = _
  simp [execPortResetAssert, h]

theorem exec_portRelease {dt : Nat} {s : State} (p : Port) (h : s.boot.inReset = false) :
    exec (.portResetRelease dt p) s = .next ((s.tick dt).portRelease p) := by
  show execPortResetRelease dt p s = _
  simp [execPortResetRelease, h]

theorem exec_holdPort {dt : Nat} {s : State} (p : Port) (b : Bool) (h : s.boot.inReset = true) :
    exec (if b then .portResetAssert dt p else .portResetRelease dt p) s = .next ((s.tick dt).holdPort p b) := by
  cases b
  · show execPortResetRelease dt p s = _
    simp [execPortResetRelease, h]
  · show execPortResetAssert dt p s = _
    simp [execPortResetAssert, h]

/-- Settles O26: each assertion by its port, each release by whether the port's clock runs, and TRST. -/
theorem portResets : Obligations.PortResets := by
  rintro dt s u rfl
  refine ⟨fun hr => ⟨exec_portReset .man hr, exec_portReset .cvy hr, ⟨_, exec_portReset .ctl hr, ?_⟩, ⟨_, exec_portReset .log hr, ?_⟩,
    fun p hp => ?_, fun p hp hk => ⟨?_, fun hl d hd => ⟨_, (event_live _ hr : execClkBack dt d s = _), clkBack_frees hp hd hl⟩⟩,
    fun p hk => ⟨_, exec_portRelease p hr, ?_⟩⟩, fun hr b x hx => ?_, ⟨_, rfl, trst_facts (s.tick dt)⟩⟩
  · exact ctlReset_facts { s.tick dt with ctl := { (s.tick dt).ctl with rel := setFld (s.tick dt).ctl.rel 0 1 0 } }
  · exact logReset_facts { s.tick dt with ctl := { (s.tick dt).ctl with rel := setFld (s.tick dt).ctl.rel 1 1 0 } }
  · rw [exec_portRelease p hr, portRelease_up hp]
  · rw [exec_portRelease p hr, portRelease_waits hp hk]
  · refine ⟨?_, ?_, ?_, ?_, (portRelease_keeps ..).1, (portRelease_keeps ..).2⟩
    · rintro rfl hp
      obtain ⟨held, fresh⟩ := portRelease_fresh (s := s.tick dt) (p := .ctl) hp hk
      exact ⟨held, by rw [portRelease_runs (s := s.tick dt) (p := .ctl) hp hk]; rfl, fun x hx => fresh x (Nat.zero_le x) (Nat.le_of_lt_succ hx)⟩
    · rintro rfl hp
      exact portRelease_fresh (s := s.tick dt) (p := .log) hp hk
    · rintro rfl hp
      exact portRelease_fresh (s := s.tick dt) (p := .man) hp hk
    · rintro rfl hp
      exact portRelease_fresh (s := s.tick dt) (p := .cvy) hp hk
  · have hh : ∀ p, exec (x p) s = .next ((s.tick dt).holdPort p b) := fun p => by
      rw [hx, ← exec_holdPort p b hr]
      cases b <;> rfl
    exact ⟨hh .ctl, hh .log, hh .man, hh .cvy⟩

end Sys2Proof.Proofs
end

section
/-! SUPPORT. The coolant monitor (02 R62 to R64; 09 R258 to R262, Tables 9.9, 9.10, 9.12). -/

namespace Sys2Proof.Proofs

open Sys2Proof.Machine Sys2Proof.Safety Sys2Proof.Laws

set_option Elab.async false

/-! ## What the halt leaves -/

theorem calm_stoppingAborts (s : State) :
    Calm s ((if s.cvy.st = .joining then s.leaveSend else s).each [0, 1, 2, 3] (fun s k => s.abortKs k 12 none)) :=
  .after (.each (fun v k => calm_abortKs v k 12 none) _ _) (.ite (fun _ => calm_leaveSend s) (fun _ => .refl s))

theorem calm_dropAll (s : State) (l : List Nat) : Calm s (s.each l (fun s i => s.dropSched i haltR)) :=
  .each (fun v i => calm_dropSched v i haltR) s l

theorem stopping_leaves (s : State) (cause : Nat) : (s.stopping cause).tiles.length = s.tiles.length ∧
    (s.stopping cause).ties = s.ties ∧ (s.boot.cool = .stopped → (s.stopping cause).boot.cool = .stopped) := by
  have a := calm_stoppingAborts s
  unfold State.stopping
  generalize (if s.cvy.st = .joining then s.leaveSend else s).each [0, 1, 2, 3] (fun s k => s.abortKs k 12 none) = v at a ⊢
  exact ⟨a.len, a.ties, a.cool⟩

theorem haltTiles_leaves (s : State) : s.haltTiles.tiles.length = s.tiles.length ∧ s.haltTiles.ties = s.ties ∧
    (s.boot.cool = .stopped → s.haltTiles.boot.cool = .stopped) := by
  have d := calm_dropAll s (allTiles.filter s.present)
  unfold State.haltTiles
  generalize s.each (allTiles.filter s.present) (fun s i => s.dropSched i haltR) = v at d ⊢
  exact ⟨(List.length_mapIdx ..).trans d.len, d.ties, d.cool⟩

/-- The halt leaves as many tiles, the tie-offs, and a coolant monitor in STOPPED. -/
theorem halt_leaves (s : State) (cause : Nat) : (s.halt cause).tiles.length = s.tiles.length ∧ (s.halt cause).ties = s.ties ∧
    (s.boot.cool = .stopped → (s.halt cause).boot.cool = .stopped) := by
  obtain ⟨len, ties, cool⟩ := stopping_leaves s cause
  obtain ⟨len', ties', cool'⟩ := haltTiles_leaves (s.stopping cause)
  have e := still_halt s cause
  exact ⟨by rw [e.tiles, len', len], by rw [e.ties, ties', ties], fun h => by rw [e.boot]; exact cool' (cool h)⟩

/-- After the tiles' halt the clock of every present tile stands. -/
theorem haltTiles_runCode (s : State) {i : Nat} (hi : i < s.haltTiles.tiles.length) (hp : s.haltTiles.present i = true) :
    (s.haltTiles.tile i).runCode = 0 := by
  unfold State.haltTiles at hi hp ⊢
  generalize s.each (allTiles.filter s.present) (fun s i => s.dropSched i haltR) = v at hi hp ⊢
  have hp' : v.present i = true := hp
  simp only [List.length_mapIdx] at hi
  rw [tile_mapIdx, if_pos hi, if_pos hp']
  rfl

theorem halt_runCode (s : State) (cause : Nat) {i : Nat} (hi : i < (s.halt cause).tiles.length) (hp : (s.halt cause).present i = true) :
    ((s.halt cause).tile i).runCode = 0 := by
  have e := still_halt s cause
  have h := haltTiles_runCode (s.stopping cause) (i := i)
  generalize s.halt cause = t at e hi hp ⊢
  generalize (s.stopping cause).haltTiles = v at e h
  simp only [State.present, State.clsOf, State.tile, e.tiles, e.ties] at hi hp h ⊢
  exact h hi hp

theorem coolStop_running {s : State} (cause : Nat) (h : s.boot.cool ≠ .stopped) :
    s.coolStop cause = State.raise0 (if s.boot.chipStop then { s with boot := { s.boot with cool := .stopped } }
      else { s with boot := { s.boot with cool := .stopped } }.halt cause) 0x70C cause := if_neg h

/-- STOPPED is entered from any other state, and the chip is stopped. -/
theorem coolStop_stops {s : State} (cause : Nat) (h : s.boot.cool ≠ .stopped) :
    (s.coolStop cause).boot.cool = .stopped ∧ (s.coolStop cause).boot.chipStop = true := by
  rw [coolStop_running cause h, (logged_raise0 ..).boot]
  split
  · exact ⟨rfl, ‹_›⟩
  · exact ⟨(halt_leaves _ _).2.2 rfl, (halt_halts _ _).1⟩

/-- The stop of a block that ran halts every present tile. -/
theorem coolStop_halts {s : State} (cause : Nat) (h : s.boot.cool ≠ .stopped) (hc : s.boot.chipStop = false) {i : Nat}
    (hi : i < s.tiles.length) (hp : s.present i = true) :
    ((s.coolStop cause).tile i).st = .halted ∧ ((s.coolStop cause).tile i).runCode = 0 := by
  obtain ⟨len, ties, -⟩ := halt_leaves { s with boot := { s.boot with cool := .stopped } } cause
  have hh := (halt_halts { s with boot := { s.boot with cool := .stopped } } cause).2 i
  have hr := halt_runCode { s with boot := { s.boot with cool := .stopped } } cause (i := i)
  rw [coolStop_running cause h, hc, if_neg Bool.false_ne_true]
  generalize State.halt { s with boot := { s.boot with cool := .stopped } } cause = t at len ties hh hr ⊢
  have hl : i < t.tiles.length := len ▸ hi
  have ht : t.ties = s.ties := ties
  have hq : t.present i = true := by
    unfold State.present State.clsOf at hp ⊢
    rw [ht]
    exact hp
  simp only [State.tile, (logged_raise0 ..).tiles]
  exact ⟨hh hl hq, hr hl hq⟩

/-! ## The heartbeat -/

section

variable {u : State} {h t0 : Nat}

theorem flowEdge_good (hh : 16000 ≤ h) (hl : u.boot.hbLast = some t0) (h1 : t0 + 1440000 ≤ u.boot.uptime)
    (h2 : u.boot.uptime ≤ t0 + 1760000) (hg : u.boot.hbGood < 3) : u.flowEdge h = { u with boot := { u.boot with
      hbLast := some u.boot.uptime, hbDc := false, hbGood := u.boot.hbGood + 1, hbLost := 0, hbOdd := 0 } } := by
  simp [State.flowEdge, hl, Nat.not_lt.2 hh, show 1440000 ≤ u.boot.uptime - t0 ∧ u.boot.uptime - t0 ≤ 1760000 by omega,
    show ¬ 4 ≤ u.boot.hbGood + 1 by omega]

theorem flowEdge_fourth (hh : 16000 ≤ h) (hl : u.boot.hbLast = some t0) (h1 : t0 + 1440000 ≤ u.boot.uptime)
    (h2 : u.boot.uptime ≤ t0 + 1760000) (hg : 3 ≤ u.boot.hbGood) (hc : u.boot.cool = .unknown ∨ u.boot.cool = .wireFault) :
    u.flowEdge h = { u with boot := { u.boot with
      hbLast := some u.boot.uptime, hbDc := false, hbGood := u.boot.hbGood + 1, hbLost := 0, hbOdd := 0, cool := .good
      flowOnce := true, trayOk := false, pollAt := u.boot.pollAt.filter (fun t => decide (t ≤ u.boot.uptime)) } } := by
  simp only [State.flowEdge, hl, if_neg (Nat.not_lt.2 hh), if_pos (show 1440000 ≤ u.boot.uptime - t0 ∧ u.boot.uptime - t0 ≤ 1760000 by omega),
    if_pos (show u.boot.hbGood + 1 ≥ 4 by omega)]
  obtain hc | hc := hc <;> simp [State.flowGood, hc]

theorem flowEdge_lost (hh : 16000 ≤ h) (hl : u.boot.hbLast = some t0) (h1 : t0 + 5760000 ≤ u.boot.uptime)
    (h2 : u.boot.uptime ≤ t0 + 7040000) (hg : 1 ≤ u.boot.hbLost) (hc : u.boot.cool = .good ∨ u.boot.cool = .wireFault) :
    u.flowEdge h = State.coolStop { u with boot := { u.boot with
      hbLast := some u.boot.uptime, hbDc := false, hbGood := 0, hbLost := 0, hbOdd := 0 } } 1 := by
  simp only [State.flowEdge, hl, if_neg (Nat.not_lt.2 hh),
    if_neg (show ¬ (1440000 ≤ u.boot.uptime - t0 ∧ u.boot.uptime - t0 ≤ 1760000) by omega),
    if_pos (show 5760000 ≤ u.boot.uptime - t0 ∧ u.boot.uptime - t0 ≤ 7040000 by omega), if_pos (show u.boot.hbLost + 1 ≥ 2 by omega)]
  obtain hc | hc := hc <;> simp only [State.flowLost, hc]

theorem flowDc_good (hd : u.boot.hbDc = false) (ht : u.boot.hbLast.getD 0 + 16000000 ≤ u.boot.uptime) (hc : u.boot.cool = .good) :
    u.flowDc = State.raise0 { u with boot := { u.boot with
      hbDc := true, hbGood := 0, hbLost := 0, hbOdd := 0, wires := satInc u.boot.wires, cool := .wireFault, waitAt := u.boot.uptime
      trayOk := false, pollAt := some u.boot.uptime } } 0x70B 0 := by
  simp [State.flowDc, hd, Nat.not_lt.2 ht, State.wireFault, hc]

end

/-! ## The tray -/

theorem polls_iff (b : Boot) : b.polls = true ↔ ∃ t, b.pollAt = some t ∧ (b.cool = .good ∨ b.cool = .wireFault ∧ t ≤ b.uptime) := by
  simp [Boot.polls, Option.any_eq_true]

theorem polls_running {b : Boot} (h : b.polls = true) : b.cool ≠ .stopped := by
  obtain ⟨t, -, hc | ⟨hc, -⟩⟩ := (polls_iff b).1 h <;> simp [hc]

/-- The poll itself, whatever it read: the next one is due, and the bus has carried this one. -/
def polled (u : State) : State := { u with
  boot := { u.boot with pollAt := if u.boot.cool = CoolSt.good then none else some (u.boot.uptime + 160000000) }
  power := { u.power with bus := [.pmb (BitVec.ofNat 7 (pmTray u.power.pmbus)) (BitVec.ofNat 8 (pmTrayCmd u.power.pmbus)) none] } }

section

variable {u : State}

theorem trayPoll_idle (h : u.boot.polls = false) (a : Option Byte) : u.trayPoll a = u := by simp [State.trayPoll, h]

theorem trayPoll_failed (h : u.boot.polls = true) : u.trayPoll none = { polled u with
    boot := { (polled u).boot with trayBad := satInc u.boot.trayBad }, power := { (polled u).power with pmbBad := satInc u.power.pmbBad } } := by
  simp [State.trayPoll, h, polled]

/-- What a byte of the tray calls for. -/
theorem trayPoll_read (h : u.boot.polls = true) (b : Byte) : u.trayPoll (some b) =
    if bit b 0 = false then polled u else if bit b 2 = true then (polled u).coolStop 2
    else if bit b 1 = true then { polled u with boot := { (polled u).boot with trayOk := true, trayAt := u.boot.uptime } } else polled u := by
  cases h0 : bit b 0 <;> simp [State.trayPoll, h, h0, polled]

theorem wireExpiry_late (hc : u.boot.cool = .wireFault) (ht : u.boot.trayOk = false) (hw : u.boot.waitAt + 480000000000 ≤ u.boot.uptime) :
    u.wireExpiry = u.coolStop 3 := by
  simp [State.wireExpiry, State.safeFloor, hc, ht, hw]

theorem trayLapse_late (hc : u.boot.cool = .wireFault) (ht : u.boot.trayOk = true) (hw : u.boot.trayAt + 16000000000 ≤ u.boot.uptime) :
    u.trayLapse = { u with boot := { u.boot with trayOk := false, waitAt := u.boot.uptime } } := by
  simp [State.trayLapse, hc, ht, hw]

end

/-- Settles O39: the heartbeat's edges and its DC time-out, the tray's polls by what they read, and the two waits; each loss stops the
block. -/
theorem coolant : Obligations.Coolant := by
  rintro dt s u rfl hr
  have edge : ∀ h, exec (.flowHbEdge dt h) s = .next ((s.tick dt).flowEdge h) := fun h => (event_live _ hr : execFlowHbEdge dt h s = _)
  have poll : ∀ a, exec (.trayPoll dt a) s = .next ((s.tick dt).trayPoll a) := fun a => (event_live _ hr : execTrayPoll dt a s = _)
  refine ⟨fun h t0 hh hl h1 h2 => ⟨fun hg => ?_, fun hg hc => ?_⟩, fun h t0 hh hl h1 h2 hg hc hs ht => ⟨_, edge h, ?_⟩, fun hd ht hc => ?_,
    polls_iff _, ?_, fun hp a => ?_, fun hc ht hw => ⟨_, (event_live _ hr : execWireFaultWaitExpiry dt s = _), ?_⟩, fun hc ht hw => ?_⟩
  · rw [edge, flowEdge_good hh hl h1 h2 hg]
  · rw [edge, flowEdge_fourth hh hl h1 h2 hg hc]
  · have hn : (s.tick dt).boot.cool ≠ .stopped := by obtain hc | hc := hc <;> simp [hc]
    rw [flowEdge_lost hh hl h1 h2 hg hc]
    obtain ⟨cool, chip⟩ := coolStop_stops (s := { s.tick dt with boot := { (s.tick dt).boot with
      hbLast := some (s.tick dt).boot.uptime, hbDc := false, hbGood := 0, hbLost := 0, hbOdd := 0 } }) 1 hn
    exact ⟨cool, chip, fun i hi hp => coolStop_halts (s := { s.tick dt with boot := { (s.tick dt).boot with
      hbLast := some (s.tick dt).boot.uptime, hbDc := false, hbGood := 0, hbLost := 0, hbOdd := 0 } }) 1 hn hs (ht ▸ hi) hp⟩
  · exact (event_live _ hr : execFlowHbDcTimeout dt s = _).trans (congrArg _ (flowDc_good hd ht hc))
  · rintro P B hp rfl rfl
    refine ⟨?_, fun b h0 h2 h1 => ?_, fun b h0 h2 => ⟨_, poll _, ?_⟩, fun b h => ?_⟩
    · rw [poll, trayPoll_failed hp]
      rfl
    · rw [poll, trayPoll_read hp]
      simp [h0, h1, h2, polled]
    · rw [trayPoll_read hp, if_neg (by simp [h0]), if_pos h2]
      exact coolStop_stops (s := polled (s.tick dt)) 2 (polls_running (b := (s.tick dt).boot) hp)
    · rw [poll, trayPoll_read hp]
      obtain h0 | ⟨h2, h1⟩ := h
      · simp [h0, polled]
      · simp [h1, h2, polled]
  · rw [poll, trayPoll_idle hp]
  · rw [wireExpiry_late hc ht hw]
    exact coolStop_stops 3 (by simp [hc])
  · exact (event_live _ hr : execTrayConfirmLapse dt s = _).trans (congrArg _ (trayLapse_late hc ht hw))

end Sys2Proof.Proofs
end

section
/-! SUPPORT. A state with no mailbox at all: the lodestar's commands in a session cannot leave their answer (02 R58; 03 R101; 13 R317). -/

namespace Sys2Proof.Proofs

open Sys2Proof.Machine Sys2Proof.Safety Sys2Proof.Laws

set_option Elab.async false

/-- The block in RUN with the lodestar on and an attested operator session 1, but for its eight mailboxes, of which it has none. -/
def noMailboxes : State := { State.reset with
  boot := { State.reset.boot with clkRun := 0xFF }
  helm := { State.reset.helm with stage := .run, open_ := true }
  sxt := { State.reset.sxt with enabled := true }
  trust := { State.reset.trust with sess := State.reset.trust.sess.set 1 (some { operator := true, half := false, lastAt := 0 }) }
  mbxs := [] }

/-- LODE_AGE of 50 in a message of session 1, from mailbox 0. -/
def ageInSession : Req := { mbx := 0, tag := 7, sess := 1, rsv := 0, args := [50] }

theorem noMailboxes_ready : ready false (noMailboxes.tick 0) { ageInSession with sess := 0 } = true ∧
    (noMailboxes.tick 0).isOperator ageInSession.sess = true ∧ (noMailboxes.tick 0).haltedB = false ∧
    (noMailboxes.tick 0).sxt.enabled = true := by decide +kernel

/-- The command runs, and mailbox 0 does not hold its answer. -/
theorem lodeAge_noMailboxes : ((sessCmd cmdLodeAge 0 ageInSession noMailboxes).mbx 0).held = .idle := by decide +kernel

/-- Refutes O13: the statement admits a state without the eight mailboxes of 13 R317, where nothing holds the command's answer; there
LODE_AGE takes the adjustment, and no mailbox reads ACCEPTED. -/
theorem not_lodestarCommands : ¬ Obligations.LodestarCommands := by
  intro h
  obtain ⟨hready, hop, hhalt, hon⟩ := noMailboxes_ready
  obtain ⟨t, he, -, hheld, -⟩ := ((h 0 ageInSession noMailboxes _ rfl).2 hready (by decide) hop 50 rfl).1 (by decide) hhalt hon
  obtain rfl : sessCmd cmdLodeAge 0 ageInSession noMailboxes = t := by injection he
  rw [show ageInSession.mbx = 0 from rfl, lodeAge_noMailboxes] at hheld
  exact absurd hheld (by decide)

end Sys2Proof.Proofs
end

section
/-! SUPPORT. The voltage writes and reads around a keystone (02 R59; 08 R224, R225; 09 R238 to R240, R261; 16 R383). -/

namespace Sys2Proof.Proofs

open Sys2Proof.Machine Sys2Proof.Safety Sys2Proof.Laws

set_option Elab.async false

/-! ## One rail -/

theorem rail_modRail_same {s : State} {r : Nat} (f : Rail → Rail) (h : r < s.rails.length) : (s.modRail r f).rail r = f (s.rail r) := by
  simp [State.rail, State.modRail, h]

/-- A rail's change counts by what it makes of that rail. -/
theorem modRail_congr {s : State} {r : Nat} {f g : Rail → Rail} (h : f (s.rail r) = g (s.rail r)) : s.modRail r f = s.modRail r g := by
  have hl : s.rails.modify r f = s.rails.modify r g := by
    refine List.ext_getElem? (fun i => ?_)
    simp only [List.getElem?_modify]
    by_cases hi : r = i
    · subst hi
      simp only [State.rail, List.getD_eq_getElem?_getD] at h
      cases hr : s.rails[r]? with
      | none => rfl
      | some x => simpa [hr] using h
    · simp [hi]
  simp only [State.modRail, hl]

theorem rail_logged {s t : State} (h : Logged s t) (r : Nat) : t.rail r = s.rail r := by
  simp only [State.rail, h.rails]

/-! ## A readback -/

/-- The judgement of a voltage readback leaves the readings as they are. -/
theorem overCheck_keeps {s : State} {r : Nat} (mv : Nat) (h : r < s.rails.length) :
    ((s.overCheck r mv).rail r).mvs = (s.rail r).mvs ∧ ((s.overCheck r mv).rail r).fresh = (s.rail r).fresh ∧
      (s.overCheck r mv).tiles = s.tiles ∧ (s.overCheck r mv).keys = s.keys := by
  unfold State.overCheck
  extract_lets mx x v
  have hv : r < v.rails.length := by simpa [v, State.modRail] using h
  have hr : (v.rail r).mvs = (s.rail r).mvs ∧ (v.rail r).fresh = (s.rail r).fresh := by
    simp only [v, rail_modRail_same _ h, and_self]
  split
  · split
    · have hl := logged_raise (v.modRail r (fun x => { x with isOver := true, cOver := satInc x.cOver })) 0x703 r 0
      rw [rail_logged hl, hl.tiles, hl.keys, rail_modRail_same _ hv]
      exact ⟨hr.1, hr.2, rfl, rfl⟩
    · exact ⟨hr.1, hr.2, rfl, rfl⟩
  · split <;> exact ⟨by rw [rail_modRail_same _ h], by rw [rail_modRail_same _ h], rfl, rfl⟩

theorem takeVolt_reads {s : State} {r : Nat} (mv : Nat) (h : r < s.rails.length) :
    ((s.takeVolt r mv).rail r).mvs = (mv :: (s.rail r).mvs).take 4 ∧ ((s.takeVolt r mv).rail r).fresh = true ∧
      (s.takeVolt r mv).tiles = s.tiles ∧ (s.takeVolt r mv).keys = s.keys := by
  have hl : r < (s.modRail r (fun x => x.read mv)).rails.length := by simpa [State.modRail] using h
  obtain ⟨mvs, fresh, tiles, keys⟩ := overCheck_keeps mv hl
  rw [rail_modRail_same _ h] at mvs fresh
  exact ⟨mvs, fresh, tiles, keys⟩

section

variable {u : State} {r : Nat}

/-- The dedicated read of a raise on a faulted link. -/
theorem raiseRead_due {a : Nat × Nat × Nat} (mv : Nat)
    (h : u.raiseOf r (fun x => decide (u.key x.t ≤ 2 ^ 63 + 3200000) && x.raised.any (fun y => y.toNat == r)) = some a)
    (hp : u.onPmbus r = true) (bad : Nat) : u.raiseRead r mv bad =
      if bad ≥ 3 then { u with power := { u.power with bus := pmbOps (u.rail r).map 0x8B none, pmbBad := satInc u.power.pmbBad } }
      else State.takeVolt { u with power := { u.power with bus := pmbOps (u.rail r).map 0x8B none } } r mv := by
  unfold State.raiseRead
  rw [show u.raiseOf r (fun x => decide (u.key x.t ≤ nowK + 3200000) && x.raised.any (fun y => y.toNat == r)) = some a from h]
  simp only [hp, if_true, State.pmbus]

/-! ## A raise -/

theorem raiseWrite_due {k n v : Nat} (h : u.raiseOf r (fun x => u.raiseDue x r) = some (k, n, v)) (ha : (u.rail r).active = true) :
    u.raiseWrite r = if u.writeTurn (0, u.key (u.slot k).t, r) then
      (u.writeRail r v).modSlot k (fun x => { x with raised := x.raised ++ [BitVec.ofNat 3 r] }) else u := by
  simp only [State.raiseWrite, h, ha, Bool.true_and]

theorem raiseCheck_due {k n v : Nat}
    (h : u.raiseOf r (fun x => decide (u.key x.t ≤ 2 ^ 63 + 320000) && !x.checked.any (fun y => y.toNat == r)) = some (k, n, v)) :
    u.raiseCheck r = if u.raiseGood (u.slot k) r v then u.modSlot k (fun x => { x with checked := x.checked ++ [BitVec.ofNat 3 r] })
      else u.abortKs k 9 (some (n, r)) := by
  unfold State.raiseCheck
  rw [show u.raiseOf r (fun x => decide (u.key x.t ≤ nowK + 320000) && !x.checked.any (fun y => y.toNat == r)) = some (k, n, v) from h]

/-! ## The write itself -/

theorem writeRail_above {v : Nat} (h : u.railMax r < v) :
    u.writeRail r v = State.raise { u with power := { u.power with chartGuard := satInc u.power.chartGuard } } 0xB05 1 0 := if_pos h

theorem writeRail_avs {v : Nat} (h : v ≤ u.railMax r) (hp : u.onPmbus r = false) : u.writeRail r v = { u with
    power := { u.power with
      bus := [avsOp (u.rail r).map r 0 0 (some v)], writes := u.power.writes.set (linkOf r) (u.sampleAt, u.writesNow (linkOf r) + 1) }
    rails := u.rails.modify r (fun x => { x with written := v, fresh := false }) } := by
  have hp' : bit u.power.avsBad (linkOf r) = false := hp
  simp only [State.writeRail, gt_iff_lt, Nat.not_lt.2 h, State.onPmbus, hp', Bool.false_eq_true, if_false]
  rfl

theorem writeRail_pmbus {v : Nat} (h : v ≤ u.railMax r) (hp : u.onPmbus r = true) : u.writeRail r v = { u with
    power := { u.power with bus := pmbOps (u.rail r).map 0x21 (some v) }
    rails := u.rails.modify r (fun x => { x with written := v, fresh := false }) } := by
  simp only [State.writeRail, gt_iff_lt, Nat.not_lt.2 h, hp, if_true, if_false]
  rfl

/-! ## A lowering, and a raise taken back -/

/-- A write leaves the rail's set point and the count of raises taken back. -/
theorem writeRail_keeps (u : State) (r v : Nat) : ((u.writeRail r v).rail r).vset = (u.rail r).vset ∧
    (u.writeRail r v).power.wbacks = u.power.wbacks := by
  rcases Nat.lt_or_ge (u.railMax r) v with h | h
  · rw [writeRail_above h, rail_logged (logged_raise ..), (logged_raise ..).power]
    exact ⟨rfl, rfl⟩
  · have hv : ∀ w : State, w.rails = u.rails.modify r (fun x => { x with written := v, fresh := false }) →
        (w.rail r).vset = (u.rail r).vset := by
      intro w hw
      simp only [State.rail, hw, List.getD_eq_getElem?_getD, List.getElem?_modify, if_true]
      cases u.rails[r]? <;> rfl
    cases hp : u.onPmbus r
    · rw [writeRail_avs h hp]
      exact ⟨hv _ rfl, rfl⟩
    · rw [writeRail_pmbus h hp]
      exact ⟨hv _ rfl, rfl⟩

theorem lowerWrite_due (h : u.lowerDue r = true) (ht : u.writeTurn (1, 0, r) = true) (hc : u.boot.cool ≠ .stopped) :
    u.lowerWrite r = (u.writeRail r (u.rail r).vset.toNat).modRail r (fun x => { x with vref := (u.rail r).vset.toNat }) := by
  unfold State.lowerWrite
  dsimp only
  rw [if_neg (by simp [h, ht, State.noWrites, hc])]
  exact modRail_congr (by rw [(writeRail_keeps ..).1])

theorem lowerWrite_waits (h : u.boot.cool = .stopped ∨ u.writeTurn (1, 0, r) = false) : u.lowerWrite r = u :=
  if_pos (by obtain h | h := h <;> simp [State.noWrites, h])

theorem writeBack_due {v : BitVec 12} (h : (u.rail r).wback = some v) (hd : u.backDue r = true) (ht : u.writeTurn (2, 0, r) = true)
    (hc : u.boot.cool ≠ .stopped) : u.writeBack r =
      (let w := (u.writeRail r v.toNat).modRail r (fun x => { x with wback := none, vref := min x.vref v.toNat })
       { w with power := { w.power with wbacks := satInc u.power.wbacks } }) := by
  unfold State.writeBack
  rw [h]
  dsimp only
  rw [if_neg (by simp [hd, ht, State.noWrites, hc]), State.modRail_power, (writeRail_keeps ..).2]

theorem writeBack_waits (h : u.boot.cool = .stopped ∨ u.writeTurn (2, 0, r) = false) : u.writeBack r = u := by
  unfold State.writeBack
  split
  · exact if_pos (by obtain h | h := h <;> simp [State.noWrites, h])
  · rfl

end

/-- Settles O36: each row by what is due, and the write by its bound and its link. -/
theorem railVoltageEvents : Obligations.RailVoltageEvents := by
  rintro dt b r s u rfl hr rfl
  have hb : BitVec.ofNat 3 b.toNat = b := BitVec.ofNat_toNat ..
  have raise : exec (.ksRailRaiseWrite dt b) s = .next ((s.tick dt).raiseWrite b.toNat) := (event_live _ hr : execKsRailRaiseWrite dt b s = _)
  have read : ∀ mv f, exec (.ksRailPmbusRead dt b ⟨mv, f⟩) s = .next ((s.tick dt).raiseRead b.toNat mv f.toNat) :=
    fun mv f => (event_live _ hr : execKsRailPmbusRead dt b ⟨mv, f⟩ s = _)
  have check : exec (.ksRailCheck dt b) s = .next ((s.tick dt).raiseCheck b.toNat) := (event_live _ hr : execKsRailCheck dt b s = _)
  have lower : exec (.ksRailLowerWrite dt b) s = .next ((s.tick dt).lowerWrite b.toNat) := (event_live _ hr : execKsRailLowerWrite dt b s = _)
  have back : exec (.railWriteBack dt b) s = .next ((s.tick dt).writeBack b.toNat) := (event_live _ hr : execRailWriteBack dt b s = _)
  refine ⟨fun k n v h ha => ⟨fun ht => ?_, fun ht => ?_⟩, fun a mv f h hp => ⟨fun hf => ?_, fun hf => ?_⟩,
    fun v mv h => takeVolt_reads mv h,
    fun k n v h => ⟨fun hg => ?_, fun hg => ?_⟩, fun h ht hc => ?_, fun v h hd ht hc => ?_, fun h => ?_, fun h => ?_,
    fun v h => ⟨writeRail_avs h, writeRail_pmbus h⟩, fun v h => writeRail_above h⟩
  · rw [raise, raiseWrite_due h ha, if_pos ht, hb]
  · rw [raise, raiseWrite_due h ha, ht, if_neg Bool.false_ne_true]
  · have hf' : ¬ f.toNat ≥ 3 := by bv_omega
    rw [read, raiseRead_due mv h hp, if_neg hf']
  · rw [read, raiseRead_due mv h hp, hf, if_pos (by decide)]
  · rw [check, raiseCheck_due h, if_pos hg, hb]
  · rw [check, raiseCheck_due h, hg, if_neg Bool.false_ne_true]
  · rw [lower, lowerWrite_due h ht hc]
  · exact back.trans (congrArg _ (writeBack_due h hd ht hc))
  · rw [lower, lowerWrite_waits h]
  · rw [back, writeBack_waits h]

end Sys2Proof.Proofs
end

section
/-! SUPPORT. The intervals of the power controller (02 R59; 09 R238 to R257). -/

namespace Sys2Proof.Proofs

open Sys2Proof.Machine Sys2Proof.Safety Sys2Proof.Laws

set_option Elab.async false

/-! ## Readings and judgements of rails -/

/-- What a rail's change leaves of every rail, it leaves in every rail of the state. -/
theorem rail_modRail_proj {α : Type} (P : Rail → α) {f : Rail → Rail} (h : ∀ x, P (f x) = P x) (s : State) (r i : Nat) :
    P ((s.modRail r f).rail i) = P (s.rail i) := by
  simp only [State.rail, State.modRail, List.getD_eq_getElem?_getD, List.getElem?_modify]
  cases s.rails[i]? with
  | none => rfl
  | some x => by_cases hi : r = i <;> simp [hi, h]

/-- A judgement of the interval's readings: what it leaves alone. -/
structure Judged (s t : State) : Prop where
  keys : t.keys = s.keys
  ivAt : t.power.ivAt = s.power.ivAt
  bus : t.power.bus = s.power.bus
  k : t.power.k = s.power.k
  len : t.rails.length = s.rails.length
  mvs : ∀ r, (t.rail r).mvs = (s.rail r).mvs
  mas : ∀ r, (t.rail r).mas = (s.rail r).mas
  vset : ∀ r, (t.rail r).vset = (s.rail r).vset
  active : ∀ r, (t.rail r).active = (s.rail r).active

namespace Judged

variable {s t u : State}

theorem refl (s : State) : Judged s s := ⟨rfl, rfl, rfl, rfl, rfl, fun _ => rfl, fun _ => rfl, fun _ => rfl, fun _ => rfl⟩

theorem trans (a : Judged s t) (b : Judged t u) : Judged s u where
  keys := b.keys.trans a.keys
  ivAt := b.ivAt.trans a.ivAt
  bus := b.bus.trans a.bus
  k := b.k.trans a.k
  len := b.len.trans a.len
  mvs r := (b.mvs r).trans (a.mvs r)
  mas r := (b.mas r).trans (a.mas r)
  vset r := (b.vset r).trans (a.vset r)
  active r := (b.active r).trans (a.active r)

/-- The parts of a change from the last to the first. -/
theorem after (b : Judged t u) (a : Judged s t) : Judged s u := a.trans b

theorem logged (h : Logged s t) : Judged s t := by
  have hr := rail_logged h
  exact ⟨h.keys, by rw [h.power], by rw [h.power], by rw [h.power], by rw [h.rails], fun r => by rw [hr], fun r => by rw [hr],
    fun r => by rw [hr], fun r => by rw [hr]⟩

theorem modRail (s : State) (r : Nat) {f : Rail → Rail} (hv : ∀ x, (f x).mvs = x.mvs) (ha : ∀ x, (f x).mas = x.mas)
    (hs : ∀ x, (f x).vset = x.vset) (hc : ∀ x, (f x).active = x.active) : Judged s (s.modRail r f) where
  keys := rfl
  ivAt := rfl
  bus := rfl
  k := rfl
  len := List.length_modify ..
  mvs := rail_modRail_proj _ hv s r
  mas := rail_modRail_proj _ ha s r
  vset := rail_modRail_proj _ hs s r
  active := rail_modRail_proj _ hc s r

theorem setPower (s : State) (p : Power) (hi : p.ivAt = s.power.ivAt) (hb : p.bus = s.power.bus) (hk : p.k = s.power.k) :
    Judged s { s with power := p } :=
  ⟨rfl, hi, hb, hk, rfl, fun _ => rfl, fun _ => rfl, fun _ => rfl, fun _ => rfl⟩

theorem activeRails (h : Judged s t) : t.activeRails = s.activeRails :=
  List.filter_congr (fun r _ => h.active r)

end Judged

theorem judged_overCheck (s : State) (r mv : Nat) : Judged s (s.overCheck r mv) := by
  unfold State.overCheck
  dsimp only
  split
  · have h : Judged s (s.modRail r (fun x => { x with overRun := x.overRun + 1, underRun := 0 })) :=
      .modRail s r (fun _ => rfl) (fun _ => rfl) (fun _ => rfl) (fun _ => rfl)
    split
    · exact .after (.logged (logged_raise ..)) <| .after (.modRail _ r (fun _ => rfl) (fun _ => rfl) (fun _ => rfl) (fun _ => rfl)) h
    · exact h
  · split <;> exact .modRail s r (fun _ => rfl) (fun _ => rfl) (fun _ => rfl) (fun _ => rfl)

theorem judged_compareRail (s : State) (r : Nat) : Judged s (s.compareRail r) := by
  unfold State.compareRail
  extract_lets x e p up dn v _ w
  split
  · exact .modRail s r (fun _ => rfl) (fun _ => rfl) (fun _ => rfl) (fun _ => rfl)
  · split
    · exact .modRail s r (fun _ => rfl) (fun _ => rfl) (fun _ => rfl) (fun _ => rfl)
    · have hv : Judged s v := .modRail s r (fun _ => rfl) (fun _ => rfl) (fun _ => rfl) (fun _ => rfl)
      have hw : Judged v w := by
        unfold w
        split
        · exact .after (.logged (logged_raise ..)) (.setPower v _ rfl rfl rfl)
        · exact .refl v
      split
      · exact .after (.logged (logged_raise ..)) <|
          .after (.modRail w r (fun _ => rfl) (fun _ => rfl) (fun _ => rfl) (fun _ => rfl)) (hv.trans hw)
      · exact hv.trans hw

theorem judged_compareRails (s : State) (l : List Nat) : Judged s (s.each l State.compareRail) :=
  List.foldlRecOn (motive := fun t => Judged s t) _ _ (.refl s) (fun _ hb r _ => hb.trans (judged_compareRail _ r))

theorem judged_trustStep (s : State) (dist : Bool) : Judged s (s.trustStep dist) := by
  unfold State.trustStep
  extract_lets rs cmp good n _ v
  have hv : Judged s v := .setPower s _ rfl rfl rfl
  split
  · exact .refl s
  · split
    · unfold State.trustAgain
      split
      · exact hv
      · exact .after (.logged (logged_raise0 ..)) <| .after (.setPower v _ rfl rfl rfl) hv
    · exact hv

theorem judged_fastGuard (s : State) (p : Nat) : Judged s (s.fastGuard p) := by
  unfold State.fastGuard
  extract_lets p ready
  split
  · exact .setPower s _ rfl rfl rfl
  · exact .refl s

/-! ## The end of an interval -/

theorem throttleRec_eq (s : State) (idx : Nat) : ∃ c e l, s.throttleRec idx =
    { s with power := { s.power with causeOr := c, causeEnd := e }, log := l } := by
  unfold State.throttleRec
  extract_lets now p all cap rec_ form _ v
  split
  · exact ⟨_, _, _, rfl⟩
  · split
    · unfold State.formThrottle
      split
      · exact ⟨_, _, _, rfl⟩
      · unfold State.sendRecs
        dsimp only
        split <;> exact ⟨_, _, _, rfl⟩
    · exact ⟨_, _, _, rfl⟩

theorem followCheck_eq (s : State) : ∃ c, s.followCheck = { s with cvy := c } := by
  unfold State.followCheck
  split <;> exact ⟨_, rfl⟩

theorem followCheck_single {s : State} (h : s.cvy.st = .none) : s.followCheck = s := by
  simp [State.followCheck, h]

/-- The end of an interval, from the energies on. -/
def intervalEnd (s : State) (idx : Nat) (missing : List Nat) (sp : List Split) : State :=
  (((s.integrate sp).throttleRec idx).closeInterval missing).followCheck

theorem intervalEnd_facts {s t : State} {idx : Nat} {missing : List Nat} {sp : List Split} (ht : t = intervalEnd s idx missing sp) :
    (∃ c e, t.power = { s.power with causeOr := c, causeEnd := e, cfgNow := s.power.cfg }) ∧ t.boot = s.boot ∧ t.keys = s.keys ∧
      t.ledger.map = s.ledger.mapNext ∧ t.rails = s.rails.map (fun r => { r with estSum := 0, estCnt := 0, estBad := false }) ∧
      t.tiles = s.tiles.mapIdx (fun i (x : Tile) => { x with
        passLast := if missing.contains i then x.passLast else x.passIv, passIv := 0, estSum := 0, estCnt := 0 }) := by
  obtain ⟨c, e, l, hr⟩ := throttleRec_eq (s.integrate sp) idx
  obtain ⟨d, hf⟩ := followCheck_eq (((s.integrate sp).throttleRec idx).closeInterval missing)
  rw [intervalEnd, hf, hr] at ht
  subst ht
  exact ⟨⟨c, e, rfl⟩, rfl, rfl, rfl, rfl, rfl⟩

end Sys2Proof.Proofs
end

section
/-! SUPPORT. A sampling interval with no active rail and with one, the evaluation of a cap rate, and the ledger's snapshot (09 R241 to R244,
R254 to R257). -/

namespace Sys2Proof.Proofs

open Sys2Proof.Machine Sys2Proof.Safety Sys2Proof.Laws

set_option Elab.async false

/-! ## The readings of an interval -/

theorem active_of_mem {s : State} {r : Nat} (h : r ∈ s.activeRails) : (s.rail r).active = true := by
  simp only [State.activeRails, List.mem_filter] at h
  exact h.2

/-- Without an active rail no reading is taken. -/
theorem takeReadings_none {s : State} (h : s.activeRails = []) (rs : List RailReading) :
    s.takeReadings rs = { s with power := { s.power with bus := [] } } := by
  unfold State.takeReadings
  rw [h]
  refine List.foldlRecOn (motive := fun t => t = { s with power := { s.power with bus := [] } }) _ _ rfl (fun t ht x _ => ?_)
  have hx : (s.rail x.rail.toNat).active = false := by
    by_contra hc
    have hm : x.rail.toNat ∈ s.activeRails := List.mem_filter.2 ⟨List.mem_range.2 x.rail.isLt, by simpa using hc⟩
    simp [h] at hm
  subst ht
  exact if_neg (by simp [State.rail] at hx ⊢; simp [hx])

/-- The reading of a rail: its voltage and current lead its lists, and no rail changes otherwise. -/
theorem takeReading_facts {s t : State} {r : Nat} (mv ma : Nat) (h : r < s.rails.length) (ht : t = (s.takeVolt r mv).takeCurrent r ma) :
    (t.rail r).mvs.head? = some mv ∧ (t.rail r).mas.head? = some ma ∧ (∀ i, (t.rail i).vset = (s.rail i).vset) ∧
      (∀ i, (t.rail i).active = (s.rail i).active) ∧ t.keys = s.keys ∧ t.power.ivAt = s.power.ivAt ∧ t.power.bus = s.power.bus ∧
      t.power.k = s.power.k := by
  subst ht
  have j := judged_overCheck (s.modRail r (fun x => x.read mv)) r mv
  have hl : r < (s.takeVolt r mv).rails.length := by
    rw [State.takeVolt, j.len]
    exact (List.length_modify ..).symm ▸ h
  have hc : ∀ {α : Type} (P : Rail → α), (∀ x, P (x.read mv) = P x) → ∀ i, P ((s.modRail r (fun x => x.read mv)).rail i) = P (s.rail i) :=
    fun P hP i => rail_modRail_proj P hP s r i
  refine ⟨?_, ?_, fun i => ?_, fun i => ?_, j.keys, j.ivAt, j.bus, j.k⟩
  · rw [State.takeCurrent, rail_modRail_same _ hl, State.takeVolt]
    simp only [j.mvs, rail_modRail_same _ h]
    rfl
  · rw [State.takeCurrent, rail_modRail_same _ hl]
    rfl
  · refine (rail_modRail_proj Rail.vset (f := fun x => { x with mas := (ma :: x.mas).take 4 }) (fun _ => rfl) _ r i).trans ?_
    exact (j.vset i).trans (hc _ (fun _ => rfl) i)
  · refine (rail_modRail_proj Rail.active (f := fun x => { x with mas := (ma :: x.mas).take 4 }) (fun _ => rfl) _ r i).trans ?_
    exact (j.active i).trans (hc _ (fun _ => rfl) i)

/-! ## An interval without an active rail -/

theorem sample_idle {u : State} {rs : List RailReading} {missing : List Nat} (hm : u.mer.running = true) (hi : u.power.ivAt ≠ some u.sampleAt)
    (ha : u.activeRails = []) : u.sample rs missing =
      intervalEnd { u with power := { u.power with ivAt := some u.sampleAt, bus := [], pDie := 0 } } (u.nowN / 160000 - 1) missing [] := by
  have hr := takeReadings_none (s := { u with power := { u.power with ivAt := some u.sampleAt } }) ha rs
  have h : ¬ ((!u.mer.running || u.power.ivAt = some u.sampleAt) = true) := by simp [hm, hi]
  unfold State.sample
  rw [if_neg h]
  dsimp only
  rw [hr]
  have ha' : State.activeRails { u with power := { u.power with ivAt := some u.sampleAt, bus := [] } } = [] := ha
  simp only [ha', List.isEmpty_nil, if_true, List.map_nil]
  rfl

/-! ## An interval with one -/

/-- What an interval with active rails makes of the readings taken: judgements, die power and the filters. -/
def judgedInterval (s : State) (idx : Nat) : State :=
  let v := (s.each s.activeRails State.compareRail).trustStep s.power.distrust
  let w := v.fastGuard v.dieInput.2
  { w with power := Power.feed { w.power with pDie := v.dieInput.1 } v.dieInput.2 (decide (idx % 100 = 99)) }

theorem sample_active {u : State} {rs : List RailReading} {missing : List Nat} (hm : u.mer.running = true)
    (hi : u.power.ivAt ≠ some u.sampleAt) {v : State} (hv : v = State.takeReadings { u with power := { u.power with ivAt := some u.sampleAt } } rs)
    (ha : v.activeRails.isEmpty = false) : u.sample rs missing =
      intervalEnd (judgedInterval v (u.nowN / 160000 - 1)) (u.nowN / 160000 - 1) missing
        (v.activeRails.map ((judgedInterval v (u.nowN / 160000 - 1)).split missing)) := by
  have h : ¬ ((!u.mer.running || u.power.ivAt = some u.sampleAt) = true) := by simp [hm, hi]
  unfold State.sample
  rw [if_neg h]
  dsimp only
  rw [← hv, ha, if_neg Bool.false_ne_true]
  rfl

theorem judgedInterval_facts (s : State) (idx : Nat) : ∃ w, Judged s w ∧ (judgedInterval s idx).keys = s.keys ∧
    (judgedInterval s idx).power.ivAt = s.power.ivAt ∧ (judgedInterval s idx).power.bus = s.power.bus ∧
    (judgedInterval s idx).power.k = s.power.k + 1 ∧ (judgedInterval s idx).rails = w.rails ∧
    (judgedInterval s idx).power.pDie = sumN (s.activeRails.map (fun r => (s.rail r).power)) := by
  have hv : Judged s ((s.each s.activeRails State.compareRail).trustStep s.power.distrust) :=
    .after (judged_trustStep ..) (judged_compareRails ..)
  have hp : ∀ r, (((s.each s.activeRails State.compareRail).trustStep s.power.distrust).rail r).power = (s.rail r).power := fun r => by
    simp only [Rail.power, hv.mvs, hv.mas]
  have hd : ((s.each s.activeRails State.compareRail).trustStep s.power.distrust).dieInput.1 =
      sumN (s.activeRails.map (fun r => (s.rail r).power)) := by
    simp only [State.dieInput, hv.activeRails, hp]
  unfold judgedInterval
  generalize (s.each s.activeRails State.compareRail).trustStep s.power.distrust = v at hv hd ⊢
  have hw := judged_fastGuard v v.dieInput.2
  dsimp only
  generalize v.fastGuard v.dieInput.2 = w at hw ⊢
  have j := hv.trans hw
  exact ⟨w, j, j.keys, j.ivAt, j.bus, by rw [← j.k]; rfl, rfl, hd⟩

/-! ## The rows -/

theorem sample_done {u : State} (h : u.power.ivAt = some u.sampleAt) (rs : List RailReading) (m : List Nat) : u.sample rs m = u :=
  if_pos (by simp [h])

theorem capEval_done {u : State} {w : Nat} (h : u.power.capAt.getD w none = some (u.multAt (capPeriod w))) : u.capEval w = u := if_pos h

theorem capEval_empty {u : State} {w : Nat} (h : u.power.capAt.getD w none ≠ some (u.multAt (capPeriod w))) (hf : u.power.filter w = none) :
    u.capEval w = { u with power := { u.power with capAt := u.power.capAt.set w (some (u.multAt (capPeriod w))) } } := by
  have hf' : Power.filter { u.power with capAt := u.power.capAt.set w (some (u.multAt (capPeriod w))) } w = none := hf
  unfold State.capEval
  dsimp only
  rw [if_neg h, hf']

theorem capEval_steps {u : State} {w : Nat} {f : Frac} (h : u.power.capAt.getD w none ≠ some (u.multAt (capPeriod w)))
    (hf : u.power.filter w = some f) (hc : u.cvy.st = .none) : u.capEval w = { u with power := { u.power with
      capAt := u.power.capAt.set w (some (u.multAt (capPeriod w)))
      caps := u.power.caps.modify w (fun q => BitVec.ofNat 9 (capStep q.toNat (u.power.limits.getD w 0).toNat
        (if w = 0 then 8 else if w = 1 then 4 else 2) u.margin f))
      breach := if (u.power.limits.getD w 0).toNat * 65536 * f.den < f.num then u.power.breach.modify w satInc
        else u.power.breach } } := by
  have hf' : Power.filter { u.power with capAt := u.power.capAt.set w (some (u.multAt (capPeriod w))) } w = some f := hf
  unfold State.capEval
  dsimp only
  rw [if_neg h, hf']
  dsimp only
  rw [followCheck_single]
  · simp only [gt_iff_lt, unit16, decide_eq_true_eq]
    rfl
  · exact hc

theorem ledgerSnap_done {u : State} (h : u.ledger.snapAt = some (u.multAt 16000000)) : u.ledgerSnap = u := if_pos h

theorem ledgerSnap_due {u t : State} (h : u.ledger.snapAt ≠ some (u.multAt 16000000)) (ht : t = u.ledgerSnap) : t.ledger = { u.ledger with
      sAccts := u.ledger.accts, sParts := u.ledger.parts, tSnap := u.multAt 16000000, snapAt := some (u.multAt 16000000)
      sTiles := (List.range 16).map (fun p => (partTiles u.ledger.map p).length) } ∧
    t.tiles = u.tiles ∧ t.rails = u.rails ∧ t.power = u.power ∧ t.keys = u.keys := by
  unfold State.ledgerSnap at ht
  dsimp only at ht
  rw [if_neg h] at ht
  subst ht
  rw [(logged_logPacket ..).ledger, (logged_logPacket ..).tiles, (logged_logPacket ..).rails, (logged_logPacket ..).power,
    (logged_logPacket ..).keys]
  exact ⟨rfl, rfl, rfl, rfl, rfl⟩

/-! ## The theorem -/

section

variable {u t : State}

theorem sample_idle_facts {rs : List RailReading} (hm : u.mer.running = true) (hi : u.power.ivAt ≠ some u.sampleAt)
    (ha : u.activeRails = []) (ht : t = u.sample rs []) : t.power.ivAt = some u.sampleAt ∧ t.power.bus = [] ∧ t.power.pDie = 0 ∧
      t.power.caps = u.power.caps ∧ t.power.hist = u.power.hist ∧ t.power.cfgNow = u.power.cfg ∧ t.ledger.map = u.ledger.mapNext ∧
      (∀ i < u.tiles.length, (t.tile i).passLast = (u.tile i).passIv ∧ (t.tile i).passIv = 0 ∧ (t.tile i).estCnt = 0 ∧
        (t.tile i).st = (u.tile i).st) ∧ t.boot = u.boot ∧ t.keys = u.keys := by
  obtain ⟨⟨c, e, power⟩, boot, keys, map, -, tiles⟩ := intervalEnd_facts (ht.trans (sample_idle hm hi ha))
  rw [power, boot, keys, map]
  refine ⟨rfl, rfl, rfl, rfl, rfl, rfl, rfl, fun i hi => ?_, rfl, rfl⟩
  have hx : t.tile i = { u.tile i with passLast := (u.tile i).passIv, passIv := 0, estSum := 0, estCnt := 0 } := by
    simp [State.tile, tiles, hi]
  rw [hx]
  exact ⟨rfl, rfl, rfl, rfl⟩

/-- The interval of a single active rail reads that rail. -/
theorem takeReadings_one {b : BitVec 3} (mv ma : Nat) (ha : u.activeRails = [b.toNat]) (hp : u.onPmbus b.toNat = false) :
    u.takeReadings [{ rail := b, mv := mv, ma := ma }] =
      State.takeCurrent (State.takeVolt { u with power := { u.power with
        bus := [avsOp (u.rail b.toNat).map b.toNat 3 0 none, avsOp (u.rail b.toNat).map b.toNat 3 2 none] } } b.toNat mv) b.toNat ma := by
  have hb : (u.rail b.toNat).active = true := active_of_mem (by simp [ha])
  unfold State.takeReadings
  rw [ha]
  simp only [List.filter_cons, hp, Bool.not_false, if_true, List.filter_nil, List.flatMap_cons, List.flatMap_nil, List.append_nil]
  exact if_pos (by simpa [State.rail, hb, hp] using ⟨hb, hp⟩)

theorem sample_one_facts {b : BitVec 3} {mv ma : Nat} (hm : u.mer.running = true) (hi : u.power.ivAt ≠ some u.sampleAt)
    (ha : u.activeRails = [b.toNat]) (hl : b.toNat < u.rails.length) (hp : u.onPmbus b.toNat = false)
    (ht : t = u.sample [{ rail := b, mv := mv, ma := ma }] []) : t.power.pDie = mv * ma * 65536 / 1000 ∧
      t.power.ivAt = some u.sampleAt ∧
      t.power.bus = [avsOp (u.rail b.toNat).map b.toNat 3 0 none, avsOp (u.rail b.toNat).map b.toNat 3 2 none] ∧
      (t.rail b.toNat).mvs.head? = some mv ∧ (t.rail b.toNat).mas.head? = some ma ∧ t.power.k = u.power.k + 1 ∧
      (t.rail b.toNat).vset = (u.rail b.toNat).vset ∧ t.keys = u.keys := by
  have hv := takeReadings_one (u := { u with power := { u.power with ivAt := some u.sampleAt } }) mv ma ha hp
  obtain ⟨mvs, mas, vset, active, keys, ivAt, bus, k⟩ := takeReading_facts (s := { u with power := { u.power with
    ivAt := some u.sampleAt
    bus := [avsOp (u.rail b.toNat).map b.toNat 3 0 none, avsOp (u.rail b.toNat).map b.toNat 3 2 none] } }) mv ma hl hv
  generalize hw : State.takeReadings { u with power := { u.power with ivAt := some u.sampleAt } } [{ rail := b, mv := mv, ma := ma }] = v
    at mvs mas vset active keys ivAt bus k
  have hav : v.activeRails = [b.toNat] := (List.filter_congr (fun r _ => active r)).trans ha
  rw [sample_active hm hi hw.symm (by rw [hav]; rfl)] at ht
  obtain ⟨w, j, keys', ivAt', bus', k', rails', pDie'⟩ := judgedInterval_facts v (u.nowN / 160000 - 1)
  obtain ⟨⟨c, e, power⟩, -, keys'', -, rails'', -⟩ := intervalEnd_facts ht
  have hr : ∀ {α : Type} (P : Rail → α), (∀ x : Rail, P { x with estSum := 0, estCnt := 0, estBad := false } = P x) →
      P (t.rail b.toNat) = P (w.rail b.toNat) := by
    intro α P hP
    simp only [State.rail, rails'', rails', List.getD_eq_getElem?_getD, List.getElem?_map]
    cases w.rails[b.toNat]? with
    | none => rfl
    | some x => exact hP x
  have hpw : (v.rail b.toNat).power = mv * ma * 65536 / 1000 := by
    simp only [Rail.power, List.headD_eq_head?_getD, mvs, mas, Option.getD_some, unit16]
  refine ⟨?_, ?_, ?_, ?_, ?_, ?_, ?_, ?_⟩
  · rw [power]
    exact pDie'.trans (by rw [hav]; simp [sumN, hpw])
  · rw [power]
    exact ivAt'.trans ivAt
  · rw [power]
    exact bus'.trans bus
  · rw [hr Rail.mvs (fun _ => rfl), j.mvs, mvs]
  · rw [hr Rail.mas (fun _ => rfl), j.mas, mas]
  · rw [power]
    exact k'.trans (congrArg (· + 1) k)
  · rw [hr Rail.vset (fun _ => rfl), j.vset]
    exact vset _
  · rw [keys'', keys', keys]

end

/-- Settles O37: an interval, an evaluation and a snapshot that have been, and those that are due. -/
theorem powerIntervals : Obligations.PowerIntervals := by
  rintro dt s u rfl hr hm
  have interval : ∀ rs m, exec (.samplingInterval dt rs m) s = .next ((s.tick dt).sample rs (m.map (·.toNat))) :=
    fun rs m => (event_live _ hr : execSamplingInterval dt rs m s = _)
  have cap : ∀ b : BitVec 2, b.toNat < 3 → exec (.capEvaluation dt b) s = .next ((s.tick dt).capEval b.toNat) := fun b hb =>
    (event_live _ hr : execCapEvaluation dt b s = _).trans (congrArg _ (if_neg (by simp [hm, Nat.ne_of_lt hb])))
  have snap : exec (.ledgerSnapshot dt) s = .next (s.tick dt).ledgerSnap :=
    (event_live _ hr : execLedgerSnapshot dt s = _).trans (congrArg _ (if_pos hm))
  refine ⟨fun rs hi ha _ => ⟨_, interval rs [], sample_idle_facts hm hi ha rfl⟩, fun b mv ma hi ha hl hp =>
    ⟨_, interval _ [], sample_one_facts hm hi ha hl hp rfl⟩, fun rs m hi => ?_, ?_,
    fun hs => ⟨_, snap, ledgerSnap_due hs rfl⟩, fun hs => ?_⟩
  · rw [interval, sample_done hi]
  · rintro b w rfl hw
    refine ⟨fun f hc hf hv => ?_, fun hc hf => ?_, fun hc => ?_⟩
    · rw [cap b hw, capEval_steps hc hf hv]
    · rw [cap b hw, capEval_empty hc hf]
    · rw [cap b hw, capEval_done hc]
  · rw [snap, ledgerSnap_done hs]

end Sys2Proof.Proofs
end

section
/-! SUPPORT. The channels of the sextants: what a change of one channel leaves, and an edge at a capture unit (02 R67, R68; 03 R89, R91 to
R97). -/

namespace Sys2Proof.Proofs

open Sys2Proof.Machine Sys2Proof.Safety Sys2Proof.Laws

set_option Elab.async false

/-! ## One channel -/

theorem chan_modChan_same {s : State} {k : Nat} (f : Chan → Chan) (h : k < s.sxt.chans.length) : (s.modChan k f).chan k = f (s.chan k) := by
  simp [State.chan, State.modChan, h]

theorem chan_modChan_ne (s : State) {k j : Nat} (f : Chan → Chan) (h : j ≠ k) : (s.modChan k f).chan j = s.chan j := by
  simp [State.chan, State.modChan, Ne.symm h]

/-- What a channel's change leaves of every channel, it leaves in every channel of the state. -/
theorem chan_modChan_proj {α : Type} (P : Chan → α) {f : Chan → Chan} (h : ∀ x, P (f x) = P x) (s : State) (k j : Nat) :
    P ((s.modChan k f).chan j) = P (s.chan j) := by
  simp only [State.chan, State.modChan, List.getD_eq_getElem?_getD, List.getElem?_modify]
  cases s.sxt.chans[j]? with
  | none => rfl
  | some x => by_cases hi : k = j <;> simp [hi, h]

theorem modChan_modChan (s : State) (k : Nat) (f g : Chan → Chan) : (s.modChan k f).modChan k g = s.modChan k (g ∘ f) := by
  simp only [State.modChan, List.modify_modify_eq]

/-- A channel's change counts by what it makes of that channel. -/
theorem modChan_congr {s : State} {k : Nat} {f g : Chan → Chan} (h : f (s.chan k) = g (s.chan k)) : s.modChan k f = s.modChan k g := by
  have hl : s.sxt.chans.modify k f = s.sxt.chans.modify k g := by
    refine List.ext_getElem? (fun i => ?_)
    simp only [List.getElem?_modify]
    by_cases hi : k = i
    · subst hi
      simp only [State.chan, List.getD_eq_getElem?_getD] at h
      cases hr : s.sxt.chans[k]? with
      | none => rfl
      | some x => simpa [hr] using h
    · simp [hi]
  simp only [State.modChan, hl]

/-! ## An edge -/

section

variable {u : State} {k e : Nat} {lv : PinMove}

/-- What a channel needs to take an edge at `e` of a unit: armed, without a chain, its gate or its window open. -/
structure TakesEdge (u : State) (k e : Nat) : Prop where
  armed : (u.chan k).armed = true
  runs : u.sxRuns k = true
  chain : sxChain (u.chan k).setup = false
  gate : sxArm (u.chan k).setup = 1 → (u.chan k).gateAt + 16 ≤ u.boot.uptime
  window : sxArm (u.chan k).setup = 2 →
    0 ≤ lsbDiff e (8 * (u.chan k).open_.toNat) ∧ lsbDiff e (8 * (u.chan k).open_.toNat) < 8 * ((u.chan k).len.toNat : Int)

theorem gateTakes_open (h : TakesEdge u k e) : u.gateTakes (u.chan k) = (true, u) :=
  if_neg (by
    simp only [Bool.and_eq_true, beq_iff_eq, decide_eq_true_eq, not_and, Nat.not_lt]
    exact h.gate)

/-- An edge that the unit's source delivers comes to the dead time. -/
theorem edgeAt_delivered (h : TakesEdge u k e) (stop : Bool) {src : Nat}
    (hs : src = if stop then sxStop (u.chan k).setup else sxStart (u.chan k).setup) (hl : u.srcLive src = true)
    (he : u.isEdge src lv = (true, u)) : u.edgeAt k stop e lv = match if stop then (u.chan k).lStop else (u.chan k).lStart with
      | some l =>
        if 0 ≤ lsbDiff e l && lsbDiff e l < 256 then u.modChan k (fun c => { c with dead := satInc c.dead }) else u.accept94 k stop e
      | none => u.accept94 k stop e := by
  have hw : (sxArm (u.chan k).setup != 2 || (decide (0 ≤ lsbDiff e (8 * (u.chan k).open_.toNat)) &&
      decide (lsbDiff e (8 * (u.chan k).open_.toNat) < 8 * ((u.chan k).len.toNat : Int)))) = true := by
    by_cases ha : sxArm (u.chan k).setup = 2
    · simp [h.window ha]
    · simp [ha]
  have hp : (u.chan k).passes stop e = false := by simp [Chan.passes, h.chain]
  unfold State.edgeAt
  dsimp only
  rw [← hs, hw, hp, hl, h.armed, h.runs, he, gateTakes_open h]
  rfl

theorem edgeAt_accepted (h : TakesEdge u k e) (stop : Bool) {src : Nat}
    (hs : src = if stop then sxStop (u.chan k).setup else sxStart (u.chan k).setup) (hl : u.srcLive src = true)
    (he : u.isEdge src lv = (true, u))
    (hd : ∀ l, (if stop then (u.chan k).lStop else (u.chan k).lStart) = some l → lsbDiff e l < 0 ∨ 256 ≤ lsbDiff e l) :
    u.edgeAt k stop e lv = u.accept94 k stop e := by
  rw [edgeAt_delivered h stop hs hl he]
  split
  · rename_i l hx
    have := hd l hx
    exact if_neg (by simp only [Bool.and_eq_true, decide_eq_true_eq]; omega)
  · rfl

theorem edgeAt_dead (h : TakesEdge u k e) (hl : u.srcLive (sxStart (u.chan k).setup) = true)
    (he : u.isEdge (sxStart (u.chan k).setup) lv = (true, u)) {l : Nat} (hx : (u.chan k).lStart = some l) (h0 : 0 ≤ lsbDiff e l)
    (h1 : lsbDiff e l < 256) : u.edgeAt k false e lv = u.modChan k (fun c => { c with dead := satInc c.dead }) := by
  rw [edgeAt_delivered h false rfl hl he]
  simp only [Bool.false_eq_true, if_false, hx]
  exact if_pos (by simp [h0, h1])

/-- A movement that is no edge of the source changes nothing, but for the free choice within the first ns of a gate. -/
theorem edgeAt_none (he : u.isEdge (sxStart (u.chan k).setup) lv = (false, u)) (ha : sxArm (u.chan k).setup ≠ 1) :
    u.edgeAt k false e lv = u := by
  have hg : u.gateTakes (u.chan k) = (true, u) := if_neg (by simp [ha])
  unfold State.edgeAt
  simp only [Bool.false_eq_true, if_false, he, hg]
  exact ite_self ..

/-- A start edge with no pair in hand opens one. -/
theorem accept94_opens (hk : k < u.sxt.chans.length) (h0 : (u.chan k).pStart = none) (h1 : (u.chan k).pStop = none) :
    u.accept94 k false e = u.modChan k (fun y => u.meet k false { y with
      starts := satInc y.starts, lStart := some e, first := true, pStart := some e }) := by
  have hc : ((u.modChan k (fun c => { c with starts := satInc c.starts, lStart := some e, first := true })).chan k) =
      { u.chan k with starts := satInc (u.chan k).starts, lStart := some e, first := true } := chan_modChan_same _ hk
  unfold State.accept94
  simp only [Bool.false_eq_true, if_false, hc, h0, h1]
  exact modChan_modChan ..

end

/-! ## A result on its way -/

/-- What the Reckoner's samples leave of a channel. -/
theorem chan_feedSample {α : Type} (P : Chan → α) (h : ∀ x a b, P { x with aSum := a, aBad := b } = P x) (s : State) (k j : Nat) (p : Pair) :
    P ((s.feedSample k p).chan j) = P (s.chan j) := by
  unfold State.feedSample
  dsimp only
  split
  · exact chan_modChan_proj P (fun x => h x _ _) s k j
  · rfl

theorem feedSample_keeps (s : State) (k : Nat) (p : Pair) : (s.feedSample k p).xings = s.xings ∧ (s.feedSample k p).tiles = s.tiles ∧
    (s.feedSample k p).sxt.chans.length = s.sxt.chans.length := by
  unfold State.feedSample
  dsimp only
  split
  · exact ⟨rfl, rfl, List.length_modify ..⟩
  · exact ⟨rfl, rfl, rfl⟩

/-- A result into a FIFO that stays below a packet's records: it joins it, or a stale crossing drops it. -/
theorem deliver_fifo {s t : State} {k : Nat} {p : Pair} (hk : k < s.sxt.chans.length) (hs : sxStat (s.chan k).setup = false)
    (hd : sxDest (s.chan k).setup = true) (hf : (s.chan k).fifo.length < 7) (ht : t = s.deliver k p) :
    (t.chan k).pStart = (s.chan k).pStart ∧ (t.chan k).pStop = (s.chan k).pStop ∧ (t.chan k).stops = (s.chan k).stops ∧
      (t.chan k).setup = (s.chan k).setup ∧
      (s.xingOk (if k < 60 then 17 else 19) = true → (t.chan k).fifo = (s.chan k).fifo ++ [p.record k] ∧ (t.chan k).drops = (s.chan k).drops) ∧
      (s.xingOk (if k < 60 then 17 else 19) = false → (t.chan k).fifo = (s.chan k).fifo ∧ (t.chan k).drops = satInc (s.chan k).drops) ∧
      t.tiles = s.tiles := by
  obtain ⟨v, hv, hP, xings, tiles, hkv⟩ : ∃ v : State, v = (if (s.chan k).owner = .rck then s.feedSample k p else s) ∧
      (∀ {α : Type} (P : Chan → α), (∀ x a b, P { x with aSum := a, aBad := b } = P x) → P (v.chan k) = P (s.chan k)) ∧
      v.xings = s.xings ∧ v.tiles = s.tiles ∧ k < v.sxt.chans.length := by
    refine ⟨_, rfl, ?_⟩
    split
    · obtain ⟨xings, tiles, len⟩ := feedSample_keeps s k p
      exact ⟨fun P h => chan_feedSample P h s k k p, xings, tiles, len ▸ hk⟩
    · exact ⟨fun _ _ => rfl, rfl, rfl, hk⟩
  have hx : v.xingOk (if k < 60 then 17 else 19) = s.xingOk (if k < 60 then 17 else 19) := by simp only [State.xingOk, xings]
  have hfull : ¬ (s.chan k).fifo.length ≥ 16 := by omega
  unfold State.deliver at ht
  dsimp only at ht
  rw [← hv, hs, if_neg Bool.false_ne_true, hx, hd, if_pos rfl] at ht
  cases hxs : s.xingOk (if k < 60 then 17 else 19) with
  | false =>
    rw [hxs, if_pos (by simp)] at ht
    subst ht
    rw [chan_modChan_same _ hkv]
    exact ⟨hP Chan.pStart (fun _ _ _ => rfl), hP Chan.pStop (fun _ _ _ => rfl), hP Chan.stops (fun _ _ _ => rfl),
      hP Chan.setup (fun _ _ _ => rfl), nofun,
      fun _ => ⟨hP Chan.fifo (fun _ _ _ => rfl), congrArg satInc (hP Chan.drops (fun _ _ _ => rfl))⟩, tiles⟩
  | true =>
    have hlen : ¬ ((v.modChan k (fun c => { c with fifo := c.fifo ++ [p.record k], fifoAt := c.fifoAt ++ [v.boot.uptime] })).chan k).fifo.length
        ≥ 8 := by
      rw [chan_modChan_same _ hkv]
      simp only [List.length_append, List.length_cons, List.length_nil, hP Chan.fifo (fun _ _ _ => rfl)]
      omega
    rw [hxs, if_neg (by simp [hfull]), if_neg hlen] at ht
    subst ht
    rw [chan_modChan_same _ hkv]
    exact ⟨hP Chan.pStart (fun _ _ _ => rfl), hP Chan.pStop (fun _ _ _ => rfl), hP Chan.stops (fun _ _ _ => rfl),
      hP Chan.setup (fun _ _ _ => rfl), fun _ => ⟨congrArg (· ++ [p.record k]) (hP Chan.fifo (fun _ _ _ => rfl)),
        hP Chan.drops (fun _ _ _ => rfl)⟩, nofun, tiles⟩

end Sys2Proof.Proofs
end

section
/-! SUPPORT. A pair completed at a stop edge, the pins' comparators, and the edges of the gates (02 R67, R68; 03 R92 to R97). -/

namespace Sys2Proof.Proofs

open Sys2Proof.Machine Sys2Proof.Safety Sys2Proof.Laws

set_option Elab.async false

/-! ## A pair completed -/

/-- The flags of a pair in range: its sign, its zero, and what it met. -/
def pairFlags (c : Chan) (a e : Nat) : Nat := b2n (decide (lsbDiff e a < 0)) + 2 * b2n (decide (lsbDiff e a = 0)) + c.met

theorem pair_inRange {c : Chan} {a e : Nat} (h : (lsbDiff e a).natAbs < 2 ^ 31 - 1) :
    c.pair a e = { start := a, ival := lsbDiff e a, flags := pairFlags c a e } := by
  have h1 : ¬ lsbDiff e a > 2 ^ 31 - 1 := by omega
  have h2 : ¬ lsbDiff e a < -(2 ^ 31 - 1) := by omega
  simp only [Chan.pair, h1, h2, decide_false, Bool.or_false, if_false, pairFlags]
  rfl

theorem flag_bits : ∀ n z h a l b : Bool, bit (BitVec.ofNat 8 (b2n n + 2 * b2n z + (16 * b2n h + 32 * b2n a + 64 * b2n l + 128 * b2n b))) 0 = n ∧
    bit (BitVec.ofNat 8 (b2n n + 2 * b2n z + (16 * b2n h + 32 * b2n a + 64 * b2n l + 128 * b2n b))) 1 = z ∧
    bit (BitVec.ofNat 8 (b2n n + 2 * b2n z + (16 * b2n h + 32 * b2n a + 64 * b2n l + 128 * b2n b))) 2 = false := by decide

section

variable {u : State} {k e : Nat} {lv : PinMove}

/-- The state in which a pair that started at `a` and stops at `e` leaves its channel. -/
def paired (u : State) (k e : Nat) : State :=
  let v := u.modChan k (fun c => { c with stops := satInc c.stops, lStop := some e })
  let w := v.modChan k (v.meet k true)
  w.modChan k (fun c => w.meet k false { c with pStart := none, pStop := none, left := c.left - 1 })

/-- The channel of the pair, with what the pair met up to its stop edge. -/
def metChan (u : State) (k e : Nat) : Chan := u.meet k true { u.chan k with stops := satInc (u.chan k).stops, lStop := some e }

theorem chan_paired (hk : k < u.sxt.chans.length) :
    (paired u k e).chan k = u.meet k false { metChan u k e with pStart := none, pStop := none, left := (u.chan k).left - 1 } := by
  have h1 : k < (u.modChan k (fun c => { c with stops := satInc c.stops, lStop := some e })).sxt.chans.length := by
    simpa [State.modChan] using hk
  have h2 := chan_modChan_same (s := u) (fun c => { c with stops := satInc c.stops, lStop := some e }) hk
  unfold paired
  dsimp only
  rw [chan_modChan_same _ (by simpa [State.modChan] using hk), chan_modChan_same _ h1, h2]
  rfl

/-- A stop edge on a channel without chain and limit completes the pair in hand. -/
theorem accept94_completes {a : Nat} (hk : k < u.sxt.chans.length) (ha : (u.chan k).pStart = some a) (hc : sxChain (u.chan k).setup = false)
    {t : State} (ht : t = (paired u k e).deliver k ((metChan u k e).pair a e)) (hp : sxPairs (t.chan k).setup = 0) :
    u.accept94 k true e = t := by
  have h1 : k < (u.modChan k (fun c => { c with stops := satInc c.stops, lStop := some e })).sxt.chans.length := by
    simpa [State.modChan] using hk
  have h2 := chan_modChan_same (s := u) (fun c => { c with stops := satInc c.stops, lStop := some e }) hk
  unfold State.accept94
  simp only [if_true, h2, ha, hc, Bool.false_eq_true, if_false]
  unfold State.complete
  dsimp only
  rw [chan_modChan_same _ h1, h2]
  rw [show ∀ v : State, v = t → (if (sxPairs (v.chan k).setup ≠ 0 && (v.chan k).left = 0) = true then
    (v.modChan k (fun c => { c with setup := if sxArm c.setup = 2 then setFld c.setup 29 2 0 else c.setup })).disarmNow k else v) = t from
    fun v hv => by rw [hv, hp]; rfl]
  exact ht.symm

/-- A stop edge after a start edge forms the result of the pair, which a stale crossing drops. -/
theorem edgeAt_pairs {a : Nat} {t : State} (h : TakesEdge u k e) (hk : k < u.sxt.chans.length) (hl : u.srcLive (sxStop (u.chan k).setup) = true)
    (he : u.isEdge (sxStop (u.chan k).setup) lv = (true, u)) (ha : (u.chan k).pStart = some a)
    (hd : ∀ l, (u.chan k).lStop = some l → lsbDiff e l < 0 ∨ 256 ≤ lsbDiff e l) (hs : sxStat (u.chan k).setup = false)
    (hp : sxPairs (u.chan k).setup = 0) (hdest : sxDest (u.chan k).setup = true) (hf : (u.chan k).fifo.length < 7)
    (hr : (lsbDiff e a).natAbs < 2 ^ 31 - 1) (ht : t = u.edgeAt k true e lv) :
    (t.chan k).pStart = none ∧ (t.chan k).pStop = none ∧ (t.chan k).stops = satInc (u.chan k).stops ∧
      (u.xingOk (if k < 60 then 17 else 19) = true → (t.chan k).fifo = (u.chan k).fifo ++
        [({ start := a, ival := lsbDiff e a, flags := pairFlags (metChan u k e) a e } : Pair).record k] ∧ (t.chan k).drops = (u.chan k).drops) ∧
      (u.xingOk (if k < 60 then 17 else 19) = false → (t.chan k).fifo = (u.chan k).fifo ∧ (t.chan k).drops = satInc (u.chan k).drops) ∧
      t.tiles = u.tiles := by
  have hc := chan_paired (e := e) hk
  obtain ⟨pStart, pStop, stops, setup, pass, stale, tiles⟩ := deliver_fifo (s := paired u k e) (k := k) (p := (metChan u k e).pair a e)
    (by simpa [paired, State.modChan] using hk) (by rw [hc]; exact hs) (by rw [hc]; exact hdest) (by rw [hc]; exact hf) rfl
  rw [edgeAt_accepted h true rfl hl he hd, accept94_completes hk ha h.chain rfl (by rw [setup, hc]; exact hp)] at ht
  subst ht
  rw [pStart, pStop, stops, tiles]
  rw [hc, pair_inRange hr] at pass stale
  rw [hc, pair_inRange hr]
  exact ⟨rfl, rfl, rfl, pass, stale, rfl⟩

end

/-! ## The pins -/

theorem isEdge_pin {u : State} {src : Nat} {lv : PinMove} {x y : Bool} (hs : src ≤ 7)
    (hx : pinReads (u.sxt.dac.getD src 0) lv.before = some x) (hy : pinReads (u.sxt.dac.getD src 0) lv.after = some y) :
    u.isEdge src lv = (x != y && (u.sxt.slope.getD src .rising).takes y, u) := by
  rw [State.isEdge, if_pos hs, State.pinEdge, hx, hy]

/-! ## What one channel's end leaves of the rest -/

/-- A change at one channel: tiles, gates and the other channels stay. -/
structure OnChan (k : Nat) (s t : State) : Prop where
  tiles : t.tiles = s.tiles
  gates : t.sxt.gates = s.sxt.gates
  others : ∀ j, j ≠ k → t.chan j = s.chan j

/-- A change at one channel that leaves the setups that wait there. -/
structure Waiting (k : Nat) (s t : State) : Prop extends OnChan k s t where
  waits : (t.chan k).waits = (s.chan k).waits

namespace OnChan

variable {k : Nat} {s t u : State}

theorem refl (s : State) : OnChan k s s := ⟨rfl, rfl, fun _ _ => rfl⟩
theorem trans (a : OnChan k s t) (b : OnChan k t u) : OnChan k s u :=
  ⟨b.tiles.trans a.tiles, b.gates.trans a.gates, fun j hj => (b.others j hj).trans (a.others j hj)⟩
theorem modChan (s : State) (f : Chan → Chan) : OnChan k s (s.modChan k f) := ⟨rfl, rfl, fun _ hj => chan_modChan_ne s f hj⟩

end OnChan

namespace Waiting

variable {k : Nat} {s t u : State}

theorem refl (s : State) : Waiting k s s := ⟨.refl s, rfl⟩
theorem trans (a : Waiting k s t) (b : Waiting k t u) : Waiting k s u := ⟨a.toOnChan.trans b.toOnChan, b.waits.trans a.waits⟩
/-- The parts of a change from the last to the first. -/
theorem after (b : Waiting k t u) (a : Waiting k s t) : Waiting k s u := a.trans b
theorem ite {p : Prop} [Decidable p] (ha : p → Waiting k s t) (hb : ¬ p → Waiting k s u) : Waiting k s (if p then t else u) := by
  split
  · exact ha ‹_›
  · exact hb ‹_›
theorem modChan (s : State) {f : Chan → Chan} (h : ∀ x, (f x).waits = x.waits) : Waiting k s (s.modChan k f) :=
  ⟨.modChan s f, chan_modChan_proj _ h s k k⟩
theorem logged (h : Logged s t) : Waiting k s t :=
  ⟨⟨h.tiles, by rw [h.sxt], fun j _ => by simp only [State.chan, h.sxt]⟩, by simp only [State.chan, h.sxt]⟩

end Waiting

theorem waiting_feedSample (s : State) (k : Nat) (p : Pair) : Waiting k s (s.feedSample k p) := by
  unfold State.feedSample
  dsimp only
  split
  · exact .modChan s (fun _ => rfl)
  · exact ⟨⟨rfl, rfl, fun _ _ => rfl⟩, rfl⟩

theorem waiting_sxPacket (s : State) (k : Nat) : Waiting k s (s.sxPacket k) := by
  unfold State.sxPacket
  dsimp only
  split
  · exact .refl s
  · exact (Waiting.modChan s (f := fun c => { c with
      fifo := c.fifo.drop ((s.chan k).fifo.take 8).length, fifoAt := c.fifoAt.drop ((s.chan k).fifo.take 8).length }) (fun _ => rfl)).trans
      (.logged ⟨rfl⟩)

theorem waiting_drain (s : State) (k : Nat) : Waiting k s (s.drain k) := by
  unfold State.drain
  dsimp only
  split
  · exact .refl s
  · have h := Waiting.modChan (k := k) s (f := fun c => { c with
      fifo := c.fifo.drop (min (s.chan k).fifo.length (4096 - s.sxt.buffer.length))
      fifoAt := c.fifoAt.drop (min (s.chan k).fifo.length (4096 - s.sxt.buffer.length)) }) (fun _ => rfl)
    exact ⟨⟨h.tiles, h.gates, h.others⟩, h.waits⟩

theorem waiting_deliver (s : State) (k : Nat) (p : Pair) : Waiting k s (s.deliver k p) := by
  unfold State.deliver
  extract_lets c v w
  have hv : Waiting k s v := by
    unfold v
    split
    · exact waiting_feedSample ..
    · exact .refl s
  have hw : Waiting k s w := .after (.modChan v (fun _ => rfl)) hv
  refine .ite (fun _ => .after (.modChan v (fun x => ?_)) hv) (fun _ => .ite (fun _ => .after (.modChan v (fun _ => rfl)) hv) (fun _ =>
    .ite (fun _ => .ite (fun _ => .after (waiting_sxPacket ..) hw) (fun _ => hw)) (fun _ => .after (waiting_drain ..) hw)))
  unfold Chan.stat
  dsimp only
  split <;> rfl

theorem waiting_lone (s : State) (k : Nat) : Waiting k s (s.lone k).1 := by
  unfold State.lone
  dsimp only
  split
  · exact .after (waiting_deliver ..) (.modChan s (fun _ => rfl))
  · exact .after (waiting_deliver ..) (.modChan s (fun _ => rfl))
  · exact .refl s

theorem waiting_disarm (s : State) (k : Nat) : Waiting k s (s.disarm k).1 := by
  unfold State.disarm
  split
  · exact .refl s
  · exact (waiting_lone s k).trans (.modChan _ (fun _ => rfl))

/-- A channel that has disarmed is not armed. -/
theorem disarm_armed (s : State) (k : Nat) : ((s.disarm k).1.chan k).armed = false := by
  unfold State.disarm
  split
  · rename_i h
    simpa using h
  · dsimp only
    generalize (s.lone k).1 = v
    simp only [State.chan, State.modChan, List.getD_eq_getElem?_getD, List.getElem?_modify, if_true]
    cases v.sxt.chans[k]? <;> rfl

theorem onChan_finishO (k : Nat) (s : State) (m : Option (BitVec 3)) (r : Resp) : OnChan k s (s.finishO m r) := by
  have hp : ∀ (v : State) (n : BitVec 3), (v.publish n).sxt = v.sxt := fun v n => by
    unfold State.publish
    dsimp only
    split
    · rfl
    · split <;> rfl
  cases m with
  | none => exact .refl s
  | some n =>
    have hx : (s.finishO (some n) r).sxt = s.sxt := hp _ n
    exact ⟨(still_finish s n r).tiles, by rw [hx], fun j _ => by simp only [State.chan, hx]⟩

theorem onChan_nextSetup (s : State) (k : Nat) : OnChan k s (s.nextSetup k) := by
  unfold State.nextSetup
  dsimp only
  split
  · split
    · exact .refl s
    · split
      · exact (OnChan.modChan s _).trans (onChan_finishO ..)
      · exact ((OnChan.modChan s _).trans (.modChan _ _)).trans (onChan_finishO ..)
  · exact .refl s

theorem onChan_takeSetups (s : State) (k : Nat) : OnChan k s (s.takeSetups k) :=
  List.foldlRecOn (motive := fun t => OnChan k s t) _ _ (.refl s) (fun _ hb _ _ => hb.trans (onChan_nextSetup _ k))

theorem takeSetups_none {s : State} {k : Nat} (h : (s.chan k).waits = []) : s.takeSetups k = s := by
  unfold State.takeSetups
  rw [h]
  rfl

theorem onChan_disarmNow (s : State) (k : Nat) : OnChan k s (s.disarmNow k) := (waiting_disarm s k).toOnChan.trans (onChan_takeSetups ..)

/-- A channel that disarms with no setup waiting stays disarmed. -/
theorem disarmNow_armed {s : State} {k : Nat} (h : (s.chan k).waits = []) : ((s.disarmNow k).chan k).armed = false := by
  rw [State.disarmNow, takeSetups_none ((waiting_disarm s k).waits.trans h)]
  exact disarm_armed s k

end Sys2Proof.Proofs
end

section
/-! SUPPORT. The gates and windows of the sextants, and the rotation's passes (03 R92, R93, R99, R100). -/

namespace Sys2Proof.Proofs

open Sys2Proof.Machine Sys2Proof.Safety Sys2Proof.Laws

set_option Elab.async false

/-! ## A step for each channel -/

/-- A fold over channels in which each step touches its own channel: tiles and gates stay, a channel that comes later is as it was, and
what its own step makes of a channel lasts. -/
theorem each_onChan {f : State → Nat → State} (hf : ∀ s k, OnChan k s (f s k)) (s : State) (l : List Nat) :
    (s.each l f).tiles = s.tiles ∧ (s.each l f).sxt.gates = s.sxt.gates ∧ ∀ j ∉ l, (s.each l f).chan j = s.chan j := by
  refine List.foldlRecOn (motive := fun t : State => t.tiles = s.tiles ∧ t.sxt.gates = s.sxt.gates ∧ ∀ j ∉ l, t.chan j = s.chan j) _ _
    ⟨rfl, rfl, fun _ _ => rfl⟩ (fun t ht k hk => ?_)
  obtain ⟨tiles, gates, others⟩ := ht
  have h := hf t k
  exact ⟨h.tiles.trans tiles, h.gates.trans gates, fun j hj => (h.others j (fun e => hj (e ▸ hk))).trans (others j hj)⟩

/-- What a channel's own step makes of it, in a fold over distinct channels. -/
theorem each_own {f : State → Nat → State} (hf : ∀ s k, OnChan k s (f s k)) {l : List Nat} (hn : l.Nodup) (s : State) {j : Nat}
    (hj : j ∈ l) : ∃ v : State, v.chan j = s.chan j ∧ (s.each l f).chan j = (f v j).chan j ∧ ∀ P : State → Prop,
      (∀ t k, P t → P (f t k)) → P s → P v := by
  obtain ⟨l₁, l₂, rfl⟩ := List.append_of_mem hj
  have hd := List.nodup_append.1 hn
  have h1 : j ∉ l₁ := fun h => hd.2.2 j h j (List.mem_cons_self ..) rfl
  have h2 : j ∉ l₂ := (List.nodup_cons.1 hd.2.1).1
  refine ⟨s.each l₁ f, (each_onChan hf s l₁).2.2 j h1, ?_, fun P hP hs => List.foldlRecOn (motive := P) _ _ hs (fun t ht k _ => hP t k ht)⟩
  have he : s.each (l₁ ++ j :: l₂) f = (f (s.each l₁ f) j).each l₂ f := by simp only [State.each, List.foldl_append, List.foldl_cons]
  rw [he]
  exact (each_onChan hf _ l₂).2.2 j h2

/-! ## The gates -/

theorem setFld_gate : ∀ (g : BitVec 4) (p : BitVec 2), setFld g p.toNat 1 1 = g ||| ((1 : BitVec 4) <<< p.toNat) ∧
    setFld g p.toNat 1 0 = g &&& ~~~((1 : BitVec 4) <<< p.toNat) := by decide

/-- A channel's part of the rise of a gate pin. -/
def gateArm (pin : Nat) (s : State) (ch : Nat) : State :=
  let c := s.chan ch
  if sxArm c.setup = 1 && sxPin c.setup = pin then
    let s := s.modChan ch (fun c => { c with gateAt := s.boot.uptime })
    if c.armed || !s.sxRuns ch || (sxOnce c.setup && c.gateUsed) then s
    else (s.armNow ch).modChan ch (fun c => { c with gateUsed := true })
  else s

/-- A channel's part of the fall of a gate pin. -/
def gateDisarm (pin : Nat) (s : State) (ch : Nat) : State :=
  let c := s.chan ch
  if sxArm c.setup = 1 && sxPin c.setup = pin then
    let s := s.modChan ch (fun c => { c with
      gateAt := s.boot.uptime, setup := if sxOnce c.setup && c.gateUsed then setFld c.setup 29 2 0 else c.setup })
    s.disarmNow ch
  else s

theorem gateRise_each (s : State) (pin : Nat) :
    s.gateRise pin = State.each { s with sxt := { s.sxt with gates := setFld s.sxt.gates pin 1 1 } } (List.range 64) (gateArm pin) := rfl

theorem gateFall_each (s : State) (pin : Nat) :
    s.gateFall pin = State.each { s with sxt := { s.sxt with gates := setFld s.sxt.gates pin 1 0 } } (List.range 64) (gateDisarm pin) := rfl

theorem onChan_gateArm (pin : Nat) (s : State) (k : Nat) : OnChan k s (gateArm pin s k) := by
  unfold gateArm
  dsimp only
  split
  · split
    · exact .modChan s _
    · exact ((OnChan.modChan s _).trans (.modChan _ _)).trans (.modChan _ _)
  · exact .refl s

theorem onChan_gateDisarm (pin : Nat) (s : State) (k : Nat) : OnChan k s (gateDisarm pin s k) := by
  unfold gateDisarm
  dsimp only
  split
  · exact (OnChan.modChan s _).trans (onChan_disarmNow ..)
  · exact .refl s

/-- What a channel's arming needs of the state beside the channel. -/
theorem gateArm_runs (pin : Nat) (s : State) (k j : Nat) : (gateArm pin s k).sxRuns j = s.sxRuns j ∧
    (gateArm pin s k).sxt.chans.length = s.sxt.chans.length := by
  unfold gateArm
  dsimp only
  split
  · split
    · exact ⟨rfl, List.length_modify ..⟩
    · exact ⟨rfl, by simp [State.armNow, State.modChan]⟩
  · exact ⟨rfl, rfl⟩

theorem gateArm_arms {pin : Nat} {s : State} {k : Nat} (hk : k < s.sxt.chans.length) (ha : sxArm (s.chan k).setup = 1)
    (hp : sxPin (s.chan k).setup = pin) (hr : s.sxRuns k = true) (hn : (s.chan k).armed = false)
    (ho : (sxOnce (s.chan k).setup && (s.chan k).gateUsed) = false) :
    ((gateArm pin s k).chan k).armed = true ∧ ((gateArm pin s k).chan k).gateUsed = true := by
  have h1 : k < (s.modChan k (fun c => { c with gateAt := s.boot.uptime })).sxt.chans.length := by simpa [State.modChan] using hk
  have h2 : k < (State.armNow (s.modChan k (fun c => { c with gateAt := s.boot.uptime })) k).sxt.chans.length := by
    simpa [State.armNow, State.modChan] using hk
  have hr' : (s.modChan k (fun c => { c with gateAt := s.boot.uptime })).sxRuns k = true := hr
  have he : gateArm pin s k = (State.armNow (s.modChan k (fun c => { c with gateAt := s.boot.uptime })) k).modChan k
      (fun c => { c with gateUsed := true }) := by
    unfold gateArm
    dsimp only
    rw [if_pos (by simp [ha, hp]), if_neg (by rw [hn, hr', ho]; simp)]
  rw [he, chan_modChan_same _ h2, State.armNow, chan_modChan_same _ h1]
  exact ⟨rfl, rfl⟩

theorem gateRise_facts {u t : State} {pin : BitVec 2} (hl : u.sxt.chans.length = 64) (ht : t = u.gateRise pin.toNat) :
    t.sxt.gates = u.sxt.gates ||| ((1 : BitVec 4) <<< pin.toNat) ∧ t.tiles = u.tiles ∧
      ∀ j < 64, sxArm (u.chan j).setup = 1 → sxPin (u.chan j).setup = pin.toNat → u.sxRuns j = true → (u.chan j).armed = false →
        (sxOnce (u.chan j).setup && (u.chan j).gateUsed) = false → (t.chan j).armed = true ∧ (t.chan j).gateUsed = true := by
  rw [gateRise_each] at ht
  subst ht
  obtain ⟨tiles, gates, -⟩ := each_onChan (onChan_gateArm pin.toNat)
    { u with sxt := { u.sxt with gates := setFld u.sxt.gates pin.toNat 1 1 } } (List.range 64)
  refine ⟨gates.trans (setFld_gate ..).1, tiles, fun j hj ha hp hr hn ho => ?_⟩
  obtain ⟨v, hc, he, hP⟩ := each_own (onChan_gateArm pin.toNat) List.nodup_range
    { u with sxt := { u.sxt with gates := setFld u.sxt.gates pin.toNat 1 1 } } (List.mem_range.2 hj)
  have hc' : v.chan j = u.chan j := hc
  obtain ⟨hrv, hlv⟩ := hP (fun t => t.sxRuns j = true ∧ t.sxt.chans.length = 64)
    (fun t k h => by rw [(gateArm_runs ..).1, (gateArm_runs _ _ _ j).2]; exact h) ⟨hr, hl⟩
  rw [he]
  rw [← hc'] at ha hp hn ho
  exact gateArm_arms (hlv ▸ hj) ha hp hrv hn ho

theorem gateFall_facts {u t : State} {pin : BitVec 2} (ht : t = u.gateFall pin.toNat) :
    t.sxt.gates = u.sxt.gates &&& ~~~((1 : BitVec 4) <<< pin.toNat) ∧ t.tiles = u.tiles ∧
      ∀ j < 64, sxArm (u.chan j).setup = 1 → sxPin (u.chan j).setup = pin.toNat → (u.chan j).waits = [] → (t.chan j).armed = false := by
  rw [gateFall_each] at ht
  subst ht
  obtain ⟨tiles, gates, -⟩ := each_onChan (onChan_gateDisarm pin.toNat)
    { u with sxt := { u.sxt with gates := setFld u.sxt.gates pin.toNat 1 0 } } (List.range 64)
  refine ⟨gates.trans (setFld_gate ..).2, tiles, fun j hj ha hp hw => ?_⟩
  obtain ⟨v, hc, he, -⟩ := each_own (onChan_gateDisarm pin.toNat) List.nodup_range
    { u with sxt := { u.sxt with gates := setFld u.sxt.gates pin.toNat 1 0 } } (List.mem_range.2 hj)
  have hc' : v.chan j = u.chan j := hc
  rw [he]
  unfold gateDisarm
  dsimp only
  rw [hc', if_pos (by simp [ha, hp])]
  refine disarmNow_armed ((chan_modChan_proj Chan.waits (f := fun c => { c with
    gateAt := v.boot.uptime, setup := if sxOnce c.setup && c.gateUsed then setFld c.setup 29 2 0 else c.setup }) (fun _ => rfl) v j j).trans ?_)
  rw [hc', hw]

/-! ## Windows, the rotation and the age of a calibration -/

section

variable {u : State} {k : Nat}

theorem windowOpen_arms (ha : sxArm (u.chan k).setup = 2) (hn : (u.chan k).armed = false) (hr : u.sxRuns k = true)
    (hw : (u.sxNow k - (u.chan k).open_).toNat < (u.chan k).len.toNat) (h0 : sxStart (u.chan k).setup ≠ 0x802)
    (h1 : sxStop (u.chan k).setup ≠ 0x802) : u.windowOpen k = u.modChan k (fun y => { y with
      armed := true, left := sxPairs y.setup, first := false, pStart := none, pStop := none, armAt := u.boot.uptime }) := by
  unfold State.windowOpen
  dsimp only
  rw [if_neg (by simp [ha, hn, hr, hw, -BitVec.toNat_sub]), if_neg h0, if_neg h1]
  rfl

theorem windowClose_disarms (ha : sxArm (u.chan k).setup = 2) (hq : (u.chan k).waits = []) (h0 : (u.chan k).pStart = none)
    (h1 : (u.chan k).pStop = none) (hw : (u.chan k).len.toNat ≤ (u.sxNow k - (u.chan k).open_).toNat)
    (hp : (u.sxNow k - (u.chan k).open_).toNat < 2 ^ 63) (hk : k < u.sxt.chans.length) :
    u.windowClose k = u.modChan k (fun y => { y with setup := setFld y.setup 29 2 0, armed := false }) := by
  have hc := chan_modChan_same (s := u) (fun c => { c with setup := setFld c.setup 29 2 0 }) hk
  have hd : ((u.modChan k (fun c => { c with setup := setFld c.setup 29 2 0 })).disarm k).1 =
      u.modChan k (fun y => { y with setup := setFld y.setup 29 2 0, armed := false }) := by
    unfold State.disarm
    rw [hc]
    cases hn : (u.chan k).armed with
    | false => exact modChan_congr (by rw [← hn])
    | true =>
      simp only [State.lone, hc, h0, h1, Bool.not_true, Bool.false_eq_true, if_false]
      exact modChan_modChan ..
  unfold State.windowClose
  dsimp only
  rw [if_neg (by simpa [ha, hw, -BitVec.toNat_sub] using hp), State.disarmNow, hd, takeSetups_none]
  rw [chan_modChan_same _ hk]
  exact hq

theorem serviceCal_begins (p : Bool) (hr : u.sxRuns k = true) (hs : u.sxt.svc = none) (hn : (u.chan k).armed = false)
    (ha : sxArm (u.chan k).setup = 0) (hc : (u.chan k).caling = false) : u.serviceCal k p = { u with sxt := { u.sxt with
      chans := u.sxt.chans.modify k (fun y => { y with caling := true, owner := if y.owner = .none then .service else y.owner })
      svc := some (k, u.boot.uptime) } } := by
  unfold State.serviceCal
  rw [hr, hs, if_neg (by simp)]
  exact if_neg (by simp [Chan.off, hn, ha, hc])

theorem serviceCal_armed (p : Bool) (hs : u.sxt.svc = none) (ha : (u.chan k).armed = true ∨ sxArm (u.chan k).setup ≠ 0) :
    u.serviceCal k p = u := by
  unfold State.serviceCal
  split
  · rfl
  · rw [hs]
    exact if_pos (by obtain h | h := ha <;> simp [Chan.off, h])

theorem serviceCal_ends (p : Bool) {t0 : Nat} (hk : k < u.sxt.chans.length) (hr : u.sxRuns k = true) (hs : u.sxt.svc = some (k, t0))
    (ht : t0 + 33554432 ≤ u.boot.uptime) (hw : (u.chan k).waits = []) : u.serviceCal k p = { u with
      sxt := { u.sxt with
        svc := none
        chans := u.sxt.chans.modify k (fun y => { y with
          owner := if y.owner = .service then .none else y.owner
          cal := y.cal || p, caling := false, failed := !p, calAge := false, calAt := u.boot.uptime }) }
      tests := { u.tests with rotCh := (k + 1) % 64 } } := by
  have hm := modChan_modChan u k (fun c => { c with owner := if c.owner = .service then .none else c.owner })
    (fun c => { c with cal := c.cal || p, caling := false, failed := !p, calAge := false, calAt := u.boot.uptime })
  have he : State.endCal (u.modChan k (fun c => { c with owner := if c.owner = .service then .none else c.owner })) k p =
      u.modChan k (fun y => { y with
        owner := if y.owner = .service then .none else y.owner
        cal := y.cal || p, caling := false, failed := !p, calAge := false, calAt := u.boot.uptime }) := by
    unfold State.endCal
    dsimp only
    rw [State.modChan_boot, hm, takeSetups_none]
    · rfl
    · rw [chan_modChan_same _ hk]
      exact hw
  unfold State.serviceCal
  rw [hr, hs]
  dsimp only
  rw [if_neg (by simp), if_pos (by simp [passMt, ht]), State.serviceEnd, he]
  rfl

theorem serviceCal_waits (p : Bool) {t0 : Nat} (hs : u.sxt.svc = some (k, t0)) (ht : u.boot.uptime < t0 + 33554432) :
    u.serviceCal k p = u := by
  unfold State.serviceCal
  split
  · rfl
  · rw [hs]
    exact if_neg (by simp [passMt, ht])

end

/-- Settles O41: the edges by unit and by what their channel holds, the pins by their comparators, and each arming and pass by what is
due. -/
theorem sextantEvents : Obligations.SextantEvents := by
  rintro dt b k s u c rfl hr rfl rfl hl
  have hk : b.toNat < (s.tick dt).sxt.chans.length := hl ▸ b.isLt
  have edge : ∀ stop f lv, exec (.sextantEdge dt b stop ⟨f, lv⟩) s =
      .next ((s.tick dt).edgeAt b.toNat stop (8 * ((s.tick dt).sxNow b.toNat).toNat + f.toNat) lv) :=
    fun stop f lv => (event_live _ hr : execSextantEdge dt b stop ⟨f, lv⟩ s = _)
  have gate : ∀ pin rise, exec (.gateEdge dt pin rise) s =
      .next (if rise then (s.tick dt).gateRise pin.toNat else (s.tick dt).gateFall pin.toNat) :=
    fun pin rise => (event_live _ hr : execGateEdge dt pin rise s = _)
  have service : ∀ p, exec (.sextantServiceCal dt b p) s = .next ((s.tick dt).serviceCal b.toNat p) :=
    fun p => (event_live _ hr : execSextantServiceCal dt b p s = _)
  refine ⟨?_, fun src lv => ⟨fun h => if_neg (by omega), fun x y hs hx hy => isEdge_pin hs hx hy⟩, fun pin =>
    ⟨⟨_, gate pin true, gateRise_facts hl rfl⟩, ⟨_, gate pin false, gateFall_facts rfl⟩⟩, fun ha hn hrun hw h0 h1 => ?_,
    fun ha hq h0 h1 hw hp => ?_, fun p hrun hs => ⟨fun hn ha hc => ?_, fun ha => ?_⟩, fun p t0 hrun hs => ⟨fun ht hw => ?_, fun ht => ?_⟩,
    fun ha ht => ?_⟩
  · rintro f lv e rfl ha hrun hc hg hw
    have h : TakesEdge (s.tick dt) b.toNat (8 * ((s.tick dt).sxNow b.toNat).toNat + f.toNat) := ⟨ha, hrun, hc, hg, hw⟩
    refine ⟨fun hsrc he => ⟨fun hd h0 h1 => ?_, fun l hx h0 h1 => ?_⟩, fun a hsrc he hst hd hs hp hdest hf hrange => ?_, fun he ha1 => ?_⟩
    · rw [edge, edgeAt_accepted h false rfl hsrc he hd, accept94_opens hk h0 h1]
    · rw [edge, edgeAt_dead h hsrc he hx h0 h1]
    · obtain ⟨pStart, pStop, stops, pass, stale, tiles⟩ := edgeAt_pairs h hk hsrc he hst hd hs hp hdest hf hrange rfl
      obtain ⟨b0, b1, b2⟩ := flag_bits (decide (lsbDiff (8 * ((s.tick dt).sxNow b.toNat).toNat + f.toNat) a < 0))
        (decide (lsbDiff (8 * ((s.tick dt).sxNow b.toNat).toNat + f.toNat) a = 0)) (metChan (s.tick dt) b.toNat _).fHold
        (metChan (s.tick dt) b.toNat _).fAna (metChan (s.tick dt) b.toNat _).fLock (metChan (s.tick dt) b.toNat _).fBrk
      exact ⟨_, _, edge true f lv, pStart, pStop, stops, pass, stale, b0, b1, b2, tiles⟩
    · rw [edge, edgeAt_none he ha1]
  · exact (event_live _ hr : execWindowOpen dt b s = _).trans (congrArg _ (windowOpen_arms ha hn hrun hw h0 h1))
  · exact (event_live _ hr : execWindowClose dt b s = _).trans (congrArg _ (windowClose_disarms ha hq h0 h1 hw hp hk))
  · rw [service, serviceCal_begins p hrun hs hn ha hc]
  · rw [service, serviceCal_armed p hs ha]
  · rw [service, serviceCal_ends p hk hrun hs ht hw]
  · rw [service, serviceCal_waits p hs ht]
  · exact (event_live _ hr : execCalAge dt b s = _).trans (congrArg _ (if_pos (by simp [ha, ht])))

end Sys2Proof.Proofs
end

section
/-! SUPPORT. What one step can do to the block, and the sizes and canonical memories that it keeps (01 R25, R30; 06 R166; 13 R317; 15 R358). -/

namespace Sys2Proof.Proofs

open Sys2Proof.Machine Sys2Proof.Safety Sys2Proof.Laws

set_option Elab.async false

/-- A step leaves the block as it is, keeps what every operation keeps, or is a block reset. -/
theorem step_kept_or_reset {s t : State} (h : step s = .next t) :
    t = s ∨ (∃ r, Kept { s with pending := r } t) ∨ ∃ v por, t = State.inBlockReset v por := by
  unfold step at h
  split at h
  · exact .inl (Host.Outcome.next.inj h).symm
  · next c r _ =>
    by_cases hr : ∀ dt, c ≠ .brnRstAssert dt ∧ c ≠ .powerOnMonitor dt
    · exact .inr (.inl ⟨r, (safe_exec hr h).toKept⟩)
    · obtain ⟨dt, hc⟩ := not_forall.1 hr
      obtain rfl | rfl : c = .brnRstAssert dt ∨ c = .powerOnMonitor dt := by simpa [or_iff_not_imp_left] using hc
      · exact .inr (.inr ⟨_, false, (Host.Outcome.next.inj h).symm⟩)
      · exact .inr (.inr ⟨_, true, (Host.Outcome.next.inj h).symm⟩)

theorem memOk_inBlockReset (s : State) (por : Bool) : MemOk (s.inBlockReset por) := ⟨rfl, rfl⟩

theorem sized_inBlockReset (s : State) (por : Bool) : Sized (s.inBlockReset por) := by
  have reset : State.reset.tiles.length = 256 := List.length_replicate (a := ({} : Tile))
  have tiles : (s.inBlockReset por).tiles.length = State.reset.tiles.length := by
    simp only [State.inBlockReset, List.length_mapIdx]
  exact ⟨tiles.trans reset, rfl, rfl, rfl, rfl, rfl, rfl⟩

/-- Settles O56: a step changes nothing, keeps what every operation keeps, or takes the block to its reset arrays. -/
theorem structureInvariant : Obligations.StructureInvariant := by
  intro s t hm hs h
  obtain rfl | ⟨_, k⟩ | ⟨v, por, rfl⟩ := step_kept_or_reset h
  · exact ⟨hm, hs⟩
  · exact ⟨k.mem hm, k.sized hs⟩
  · exact ⟨memOk_inBlockReset v por, sized_inBlockReset v por⟩

end Sys2Proof.Proofs
end

section
/-! SUPPORT. The sextant commands by host firmware, 0x50 to 0x55 (03 R89, R91 to R94, R97 to R100; 14 R338): what each form and each rule
of state asks of a channel below 60, and the buffered records that a read takes. -/

namespace Sys2Proof.Proofs

open Sys2Proof.Machine Sys2Proof.Safety Sys2Proof.Laws

set_option Elab.async false

/-! ## A request on a channel that host firmware may name -/

@[simp] theorem chan_posted (u : State) (op : Byte) (q : Req) (n : Nat) : (posted u op q).chan n = u.chan n := rfl
@[simp] theorem tile_posted (u : State) (op : Byte) (q : Req) (i : Nat) : (posted u op q).tile i = u.tile i := rfl
@[simp] theorem xingOk_posted (u : State) (op : Byte) (q : Req) (x : Nat) : (posted u op q).xingOk x = u.xingOk x := rfl
@[simp] theorem srcOk_posted (u : State) (op : Byte) (q : Req) (n c arm : Nat) : (posted u op q).srcOk n c arm = u.srcOk n c arm := rfl
@[simp] theorem groupSources_posted (u : State) (op : Byte) (q : Req) (n g : Nat) (w : BitVec 64) :
    (posted u op q).groupSources n w g = u.groupSources n w g := rfl

/-- A word without a bit outside the low six is the number of its low six bits. -/
theorem fld_six {a : Word} (h : a &&& ~~~0x3F#32 = 0) : fld a 0 6 = a.toNat ∧ fld a 0 7 = a.toNat ∧ a.toNat < 64 := by
  have low : a = a &&& 0x3F#32 := by
    calc a = a &&& (0x3F#32 ||| ~~~0x3F#32) := (BitVec.and_allOnes).symm
      _ = a &&& 0x3F#32 := by rw [BitVec.and_or_distrib_left, h]; exact BitVec.or_zero
  have hlt : a.toNat < 64 := by
    rw [low, BitVec.toNat_and]
    exact Nat.lt_succ_of_le Nat.and_le_right
  refine ⟨?_, ?_, hlt⟩ <;> simp only [fld, Nat.shiftRight_zero] <;> omega

section

variable {u : State} {q : Req} {a : Word} {rest : List Word} {n : Nat} {op : Byte} {rom : Bool}

theorem w_one (hq : q.args = a :: rest) : q.w 1 = a := by simp [Req.w, hq]

theorem reqChan_args (hq : q.args = a :: rest) : reqChan q = fld a 0 6 := by rw [reqChan, w_one hq]

theorem sess_ready (h : ready rom u q = true) : q.sess = 0 := by
  obtain ⟨-, -, -, -, -, -, -, -, -, hs⟩ := (ready_iff rom u q).1 h
  exact hs

theorem reqOwner_ready (h : ready rom u q = true) : reqOwner q = .host := if_pos (sess_ready h)

theorem chanFor_ready (h : ready rom u q = true) (hn : n < 60) : chanFor q n = true := by simp [chanFor, sess_ready h, hn]

/-- The crossings of a channel below 60 have not failed. -/
theorem crossings_ready (h : ready rom u q = true) (hn : n < 60) :
    (if n < 60 then [16, 17] else [18, 19]).any (fun x => ((posted u op q).xings.main.getD x {}).failed) = false := by
  obtain ⟨-, -, -, -, -, -, -, hx, -, -⟩ := (ready_iff rom u q).1 h
  simp only [if_pos hn, posted_xings, List.any_cons, List.any_nil, hx 16 (by simp), hx 17 (by simp), Bool.or_self]

/-- Nothing refuses a command of host firmware on a channel that it owns. -/
theorem ownErrs_host (h : ready rom u q = true) (hn : n < 60) (ho : (u.chan n).owner = .host) : (posted u op q).ownErrs q n = [] := by
  unfold State.ownErrs
  rw [crossings_ready h hn, chan_posted, ho, reqOwner_ready h, chanFor_ready h hn]
  simp [Nat.not_le.2 hn]

/-! ## Setup (03 R89, R91 to R94) -/

/-- A setup that its form and the rules of state allow on channel `n`, claimed by host firmware or by nobody. -/
structure SetupFits (u : State) (q : Req) (n : Nat) : Prop where
  chan : reqChan q = n
  below : n < 60
  owner : (u.chan n).owner = .none ∨ (u.chan n).owner = .host
  good : (u.chan n).failed = false
  rsv : fld (q.w64 2) 44 20 = 0
  arm : sxArm (q.w64 2) ≠ 3
  sources : ∀ c ∈ [sxStart (q.w64 2), sxStop (q.w64 2)], u.srcOk n c (sxArm (q.w64 2)) = true ∧
    ∀ i, srcTile c = some i → (u.tile i).st ≠ .fenced
  startEdge : edgeOk (sxStart (q.w64 2)) (sxStartEdge (q.w64 2)) = true
  stopEdge : edgeOk (sxStop (q.w64 2)) (sxStopEdge (q.w64 2)) = true
  groups : ∀ g ∈ srcGroups (q.w64 2), u.groupSources n (q.w64 2) g ≤ 8
  plain : sxArm (q.w64 2) ≠ 2 → q.w64 4 = 0 ∧ q.w 6 = 0
  locked : u.boot.lockedOnce = true
  window : sxArm (q.w64 2) = 2 → u.inHorizon (q.w64 4) = true ∧ 32 ≤ (q.w 6).toNat ∧ u.schedulable = true

theorem setupForm_none (f : SetupFits u q n) : setupForm (posted u op q) q = none := by
  have hs := f.sources
  simp only [List.forall_mem_cons, List.not_mem_nil, false_implies, implies_true, and_true] at hs
  obtain ⟨⟨start, -⟩, stop, -⟩ := hs
  unfold setupForm
  dsimp only
  rw [f.chan, srcOk_posted, srcOk_posted, start, stop, f.startEdge, f.stopEdge, f.rsv, if_neg (by simp [f.arm])]
  by_cases ha : sxArm (q.w64 2) = 2
  · obtain ⟨hz, hl, -⟩ := f.window ha
    rw [if_pos ha, inHorizon_posted, hz, if_neg (by simp), if_neg (Nat.not_lt.2 hl)]
  · obtain ⟨ho, hl⟩ := f.plain ha
    rw [if_neg ha, if_neg (not_not.2 ho), if_neg (not_not.2 hl)]

theorem setup_noNinth (f : SetupFits u q n) : (posted u op q).ninth n (q.w64 2) = false :=
  List.any_eq_false.2 (fun g hg => by simpa using f.groups g hg)

theorem setupErrs_nil (h : ready rom u q = true) (f : SetupFits u q n) : (posted u op q).setupErrs q = [] := by
  have far : ¬ n ≥ 60 := Nat.not_le.2 f.below
  unfold State.setupErrs
  simp only [f.chan, List.append_eq_nil_iff]
  refine ⟨⟨⟨⟨⟨⟨⟨?_, ?_⟩, ?_⟩, ?_⟩, ?_⟩, ?_⟩, ?_⟩, ?_⟩
  case refine_1 => exact if_neg (by simp [far])
  case refine_2 =>
    refine if_pos ?_
    rw [chanFor_ready h f.below, reqOwner_ready h, Bool.true_and, Bool.or_eq_true, decide_eq_true_iff, decide_eq_true_iff]
    exact f.owner
  case refine_3 => exact if_neg (by simp [far])
  case refine_4 => exact if_neg (by simp [f.good])
  case refine_5 =>
    refine List.filterMap_eq_nil_iff.2 (fun c hc => ?_)
    split
    · next i hi => exact if_neg (decide_eq_true_iff.not.2 ((f.sources c hc).2 i hi))
    · rfl
  case refine_6 => exact if_neg (by simp [setup_noNinth f])
  case refine_7 => exact if_neg (by simpa [f.locked, f.below] using fun ha => (f.window ha).2.2)
  case refine_8 => exact if_neg (by rw [crossings_ready h f.below]; exact Bool.false_ne_true)

theorem run_sxtSetup (h : ready rom u q = true) (f : SetupFits u q n) : cmdSxtSetup.run (posted u op q) q =
    (if (u.chan n).armed || (u.chan n).caling || !(u.chan n).waits.isEmpty || !u.xingOk 16 then
      ((posted u op q).modChan n (fun c => { c with owner := .host, waits := c.waits ++ [(q.w64 2, q.w64 4, q.w 6, some q.mbx)] }),
        .accepted [])
    else (State.applySetup ((posted u op q).modChan n (fun c => { c with owner := .host })) n (q.w64 2) (q.w64 4) (q.w 6),
      .final (okR []))) := by
  have hx : ∀ v : State, v.setupsPass n = v.xingOk 16 := fun v => by rw [State.setupsPass, if_pos f.below]
  simp only [cmdSxtSetup, setupErrs_nil h f, f.chan, reqOwner_ready h, modChan_modChan, hx]
  rfl

end

section

variable {dt : Nat} {q : Req} {s : State} {a : Word} {rest : List Word} {n : Nat}

theorem exec_sxtSetup_free (h : ready false (s.tick dt) q = true) (hh : (s.tick dt).haltedB = false) (hq : q.args = a :: rest)
    (ha : a &&& ~~~0x3F#32 = 0) (hl : rest.length = 5) (f : SetupFits (s.tick dt) q n) (h0 : ((s.tick dt).chan n).armed = false)
    (h1 : ((s.tick dt).chan n).caling = false) (h2 : ((s.tick dt).chan n).waits = []) (h3 : (s.tick dt).xingOk 16 = true) :
    exec (.sxtSetup dt q) s = .next (State.finish (State.applySetup ((posted (s.tick dt) 0x50 q).modChan n (fun c => { c with
      owner := .host })) n (q.w64 2) (q.w64 4) (q.w 6)) q.mbx (okR [])) := by
  refine congrArg Host.Outcome.next (postCmd_final (c := cmdSxtSetup) h (by simp) (fun _ => hh) rfl (by simp [cmdSxtSetup, lenIs, hq, hl])
    (by rw [hq]; exact rsvWord_one ha rest) (setupForm_none f) ?_)
  exact (run_sxtSetup h f).trans (if_neg (by simp [h0, h1, h2, h3]))

theorem exec_sxtSetup_waits (h : ready false (s.tick dt) q = true) (hh : (s.tick dt).haltedB = false) (hq : q.args = a :: rest)
    (ha : a &&& ~~~0x3F#32 = 0) (hl : rest.length = 5) (f : SetupFits (s.tick dt) q n)
    (hw : ((s.tick dt).chan n).armed = true ∨ ((s.tick dt).chan n).caling = true ∨ (s.tick dt).xingOk 16 = false) :
    exec (.sxtSetup dt q) s = .next (State.accept ((posted (s.tick dt) 0x50 q).modChan n (fun c => { c with
      owner := .host, waits := c.waits ++ [(q.w64 2, q.w64 4, q.w 6, some q.mbx)] })) q.mbx []) := by
  refine congrArg Host.Outcome.next (postCmd_accepted (c := cmdSxtSetup) h (by simp) (fun _ => hh) rfl
    (by simp [cmdSxtSetup, lenIs, hq, hl]) (by rw [hq]; exact rsvWord_one ha rest) (setupForm_none f) ?_)
  exact (run_sxtSetup h f).trans (if_pos (by obtain hw | hw | hw := hw <;> simp [hw]))

/-! ## Disarming and freeing (03 R94, R100) -/

theorem exec_sxtDisarm (h : ready false (s.tick dt) q = true) (hh : (s.tick dt).haltedB = false) (hq : q.args = [a])
    (ha : a &&& ~~~0x3F#32 = 0) (hn : a.toNat < 60) (ho : ((s.tick dt).chan a.toNat).owner = .host) :
    exec (.sxtDisarm dt q) s = .next (State.finish (State.takeSetups (((posted (s.tick dt) 0x51 q).disarm a.toNat).1.modChan a.toNat
      (fun c => { c with setup := setFld c.setup 29 2 0 })) a.toNat) q.mbx (okR [w32 ((posted (s.tick dt) 0x51 q).disarm a.toNat).2])) := by
  have hc : reqChan q = a.toNat := (reqChan_args hq).trans (fld_six ha).1
  refine congrArg Host.Outcome.next (postCmd_final (c := cmdSxtDisarm) h (by simp) (fun _ => hh) rfl (by simp [cmdSxtDisarm, lenIs, hq])
    (by rw [hq]; exact rsvWord_one ha []) rfl ?_)
  simp only [cmdSxtDisarm, hc, ownErrs_host h hn ho]
  rfl

theorem exec_sxtFree (h : ready false (s.tick dt) q = true) (hh : (s.tick dt).haltedB = false) (hq : q.args = [a])
    (ha : a &&& ~~~0x3F#32 = 0) (hn : a.toNat < 60) (ho : ((s.tick dt).chan a.toNat).owner = .host)
    (hd : ((s.tick dt).chan a.toNat).armed = false) :
    exec (.sxtFree dt q) s = .next (State.finish ((posted (s.tick dt) 0x52 q).modChan a.toNat (fun c => { c with
      owner := .none, setup := 0, open_ := 0, len := 0, gateUsed := false })) q.mbx (okR [])) := by
  have hc : reqChan q = a.toNat := (reqChan_args hq).trans (fld_six ha).1
  refine congrArg Host.Outcome.next (postCmd_final (c := cmdSxtFree) h (by simp) (fun _ => hh) rfl (by simp [cmdSxtFree, lenIs, hq])
    (by rw [hq]; exact rsvWord_one ha []) rfl ?_)
  simp only [cmdSxtFree, hc, ownErrs_host h hn ho, chan_posted, hd]
  rfl

end

/-- Settles O11: no rule refuses what the statement allows; a setup waits by what its channel and crossing 16 are. -/
theorem sextantSetup : Obligations.SextantSetup := by
  rintro dt q s u rfl h hh a rest n hq ha rfl hn
  refine ⟨fun hl howner hgood hrsv harm hsources hstart hstop hgroups hplain hlocked hwindow => ?_, ?_⟩
  · have f : SetupFits (s.tick dt) q a.toNat :=
      ⟨(reqChan_args hq).trans (fld_six ha).1, hn, howner, hgood, hrsv, harm, hsources, hstart, hstop, hgroups, hplain, hlocked, hwindow⟩
    exact ⟨exec_sxtSetup_free h hh hq ha hl f, exec_sxtSetup_waits h hh hq ha hl f⟩
  · rintro rfl ho
    exact ⟨exec_sxtDisarm h hh hq ha hn ho, exec_sxtFree h hh hq ha hn ho⟩

/-! ## Counters and statistics (03 R97, R98) -/

section

variable {dt : Nat} {q : Req} {s : State} {a : Word}

theorem exec_sxtInfo (h : ready false (s.tick dt) q = true) (hq : q.args = [a]) (ha : a &&& ~~~0x3F#32 = 0) (hn : fld a 0 6 < 60)
    (ho : ((s.tick dt).chan (fld a 0 6)).owner = .host) {c : Chan} (hc : c = (s.tick dt).chan (fld a 0 6)) :
    exec (.sxtInfo dt q) s = .next (State.finish (posted (s.tick dt) 0x55 q) q.mbx (okR [
      w32 (pack [(0, 3, 1), (3, 1, b2n c.armed), (4, 1, b2n c.calAge), (5, 1, b2n (!c.lock))]),
      c.starts, c.stops, c.dead, c.unpaired, c.drops])) := by
  refine congrArg Host.Outcome.next (postCmd_final (c := cmdSxtInfo) h (by simp) nofun rfl (by simp [cmdSxtInfo, lenIs, hq])
    (by rw [hq]; exact rsvWord_one ha []) rfl ?_)
  have host : c.owner = .host := hc ▸ ho
  simp only [cmdSxtInfo, reqChan_args hq, ownErrs_host h hn ho, chan_posted, ← hc, host]
  rfl

theorem exec_sxtStats (h : ready false (s.tick dt) q = true) (hq : q.args = [a]) (ha : a &&& ~~~0x13F#32 = 0) (hn : fld a 0 6 < 60)
    (ho : ((s.tick dt).chan (fld a 0 6)).owner = .host) {c : Chan} (hc : c = (s.tick dt).chan (fld a 0 6)) :
    exec (.sxtStats dt q) s = .next (State.finish (if bit a 8 then (posted (s.tick dt) 0x54 q).modChan (fld a 0 6) (fun c => { c with
        sCount := 0, sMin := 0, sMax := 0, sSum := 0, sSq := 0, satS := false, satQ := false, sFlags := 0, sLeft := 0 })
      else posted (s.tick dt) 0x54 q) q.mbx (okR ([c.sCount, c.sMin, c.sMax] ++ wordsOf 2 (twos 64 c.sSum) ++ wordsOf 2 c.sSq ++
        [w32 (pack [(0, 1, b2n c.satS), (1, 1, b2n c.satQ), (2, 8, c.sFlags.toNat)]), c.sLeft]))) := by
  refine congrArg Host.Outcome.next (postCmd_final (c := cmdSxtStats) h (by simp) nofun rfl (by simp [cmdSxtStats, lenIs, hq])
    (by rw [hq]; exact rsvWord_one ha []) rfl ?_)
  simp only [cmdSxtStats, reqChan_args hq, w_one hq, ownErrs_host h hn ho, chan_posted, ← hc]
  rfl

end

/-! ## Buffered records (03 R97) -/

/-- A read takes the first records that it picks, and leaves the others and what it picks beyond its number. -/
theorem takeRecs_facts (p : BitVec 128 → Bool) (n : Nat) (l : List (BitVec 128)) : (takeRecs p n l).1 = (l.filter p).take n ∧
    (takeRecs p n l).2.filter (fun r => !p r) = l.filter (fun r => !p r) ∧ (takeRecs p n l).2.filter p = (l.filter p).drop n := by
  induction l generalizing n with
  | nil => cases n <;> exact ⟨rfl, rfl, rfl⟩
  | cons r l ih =>
    cases n with
    | zero => exact ⟨rfl, rfl, rfl⟩
    | succ n =>
      cases hp : p r with
      | true =>
        obtain ⟨taken, others, left⟩ := ih n
        simp [takeRecs, hp, taken, others, left]
      | false =>
        obtain ⟨taken, others, left⟩ := ih (n + 1)
        simp [takeRecs, hp, taken, others, left]

/-- The records of a channel that the caller owns are those of the channel. -/
theorem mine_of_chan {u : State} {n : Nat} {o : Owner} (ho : (u.chan n).owner = o) (hn : n < 60) :
    (fun r : BitVec 128 => decide ((u.chan (recChan r)).owner = o) && (n == 0x7F || recChan r == n)) = fun r => fld r 67 6 == n := by
  have h7 : (n == 0x7F) = false := beq_false_of_ne (by omega)
  funext r
  rw [h7, Bool.false_or]
  by_cases hr : recChan r = n
  · rw [hr, decide_eq_true ho, Bool.true_and, ← hr, recChan]
  · have hf : (fld r 67 6 == n) = false := beq_false_of_ne hr
    exact (congrArg (_ && ·) hf).trans ((Bool.and_false _).trans hf.symm)

theorem exec_sxtRead {dt : Nat} {q : Req} {s v : State} {a : Word} {x : List (BitVec 128) × List (BitVec 128)}
    (h : ready false (s.tick dt) q = true) (hq : q.args = [a]) (ha : a &&& ~~~0x3F#32 = 0) (hn : fld a 0 6 < 60)
    (ho : ((s.tick dt).chan (fld a 0 6)).owner = .host) (hx : x = takeRecs (fun r => fld r 67 6 == fld a 0 6) 3 (s.tick dt).sxt.buffer)
    (hv : v = State.each { posted (s.tick dt) 0x53 q with sxt := { (s.tick dt).sxt with buffer := x.2 } } (List.range 64) State.drain) :
    exec (.sxtRead dt q) s = .next (v.finish q.mbx (okR (w32 (pack [(0, 2, x.1.length),
      (16, 13, (v.sxt.buffer.filter (fun r => decide (((s.tick dt).chan (fld r 67 6)).owner = .host))).length)]) ::
      x.1.flatMap (fun r => wordsOf 4 r.toNat)))) := by
  have h7 : fld (q.w 1) 0 7 = fld a 0 6 := by rw [w_one hq, (fld_six ha).2.1, (fld_six ha).1]
  have hm : a &&& ~~~0x7F#32 = 0 := by
    have e : (a &&& ~~~0x3F#32) &&& ~~~0x7F#32 = a &&& ~~~0x7F#32 := by rw [BitVec.and_assoc]; rfl
    rw [← e, ha]
    rfl
  refine congrArg Host.Outcome.next (postCmd_final (c := cmdSxtRead) h (by simp) nofun rfl (by simp [cmdSxtRead, lenIs, hq])
    (by rw [hq]; exact rsvWord_one hm []) ?_ ?_)
  · simp only [cmdSxtRead, h7]
    exact if_neg (by simp; omega)
  · simp only [cmdSxtRead, h7, ownErrs_host h hn ho, chan_posted, reqOwner_ready h, mine_of_chan ho hn, posted_sxt, ite_self, ← hx, ← hv]
    rfl

/-- Settles O12: the rows run their bodies on a channel that the caller owns, and a read takes what `takeRecs` takes. -/
theorem sextantReads : Obligations.SextantReads := by
  rintro dt q s u rfl h a n hq rfl hn ho
  refine ⟨fun ha => exec_sxtInfo h hq ha hn ho rfl, fun ha => exec_sxtStats h hq ha hn ho rfl, ?_⟩
  rintro ha x v rfl hv
  obtain ⟨taken, others, left⟩ := takeRecs_facts (fun r => fld r 67 6 == fld a 0 6) 3 (s.tick dt).sxt.buffer
  exact ⟨exec_sxtRead h hq ha hn ho rfl hv, taken, others, left⟩

end Sys2Proof.Proofs
end

section
/-! SUPPORT. The reference, the bring-up calibration of the tiles, and what the loss of the reference leaves of the clock (03 R75, R81 to
R83; 18 R403; 02 R48, R55). -/

namespace Sys2Proof.Proofs

open Sys2Proof.Machine Sys2Proof.Safety Sys2Proof.Laws

set_option Elab.async false

/-! ## Changes that leave meridian time and the boot domain -/

/-- Neither meridian time nor the boot domain changes. -/
structure Timed (s t : State) : Prop where
  mer : t.mer = s.mer
  boot : t.boot = s.boot

namespace Timed

variable {s t u : State}

theorem refl (s : State) : Timed s s := ⟨rfl, rfl⟩
theorem trans (a : Timed s t) (b : Timed t u) : Timed s u := ⟨b.mer.trans a.mer, b.boot.trans a.boot⟩
/-- The parts of a change from the last to the first. -/
theorem after (b : Timed t u) (a : Timed s t) : Timed s u := a.trans b
theorem of_update (h : Timed t u) (mer : t.mer = s.mer := by rfl) (boot : t.boot = s.boot := by rfl) : Timed s u :=
  ⟨h.mer.trans mer, h.boot.trans boot⟩
theorem update (h : Timed s t) (mer : u.mer = t.mer := by rfl) (boot : u.boot = t.boot := by rfl) : Timed s u :=
  ⟨mer.trans h.mer, boot.trans h.boot⟩
theorem logged (h : Logged s t) : Timed s t := ⟨h.mer, h.boot⟩
theorem answered (h : Answered s t) : Timed s t := ⟨by rw [h.eq], by rw [h.eq]⟩
theorem each {α : Type} {f : State → α → State} (h : ∀ s a, Timed s (f s a)) (s : State) (l : List α) : Timed s (s.each l f) :=
  List.foldlRecOn l f (refl s) (fun _ hb a _ => hb.trans (h _ a))
theorem ite {p : Prop} [Decidable p] (ha : p → Timed s t) (hb : ¬ p → Timed s u) : Timed s (if p then t else u) := by
  split
  · exact ha ‹_›
  · exact hb ‹_›

end Timed

theorem timed_settle (s : State) (n : BitVec 3) (r : Resp) : Timed s (s.settle n r) := .answered (answered_settle ..)
theorem timed_settleO (s : State) (o : Option (BitVec 3)) (r : Resp) : Timed s (s.settleO o r) := .answered (answered_settleO ..)

theorem timed_sendNotice (s : State) (kind inst w : Nat) (u : Option Time) (f : Bool) : Timed s (s.sendNotice kind inst w u f) := by
  unfold State.sendNotice State.cvyPump
  dsimp only
  split <;> exact ⟨rfl, rfl⟩

theorem timed_sendNak (s : State) (reason cause status : Nat) (m : Word) (t : Time) : Timed s (s.sendNak reason cause status m t) :=
  .of_update (timed_sendNotice ..)

theorem timed_outOfStep (s : State) (m : Word) (b : Bool) : Timed s (s.outOfStep m b) := .of_update (.logged (logged_raise0 ..))

theorem timed_settleMove (s : State) (m : Word) (r : Resp) : Timed s (s.settleMove m r) := .of_update (.each (fun _ _ => timed_settle ..) _ _)

theorem timed_cvyEnd (s : State) : Timed s s.cvyEnd := ⟨rfl, rfl⟩

theorem timed_cvyFinish (s : State) (cause : Nat) : Timed s (s.cvyFinish cause) :=
  .after (timed_cvyEnd _) <| .after (timed_settleO ..) <| .after (.each (fun _ _ => timed_settle ..) _ _) (timed_settleO ..)

theorem timed_failMove (s : State) (m : CvyMove) (reason status cause : Nat) (retry : Bool) :
    Timed s (s.failMove m reason status cause retry) := by
  unfold State.failMove
  exact .after (timed_outOfStep ..) (.after (timed_sendNak ..) (timed_settleMove ..))

/-! ## Keystones and scheduled changes that a loss withdraws (03 R83; 08 Table 8.5) -/

theorem timed_resolve (s : State) (k : Nat) (r : KsRes) : Timed s (s.resolve k r) :=
  .after (.each (fun _ _ => timed_settle ..) _ _) (.of_update (.logged (logged_logPacket ..)))

theorem timed_convoyAbort (s : State) (x : Slot) (cause : Nat) (r : KsRes) : Timed s (s.convoyAbort x cause r) := by
  unfold State.convoyAbort
  split
  · exact .refl s
  · exact .refl s
  · exact .after (timed_cvyEnd _) (timed_settleO ..)
  · exact .after (timed_outOfStep ..) (.after (.ite (fun _ => timed_sendNak ..) (fun _ => timed_sendNak ..)) (timed_settleMove ..))

theorem timed_abortOne (s : State) (k cause : Nat) (f : Option (Nat × Nat)) : Timed s (s.abortOne k cause f) := by
  unfold State.abortOne
  dsimp only
  refine .ite (fun _ => .refl s) (fun _ => ?_)
  refine .after (timed_convoyAbort ..) (.after (.logged (logged_raise ..)) ?_)
  exact ((timed_resolve s k ((s.slot k).res k .aborted cause f)).trans
    (timed_settleO _ (s.slot k).sealMbx (abortedR ((s.slot k).res k .aborted cause f)))).update

theorem timed_revalidate (n t0 : Nat) (l : List (Nat × Nat)) (s : State) : Timed s (s.revalidate n t0 l) := by
  induction n generalizing l s with
  | zero => exact .refl s
  | succ n ih =>
    unfold State.revalidate
    dsimp only
    split
    · exact .refl s
    · exact (timed_abortOne ..).trans (ih ..)

theorem timed_abortKs (s : State) (k cause : Nat) (f : Option (Nat × Nat)) : Timed s (s.abortKs k cause f) :=
  .ite (fun _ => .refl s) (fun _ => (timed_abortOne ..).trans (timed_revalidate ..))

theorem timed_withdraw (s : State) (i : Nat) (gone keep : List Sched) : Timed s (s.withdraw i gone keep) :=
  .ite (fun _ => .refl s) (fun _ => .of_update (.each (fun _ _ => timed_settleO ..) _ _))

theorem timed_cvySuspend (s : State) : Timed s s.cvySuspend := by
  unfold State.cvySuspend
  split
  · exact .ite (fun _ => .refl s) (fun _ => timed_cvyFinish ..)
  · exact .of_update (.each (fun _ _ => timed_failMove ..) _ _)
  · exact .of_update (.each (fun _ _ => timed_failMove ..) _ _)
  · exact .refl s

/-! ## States and the loss of the reference (03 R81, R83) -/

theorem logged_setMer (s : State) (m : MerSt) : Logged { s with mer := { s.mer with st := m } } (s.setMer m) := by
  unfold State.setMer
  split
  · next h =>
    subst h
    exact .refl s
  · exact logged_raise0 ..

theorem enterLocked_facts {s t : State} (h : t = s.enterLocked) :
    t.mer = { s.mer with st := .locked, offset := 0, aligned := 0, badRun := 0 } ∧ t.boot = { s.boot with lockedOnce := true } ∧
      t.sxt.base = none ∧ t.tiles = s.tiles := by
  have hl := logged_setMer s .locked
  have hr : ∀ v : State, v.cvyResume = { v with cvy := v.cvyResume.cvy } := fun v => by
    unfold State.cvyResume
    split <;> rfl
  rw [h, State.enterLocked, hr]
  simp only [State.newBaseline, hl.mer, hl.boot, hl.tiles, and_self]

theorem holdover_facts {s t : State} (h : t = s.holdover) :
    t.mer = { s.mer with st := .holdover, epochPend := none, aligned := 0, badRun := 0 } ∧ t.boot = s.boot := by
  have hl := logged_setMer { s with mer := { s.mer with epochPend := none, aligned := 0, badRun := 0 } } .holdover
  have ht : Timed (State.setMer { s with mer := { s.mer with epochPend := none, aligned := 0, badRun := 0 } } .holdover) t := by
    rw [h, State.holdover]
    exact .after (timed_cvySuspend _) <| .after (.each (fun _ _ => timed_withdraw ..) _ _) <|
      .each (fun v k => .ite (fun _ => timed_abortKs ..) (fun _ => .refl v)) _ _
  exact ⟨ht.mer.trans hl.mer, ht.boot.trans hl.boot⟩

section

variable {u t : State}

/-- The reference or the pulse is lost in LOCKED or SLEWING: the held counter goes on. -/
theorem refLost_holds (h : u.mer.st = .locked ∨ u.mer.st = .slewing) {p : Bool} (ht : t = u.refLost p) :
    t.mer = { u.mer with st := .holdover, refBack := false, plls := false, aligned := 0, badRun := 0, epochPend := none } ∧
      t.boot = { u.boot with refOk := false, fallRun := 0 } := by
  have facts : ∀ v w : State, Logged v w → t = w.holdover →
      t.mer = { v.mer with st := .holdover, epochPend := none, aligned := 0, badRun := 0 } ∧ t.boot = v.boot := fun v w hl hw => by
    rw [(holdover_facts hw).1, (holdover_facts hw).2, hl.mer, hl.boot]
    exact ⟨rfl, rfl⟩
  unfold State.refLost at ht
  obtain h | h := h <;> simp only [h] at ht
  · exact facts _ _ (logged_raise ..) ht
  · exact facts _ _ (logged_raise ..) ht

/-- On the way to lock it ends the clock that had not yet run. -/
theorem refLost_unlocks (h : u.mer.st = .acquiring) {p : Bool} (ht : t = u.refLost p) : t.mer.st = .unlocked ∧ t.mer.now = 0 ∧
    t.mer.running = false ∧ t.boot.refOk = false ∧ t.tiles = u.tiles := by
  unfold State.refLost at ht
  simp only [h] at ht
  subst ht
  simp only [(logged_setMer ..).mer, (logged_setMer ..).boot, (logged_setMer ..).tiles, (logged_raise ..).boot, (logged_raise ..).tiles,
    and_self]

/-! ## The reference and its PLLs (03 R81, Table 3.2; 02 R48) -/

theorem refValid_first (hr : u.boot.refOk = false) (h : u.mer.st = .unlocked) : u.refValid =
    State.raise0 { u with boot := { u.boot with refOk := true }, mer := { u.mer with st := .acquiring } } 0x109 1 := by
  simp only [State.refValid, hr, Bool.false_eq_true, if_false, h, State.setMer, reduceCtorEq, MerSt.code]

theorem refValid_back (hr : u.boot.refOk = false) (h : u.mer.st = .holdover) : u.refValid =
    { u with boot := { u.boot with refOk := true }, mer := { u.mer with refBack := true } } := by
  simp only [State.refValid, hr, Bool.false_eq_true, if_false, h]

theorem pllLock_locks (hr : u.boot.refOk = true) (hp : u.mer.plls = false) (h : u.mer.st = .acquiring ∨ u.mer.st = .holdover) :
    u.pllLock = { u with
      mer := { u.mer with plls := true }
      boot := { u.boot with clkRun := u.boot.clkRun ||| 0x70, hailClk := true }
      sxt := if bit u.boot.clkRun 4 then u.sxt else { u.sxt with chans := u.sxt.chans.mapIdx (fun i (c : Chan) =>
        if i < 60 then { c with lock := true, caling := true } else c) } } := by
  have hst : (decide (u.mer.st = .acquiring) || decide (u.mer.st = .holdover)) = true := by
    obtain h | h := h <;> simp [h]
  simp only [State.pllLock, hr, hp, hst, Bool.not_true, Bool.or_self, Bool.false_eq_true, if_false]
  cases bit u.boot.clkRun 4 <;> rfl

end

end Sys2Proof.Proofs
end

section
/-! SUPPORT. The meridian pulses, the slew, the tiles that fail the bring-up calibration, and the clock as a whole (03 R75, R79, R81, R82,
R85; 17 R395; 18 R403; 02 R55). -/

namespace Sys2Proof.Proofs

open Sys2Proof.Machine Sys2Proof.Safety Sys2Proof.Laws

set_option Elab.async false

/-! ## Pulses (03 R75, R79, R81, R82) -/

section

variable {u t : State}

theorem pulse63_eq (u : State) : u.pulse63 = { u with sxt := u.pulse63.sxt } := by
  unfold State.pulse63
  split <;> rfl

/-- A pulse within the alignment window, timestamped by channel 63, before any state takes it. -/
def inWindow (u : State) : State := { u with boot := { u.boot with fallRun := 0 }, sxt := u.pulse63.sxt }

/-- A pulse in place: in LOCKED it carries the pending epoch, a counter that runs is broadcast, and the state takes it. -/
theorem meridianPulse_inWindow (h : u.mer.st ≠ .unlocked) {n : Nat} (hn : u.mer.st = .locked → n = 100000) {w : State}
    (hw : w = if u.mer.st = .locked then (inWindow u).epochPulse else inWindow u) (diffs : List (BitVec 8 × Int)) :
    u.meridianPulse n .inWindow false diffs = (if w.mer.running then w.broadcast diffs else w).goodPulse n := by
  have interval : ¬ (decide (u.mer.st = .locked) && decide (n ≠ 100000)) = true := by simpa using hn
  unfold State.meridianPulse
  rw [pulse63_eq, if_neg h, if_neg Bool.false_ne_true, if_neg interval]
  rw [hw]
  rfl

/-- Before the counter runs, a pulse goes straight to the state. -/
theorem meridianPulse_acquiring (h : u.mer.st = .acquiring) (hr : u.mer.running = false) (n : Nat) :
    u.meridianPulse n .inWindow false [] = (inWindow u).goodPulse n := by
  have hl : u.mer.st ≠ .locked := by simp [h]
  have hs : ¬ (inWindow u).mer.running = true := by simpa [inWindow] using hr
  rw [meridianPulse_inWindow (w := inWindow u) (by simp [h]) (fun h => absurd h hl) (by rw [if_neg hl]), if_neg hs]

/-- No tile's copy is out of step: every tile's run of differences ends. -/
theorem broadcast_agrees {diffs : List (BitVec 8 × Int)} (h : ∀ d ∈ diffs, -32 ≤ d.2 ∧ d.2 ≤ 32) :
    u.broadcast diffs = { u with tiles := u.tiles.map (fun (t : Tile) => { t with mism := 0, withhold := false }) } := by
  have off : diffs.filter (fun d => decide (d.2.natAbs > 32) && u.present d.1.toNat && !(u.tile d.1.toNat).fenced) = [] := by
    refine List.filter_eq_nil_iff.2 (fun d hd => ?_)
    have hn : ¬ d.2.natAbs > 32 := by
      have := h d hd
      omega
    simp [hn]
  have tiles : u.tiles.mapIdx (fun _ (t : Tile) => { t with mism := 0, withhold := false }) =
      u.tiles.map (fun (t : Tile) => { t with mism := 0, withhold := false }) :=
    List.ext_getElem? (fun i => by simp)
  unfold State.broadcast
  rw [off]
  exact congrArg (fun l => ({ u with tiles := l } : State)) tiles

theorem goodPulse_locked (h : u.mer.st = .locked) (n : Nat) : u.goodPulse n = { u with mer := { u.mer with badRun := 0 } } := by
  simp [State.goodPulse, h]

theorem meridianPulse_locked (h : u.mer.st = .locked) (hr : u.mer.running = true) (he : u.mer.epochPend = none)
    {diffs : List (BitVec 8 × Int)} (hd : ∀ d ∈ diffs, -32 ≤ d.2 ∧ d.2 ≤ 32) : u.meridianPulse 100000 .inWindow false diffs =
      { u with
        boot := { u.boot with fallRun := 0 }, mer := { u.mer with badRun := 0 }, sxt := u.pulse63.sxt
        tiles := u.tiles.map (fun (t : Tile) => { t with mism := 0, withhold := false }) } := by
  have epoch : (inWindow u).epochPulse = inWindow u := by
    unfold State.epochPulse
    rw [show (inWindow u).mer.epochPend = none from he]
  have hs : (inWindow u).mer.running = true := hr
  rw [meridianPulse_inWindow (w := inWindow u) (by simp [h]) (fun _ => rfl) (by rw [if_pos h, epoch]), if_pos hs, broadcast_agrees hd]
  refine goodPulse_locked ?_ 100000
  exact h

/-- The first good pulse on the way to lock. -/
theorem goodPulse_first (h : u.mer.st = .acquiring) (hp : u.mer.plls = true) (ha : u.mer.aligned = 0) (n : Nat) :
    u.goodPulse n = { u with mer := { u.mer with badRun := 0, aligned := 1 } } := by
  simp [State.goodPulse, h, hp, ha]

/-- The second one, a whole period after it, locks the block: the counter starts at one pulse period. -/
theorem goodPulse_locks (h : u.mer.st = .acquiring) (hp : u.mer.plls = true) (ha : 1 ≤ u.mer.aligned) : u.goodPulse 100000 =
    State.enterLocked { u with mer := { u.mer with badRun := 0, now := 16000000, frac := 0, running := true } } := by
  simp [State.goodPulse, h, hp, ha, pulseMt]

/-! ## The slew (03 R85) -/

theorem slewStep_idle (h : u.mer.slewMt < 160000) (dt : Nat) : u.slewStep dt = u := if_pos (by simp [h])

/-- A step that is due removes 1 mt of the offset; what follows depends on what is left. -/
theorem slewStep_due (h : u.mer.st = .slewing) (hs : 160000 ≤ u.mer.slewMt) (h0 : u.mer.offset ≠ 0) {dt : Nat}
    (hd : u.mer.offset < 0 ∨ 0 < u.mer.frac ∨ 0 < dt) : u.slewStep dt =
      (if u.mer.slew.offset = 0 then State.enterLocked { u with mer := u.mer.slew }
      else if u.mer.slew.offset.natAbs ≤ 16 then State.cvyResume { u with mer := u.mer.slew } else { u with mer := u.mer.slew }) := by
  refine if_neg ?_
  simp only [h, h0, Nat.not_lt.2 hs, ne_eq, not_true_eq_false, decide_false, Bool.false_or, Bool.and_eq_true, decide_eq_true_eq,
    beq_iff_eq]
  omega

theorem slewStep_far (h : u.mer.st = .slewing) (hs : 160000 ≤ u.mer.slewMt) (hf : 17 < u.mer.offset.natAbs) {dt : Nat}
    (hd : u.mer.offset < 0 ∨ 0 < u.mer.frac ∨ 0 < dt) : u.slewStep dt = { u with mer := u.mer.slew } := by
  have left : 16 < u.mer.slew.offset.natAbs := by
    unfold Mer.slew
    split <;> dsimp only <;> omega
  rw [slewStep_due h hs (by omega) hd, if_neg (by omega), if_neg (by omega)]

/-- The last step ends the slew. -/
theorem slewStep_last (h : u.mer.st = .slewing) (hs : 160000 ≤ u.mer.slewMt) (ho : u.mer.offset = -1) (dt : Nat) :
    u.slewStep dt = State.enterLocked { u with mer := u.mer.slew } := by
  rw [slewStep_due h hs (by omega) (.inl (by omega)), if_pos (by simp [Mer.slew, ho])]

end

/-! ## Fences and the bring-up calibration (17 R395; 18 R403) -/

/-- Keystones that abort leave a tile that prepares no handover. -/
theorem tile_abortNaming {s : State} {i : Nat} (h : (s.tile i).hov = none) (j cause : Nat) : (s.abortNaming j cause).tile i = s.tile i := by
  refine List.foldlRecOn (motive := fun v : State => v.tile i = s.tile i) _ _ rfl (fun v hv k _ => ?_)
  have hh : (v.tile i).hov = none := by rw [hv, h]
  split
  · unfold State.abortKs
    dsimp only
    split
    · exact hv
    · have ha := tile_abortOne hh k cause
      rw [tile_revalidate (by rw [ha, hh]), ha, hv]
  · exact hv

theorem hov_dropSched {s : State} {i : Nat} (hi : i < s.tiles.length) (r : Resp) : ((s.dropSched i r).tile i).hov = none := by
  unfold State.dropSched
  dsimp only
  rw [tile_still (.each (fun _ _ => still_settleO ..) _ _), tile_modTile, if_pos ⟨rfl, hi⟩]

theorem sameShape_dropSched (s : State) (i : Nat) (r : Resp) : SameShape s (s.dropSched i r) :=
  (sameShape_modTile s i (fun t => { t with sched := [], resched := [], hov := none })).trans
    (.of_still (.each (f := fun (v : State) (e : Sched) => v.settleO e.mbx r) (fun _ _ => still_settleO ..) _ _))

/-- What the change of a tile makes of it lasts through the fence's event and the keystones that it aborts. -/
theorem tile_modTile_fence {v : State} {i : Nat} (hi : i < v.tiles.length) {f : Tile → Tile} (hf : ∀ t, (f t).hov = t.hov)
    (hn : (v.tile i).hov = none) (code arg cause : Nat) : (((v.modTile i f).raise code i arg).abortNaming i cause).tile i = f (v.tile i) := by
  have ht : ((v.modTile i f).raise code i arg).tile i = f (v.tile i) := by
    rw [State.raise, tile_still (still_raiseC ..), tile_modTile, if_pos ⟨rfl, hi⟩]
  rw [tile_abortNaming (by rw [ht, hf, hn]), ht]

/-- A fence takes a tile that was neither fenced nor halted. -/
theorem fence_fences {s : State} {i : Nat} (hp : s.present i = true) (hi : i < s.tiles.length) (hf : (s.tile i).st ≠ .fenced)
    (hh : (s.tile i).st ≠ .halted) (cause : Nat) :
    ((s.fence i cause).tile i).st = .fenced ∧ ((s.fence i cause).tile i).cause = BitVec.ofNat 4 cause := by
  have ha : i < (s.abandon i).tiles.length := by rw [(sameShape_abandon s i).tiles]; exact hi
  have hd : i < (((s.abandon i).dropSched i (fencedR i)).dropCheck i).tiles.length := by
    rw [(sameShape_dropCheck ..).tiles, (sameShape_dropSched ..).tiles]
    exact ha
  have hn : ((((s.abandon i).dropSched i (fencedR i)).dropCheck i).tile i).hov = none :=
    tile_dropCheck (P := fun t => t.hov = none) (fun _ _ _ h => h) (hov_dropSched ha _)
  unfold State.fence
  dsimp only
  rw [if_neg (by simp [hp]), if_neg (by simp [Tile.fenced, hf, hh])]
  generalize ((s.abandon i).dropSched i (fencedR i)).dropCheck i = v at hd hn
  rw [tile_modTile_fence hd (hn := hn)]
  · exact ⟨rfl, rfl⟩
  · exact fun _ => rfl

/-- No present tile and no sensor of one has failed. -/
theorem bringup_passes {u : State} {bt : List (BitVec 8)} {bs : List (BitVec 8 × Bool)} (hc : bit u.boot.clkRun 4 = true)
    (hb : u.boot.bootCal = false) (ht : ∀ i ∈ bt, u.present i.toNat = false) (hs : ∀ x ∈ bs, u.present x.1.toNat = false)
    (bc : List (BitVec 6)) : u.bringup .mortarThermal bt bs bc = { u with boot := { u.boot with bootCal := true } } := by
  have et : bt.filter (fun t => u.present t.toNat) = [] := List.filter_eq_nil_iff.2 (fun t h => by simp [ht t h])
  have es : bs.filter (fun x => u.present x.1.toNat) = [] := List.filter_eq_nil_iff.2 (fun x h => by simp [hs x h])
  simp [State.bringup, hc, hb, et, es, State.each]

/-- A disabled tile whose mortar fails is fenced. -/
theorem bringup_fences {u t : State} {i : BitVec 8} (hc : bit u.boot.clkRun 4 = true) (hb : u.boot.bootCal = false)
    (hp : u.present i.toNat = true) (hd : (u.tile i.toNat).st = .disabled) (hi : i.toNat < u.tiles.length)
    (ht : t = u.bringup .mortarThermal [i] [] []) : t.boot.bootCal = true ∧ t.boot.calFail = true ∧ (t.tile i.toNat).st = .fenced ∧
      (t.tile i.toNat).cause = 9 := by
  have hf := fence_fences hp hi (by simp [hd]) (by simp [hd]) 9
  have e : [i].filter (fun t => u.present t.toNat) = [i] := by simp [hp]
  unfold State.bringup at ht
  dsimp only at ht
  rw [hc, hb, if_neg (by simp), e] at ht
  subst ht
  exact ⟨rfl, by simp, hf.1, hf.2⟩

/-- Settles O28: the reference and its loss by the state they meet, the pulses by what the state makes of one in place, the slew by what
is left of the offset. -/
theorem meridianClock : Obligations.MeridianClock := by
  rintro dt s u rfl hr
  refine ⟨fun h0 hst => ?_, fun h0 hst => ?_, fun h0 hp hst => ?_, fun bt bs bc hc hb ht hs => ?_, fun i hc hb hp hd hi => ?_,
    fun hst hrun hp => ⟨fun ha n => ?_, fun ha => ?_⟩, fun hst hrun he diffs hd => ?_, fun hst p => ?_, fun hst p => ?_,
    fun hst hs => ⟨fun ho hd => ?_, fun ho => ?_, fun ho => ?_⟩, fun hst hs => ?_⟩
  · exact (event_live _ hr : execRefValid dt s = _).trans (congrArg _ (refValid_first h0 hst))
  · exact (event_live _ hr : execRefValid dt s = _).trans (congrArg _ (refValid_back h0 hst))
  · exact (event_live _ hr : execPllLock dt s = _).trans (congrArg _ (pllLock_locks h0 hp hst))
  · exact (event_live _ hr : execHardwareBringupCal dt _ bt bs bc s = _).trans (congrArg _ (bringup_passes hc hb ht hs bc))
  · exact ⟨_, (event_live _ hr : execHardwareBringupCal dt _ [i] [] [] s = _), bringup_fences hc hb hp hd hi rfl⟩
  · refine (event_live _ hr : execMeridianPulse dt n _ false [] s = _).trans (congrArg _ ?_)
    rw [meridianPulse_acquiring hst hrun]
    exact goodPulse_first (u := inWindow (s.tick dt)) hst hp ha n
  · refine ⟨_, (event_live _ hr : execMeridianPulse dt 100000 _ false [] s = _), ?_⟩
    rw [meridianPulse_acquiring hst hrun, goodPulse_locks (u := inWindow (s.tick dt)) hst hp ha]
    obtain ⟨mer, boot, base, tiles⟩ := enterLocked_facts (s := { inWindow (s.tick dt) with mer := { (inWindow (s.tick dt)).mer with
      badRun := 0, now := 16000000, frac := 0, running := true } }) rfl
    rw [mer, boot, base, tiles]
    exact ⟨rfl, rfl, rfl, rfl, rfl, rfl⟩
  · exact (event_live _ hr : execMeridianPulse dt 100000 _ false diffs s = _).trans (congrArg _ (meridianPulse_locked hst hrun he hd))
  · refine ⟨_, (event_live _ hr : execRefLoss dt p s = _), ?_⟩
    obtain ⟨mer, boot⟩ := refLost_holds hst (p := p) rfl
    rw [mer, boot]
    exact ⟨rfl, rfl, rfl, rfl, rfl, rfl⟩
  · exact ⟨_, (event_live _ hr : execRefLoss dt p s = _), refLost_unlocks hst rfl⟩
  · refine (event_live _ hr : execSlewStep dt s = _).trans (congrArg _ ((slewStep_far hst hs (by omega) (.inr hd)).trans ?_))
    rw [Mer.slew, if_pos (by omega)]
  · refine (event_live _ hr : execSlewStep dt s = _).trans (congrArg _ ((slewStep_far hst hs (by omega) (.inl (by omega))).trans ?_))
    rw [Mer.slew, if_neg (by omega)]
  · refine ⟨_, (event_live _ hr : execSlewStep dt s = _), ?_⟩
    rw [slewStep_last hst hs ho, Mer.slew, if_neg (by omega)]
    obtain ⟨mer, -⟩ := enterLocked_facts (s := { s.tick dt with mer := { (s.tick dt).mer with
      now := (s.tick dt).mer.now + 1, offset := (s.tick dt).mer.offset + 1, slewMt := (s.tick dt).mer.slewMt - 160000 } }) rfl
    rw [mer]
    exact ⟨rfl, rfl⟩
  · exact (event_live _ hr : execSlewStep dt s = _).trans (congrArg _ (slewStep_idle hs dt))

end Sys2Proof.Proofs
end

section
/-! SUPPORT. The lodestar: the check of the reference, and what the loss of its crystal leaves (03 R101 to R104; 02 R58). -/

namespace Sys2Proof.Proofs

open Sys2Proof.Machine Sys2Proof.Safety Sys2Proof.Laws

set_option Elab.async false

/-! ## The check of the reference (03 R102) -/

/-- What every check leaves in the lodestar: the count starts again and the offset is the last. -/
def checkedAs (s : State) (off : Int) : Sxt :=
  { s.sxt with pulses := s.sxt.pulses.map (· - 1000), checkAt := s.boot.uptime, last := off }

section check

variable {s : State} {delta : Nat} {off : Int}

theorem measured (he : s.sxt.enabled = true) (hl : s.sxt.locked = true)
    (hm : s.mer.st = .locked ∨ s.mer.st = .holdover ∨ s.mer.st = .slewing) (hd : 0 < delta) (hc : s.checkDue = true) :
    (!s.lodeOk || s.mer.st = .unlocked || s.mer.st = .acquiring || delta = 0 || !s.checkDue) = false := by
  have h0 : delta ≠ 0 := Nat.ne_of_gt hd
  rcases hm with hm | hm | hm <;> simp [State.lodeOk, he, hl, hm, hc, h0]

/-- With no baseline in force the offset joins those of the baseline, whose sixteenth completes it. -/
theorem refCheck_first (hg : (!s.lodeOk || s.mer.st = .unlocked || s.mer.st = .acquiring || delta = 0 || !s.checkDue) = false)
    (ho : off = ((128000000000 - (delta : Int)) * 1000000000).tdiv delta) (h : off.natAbs ≤ 120000) (hb : s.sxt.base = none) :
    s.refCheck delta = { s with sxt := { checkedAs s off with
      offsets := s.sxt.offsets ++ [off]
      base := if 16 ≤ s.sxt.offsets.length + 1 then some ((s.sxt.offsets.sum + off).tdiv 16) else none
      dev := 0 } } := by
  have hsum : (s.sxt.offsets ++ [off]).foldl (· + ·) 0 = s.sxt.offsets.sum + off := by
    rw [← List.sum_eq_foldl, List.sum_append_int, List.sum_singleton]
  unfold State.refCheck
  rw [hg, if_neg (by decide), ← ho]
  simp only [hb, Option.isSome_none, Bool.false_eq_true, if_false, hsum, List.length_append, List.length_singleton, ge_iff_le]
  rw [if_neg (by simpa using h)]
  rfl

/-- The deviations in a row, with an offset checked against a baseline. -/
def devs (s : State) (off b : Int) : Nat := if s.sxt.thr < (off - b).natAbs then s.sxt.dev + 1 else 0

/-- Against a baseline in force the third deviation in a row suspects the reference. -/
theorem refCheck_again (hg : (!s.lodeOk || s.mer.st = .unlocked || s.mer.st = .acquiring || delta = 0 || !s.checkDue) = false)
    (ho : off = ((128000000000 - (delta : Int)) * 1000000000).tdiv delta) (h : off.natAbs ≤ 120000) {b : Int} (hb : s.sxt.base = some b) :
    s.refCheck delta = if 3 ≤ devs s off b then State.suspect { s with sxt := { checkedAs s off with dev := 0 } }
      else { s with sxt := { checkedAs s off with dev := devs s off b } } := by
  unfold State.refCheck
  rw [hg, if_neg (by decide), ← ho]
  simp only [hb, Option.isSome_some, if_true, ge_iff_le, gt_iff_lt]
  change (if (3 ≤ devs s off b || 120000 < off.natAbs) = true then _ else _) = _
  rw [show decide (120000 < off.natAbs) = false from by simpa using h, Bool.or_false]
  by_cases h3 : 3 ≤ devs s off b
  · simp only [h3, decide_true, if_true, checkedAs, ← hb]
    unfold devs at h3
    simp only [if_pos h3]
  · simp only [h3, decide_false, if_false, checkedAs, ← hb]
    unfold devs at h3 ⊢
    simp only [if_neg h3, Bool.false_eq_true, if_false]

end check

/-! ## Results on their way, and answers to waiting setups -/

/-- A change in the sextants, the Reckoner's samples, the log and the mailboxes alone: what results on their way and answers make. -/
structure Delivered (s t : State) : Prop where
  eq : t = { s with sxt := t.sxt, rck := t.rck, log := t.log, mbxs := t.mbxs, ctl := t.ctl }

namespace Delivered

variable {s t u : State}

theorem refl (s : State) : Delivered s s := ⟨rfl⟩
theorem trans (a : Delivered s t) (b : Delivered t u) : Delivered s u := by
  obtain ⟨a⟩ := a
  rw [a] at b
  exact ⟨b.eq⟩
/-- The parts of a change from the last to the first. -/
theorem after (b : Delivered t u) (a : Delivered s t) : Delivered s u := a.trans b
theorem each {α : Type} {f : State → α → State} (h : ∀ s a, Delivered s (f s a)) (s : State) (l : List α) : Delivered s (s.each l f) :=
  List.foldlRecOn l f (refl s) (fun _ hb a _ => hb.trans (h _ a))
theorem ite {p : Prop} [Decidable p] (ha : p → Delivered s t) (hb : ¬ p → Delivered s u) : Delivered s (if p then t else u) := by
  split
  · exact ha ‹_›
  · exact hb ‹_›
theorem modChan (s : State) (k : Nat) (f : Chan → Chan) : Delivered s (s.modChan k f) := ⟨rfl⟩
theorem boot (h : Delivered s t) : t.boot = s.boot := by rw [h.eq]
theorem mer (h : Delivered s t) : t.mer = s.mer := by rw [h.eq]
theorem tiles (h : Delivered s t) : t.tiles = s.tiles := by rw [h.eq]
theorem rails (h : Delivered s t) : t.rails = s.rails := by rw [h.eq]
theorem power (h : Delivered s t) : t.power = s.power := by rw [h.eq]
theorem keys (h : Delivered s t) : t.keys = s.keys := by rw [h.eq]

end Delivered

theorem delivered_drain (s : State) (k : Nat) : Delivered s (s.drain k) := .ite (fun _ => .refl s) (fun _ => ⟨rfl⟩)

theorem delivered_sxPacket (s : State) (k : Nat) : Delivered s (s.sxPacket k) := .ite (fun _ => .refl s) (fun _ => ⟨rfl⟩)

theorem delivered_feedSample (s : State) (k : Nat) (p : Pair) : Delivered s (s.feedSample k p) :=
  .ite (fun _ => .modChan ..) (fun _ => ⟨rfl⟩)

theorem delivered_deliver (s : State) (k : Nat) (p : Pair) : Delivered s (s.deliver k p) := by
  unfold State.deliver
  refine .after (.ite (fun _ => .modChan ..) (fun _ => .ite (fun _ => .modChan ..) (fun _ =>
    .after (.ite (fun _ => .ite (fun _ => delivered_sxPacket ..) (fun _ => .refl _)) (fun _ => delivered_drain ..)) (.modChan ..)))) ?_
  exact .ite (fun _ => delivered_feedSample ..) (fun _ => .refl s)

theorem delivered_lone (s : State) (k : Nat) : Delivered s (s.lone k).1 := by
  unfold State.lone
  dsimp only
  split
  · exact .after (delivered_deliver ..) (.modChan ..)
  · exact .after (delivered_deliver ..) (.modChan ..)
  · exact .refl s

theorem delivered_disarm (s : State) (k : Nat) : Delivered s (s.disarm k).1 := by
  unfold State.disarm
  split
  · exact .refl s
  · exact .after (.modChan ..) (delivered_lone ..)

theorem delivered_publish (s : State) (n : BitVec 3) : Delivered s (s.publish n) :=
  .ite (fun _ => ⟨rfl⟩) (fun _ => .ite (fun _ => ⟨rfl⟩) (fun _ => ⟨rfl⟩))

theorem delivered_finishO (s : State) (o : Option (BitVec 3)) (r : Resp) : Delivered s (s.finishO o r) := by
  cases o with
  | none => exact .refl s
  | some n => exact .after (delivered_publish ..) ⟨rfl⟩

/-! ## The end of lodestar time for a channel (03 R104) -/

/-- A channel of the lodestar disarms, loses its delay line's lock and answers the setups that waited. -/
def lodeDrop (why : Resp) (s : State) (k : Nat) : State :=
  State.each ((s.disarm k).1.modChan k (fun c => { c with waits := [], lock := false, caling := false })) (s.chan k).waits
    (fun s w => s.finishO w.2.2.2 why)

/-- A channel's part of the end of lodestar time: all but channel 63 are freed. -/
def lodeEnd (why : Resp) (s : State) (k : Nat) : State := if k = 63 then lodeDrop why s k else (lodeDrop why s k).freeChan k

/-- Lodestar time is over, and with it a calibration of the rotation on one of its channels. -/
def lodeOver (s : State) : State :=
  { s with sxt := { s.sxt with locked := false, svc := if s.sxt.svc.any (fun x => decide (60 ≤ x.1)) then none else s.sxt.svc } }

theorem delivered_lodeOver (s : State) : Delivered s (lodeOver s) := ⟨rfl⟩
theorem chan_lodeOver (s : State) (k : Nat) : (lodeOver s).chan k = s.chan k := rfl

theorem lodeOff_eq (s : State) (why : Resp) : s.lodeOff why = lodeOver (s.each [60, 61, 62, 63] (lodeEnd why)) := by
  unfold State.lodeOff
  generalize [60, 61, 62, 63] = l
  rfl

theorem delivered_answers (why : Resp) (s : State) (ws : List (BitVec 64 × Time × Word × Option (BitVec 3))) :
    Delivered s (s.each ws (fun s w => s.finishO w.2.2.2 why)) := .each (fun _ _ => delivered_finishO ..) s ws

theorem sxt_answers (why : Resp) (s : State) (ws : List (BitVec 64 × Time × Word × Option (BitVec 3))) :
    (s.each ws (fun s w => s.finishO w.2.2.2 why)).sxt = s.sxt := by
  have hp : ∀ (v : State) (n : BitVec 3), (v.publish n).sxt = v.sxt := fun v n => by
    unfold State.publish
    dsimp only
    split
    · rfl
    · split <;> rfl
  refine List.foldlRecOn (motive := fun t : State => t.sxt = s.sxt) _ _ rfl (fun v hv w _ => ?_)
  cases w.2.2.2 with
  | none => exact hv
  | some n => exact (hp _ n).trans hv

theorem delivered_lodeDrop (why : Resp) (s : State) (k : Nat) : Delivered s (lodeDrop why s k) :=
  (delivered_disarm s k).trans ((Delivered.modChan ..).trans (delivered_answers ..))

theorem delivered_lodeEnd (why : Resp) (s : State) (k : Nat) : Delivered s (lodeEnd why s k) := by
  have h := delivered_lodeDrop why s k
  exact .ite (fun _ => h) (fun _ => h.trans (.modChan ..))

theorem chan_lodeDrop (why : Resp) (s : State) (k j : Nat) : (lodeDrop why s k).chan j =
    ((s.disarm k).1.modChan k (fun c => { c with waits := [], lock := false, caling := false })).chan j := by
  unfold lodeDrop State.chan
  rw [sxt_answers]

theorem onChan_lodeEnd (why : Resp) (s : State) (k : Nat) : OnChan k s (lodeEnd why s k) := by
  have hd := waiting_disarm s k
  have h : OnChan k s (lodeDrop why s k) :=
    ⟨(delivered_lodeDrop why s k).tiles, by unfold lodeDrop; rw [sxt_answers]; exact hd.gates,
      fun j hj => (chan_lodeDrop why s k j).trans ((chan_modChan_ne _ _ hj).trans (hd.others j hj))⟩
  unfold lodeEnd
  split
  · exact h
  · exact h.trans (.modChan ..)

/-- What a change makes of every channel, and an absent one has, the channel has after it. -/
theorem chan_modChan_const {α : Type} (P : Chan → α) {f : Chan → Chan} {a : α} (h : ∀ x, P (f x) = a) (h0 : P {} = a) (s : State) (k : Nat) :
    P ((s.modChan k f).chan k) = a := by
  simp only [State.chan, State.modChan, List.getD_eq_getElem?_getD, List.getElem?_modify, if_true]
  cases s.sxt.chans[k]? with
  | none => exact h0
  | some x => exact h x

/-- A channel that the lodestar has left: no arming, no lock, no setup that waits, and all but channel 63 are free. -/
structure LodeFree (k : Nat) (c : Chan) : Prop where
  armed : c.armed = false
  lock : c.lock = false
  waits : c.waits = []
  owner : k ≠ 63 → c.owner = .none

theorem lodeFree_lodeEnd (why : Resp) (s : State) (k : Nat) : LodeFree k ((lodeEnd why s k).chan k) := by
  have armed : ((lodeDrop why s k).chan k).armed = false := by
    rw [chan_lodeDrop]
    exact (chan_modChan_proj Chan.armed (f := fun c => { c with waits := [], lock := false, caling := false }) (fun _ => rfl) _ k k).trans
      (disarm_armed s k)
  have lock : ((lodeDrop why s k).chan k).lock = false := by
    rw [chan_lodeDrop]
    refine chan_modChan_const Chan.lock (fun _ => ?_) ?_ _ k <;> rfl
  have waits : ((lodeDrop why s k).chan k).waits = [] := by
    rw [chan_lodeDrop]
    refine chan_modChan_const Chan.waits (fun _ => ?_) ?_ _ k <;> rfl
  unfold lodeEnd
  split
  · exact ⟨armed, lock, waits, fun h => absurd ‹_› h⟩
  · have keep {α : Type} (P : Chan → α)
        (hP : ∀ c : Chan, P { c with owner := .none, setup := 0, open_ := 0, len := 0, gateUsed := false } = P c) :
        P (((lodeDrop why s k).freeChan k).chan k) = P ((lodeDrop why s k).chan k) := chan_modChan_proj P hP _ k k
    refine ⟨(keep Chan.armed fun _ => rfl).trans armed, (keep Chan.lock fun _ => rfl).trans lock,
      (keep Chan.waits fun _ => rfl).trans waits, fun _ => ?_⟩
    refine chan_modChan_const Chan.owner (fun _ => ?_) ?_ _ k <;> rfl

/-- The end of lodestar time leaves its four channels free, and tiles, rails and the boot domain as they were. -/
theorem lodeOff_facts (s : State) (why : Resp) : Delivered s (s.lodeOff why) ∧ (s.lodeOff why).sxt.locked = false ∧
    ∀ k ∈ [60, 61, 62, 63], LodeFree k ((s.lodeOff why).chan k) := by
  have hd : Delivered s (s.each [60, 61, 62, 63] (lodeEnd why)) := .each (delivered_lodeEnd why) s _
  rw [lodeOff_eq]
  refine ⟨hd.trans (delivered_lodeOver _), rfl, fun k hk => ?_⟩
  rw [chan_lodeOver]
  obtain ⟨w, -, ho, -⟩ := each_own (onChan_lodeEnd why) (by decide) s hk
  have h := lodeFree_lodeEnd why w k
  rw [← ho] at h
  exact h

/-! ## The faults of the crystal (02 R58) -/

/-- The lodestar and its clock are off. -/
def lodeStop (s : State) : State :=
  { s with
    boot := { s.boot with xoOk := false, xoWindow := false, xoGoodAt := s.boot.uptime, lodeCal := false, clkRun := s.boot.clkRun &&& 0x7F }
    sxt := { s.sxt with enabled := false } }

theorem xoFail_eq (s : State) (k : XoFault) : s.xoFail k = (lodeStop (s.lodeOff xoR)).raise0 0x107 (xoWhy k) := rfl

/-- A crystal that fails stops the lodestar and its clock; the tiles and rails are as they were. -/
theorem xoFail_stops (s : State) (k : XoFault) : (s.xoFail k).sxt.enabled = false ∧ (s.xoFail k).sxt.locked = false ∧
    (s.xoFail k).boot.xoOk = false ∧ (s.xoFail k).boot.xoGoodAt = s.boot.uptime ∧ bit (s.xoFail k).boot.clkRun 7 = false ∧
    (∀ c ∈ [60, 61, 62, 63], LodeFree c ((s.xoFail k).chan c)) ∧ (s.xoFail k).tiles = s.tiles ∧ (s.xoFail k).rails = s.rails := by
  obtain ⟨hd, locked, chans⟩ := lodeOff_facts s xoR
  rw [xoFail_eq]
  generalize s.lodeOff xoR = v at hd locked chans ⊢
  have hl := logged_raise0 (lodeStop v) 0x107 (xoWhy k)
  simp only [State.chan, hl.sxt, hl.boot, hl.tiles, hl.rails]
  exact ⟨rfl, locked, rfl, congrArg Boot.uptime hd.boot, by simp [bit, lodeStop], chans, hd.tiles, hd.rails⟩

theorem xoFault_enabled {s : State} {k : XoFault} (h : s.sxt.enabled = true)
    (hk : k = .high ∨ (k = .low ∧ s.boot.xoWindow = false) ∨ (k = .freq ∧ s.schedulable = true ∧ s.sxt.locked = true)) :
    s.xoFault k = s.xoFail k := by
  unfold State.xoFault
  rw [h, if_neg (by decide), if_neg]
  rcases hk with rfl | ⟨rfl, hw⟩ | ⟨rfl, hs, hl⟩
  · simp
  · simp [hw]
  · simp [hs, hl]

/-! ## The start-up window, the lock and the tick (03 R101; 02 R58) -/

theorem xoWindowEnd_good {s : State} (h : s.boot.xoWindow = true) :
    s.xoWindowEnd false = { s with boot := { s.boot with xoWindow := false, xoOk := true } } := by
  unfold State.xoWindowEnd
  rw [h]
  rfl

theorem lodeLock_starts {s : State} (he : s.sxt.enabled = true) (hl : s.sxt.locked = false) : s.lodeLock = { s with
    boot := { s.boot with xoOk := true, clkRun := s.boot.clkRun ||| 0x80 }
    sxt := { s.sxt with
      locked := true, time := 0, rem := 0, ageTick := 0, offsets := [], base := none, dev := 0, pulses := none, checkAt := s.boot.uptime
      chans := s.sxt.chans.mapIdx (fun i (c : Chan) => if i < 60 then c else { c with lock := true, caling := true }) } } := by
  unfold State.lodeLock
  rw [he, hl]
  rfl

theorem lodeTick_ages {s : State} (he : s.sxt.enabled = true) (hl : s.sxt.locked = true) (ht : s.sxt.time ≠ BitVec.allOnes 64) :
    s.lodeTick = { s with sxt := { s.sxt with
      ageNow := if s.sxt.ageTick < s.sxt.time.toNat / 16000000 ∧ s.xingOk 18 = true then s.sxt.age else s.sxt.ageNow } } := by
  unfold State.lodeTick State.lodeOk
  rw [he, hl]
  simp only [Bool.and_self, Bool.not_true, Bool.false_eq_true, if_false, if_neg ht, Bool.and_eq_true, decide_eq_true_iff]
  rfl

/-- Settles O29: each event by its lemma, on the state that the time that passed leaves. -/
theorem lodestarEvents : Obligations.LodestarEvents := by
  rintro dt s u rfl hr
  refine ⟨fun he hl hm delta off x hd hc ho h120 hx => ?_, fun k he => ?_, fun k he hk => ?_, fun hw => ?_, fun he hl => ?_,
    fun he hl ht => ?_⟩
  · have hg := measured he hl hm hd hc
    have ev : exec (.refCheck dt delta) s = .next ((s.tick dt).refCheck delta) := (event_live _ hr : execRefCheck dt delta s = _)
    replace hx : x = checkedAs (s.tick dt) off := hx
    rw [ev, hx]
    refine ⟨fun hb hn => ?_, fun hb hn => ?_, fun b hb ht => ?_, fun b hb ht h2 => ?_, fun b hb ht h2 => ?_⟩
    · rw [refCheck_first hg ho h120 hb, if_neg (by omega), ← hb]
      rfl
    · rw [refCheck_first hg ho h120 hb, if_pos (by omega)]
    · have h0 : devs (s.tick dt) off b = 0 := if_neg (by omega)
      rw [refCheck_again hg ho h120 hb, h0, if_neg (by decide)]
    · have h1 : devs (s.tick dt) off b = (s.tick dt).sxt.dev + 1 := if_pos ht
      rw [refCheck_again hg ho h120 hb, h1, if_neg (by omega)]
    · have h3 : devs (s.tick dt) off b = 3 := (if_pos ht).trans (by rw [h2])
      rw [refCheck_again hg ho h120 hb, h3, if_pos (by decide)]
      rfl
  · refine (event_live _ hr : execXoFault dt k s = _).trans (congrArg _ ?_)
    unfold State.xoFault
    rw [he]
    rfl
  · obtain ⟨enabled, locked, ok, good, clk, chans, tiles, rails⟩ := xoFail_stops (s.tick dt) k
    refine ⟨_, (event_live _ hr : execXoFault dt k s = _).trans (congrArg _ (xoFault_enabled he hk)), enabled, locked, ok, good, ?_, clk,
      fun _ c hc => ?_, tiles, rails⟩
    · simp [State.assisted, State.lodeOk, enabled]
    · have h := chans c hc
      exact ⟨h.armed, h.lock, h.waits, h.owner⟩
  · exact (event_live _ hr : execXoStartupWindowEnd dt false s = _).trans (congrArg _ (xoWindowEnd_good hw))
  · exact (event_live _ hr : execLodestarPllLock dt s = _).trans (congrArg _ (lodeLock_starts he hl))
  · exact (event_live _ hr : execLodestarTick dt s = _).trans (congrArg _ (lodeTick_ages he hl ht))

end Sys2Proof.Proofs
end

section
/-! SUPPORT. Manifest records, and the predicted actions at a tile (03 R79; 06 R160 to R162, R177, R178; 02 R47; 11 R292). -/

namespace Sys2Proof.Proofs

open Sys2Proof.Machine Sys2Proof.Safety Sys2Proof.Laws

set_option Elab.async false

/-! ## Changes at one tile that leave its clock -/

/-- A tile's state with its set and running codes: what the Reckoner's actions leave to the domain and the clock. -/
def clockOf (t : Tile) : GenSt × BitVec 16 × BitVec 16 := (t.st, t.code, t.runCode)

theorem clockOf_eq {t u : Tile} (h : clockOf t = clockOf u) : t.st = u.st ∧ t.code = u.code ∧ t.runCode = u.runCode := by
  simpa only [clockOf, Prod.mk.injEq] using h

/-- What a change of a tile leaves of it, it leaves of the tile at every place. -/
theorem tile_modTile_proj {α : Type} (P : Tile → α) {f : Tile → Tile} (h : ∀ x, P (f x) = P x) (s : State) (i j : Nat) :
    P ((s.modTile i f).tile j) = P (s.tile j) := by
  rw [tile_modTile]
  split
  · exact h _
  · rfl

theorem tile_modTile_ne (s : State) {i j : Nat} (f : Tile → Tile) (h : j ≠ i) : (s.modTile i f).tile j = s.tile j := by
  rw [tile_modTile, if_neg (fun e => h e.1.symm)]

theorem tile_modTile_same {s : State} {i : Nat} (f : Tile → Tile) (h : i < s.tiles.length) : (s.modTile i f).tile i = f (s.tile i) := by
  rw [tile_modTile, if_pos ⟨rfl, h⟩]

/-- A change at one tile, of what the Reckoner does there: its state and codes stay, and so do the other tiles. -/
structure AtTile (i : Nat) (s t : State) : Prop where
  mer : t.mer = s.mer
  keys : t.keys = s.keys
  boot : t.boot = s.boot
  power : t.power = s.power
  rails : t.rails = s.rails
  others : ∀ j, j ≠ i → t.tile j = s.tile j
  clock : clockOf (t.tile i) = clockOf (s.tile i)

namespace AtTile

variable {i : Nat} {s t u : State}

/-- A change that touches no tile. -/
theorem same (mer : t.mer = s.mer := by rfl) (keys : t.keys = s.keys := by rfl) (boot : t.boot = s.boot := by rfl)
    (power : t.power = s.power := by rfl) (rails : t.rails = s.rails := by rfl) (tiles : t.tiles = s.tiles := by rfl) : AtTile i s t :=
  ⟨mer, keys, boot, power, rails, fun j _ => by simp only [State.tile, tiles], by simp only [State.tile, tiles]⟩
theorem refl (s : State) : AtTile i s s := .same
theorem trans (a : AtTile i s t) (b : AtTile i t u) : AtTile i s u where
  mer := b.mer.trans a.mer
  keys := b.keys.trans a.keys
  boot := b.boot.trans a.boot
  power := b.power.trans a.power
  rails := b.rails.trans a.rails
  others := fun j hj => (b.others j hj).trans (a.others j hj)
  clock := b.clock.trans a.clock
/-- The parts of a change from the last to the first. -/
theorem after (b : AtTile i t u) (a : AtTile i s t) : AtTile i s u := a.trans b
theorem ite {p : Prop} [Decidable p] (ha : p → AtTile i s t) (hb : ¬ p → AtTile i s u) : AtTile i s (if p then t else u) := by
  split
  · exact ha ‹_›
  · exact hb ‹_›
theorem modTile (s : State) {f : Tile → Tile} (h : ∀ x, clockOf (f x) = clockOf x) : AtTile i s (s.modTile i f) :=
  ⟨rfl, rfl, rfl, rfl, rfl, fun _ hj => tile_modTile_ne s f hj, tile_modTile_proj _ h s i i⟩

end AtTile

/-- A change at one tile that leaves its events too. -/
structure Replanned (i : Nat) (s t : State) : Prop extends AtTile i s t where
  events : (t.tile i).events = (s.tile i).events

namespace Replanned

variable {i : Nat} {s t u : State}

theorem refl (s : State) : Replanned i s s := ⟨.refl s, rfl⟩
theorem trans (a : Replanned i s t) (b : Replanned i t u) : Replanned i s u := ⟨a.toAtTile.trans b.toAtTile, b.events.trans a.events⟩
/-- The parts of a change from the last to the first. -/
theorem after (b : Replanned i t u) (a : Replanned i s t) : Replanned i s u := a.trans b
theorem ite {p : Prop} [Decidable p] (ha : p → Replanned i s t) (hb : ¬ p → Replanned i s u) : Replanned i s (if p then t else u) := by
  split
  · exact ha ‹_›
  · exact hb ‹_›
theorem modCls (s : State) (c : Nat) (f : Cls → Cls) : Replanned i s (s.modCls c f) := ⟨.same, rfl⟩
theorem take (s : State) (p : Config.Purpose) (n : Nat) : Replanned i s (s.take p n).2 := ⟨.same, rfl⟩
theorem modTile (s : State) {f : Tile → Tile} (h : ∀ x, clockOf (f x) = clockOf x) (he : ∀ x, (f x).events = x.events) :
    Replanned i s (s.modTile i f) := ⟨.modTile s h, tile_modTile_proj _ he s i i⟩

end Replanned

/-! ## The plan in force, and events that are over (06 R177, R178; 04 R122) -/

theorem replanned_unsettle (s : State) (i : Nat) : Replanned i s (s.unsettle i) :=
  .after (.modTile _ (fun _ => rfl) (fun _ => rfl)) (.take s .settle 3200001)

theorem replanned_recheck (s : State) (i : Nat) : Replanned i s (s.recheck i) := by
  unfold State.recheck
  exact .ite (fun _ => .refl s) (fun _ => .after (.ite (fun _ => .modCls ..) (fun _ => .refl _)) (.modTile s (fun _ => rfl) (fun _ => rfl)))

theorem replanned_redip (s : State) (i : Nat) : Replanned i s (s.redip i) := by
  unfold State.redip
  exact .after (.ite (fun _ => .refl _) (fun _ => .after (.ite (fun _ => replanned_unsettle ..) (fun _ => .refl _))
    (.modTile _ (fun _ => rfl) (fun _ => rfl)))) (replanned_recheck s i)

theorem foldl_endEvent_clock (l : List Event) (t : Tile) : clockOf (l.foldl Tile.endEvent t) = clockOf t := by
  induction l generalizing t with
  | nil => rfl
  | cons e r ih => exact ih (t.endEvent e)

theorem foldl_endEvent_events (l : List Event) (t : Tile) : ∀ e ∈ (l.foldl Tile.endEvent t).events, e ∈ t.events := by
  induction l generalizing t with
  | nil => exact fun _ h => h
  | cons a r ih => exact fun e h => (List.mem_filter.1 (ih (t.endEvent a) e h)).1

theorem atTile_sweepEvents (s : State) (i : Nat) : AtTile i s (s.sweepEvents i) :=
  .modTile s (fun _ => foldl_endEvent_clock ..)

/-- No event joins a tile when those that are over leave it. -/
theorem sweepEvents_events (s : State) (i : Nat) : ∀ e ∈ ((s.sweepEvents i).tile i).events, e ∈ (s.tile i).events := by
  unfold State.sweepEvents
  rw [tile_modTile]
  split
  · exact fun e h => (List.mem_filter.1 (foldl_endEvent_events _ _ e h)).1
  · exact fun e h => h

/-! ## Starts and ends of predicted actions (03 R79; 06 R177) -/

section actions

variable {s : State} {i : Nat}

/-- Actions at a tile: its events change by a rule, and the plan in force follows. -/
def planBy (f : Tile → Event → Event) (s : State) (i : Nat) : State :=
  (s.modTile i (fun t => { t with events := t.events.map (f t) })).redip i

theorem atTile_planBy (f : Tile → Event → Event) (s : State) (i : Nat) : AtTile i s (planBy f s i) :=
  .after (replanned_redip ..).toAtTile (.modTile s (fun _ => rfl))

theorem planBy_events (f : Tile → Event → Event) (hi : i < s.tiles.length) :
    ((planBy f s i).tile i).events = (s.tile i).events.map (f (s.tile i)) := by
  unfold planBy
  rw [(replanned_redip ..).events, tile_modTile_same _ hi]

/-- A pre-stretch whose start has come. -/
def preStarted (s : State) (_ : Tile) (e : Event) : Event :=
  if e.sent && !e.preDone && s.due e.preStart && !s.due e.preEnd then { e with preOn := true } else e

/-- A pre-stretch whose end has come. -/
def preEnded (s : State) (_ : Tile) (e : Event) : Event :=
  if e.sent && !e.preDone && s.due e.preEnd then { e with preOn := false, preDone := true } else e

/-- A dip whose start has come. -/
def dipStarted (s : State) (t : Tile) (e : Event) : Event :=
  if e.sent && !e.dipDone && !e.dipOn && s.due e.dipStart && !s.due e.dipEnd then
    (if t.st = .running then { e with dipOn := true } else { e with dipDone := true }) else e

/-- A dip whose end has come. -/
def dipEnded (s : State) (_ : Tile) (e : Event) : Event :=
  if e.sent && !e.dipDone && s.due e.dipEnd then { e with dipOn := false, dipDone := true } else e

theorem preStart_eq (h : (s.tile i).withhold = false) : s.preStart i = planBy (preStarted s) s i :=
  if_neg (by rw [h]; decide)
theorem preStop_eq (s : State) (i : Nat) : s.preStop i = (planBy (preEnded s) s i).sweepEvents i := rfl
theorem dipBegin_eq (h : (s.tile i).withhold = false) : s.dipBegin i = planBy (dipStarted s) s i :=
  if_neg (by rw [h]; decide)
theorem dipStop_eq (s : State) (i : Nat) : s.dipStop i = (planBy (dipEnded s) s i).sweepEvents i := rfl

/-- A tile that withholds its planned changes begins none. -/
theorem preStart_withheld (h : (s.tile i).withhold = true) : s.preStart i = s := if_pos h
theorem dipBegin_withheld (h : (s.tile i).withhold = true) : s.dipBegin i = s := if_pos h

theorem preStarted_eq (s : State) (t : Tile) (e : Event) : preStarted s t e =
    if e.sent = true ∧ e.preDone = false ∧ s.due e.preStart = true ∧ s.due e.preEnd = false then { e with preOn := true } else e := by
  simp only [preStarted, Bool.and_eq_true, Bool.not_eq_true', and_assoc]

theorem dipStarted_running {t : Tile} (h : t.st = .running) (s : State) (e : Event) : dipStarted s t e =
    if e.sent = true ∧ e.dipDone = false ∧ e.dipOn = false ∧ s.due e.dipStart = true ∧ s.due e.dipEnd = false
    then { e with dipOn := true } else e := by
  simp only [dipStarted, Bool.and_eq_true, Bool.not_eq_true', and_assoc, if_pos h]

theorem preEnded_done (s : State) (t : Tile) (e : Event) (hs : (preEnded s t e).sent = true) (hd : s.due (preEnded s t e).preEnd = true) :
    (preEnded s t e).preDone = true := by
  unfold preEnded at hs hd ⊢
  split at hs <;> rename_i h
  · rw [if_pos h]
  · rw [if_neg h] at hd ⊢
    simpa [hs, hd] using h

theorem dipEnded_done (s : State) (t : Tile) (e : Event) (hs : (dipEnded s t e).sent = true) (hd : s.due (dipEnded s t e).dipEnd = true) :
    (dipEnded s t e).dipDone = true := by
  unfold dipEnded at hs hd ⊢
  split at hs <;> rename_i h
  · rw [if_pos h]
  · rw [if_neg h] at hd ⊢
    simpa [hs, hd] using h

/-- What a rule makes of every event holds of the events that it leaves at the tile. -/
theorem ended_events {f : Tile → Event → Event} {P : Event → Prop} (hf : ∀ t e, P (f t e)) (hi : i < s.tiles.length) :
    ∀ e ∈ (((planBy f s i).sweepEvents i).tile i).events, P e := by
  intro e he
  have h := sweepEvents_events _ i e he
  rw [planBy_events f hi] at h
  obtain ⟨x, -, rfl⟩ := List.mem_map.1 h
  exact hf _ x

theorem atTile_ended (f : Tile → Event → Event) (s : State) (i : Nat) : AtTile i s ((planBy f s i).sweepEvents i) :=
  (atTile_planBy f s i).trans (atTile_sweepEvents ..)

end actions

/-! ## The manifest port (06 R160 to R162; 02 R47) -/

theorem mem_insertOp (key : OpRec → Nat) (o : OpRec) (l : List OpRec) (x : OpRec) : x ∈ insertOp key o l ↔ x = o ∨ x ∈ l := by
  induction l with
  | nil => simp [insertOp]
  | cons a r ih =>
    unfold insertOp
    split
    · simp only [List.mem_cons, ih]
      exact or_left_comm
    · simp only [List.mem_cons]

theorem length_insertOp (key : OpRec → Nat) (o : OpRec) (l : List OpRec) : (insertOp key o l).length = l.length + 1 := by
  induction l with
  | nil => rfl
  | cons a r ih =>
    unfold insertOp
    split
    · simp only [List.length_cons, ih]
    · rfl

/-- The manifest port takes records for a tile: it is up, its crossings are not stale, the Reckoner is on, and the class map gives a tile
that is there a class. -/
structure TakesFor (s : State) (i : Nat) : Prop where
  manRst : s.ctl.manRst = false
  clk : bit s.boot.clkRun 2 = true
  loop : s.looping 2 = false
  sides : (s.xings.main.getD 10 {}).stale = false ∧ (s.xings.main.getD 11 {}).stale = false
  mode : s.rck.mode ≠ .off
  present : s.present i = true
  map : bit (s.rck.map.getD i 0) 7 = true
  st : (s.tile i).st = .running ∨ (s.tile i).st = .gated ∨ (s.tile i).st = .starting

/-- The operation that a record plans, and its planned start. -/
def recStart (s : State) (w : Flit) : Time := s.mer.now + BitVec.ofNat 64 (16 * fld w 16 16)
def recOp (s : State) (w : Flit) : OpRec :=
  { start := recStart s w, dur := BitVec.ofNat 16 (fld w 32 16), cls := BitVec.ofNat 6 (fld w 10 6), work := BitVec.ofNat 8 (fld w 48 8)
    fmt := BitVec.ofNat 4 (fld w 56 4), tag := BitVec.ofNat 4 (fld w 60 4) }

/-- The window of a tile with the operation of a record. -/
def windowWith (s : State) (w : Flit) (t : Tile) : List OpRec := insertOp (fun x => s.key x.start) (recOp s w) t.window

def withWindow (l : List OpRec) (t : Tile) : Tile := { t with window := l }

theorem recOp_fields (s : State) (w : Flit) : (recOp s w).start = recStart s w ∧ (recOp s w).dur.toNat = fld w 32 16 ∧
    (recOp s w).cls.toNat = fld w 10 6 ∧ (recOp s w).work.toNat = fld w 48 8 := by
  simp [recOp, fld, BitVec.toNat_ofNat]

section manifest

variable {s : State} {w : Flit}

theorem usable_of_takes (h : TakesFor s (fld w 2 8)) : (s.present (fld w 2 8) && bit (s.rck.map.getD (fld w 2 8) 0) 7 &&
    !((s.tile (fld w 2 8)).fenced || (s.tile (fld w 2 8)).st = .domainOff || (s.tile (fld w 2 8)).st = .disabled)) = true := by
  rw [h.present, h.map]
  rcases h.st with e | e | e <;> simp [Tile.fenced, e]

/-- The statistics of a record join those of its tile. -/
def withStats (w : Flit) (t : Tile) : Tile :=
  { t with stats := t.stats.set (fld w 10 2) {
      known := true, zero := BitVec.ofNat 8 (fld w 16 8), sat := BitVec.ofNat 8 (fld w 24 8)
      nonfin := BitVec.ofNat 8 (fld w 32 8), mag := BitVec.ofNat 8 (fld w 40 8) } }

/-- A statistics record in form is taken. -/
theorem manifest_stats (h : TakesFor s (fld w 2 8)) (hk : fld w 0 2 = 2) (h0 : fld w 12 4 = 0) (h1 : fld w 48 16 = 0) :
    s.manifest w = (s.modTile (fld w 2 8) (withStats w)).modRck (fun r => { r with stTaken := satInc r.stTaken }) := by
  unfold State.manifest
  extract_lets kind i t usable stamp start late badRec st
  have hlate : late = false := by simp [late, kind, hk]
  have hbad : badRec = false := by simp [badRec, kind, hk, h0, h1]
  rw [if_neg (by simp [h.manRst, h.clk, h.loop]), if_neg (by rw [h.sides.2]; decide), if_neg h.mode,
    if_neg (by rw [show usable = true from usable_of_takes h]; decide), if_neg (by rw [hlate]; decide), if_neg (by rw [hbad]; decide),
    if_pos hk]
  rfl

/-- An operation in time joins the window of its tile, which has room. -/
theorem manifest_op (h : TakesFor s (fld w 2 8)) (hk : fld w 0 2 = 1) (ht : s.key (BitVec.ofNat 64 s.nextSnap) < s.key (recStart s w))
    (hw : (s.tile (fld w 2 8)).window.length < 8) :
    s.manifest w = (s.modTile (fld w 2 8) (withWindow (windowWith s w (s.tile (fld w 2 8))))).modRck
      (fun r => { r with opTaken := satInc r.opTaken }) := by
  unfold State.manifest
  extract_lets kind i t usable stamp start late badRec _ o l v taken
  have hstart : start = recStart s w := by
    simp only [start, stamp, h.sides.1]
    rfl
  have hlate : late = false := by simpa [late, hstart] using fun _ => ht
  have hbad : badRec = false := by simp [badRec, kind, hk]
  have ho : l = windowWith s w (s.tile (fld w 2 8)) := by
    simp only [l, o, hstart]
    rfl
  have hl : l.length ≤ 8 := by
    rw [ho, windowWith, length_insertOp]
    omega
  have htake : taken = true := by simp [taken, hl]
  have hv : v = s.modTile (fld w 2 8) (withWindow l) := by
    simp only [v, List.take_of_length_le hl, i]
    rfl
  rw [if_neg (by simp [h.manRst, h.clk, h.loop]), if_neg (by rw [h.sides.2]; decide), if_neg h.mode,
    if_neg (by rw [show usable = true from usable_of_takes h]; decide), if_neg (by rw [hlate]; decide), if_neg (by rw [hbad]; decide),
    if_neg (by rw [show kind = 1 from hk]; decide), htake, hv, ← ho]
  simp only [gt_iff_lt, Nat.not_lt.2 hl, if_false, if_true]

/-- What an operation that is taken leaves: its tile's window with it, and the rest. -/
theorem manifest_op_facts (h : TakesFor s (fld w 2 8)) (hi : fld w 2 8 < s.tiles.length) (hk : fld w 0 2 = 1)
    (ht : s.key (BitVec.ofNat 64 s.nextSnap) < s.key (recStart s w)) (hw : (s.tile (fld w 2 8)).window.length < 8) :
    ((s.manifest w).tile (fld w 2 8)).window = windowWith s w (s.tile (fld w 2 8)) ∧
    (s.manifest w).rck.opTaken = satInc s.rck.opTaken ∧ (s.manifest w).rck.winOvf = s.rck.winOvf ∧
    (∀ j, j ≠ fld w 2 8 → (s.manifest w).tile j = s.tile j) ∧ (s.manifest w).rails = s.rails := by
  rw [manifest_op h hk ht hw]
  refine ⟨?_, rfl, rfl, fun j hj => tile_modTile_ne s _ hj, rfl⟩
  exact congrArg Tile.window (tile_modTile_same (withWindow _) hi)

end manifest

end Sys2Proof.Proofs
end

section
/-! SUPPORT. A course boundary leaves meridian time, the keystones, the boot domain and the tiles' clocks (06 R159, R172, R173, R177, R178;
07 R187 to R211). -/

namespace Sys2Proof.Proofs

open Sys2Proof.Machine Sys2Proof.Safety Sys2Proof.Laws

set_option Elab.async false

/-- What a course leaves: meridian time, the keystones, the boot domain, the power domain and the clock of every tile. -/
structure Coursed (s t : State) : Prop where
  mer : t.mer = s.mer
  keys : t.keys = s.keys
  boot : t.boot = s.boot
  power : t.power = s.power
  clock : ∀ j, clockOf (t.tile j) = clockOf (s.tile j)

namespace Coursed

variable {s t u : State} {α : Type}

/-- A change of the Reckoner, the sextants, the log or the faults. -/
theorem same (mer : t.mer = s.mer := by rfl) (keys : t.keys = s.keys := by rfl) (boot : t.boot = s.boot := by rfl)
    (power : t.power = s.power := by rfl) (tiles : t.tiles = s.tiles := by rfl) : Coursed s t :=
  ⟨mer, keys, boot, power, fun j => by simp only [State.tile, tiles]⟩
theorem refl (s : State) : Coursed s s := .same
theorem trans (a : Coursed s t) (b : Coursed t u) : Coursed s u :=
  ⟨b.mer.trans a.mer, b.keys.trans a.keys, b.boot.trans a.boot, b.power.trans a.power, fun j => (b.clock j).trans (a.clock j)⟩
/-- The parts of a change from the last to the first. -/
theorem after (b : Coursed t u) (a : Coursed s t) : Coursed s u := a.trans b
theorem ite {p : Prop} [Decidable p] (ha : p → Coursed s t) (hb : ¬ p → Coursed s u) : Coursed s (if p then t else u) := by
  split
  · exact ha ‹_›
  · exact hb ‹_›
theorem fst_ite {p : Prop} [Decidable p] {a b : State × α} (ha : p → Coursed s a.1) (hb : ¬ p → Coursed s b.1) :
    Coursed s (if p then a else b).1 := by
  split
  · exact ha ‹_›
  · exact hb ‹_›
theorem each {f : State → α → State} (h : ∀ s a, Coursed s (f s a)) (s : State) (l : List α) : Coursed s (s.each l f) :=
  List.foldlRecOn l f (refl s) (fun _ hb a _ => hb.trans (h _ a))
theorem foldl {β : Type} {f : State × β → α → State × β} (h : ∀ a x, Coursed a.1 (f a x).1) (a : State × β) (l : List α) :
    Coursed a.1 (l.foldl f a).1 :=
  List.foldlRecOn (motive := fun b => Coursed a.1 b.1) l f (refl a.1) (fun _ hb x _ => hb.trans (h _ x))
theorem logged (h : Logged s t) : Coursed s t := .same h.mer h.keys h.boot h.power h.tiles
theorem delivered (h : Delivered s t) : Coursed s t := .same h.mer h.keys h.boot h.power h.tiles
theorem atTile {i : Nat} (h : AtTile i s t) : Coursed s t := by
  refine ⟨h.mer, h.keys, h.boot, h.power, fun j => ?_⟩
  by_cases hj : j = i
  · exact hj ▸ h.clock
  · rw [h.others j hj]
theorem modTile (s : State) (i : Nat) {f : Tile → Tile} (h : ∀ x, clockOf (f x) = clockOf x) : Coursed s (s.modTile i f) :=
  .atTile (.modTile s h)
theorem setTiles (s : State) (f : Tile → Tile) (r : Rck) (h : ∀ x, clockOf (f x) = clockOf x) :
    Coursed s { s with tiles := s.tiles.map f, rck := r } := by
  refine ⟨rfl, rfl, rfl, rfl, fun j => ?_⟩
  simp only [State.tile, List.getD_eq_getElem?_getD, List.getElem?_map]
  cases s.tiles[j]? with
  | none => rfl
  | some x => exact h x
theorem modRck (s : State) (f : Rck → Rck) : Coursed s (s.modRck f) := .same
theorem setRck (s : State) (r : Rck) : Coursed s { s with rck := r } := .same
theorem setRails (s : State) (r : List Rail) : Coursed s { s with rails := r } := .same
theorem modCls (s : State) (c : Nat) (f : Cls → Cls) : Coursed s (s.modCls c f) := .same
theorem take (s : State) (p : Config.Purpose) (n : Nat) : Coursed s (s.take p n).2 := .same
theorem raise (s : State) (code i arg : Nat) : Coursed s (s.raise code i arg) := .logged (logged_raise ..)

end Coursed

/-! ## Evaluation (06 R430; 07 R187 to R203) -/

theorem coursed_setFlag (s : State) (c b : Nat) : Coursed s (s.setFlag c b) := by
  unfold State.setFlag
  split
  · exact .refl s
  · exact .ite (fun _ => .refl s) (fun _ => .after (.ite (fun _ => .raise ..) (fun _ => .refl _)) (.modCls s c _))

theorem coursed_countNan (s : State) (c n : Nat) : Coursed s (s.countNan c n) :=
  .ite (fun _ => .refl s) (fun _ => .after (coursed_setFlag ..) (.modCls ..))

theorem coursed_noteDot (s : State) (c tile layer j : Nat) (at_ : Time) (o : DotOut) : Coursed s (s.noteDot c tile layer j at_ o) := by
  unfold State.noteDot
  extract_lets u v w x
  have hu : Coursed s u := .same
  have hv : Coursed u v := .ite (fun _ => coursed_countNan ..) (fun _ => .refl _)
  have hw : Coursed v w := .ite (fun _ => .after (coursed_setFlag ..) (.modCls ..)) (fun _ => .refl _)
  have hx : Coursed w x := .ite (fun _ => coursed_setFlag ..) (fun _ => .refl _)
  refine ((hu.trans hv).trans (hw.trans hx)).trans (.ite (fun _ => .refl x) (fun _ => ?_))
  refine Coursed.trans (t := (x.modCls c (fun x => { x with nv := satInc x.nv })).setFlag c 1) (.after (coursed_setFlag ..) (.modCls ..)) ?_
  split
  · exact .ite (fun _ => .refl _) (fun _ => .after (.raise ..) .same)
  · exact .refl _

theorem coursed_setScales (s : State) (c n : Nat) : Coursed s (s.setScales c n) := by
  unfold State.setScales
  split
  · exact .refl s
  · exact .each (fun v p => .after (.ite (fun _ => coursed_setFlag ..) (fun _ => .refl _)) (.modCls v c _)) _ _

theorem coursed_evalLayer (s : State) (c tile li : Nat) (at_ : Time) (l : Layer) (xs : List (BitVec 32)) :
    Coursed s (s.evalLayer c tile li at_ l xs).1 := by
  unfold State.evalLayer
  refine .after (.modCls ..) <| .after (.foldl (fun a j => .after (coursed_countNan ..) (coursed_noteDot ..)) _ _) ?_
  dsimp only
  refine .after (.ite (fun _ => coursed_setFlag ..) (fun _ => .refl _)) <| .after (.ite (fun _ => coursed_setFlag ..) (fun _ => .refl _)) ?_
  exact .modCls ..

theorem coursed_evalLayers (c tile : Nat) (at_ : Time) (n : Nat) (ls : List Layer) (s : State) (xs cx : List (BitVec 32)) :
    Coursed s (State.evalLayers c tile at_ n ls s xs cx).1 := by
  induction ls generalizing n s xs cx with
  | nil => exact .refl s
  | cons l r ih => exact (coursed_evalLayer ..).trans (ih ..)

theorem coursed_freeElems (s : State) (n : Nat) : Coursed s (s.freeElems n).1 :=
  .foldl (a := (s, [])) (fun a _ => .take a.1 .element (2 ^ 32)) (List.range n)

theorem coursed_lookRows (c : Nat) (ts : List LookTable) (n : Nat) (s : State) : Coursed s (State.lookRows c ts n s).1 := by
  induction ts generalizing n s with
  | nil => exact coursed_freeElems ..
  | cons t ts ih =>
    unfold State.lookRows
    extract_lets k r row rest
    have hk : Coursed s k.2 := by
      unfold k
      split
      · exact .refl s
      · exact .take ..
    have hr : Coursed k.2 row.1 := by
      refine .fst_ite (fun _ => .refl _) (fun _ => .fst_ite (fun _ => coursed_freeElems ..) (fun _ => ?_))
      exact .after (.fst_ite (fun _ => coursed_setFlag ..) (fun _ => .refl _)) (.take k.2 .element (t.rows k.1))
    exact .fst_ite (fun _ => hk.trans hr) (fun _ => (hk.trans hr).trans (ih ..))

theorem coursed_lookups (s : State) (c : Nat) (x : Cls) (n : Nat) : Coursed s (s.lookups c x n).1 :=
  .fst_ite (fun _ => .refl s) (fun _ => coursed_lookRows ..)

theorem coursed_evalTile (s : State) (mv : List (Nat × Nat × Nat)) (i : Nat) (at_ : Time) (len : Nat) :
    Coursed s (s.evalTile mv i at_ len) := by
  unfold State.evalTile
  dsimp only
  split
  · exact .refl s
  · rename_i x _
    have h : ∀ n xs cx, Coursed s (State.evalLayers (s.classOf i) i at_ 0 x.layers (s.lookups (s.classOf i) x n).1 xs cx).1 :=
      fun _ _ _ => .after (coursed_evalLayers ..) (coursed_lookups ..)
    split
    · exact h ..
    · refine .after (.modTile _ _ (fun _ => rfl)) ?_
      split
      · exact .ite (fun _ => h ..) (fun _ => .after (coursed_setFlag ..) <| .after (.modCls ..) (h ..))
      · exact .after (coursed_setFlag ..) <| .after (.modCls ..) (h ..)

/-! ## Emissions (06 R172 to R181) -/

theorem coursed_redip (s : State) (i : Nat) : Coursed s (s.redip i) := .atTile (replanned_redip s i).toAtTile
theorem coursed_sweepEvents (s : State) (i : Nat) : Coursed s (s.sweepEvents i) := .atTile (atTile_sweepEvents ..)
theorem coursed_hail (s : State) (i kind : Nat) (inst : Time) : Coursed s (s.hail i kind inst) := .same

theorem coursed_laneHails (at_ : Time) (n : Nat) (hs : List HailReq) (s : State) : Coursed s (laneHails at_ n hs s) := by
  induction hs generalizing n s with
  | nil => exact .refl s
  | cons h r ih => exact .after (ih ..) .same

theorem coursed_sendHails (s : State) (at_ : Time) : Coursed s (s.sendHails at_) :=
  .after (.setRck _ _) (.each (fun _ _ => coursed_laneHails ..) _ _)

theorem coursed_takePlan (s : State) (m : Emit) (i : Nat) (w : BitVec 64) : Coursed s (s.takePlan m i w) := by
  unfold State.takePlan
  extract_lets t c need inst k0 d0 kd v start far near
  have hv : Coursed s v := .ite (fun _ => .refl s) (fun _ => .modCls ..)
  refine hv.trans ?_
  split
  · exact .after (coursed_redip ..) (.modTile _ _ (fun _ => rfl))
  · refine .ite (fun _ => .modRck ..) (fun _ => .ite (fun _ => .refl v) (fun _ => ?_))
    exact .after (.ite (fun _ => coursed_hail ..) (fun _ => .refl _)) <| .after (.modRck _ _) (.modTile v i (fun _ => rfl))

theorem coursed_resolveEvent (s : State) (m : Emit) (i : Nat) (e : Event) (commit : Bool) : Coursed s (s.resolveEvent m i e commit) := by
  unfold State.resolveEvent
  extract_lets v w x
  refine .after (coursed_sweepEvents ..) <| .after (coursed_redip ..) ?_
  have hw : Coursed s w := .after (.modRck ..) (.modTile _ _ (fun _ => rfl))
  exact hw.trans (.ite (fun _ => coursed_hail ..) (fun _ => .refl _))

theorem coursed_resolveTile (s : State) (m : Emit) (i : Nat) : Coursed s (s.resolveTile m i) :=
  .each (fun v _ => .ite (fun _ => coursed_resolveEvent ..) (fun _ => .ite (fun _ => coursed_resolveEvent ..) (fun _ => .refl v))) _ _

theorem coursed_estimates (s : State) : Coursed s s.estimates := by
  unfold State.estimates
  refine .after (.setRails _ _) (.each (fun v i => .ite (fun _ => ?_) (fun _ => .refl v)) _ _)
  split
  · exact .modTile _ _ (fun _ => rfl)
  · exact .refl v

theorem coursed_emission (s : State) (b : Time) : Coursed s (s.emission b) := by
  unfold State.emission
  refine (Coursed.take s .latency 1121).trans ?_
  generalize s.take .latency 1121 = p
  obtain ⟨n, u⟩ := p
  dsimp -zeta only
  extract_lets m ws up ws' w x y z
  have hw : Coursed u w := .each (fun _ _ => .logged (logged_logPacket ..)) _ _
  have hx : Coursed w x := .each coursed_sweepEvents _ _
  have hy : Coursed x y := .each (fun _ _ => .ite (fun _ => coursed_takePlan ..) (fun _ => .modRck ..)) _ _
  have hz : Coursed y z := .after (coursed_sendHails ..) (.ite (fun _ => .each (fun v i => coursed_resolveTile v m i) _ _) (fun _ => .refl _))
  exact ((hw.trans hx).trans (hy.trans hz)).trans (.ite (fun _ => coursed_estimates _) (fun _ => .refl _))

theorem coursed_abandonRun (s : State) (i : Nat) : Coursed s (s.abandonRun i) := by
  unfold State.abandonRun
  refine .ite (fun _ => .refl s) (fun _ => ?_)
  exact .after (coursed_sweepEvents ..) <| .after (coursed_redip ..) <| .after (.modTile _ _ (fun _ => rfl)) .same

/-! ## Records of a course (07 R203; 15 R355, R359) -/

theorem coursed_closeWatch (s : State) (n : Nat) (end_ : Time) : Coursed s (s.closeWatch n end_) := by
  unfold State.closeWatch
  extract_lets bad close _ v w
  have hv : Coursed s v := .same
  have hw : Coursed v w := .each (fun _ _ => .each (fun _ _ => .logged (logged_logPacket ..)) _ _) _ _
  refine (hv.trans hw).trans ?_
  clear_value bad
  cases bad with
  | nil => exact .refl w
  | cons x r => exact .raise ..

theorem coursed_closeCourse (s : State) : Coursed s s.closeCourse := by
  unfold State.closeCourse
  extract_lets n skip _ v
  have hv : Coursed s v := .same
  exact hv.trans (.ite (fun _ => coursed_closeWatch ..) (fun _ => .refl v))

theorem coursed_traceCourse (s : State) (mv : List (Nat × Nat × Nat)) : Coursed s (s.traceCourse mv) :=
  .ite (fun _ => .refl s) (fun _ => .each (fun _ _ => .ite (fun _ => .same) (fun _ => .same)) _ _)

theorem coursed_clearTelem (s : State) (i : Nat) (gap : Bool) : Coursed s (s.clearTelem i gap) := .modTile _ _ (fun _ => rfl)

theorem coursed_telemCourse (s : State) (i : Nat) : Coursed s (s.telemCourse i) :=
  .after (.modTile _ _ (fun _ => rfl)) (.ite (fun _ => .after (coursed_clearTelem ..) .same) (fun _ => .refl s))

theorem coursed_telemPacket (s : State) (mv : List (Nat × Nat × Nat)) (b : Time) (f : Nat) : Coursed s (s.telemPacket mv b f) :=
  .ite (fun _ => .refl s) (fun _ => .ite (fun _ => .same) (fun _ => .after (.each (fun _ _ => coursed_clearTelem ..) _ _) .same))

theorem coursed_telemetry (s : State) (mv : List (Nat × Nat × Nat)) (b : Time) : Coursed s (s.telemetry mv b) := by
  unfold State.telemetry
  refine .ite (fun _ => .each (fun _ _ => coursed_clearTelem ..) _ _) (fun _ => ?_)
  extract_lets v cnt _ w first _ x
  have hv : Coursed s v := .each coursed_telemCourse _ _
  have hw : Coursed v w := .same
  have hx : Coursed w x := .same
  exact (hv.trans hw).trans (.ite (fun _ => .refl w) (fun _ => hx.trans (.each (fun _ _ => coursed_telemPacket ..) _ _)))

theorem coursed_traceStart (s : State) (b : Time) : Coursed s (s.traceStart b) := .ite (fun _ => .same) (fun _ => .refl s)

/-! ## The snapshot (06 R162, R172, R173) -/

theorem coursed_relen (s : State) (b : Time) : Coursed s (s.relen b) :=
  .ite (fun _ => .refl s) (fun _ => .after (.logged (logged_raise0 ..)) (.modRck ..))

theorem coursed_takeClassMap (s : State) : Coursed s s.takeClassMap := by
  unfold State.takeClassMap
  refine .after (.modRck _ _) (.each (fun v i => ?_) _ _)
  exact .after (.modTile _ _ (fun _ => rfl)) (coursed_abandonRun ..)

theorem coursed_schedule (s : State) (act : List Nat) (len : Nat) : Coursed s (s.schedule act len).1 := by
  unfold State.schedule
  extract_lets cost demand v
  have hv : Coursed s v := .modRck ..
  refine .fst_ite (fun _ => hv) (fun _ => hv.trans ?_)
  dsimp only
  exact .modRck ..

theorem coursed_snapshot (s : State) (b : Time) : Coursed s (s.snapshot b) := by
  unfold State.snapshot
  extract_lets len u _ v x w ids y mv z
  have hu : Coursed s u := coursed_takeClassMap s
  have hv : Coursed u v := .setTiles _ _ _ (fun _ => rfl)
  have hw : Coursed v w := coursed_schedule ..
  have hy : Coursed w y := .each (fun _ _ => coursed_setScales ..) _ _
  have hz : Coursed y z := by
    refine .each (fun t i => ?_) _ _
    exact .ite (fun _ => coursed_evalTile ..) (fun _ => .modTile _ _ (fun _ => rfl))
  exact ((hu.trans hv).trans (hw.trans hy)).trans (hz.trans (.modRck ..))

/-! ## Adaptation (07 R205 to R211) -/

theorem coursed_useSample (s : State) (c : Nat) (l : Layer) (x : Sample) : Coursed s (s.useSample c l x) := by
  unfold State.useSample
  extract_lets tgt skip
  have hs : Coursed s skip := .modCls ..
  refine .ite (fun _ => hs) (fun _ => ?_)
  split
  · exact .after (.modTile _ _ (fun _ => rfl)) (.modCls ..)
  · exact hs

theorem coursed_drainSamples (s : State) (c : Nat) (l : Layer) : Coursed s (s.drainSamples c l) :=
  .after (.each (fun _ _ => coursed_useSample ..) _ _) (.modCls ..)

theorem coursed_writeWeight (s : State) (a : Nat) (bs : List Byte) : Coursed s (s.writeWeight a bs) := .same

theorem coursed_rebuild (s : State) (c : Nat) (l : Layer) : Coursed s (s.rebuild c l) := by
  unfold State.rebuild
  split
  · exact .refl s
  · extract_lets r v
    have hr : Coursed s r.1 := .foldl (a := (s, 0)) (fun _ _ => .after (coursed_writeWeight ..) (coursed_writeWeight ..)) _
    have hv : Coursed r.1 v := .ite (fun _ => coursed_writeWeight ..) (fun _ => .refl _)
    exact (hr.trans hv).trans (.ite (fun _ => .refl v) (fun _ => .after (coursed_setFlag ..) (.modCls ..)))

theorem coursed_watchPair (s : State) (ch : Nat) (p : Option (BitVec 8 × BitVec 2)) : Coursed s (s.watchPair ch p) := by
  have h : Coursed s (s.lone ch).1 := .delivered (delivered_lone ..)
  cases p with
  | none => exact h.trans .same
  | some x => exact h.trans .same

theorem coursed_movePairs (s : State) (c : Nat) : Coursed s (s.movePairs c) := by
  unfold State.movePairs
  split
  · exact .refl s
  · exact .each (fun _ _ => .after (coursed_watchPair ..) (.modCls ..)) _ _

theorem coursed_stallStep (s : State) (c : Nat) : Coursed s (s.stallStep c) := by
  unfold State.stallStep
  split
  · exact .refl s
  · exact .after (.ite (fun _ => .after (.raise ..) (coursed_setFlag ..)) (fun _ => .refl _)) (.modCls s c _)

theorem coursed_adaptClass (s : State) (c : Nat) (len : Nat) : Coursed s (s.adaptClass c len) := by
  unfold State.adaptClass
  split
  · exact .refl s
  · split
    · exact .refl s
    · extract_lets ps new v w
      have hw : Coursed s w := .after (.modCls ..) <| .after (coursed_drainSamples ..) (.modCls ..)
      exact hw.trans (.ite (fun _ => .refl w) (fun _ => .after (coursed_movePairs ..) <| .after (coursed_stallStep ..) (coursed_rebuild ..)))

theorem coursed_adapt (s : State) (len : Nat) : Coursed s (s.adapt len) :=
  .after .same (.ite (fun _ => .each (fun _ _ => coursed_adaptClass ..) _ _) (fun _ => .refl s))

/-! ## The course boundary (06 R159, R172, R173) -/

/-- The boundary of the course under way, at or before the present. -/
def boundaryOf (s : State) : Time := BitVec.ofNat 64 (s.mer.now.toNat / courseLen s.rck.course * courseLen s.rck.course)

/-- A boundary takes the software floor, dates the snapshot, and leaves the rest as a course does. -/
theorem courseBoundary_facts {s : State} (hr : s.mer.running = true) (hb : boundaryOf s ≠ s.rck.snapAt) :
    Coursed { s with power := { s.power with floorNow := s.power.floorW } } s.courseBoundary ∧ s.courseBoundary.rck.snapAt = boundaryOf s := by
  have hb' : BitVec.ofNat 64 (s.nowN / courseLen s.rck.course * courseLen s.rck.course) ≠ s.rck.snapAt := hb
  unfold State.courseBoundary
  rw [if_neg (by simp [hr, hb'])]
  extract_lets len _ u ended v mv w x y z a b c
  refine ⟨?_, rfl⟩
  have hv : Coursed u v := .ite (fun _ => .after (coursed_closeCourse _) (coursed_emission ..)) (fun _ => .refl _)
  have hw : Coursed v w := .after (coursed_traceStart ..) <| .after (coursed_telemetry ..) (coursed_traceCourse ..)
  have hx : Coursed w x := .ite (fun _ => coursed_adapt ..) (fun _ => .refl _)
  have hy : Coursed x y := .setTiles x _ x.rck (fun _ => rfl)
  have hz : Coursed y z := .each coursed_redip _ _
  have ha : Coursed z a := .ite (fun _ => .modRck ..) (fun _ => .refl _)
  have hb : Coursed a b := .after (.modRck ..) (coursed_relen ..)
  exact .after (.modRck _ _) <| (((hv.trans (hw.trans hx)).trans (hy.trans hz)).trans (ha.trans hb)).trans
    (.ite (fun _ => coursed_snapshot ..) (fun _ => .refl b))

/-- Settles O42: a record by what the port takes, a boundary by what a course leaves, and a predicted action by its rule on the events. -/
theorem reckonerEvents : Obligations.ReckonerEvents := by
  rintro dt b i s u o rfl hr rfl hlen rfl
  have hi : b.toNat < (s.tick dt).tiles.length := hlen ▸ b.isLt
  refine ⟨fun w hw hman hclk hloop h10 h11 hmode hp hmap hst => ?_, fun B hB hrun hne => ?_, fun hwh => ?_, ?_, fun hwh => ?_,
    fun hst hwh => ?_, ?_⟩
  · have h : TakesFor (s.tick dt) (fld w 2 8) := hw ▸ ⟨hman, hclk, hloop, ⟨h10, h11⟩, hmode, hp, hmap, hst⟩
    have ev : exec (.manifestRecord dt w) s = .next ((s.tick dt).manifest w) := (event_live _ hr : execManifestRecord dt w s = _)
    rw [ev]
    refine ⟨fun hk ht hroom => ?_, fun hk h0 h1 => ?_⟩
    · obtain ⟨start, dur, cls, work⟩ := recOp_fields (s.tick dt) w
      obtain ⟨window, taken, ovf, others, rails⟩ := manifest_op_facts h (hw ▸ hi) hk ht (hw ▸ hroom)
      rw [hw] at window others
      refine ⟨_, recOp (s.tick dt) w, rfl, start, dur, cls, work, ?_, fun y hy => ?_, ?_, taken, ovf, others, rails⟩ <;>
        rw [window, windowWith]
      · exact (mem_insertOp ..).2 (.inl rfl)
      · exact (mem_insertOp ..).2 (.inr hy)
      · exact length_insertOp ..
    · rw [manifest_stats h hk h0 h1, hw]
      rfl
  · subst hB
    obtain ⟨h, snapAt⟩ := courseBoundary_facts hrun hne
    exact ⟨_, (event_live _ hr : execCourseBoundary dt s = _), snapAt, by rw [h.power], h.mer, h.keys, h.boot,
      fun j => clockOf_eq (h.clock j)⟩
  · have h := atTile_planBy (preStarted (s.tick dt)) (s.tick dt) b.toNat
    refine ⟨_, (event_live _ hr : execPrestretchStart dt b s = _).trans (congrArg _ (preStart_eq hwh)), ?_, (clockOf_eq h.clock).1, h.others,
      h.rails, h.keys⟩
    rw [planBy_events _ hi]
    exact List.map_congr_left (fun e _ => preStarted_eq _ _ e)
  · have h := atTile_ended (preEnded (s.tick dt)) (s.tick dt) b.toNat
    exact ⟨_, (event_live _ hr : execPrestretchEnd dt b s = _), ended_events (preEnded_done _) hi, (clockOf_eq h.clock).1, h.others, h.rails,
      h.keys⟩
  · exact ⟨(event_live _ hr : execPrestretchStart dt b s = _).trans (congrArg _ (preStart_withheld hwh)),
      (event_live _ hr : execDipStart dt b s = _).trans (congrArg _ (dipBegin_withheld hwh))⟩
  · have h := atTile_planBy (dipStarted (s.tick dt)) (s.tick dt) b.toNat
    obtain ⟨st, code, -⟩ := clockOf_eq h.clock
    refine ⟨_, (event_live _ hr : execDipStart dt b s = _).trans (congrArg _ (dipBegin_eq hwh)), ?_, st.trans hst, code, h.others,
      h.rails, h.keys⟩
    rw [planBy_events _ hi]
    exact List.map_congr_left (fun e _ => dipStarted_running hst _ e)
  · have h := atTile_ended (dipEnded (s.tick dt)) (s.tick dt) b.toNat
    obtain ⟨st, code, -⟩ := clockOf_eq h.clock
    exact ⟨_, (event_live _ hr : execDipEnd dt b s = _), ended_events (dipEnded_done _) hi, st, code, h.others, h.rails, h.keys⟩

end Sys2Proof.Proofs
end

section
/-! SUPPORT. Pulse passing, the throttle stretch and the throttle floor (04 R124, R125; Table 4.8). -/

namespace Sys2Proof.Proofs

open Sys2Proof.Machine Sys2Proof.Safety Sys2Proof.Laws

set_option Elab.async false

/-! ## The stretch and the passes of a target rate -/

/-- The stretch for `m` passes is the least that keeps the rate, or the limit where none does. -/
theorem throttleK_spec (q lim m : Nat) : throttleK q lim m ≤ lim ∧ (∀ j < throttleK q lim m, 8 * q * (32 + j) < 256 * m * 32) ∧
    (256 * m * 32 ≤ 8 * q * (32 + throttleK q lim m) ∨ throttleK q lim m = lim ∧ 8 * q * (32 + lim) < 256 * m * 32) := by
  unfold throttleK
  cases h : (List.range (lim + 1)).find? (fun k => decide (256 * m * 32 ≤ 8 * q * (32 + k))) with
  | some k =>
    obtain ⟨hk, hr, hj⟩ := List.find?_range_eq_some.1 h
    refine ⟨Nat.lt_succ_iff.1 (List.mem_range.1 hr), fun j hlt => ?_, .inl (by simpa using hk)⟩
    simpa using hj j hlt
  | none =>
    have hn : ∀ j, j ≤ lim → 8 * q * (32 + j) < 256 * m * 32 := fun j hj => by
      simpa using List.find?_range_eq_none.1 h j (Nat.lt_succ_of_le hj)
    exact ⟨le_rfl, fun j hj => hn j (Nat.le_of_lt hj), .inr ⟨rfl, hn lim le_rfl⟩⟩

/-- What the loop of R125 answers from `n` passes downwards. -/
structure Chosen (q lim n m k : Nat) (b : Bool) : Prop where
  pos : 1 ≤ m
  le : m ≤ n
  stretch : k = throttleK q lim m
  keeps : b = false → 256 * m * 32 ≤ 8 * q * (32 + k)
  most : ∀ j, m < j → j ≤ n → 8 * q * (32 + lim) < 256 * j * 32
  floor : b = true → m = 1 ∧ k = lim ∧ 8 * q * (32 + lim) < 256 * 32

/-- Passes that no stretch within the limit keeps at the rate do not come back. -/
theorem Chosen.succ {q lim n m k : Nat} {b : Bool} (h : Chosen q lim n m k b) (hn : 8 * q * (32 + lim) < 256 * (n + 1) * 32) :
    Chosen q lim (n + 1) m k b where
  pos := h.pos
  le := Nat.le_succ_of_le h.le
  stretch := h.stretch
  keeps := h.keeps
  most := fun j hm hj => (Nat.le_or_eq_of_le_succ hj).elim (h.most j hm) (fun e => e ▸ hn)
  floor := h.floor

theorem chosen_passLoop {q lim : Nat} (n : Nat) (hn : 0 < n) :
    Chosen q lim n (passLoop q lim n).1 (passLoop q lim n).2.1 (passLoop q lim n).2.2 := by
  induction n with
  | zero => exact absurd hn (Nat.lt_irrefl 0)
  | succ n ih =>
    obtain ⟨-, -, hk⟩ := throttleK_spec q lim (n + 1)
    unfold passLoop
    dsimp only
    split
    · next h => exact ⟨Nat.succ_pos n, le_rfl, rfl, fun _ => h, fun j h1 h2 => absurd h1 (Nat.not_lt.2 h2), nofun⟩
    · next h =>
      obtain ⟨hl, hf⟩ := hk.resolve_left h
      split
      · next h0 =>
        subst h0
        exact ⟨le_rfl, le_rfl, rfl, nofun, fun j h1 h2 => absurd h1 (Nat.not_lt.2 h2), fun _ => ⟨rfl, hl, hf⟩⟩
      · next h0 => exact (ih (Nat.pos_of_ne_zero h0)).succ hf

/-- The choice for a rate of 1 to 256. -/
theorem chosen_passOf {q lim m k : Nat} {b : Bool} (h1 : 1 ≤ q) (h : passOf q lim = (m, k, b)) :
    Chosen q lim ((8 * q + 255) / 256) m k b := by
  have hc := chosen_passLoop (q := q) (lim := lim) (cdiv (8 * q) 256) (by unfold cdiv; omega)
  rw [show passLoop q lim (cdiv (8 * q) 256) = (m, k, b) from h] at hc
  exact hc

/-! ## A tile -/

/-- No rate is asked of a steady tile, so it passes every period unstretched. -/
theorem passTile_steady {s : State} {i : Nat} (h : s.steady i = true) (mv : List (Nat × Nat × Nat)) : s.passTile mv i = (8, 0, false) := by
  have hq : s.qTarget mv i = 256 := by simp [State.qTarget, State.qParts, h, minOr]
  have hk : ∀ lim, throttleK 256 lim 8 = 0 := fun lim => by simp [throttleK, List.range_succ_eq_map]
  rw [State.passTile, hq]
  simp [passOf, cdiv, passLoop, hk]

theorem floorBit_statusWord {s : State} {i : Nat} (h : (s.tile i).st = .running) (mv : List (Nat × Nat × Nat)) :
    bit (s.statusWord mv i) 35 = (s.passTile mv i).2.2 := by
  simp only [State.statusWord, bit, BitVec.getLsbD_ofNat, testBit_pack]
  simp [testBit_b2n, h, -Nat.testBit_zero]

/-- Settles O52: the choice is the loop's, and a steady tile is asked no rate. -/
theorem throttleChoice : Obligations.ThrottleChoice := by
  refine ⟨by decide, by decide, fun q lim m k b h1 _ h => ?_, fun s i => ⟨fun mv hs => passTile_steady hs mv,
    fun mv hs => floorBit_statusWord hs mv⟩⟩
  obtain ⟨pos, le, rfl, keeps, most, floor⟩ := chosen_passOf h1 h
  obtain ⟨hk, least, -⟩ := throttleK_spec q lim m
  exact ⟨pos, le, hk, keeps, least, most, floor⟩

end Sys2Proof.Proofs
end

section
/-! SUPPORT. Argument words of a request, the rules of a change of a tile, and the answer of a command (13 R319; 14 R328, R429; 04 R121,
R128, R134, R428; 05 R142; 17 R398). -/

namespace Sys2Proof.Proofs

open Sys2Proof.Machine Sys2Proof.Safety Sys2Proof.Laws

set_option Elab.async false

/-! ## Argument words (14 R328) -/

/-- A word without a bit at or above the n-th lies below 2^n. -/
theorem toNat_lt_of_mask {a : Word} (n : Nat) (h : a &&& ~~~BitVec.ofNat 32 (2 ^ n - 1) = 0) : a.toNat < 2 ^ n := by
  refine Nat.lt_pow_two_of_testBit _ (fun i hi => ?_)
  rw [BitVec.testBit_toNat]
  by_cases hw : i < 32
  · have hm : (BitVec.ofNat 32 (2 ^ n - 1)).getLsbD i = false := by
      simp only [BitVec.getLsbD_ofNat, Nat.testBit_two_pow_sub_one, Nat.not_lt.2 hi, decide_false, Bool.and_false]
    have hb : (a &&& ~~~BitVec.ofNat 32 (2 ^ n - 1)).getLsbD i = false := by rw [h]; exact BitVec.getLsbD_zero
    simpa only [BitVec.getLsbD_and, BitVec.getLsbD_not, hm, hw, decide_true, Bool.not_false, Bool.and_true] using hb
  · exact BitVec.getLsbD_of_ge a i (Nat.not_lt.1 hw)

theorem fld_of_lt {m n : Nat} {x : BitVec m} (h : x.toNat < 2 ^ n) : fld x 0 n = x.toNat := by
  rw [fld, Nat.shiftRight_zero, Nat.mod_eq_of_lt h]

theorem fld_above {m n : Nat} {x : BitVec m} (h : x.toNat < 2 ^ n) (w : Nat) : fld x n w = 0 := by
  rw [fld, Nat.shiftRight_eq_div_pow, Nat.div_eq_of_lt h, Nat.zero_mod]

theorem fld_congr {m n : Nat} {x : BitVec m} {y : BitVec n} (h : x.toNat = y.toNat) (lo w : Nat) : fld x lo w = fld y lo w := by
  rw [fld, fld, h]

theorem bit_congr {m n : Nat} {x : BitVec m} {y : BitVec n} (h : x.toNat = y.toNat) (i : Nat) : bit x i = bit y i := by
  rw [bit, bit, ← BitVec.testBit_toNat, ← BitVec.testBit_toNat, h]

/-- Two argument words of which the high one is 0. -/
theorem toNat_w64 {q : Req} {n : Nat} (h : q.w (n + 1) = 0) : (q.w64 n).toNat = (q.w n).toNat := by
  have hw := (q.w n).isLt
  rw [Req.w64, h, BitVec.toNat_ofNat, show (0 : Word).toNat = 0 from rfl]
  omega

section

variable {q : Req} {a b c : Word} {rest : List Word}

/-- The tile that word 1 names. -/
theorem reqTile_args (hq : q.args = a :: rest) (ha : a &&& ~~~0xFF#32 = 0) : reqTile q = a.toNat := by
  rw [reqTile, w_one hq]
  exact fld_of_lt (toNat_lt_of_mask 8 ha)

/-- Words 2 and 3 of which word 3 is 0. -/
theorem w64_low (hq : q.args = a :: b :: c :: rest) (hc : c = 0) : (q.w64 2).toNat = b.toNat := by
  rw [toNat_w64 (by simp [Req.w, hq, hc])]
  simp [Req.w, hq]

/-- Each argument word keeps to its mask. -/
theorem rsvWord_two {m n : Word} (ha : a &&& ~~~m = 0) (hb : b &&& ~~~n = 0) (ms : List Word) (k : Nat) :
    rsvWord k (m :: n :: ms) (a :: b :: rest) = rsvWord (k + 2) ms rest := by
  simp only [rsvWord, ha, hb, if_true]

theorem rsvWord_three {m n o : Word} (ha : a &&& ~~~m = 0) (hb : b &&& ~~~n = 0) (hc : c &&& ~~~o = 0) (k : Nat) :
    rsvWord k [m, n, o] (a :: b :: c :: rest) = none := by
  rw [rsvWord_two ha hb]
  simp only [rsvWord, hc, if_true]

end

/-! ## The rules of a change -/

/-- A tile that takes a change: it is present, and neither fenced nor marked with a fence's cause (01 R26; 17 R398). -/
structure Changeable (v : State) (i : Nat) : Prop where
  present : v.present i = true
  unfenced : (v.tile i).st ≠ .fenced
  cause : (v.tile i).cause = 0

/-- A policy word that the rules of a tile's class and chart admit (04 R121, R134). -/
structure PolicyFits (v : State) (i : Nat) (w : BitVec 64) : Prop where
  below : w.toNat < 2 ^ 27
  head : fld w 21 5 + (v.chart i).head.toNat ≤ fld w 16 5
  limit : fld w 16 5 ≤ classLim (v.clsOf i)
  least : v.clsOf i ≠ 2 → 2 ≤ fld w 16 5
  steady : v.clsOf i = 2 → fld w 21 5 = 0

/-- A code other than the one expected, at an instant that admits the move (04 R105, R110 to R112; Tables 4.3, 4.10). -/
structure MoveFits (v : State) (i : Nat) (T : Time) (w : BitVec 64) : Prop where
  some_ : T ≠ 0
  changed : fld w 0 16 ≠ (v.expAt i (v.key T) none []).code
  nonzero : fld w 0 16 ≠ 0
  ahead : v.inHorizon T = true
  lead : 2 ^ 63 + leadOf (v.expAt i (v.key T) none []) (.policy w) ≤ v.key T
  clash : v.moveClash i T = false
  locked : v.schedulable = true
  code : v.codeErrs i (v.key T) (v.expAt i (v.key T) none []) (fld w 0 16) true (v.moveTimes i none) = []
  own : v.ownsCode i = true → fld w 0 16 = v.cvy.code.toNat

section

variable {v : State} {i : Nat} {w : BitVec 64} {e : Exp} {q : Req}

theorem orElse_nil (v : State) (ok : State × Ans) : orElse v [] ok = ok := rfl

theorem fenceErrs_nil (h : Changeable v i) : fenceErrs v i = [] := by simp [fenceErrs, Tile.fenced, h.unfenced, h.cause]

theorem policyErrs_nil (h : PolicyFits v i w) (hc : fld w 0 16 = 0 → e.code = 0) : v.policyErrs i e w = [] := by
  have hform : (fld w 27 37 ≠ 0 || (fld w 0 16 = 0 && e.code ≠ 0)) = false := by simpa [fld_above h.below] using hc
  have hclass : (fld w 16 5 > classLim (v.clsOf i) || (v.clsOf i ≠ 2 && fld w 16 5 < 2) || (v.clsOf i = 2 && fld w 21 5 ≠ 0) ||
      fld w 21 5 > fld w 16 5) = false := by
    have hle : fld w 21 5 ≤ fld w 16 5 := Nat.le_of_add_right_le h.head
    simpa [h.limit, hle] using And.intro (fun hs => Nat.lt_of_succ_le (h.least hs)) h.steady
  simp only [State.policyErrs, hform, hclass, Nat.not_lt.2 h.head, if_false, Bool.false_eq_true, List.nil_append]

theorem newCode_policy (e : Exp) (w : BitVec 64) :
    newCode e (.policy w) = if fld w 0 16 = e.code then none else some (fld w 0 16) := rfl

/-- A word that repeats the code expected now, its instant 0. -/
theorem policyErrsAll_limits (h : Changeable v i) (hw : PolicyFits v i (q.w64 2)) (hi : reqTile q = i) (hT : q.w64 4 = 0)
    (hc : fld (q.w64 2) 0 16 = (v.expAt i (2 ^ 63 + 1) none []).code) : policyErrsAll v q = [] := by
  have hn : newCode (v.expAt i (nowK + 1) none []) (.policy (q.w64 2)) = none := (newCode_policy ..).trans (if_pos hc)
  have hp : v.policyErrs i (v.expAt i (nowK + 1) none []) (q.w64 2) = [] := policyErrs_nil hw (fun h0 => hc.symm.trans h0)
  simp [policyErrsAll, hi, hT, hn, hp, h.present, fenceErrs_nil h]

/-- A word with a changed code at an instant that admits the move. -/
theorem policyErrsAll_move (h : Changeable v i) (hw : PolicyFits v i (q.w64 2)) (hi : reqTile q = i)
    (hm : MoveFits v i (q.w64 4) (q.w64 2)) : policyErrsAll v q = [] := by
  obtain ⟨hT, hne, h0, hz, hl, hcl, hr, hcode, hown⟩ := hm
  have hn : newCode (v.expAt i (v.key (q.w64 4)) none []) (.policy (q.w64 2)) = some (fld (q.w64 2) 0 16) :=
    (newCode_policy ..).trans (if_neg hne)
  have hp : v.policyErrs i (v.expAt i (v.key (q.w64 4)) none []) (q.w64 2) = [] := policyErrs_nil hw (fun h => absurd h h0)
  have hlead : ¬ v.key (q.w64 4) < nowK + leadOf (v.expAt i (v.key (q.w64 4)) none []) (.policy (q.w64 2)) := Nat.not_lt.2 hl
  have ho : v.ownErr i false (!decide (fld (q.w64 2) 0 16 = v.cvy.code.toNat)) = [] := by
    simpa [State.ownErr] using hown
  have ht : v.tileErrs nowK i (v.key (q.w64 4)) (v.expAt i (v.key (q.w64 4)) none []) (.policy (q.w64 2)) true false
      (v.moveTimes i none) = [] := by
    simp [State.tileErrs, h.present, hlead, Tile.fenced, h.unfenced, h.cause, hp, hn, h0, show nowK ≠ 0 by decide, hcode, ho]
  have hT' : q.w64 4 ≠ 0#64 := hT
  simp [policyErrsAll, hi, hT', hn, ht, h.present, instantBad, hz, h0, hcl, hr]

/-- A plumb word within 05 R142. -/
structure PlumbFits (v : State) (i : Nat) (w : BitVec 64) : Prop where
  form : ∀ p < 4, plumbRsv w p = 0 ∧ 2 ≤ plumbStr w p ∧ plumbStr w p ≤ 16
  steady : v.clsOf i = 2 → ∃ p < 4, plumbEn w p = true
  near : v.clsOf i ≠ 2 → 2 ≤ ([0, 1, 2, 3].filter (fun p => plumbEn w p && decide (plumbThr w p ≤ 40))).length

theorem plumbErrs_nil (h : PlumbFits v i w) : plumbErrs (v.clsOf i) i w = [] := by
  have hform : [0, 1, 2, 3].any (fun p => decide (plumbRsv w p ≠ 0) || decide (plumbStr w p < 2) || decide (plumbStr w p > 16)) = false := by
    refine List.any_eq_false.2 (fun p hp => ?_)
    obtain ⟨hr, hl, hh⟩ := h.form p (by simp at hp; omega)
    simp [hr, Nat.not_lt.2 hl, Nat.not_lt.2 hh]
  have hclass : ((v.clsOf i = 2 && ([0, 1, 2, 3].filter (fun p => plumbEn w p)).isEmpty) ||
      (v.clsOf i ≠ 2 && ([0, 1, 2, 3].filter (fun p => plumbEn w p && decide (plumbThr w p ≤ 40))).length < 2)) = false := by
    by_cases hs : v.clsOf i = 2
    · obtain ⟨p, hp, he⟩ := h.steady hs
      have hne : [0, 1, 2, 3].filter (fun p => plumbEn w p) ≠ [] :=
        List.ne_nil_of_mem (List.mem_filter.2 ⟨by simp; omega, he⟩)
      simp [hs, hne]
    · simpa [hs] using Nat.lt_of_succ_le (h.near hs)
  simp only [plumbErrs, hform, hclass, if_false, Bool.false_eq_true, List.nil_append]

/-- A droop word within 05 R142. -/
theorem droopErrs_nil (hb : w.toNat < 2 ^ 27) (hh : 8 ≤ fld w 0 8) (h1 : 1 ≤ fld w 11 9) (h2 : fld w 11 9 ≤ 256) (h3 : 85 ≤ fld w 20 7)
    (h4 : fld w 20 7 ≤ 105) : droopErrs i w = [] := by
  have hs : fld w 11 9 ≠ 0 := Nat.ne_of_gt h1
  simp [droopErrs, droopHold, droopShiftQ, droopThermSet, fld_above hb, Nat.not_lt.2 hh, hs, Nat.not_lt.2 h2, Nat.not_lt.2 h3,
    Nat.not_lt.2 h4]

/-- What an action of a tile's state has to meet, beside the rules of its operation. -/
theorem tileErrs_state {a : SchedAct} {at_ : Nat} (ha : ∀ c, a ≠ .code c) (h : Changeable v i) (hl : 2 ^ 63 + leadOf e a.chg ≤ at_)
    (hg : a = .enable ∨ a = .ungate → v.granted i = false) (moves : List Nat) :
    v.tileErrs nowK i at_ e a.chg true false moves = v.stateErrs i e a.chg true := by
  have hlead : ¬ at_ < nowK + leadOf e a.chg := Nat.not_lt.2 hl
  cases a with
  | code c => exact absurd rfl (ha c)
  | enable | ungate =>
    simp only [SchedAct.chg] at hlead ⊢
    simp [State.tileErrs, h.present, hlead, Tile.fenced, h.unfenced, h.cause, hg]
  | disable | gate | swap =>
    simp only [SchedAct.chg] at hlead ⊢
    simp [State.tileErrs, h.present, hlead, Tile.fenced, h.unfenced, h.cause]

end

/-! ## The answer of a command (13 R319; 14 R328) -/

section

variable {u v : State} {q : Req} {op : Byte} {n : BitVec 3}

theorem held_publish (v : State) (n m : BitVec 3) :
    ((v.publish n).mbx m).held = (v.mbx m).held ∧ ((v.publish n).mbx m).heldResp = (v.mbx m).heldResp := by
  have hm : ∀ f : Mbx → Mbx, (∀ x, (f x).held = x.held ∧ (f x).heldResp = x.heldResp) →
      ((v.modMbx n f).mbx m).held = (v.mbx m).held ∧ ((v.modMbx n f).mbx m).heldResp = (v.mbx m).heldResp := fun f hf => by
    simp only [State.mbx, State.modMbx, List.getD_eq_getElem?_getD, List.getElem?_modify]
    cases v.mbxs[m.toNat]? with
    | none => exact ⟨rfl, rfl⟩
    | some x => by_cases h : n.toNat = m.toNat <;> simp [h, hf]
  unfold State.publish
  dsimp only
  split
  · exact hm _ (fun _ => ⟨rfl, rfl⟩)
  · split <;> exact hm _ (fun _ => ⟨rfl, rfl⟩)

theorem mbx_modMbx_same {v : State} {n : BitVec 3} (h : n.toNat < v.mbxs.length) (f : Mbx → Mbx) : (v.modMbx n f).mbx n = f (v.mbx n) := by
  simp [State.mbx, State.modMbx, h]

/-- A field of a packed 32-bit word. -/
theorem testBit_fld_w32 {lo i w m : Nat} (h : lo + i < 32) (hi : i < w) : (fld (w32 m) lo w).testBit i = m.testBit (lo + i) := by
  have hb : (w32 m).getLsbD (lo + i) = m.testBit (lo + i) := (bit_w32 m (lo + i)).trans (by simp [h])
  rw [fld, Nat.testBit_mod_two_pow, Nat.testBit_shiftRight, BitVec.testBit_toNat, hb, decide_eq_true hi, Bool.true_and]

/-- The header of a request holds its opcode and its tag. -/
theorem reqHeader_fields (op : Byte) (q : Req) :
    BitVec.ofNat 8 (fld (reqHeader op q) 0 8) = op ∧ BitVec.ofNat 8 (fld (reqHeader op q) 8 8) = q.tag := by
  constructor <;> refine BitVec.eq_of_getLsbD_eq (fun i hi => ?_) <;>
    rw [BitVec.getLsbD_ofNat, reqHeader, testBit_fld_w32 (by omega) hi, testBit_pack]
  · simp [hi, show ¬ 8 ≤ i by omega, show ¬ 16 ≤ i by omega, show ¬ 20 ≤ i by omega, show ¬ 23 ≤ i by omega,
      BitVec.testBit_toNat]
  · simp [hi, show 8 + i < 16 by omega, show ¬ 16 ≤ 8 + i by omega, show ¬ 20 ≤ 8 + i by omega, show ¬ 23 ≤ 8 + i by omega,
      BitVec.testBit_toNat]

/-- A posted request stands in its mailbox with its opcode and its tag. -/
theorem header_posted (h : q.mbx.toNat < u.mbxs.length) (op : Byte) :
    ((posted u op q).mbx q.mbx).op = op ∧ ((posted u op q).mbx q.mbx).tag = q.tag := by
  have hc : ((posted u op q).mbx q.mbx).cmd.getD 0 0 = reqHeader op q := by
    change ((State.modMbx (u.writeReq op q) q.mbx _).mbx q.mbx).cmd.getD 0 0 = _
    rw [mbx_modMbx_same (by simpa [State.writeReq, State.modMbx] using h), State.writeReq, mbx_modMbx_same h]
    rfl
  rw [Mbx.op, Mbx.tag, hc]
  exact reqHeader_fields op q

/-- A command whose body leaves the mailboxes answers in its own. -/
theorem answered_finish (h : u.mbxs.length = 8) (hv : v.mbxs = (posted u op q).mbxs) (r : Resp) :
    answered (v.finish q.mbx r) q.mbx op q.tag r := by
  have hn : q.mbx.toNat < u.mbxs.length := h ▸ q.mbx.isLt
  have hl : q.mbx.toNat < v.mbxs.length := by simpa [hv, posted, State.writeReq, State.modMbx] using hn
  have hm : v.mbx q.mbx = (posted u op q).mbx q.mbx := by rw [State.mbx, State.mbx, hv]
  obtain ⟨hop, htag⟩ := header_posted hn op
  obtain ⟨held, resp⟩ := held_publish (v.modMbx q.mbx (fun m => { m with
    held := .done, heldResp := area16 (respHeader m.op m.tag r :: r.words), final := none, wait := .none })) q.mbx q.mbx
  rw [mbx_modMbx_same hl] at held resp
  exact ⟨held, resp.trans (by rw [hm, hop, htag])⟩

end

end Sys2Proof.Proofs
end

section
/-! SUPPORT. The tile words by command: TILE_POLICY, TILE_PLUMB, TILE_DROOP and LEARN_RESET (14 0x21 to 0x23, 0x29; 04 R121, R134; 05 R141
to R143; 11 R294). -/

namespace Sys2Proof.Proofs

open Sys2Proof.Machine Sys2Proof.Safety Sys2Proof.Laws

set_option Elab.async false

/-! ## A tile as a request finds it -/

@[simp] theorem present_posted (u : State) (op : Byte) (q : Req) (i : Nat) : (posted u op q).present i = u.present i := rfl
@[simp] theorem clsOf_posted (u : State) (op : Byte) (q : Req) (i : Nat) : (posted u op q).clsOf i = u.clsOf i := rfl
@[simp] theorem steady_posted (u : State) (op : Byte) (q : Req) (i : Nat) : (posted u op q).steady i = u.steady i := rfl
@[simp] theorem chart_posted (u : State) (op : Byte) (q : Req) (i : Nat) : (posted u op q).chart i = u.chart i := rfl
@[simp] theorem adaptive_posted (u : State) (op : Byte) (q : Req) (i : Nat) : (posted u op q).adaptive i = u.adaptive i := rfl
@[simp] theorem service_posted (u : State) (op : Byte) (q : Req) (i : Nat) : (posted u op q).service i = u.service i := rfl
@[simp] theorem railOf_posted (u : State) (op : Byte) (q : Req) (i : Nat) : (posted u op q).railOf i = u.railOf i := rfl
@[simp] theorem rail_posted (u : State) (op : Byte) (q : Req) (r : Nat) : (posted u op q).rail r = u.rail r := rfl
@[simp] theorem granted_posted (u : State) (op : Byte) (q : Req) (i : Nat) : (posted u op q).granted i = u.granted i := rfl
@[simp] theorem ownsCode_posted (u : State) (op : Byte) (q : Req) (i : Nat) : (posted u op q).ownsCode i = u.ownsCode i := rfl
@[simp] theorem safeFloor_posted (u : State) (op : Byte) (q : Req) : (posted u op q).safeFloor = u.safeFloor := rfl
@[simp] theorem changesOf_posted (u : State) (op : Byte) (q : Req) (i : Nat) (own : Option Nat) :
    (posted u op q).changesOf i own = u.changesOf i own := rfl
@[simp] theorem expAt_posted (u : State) (op : Byte) (q : Req) (i k : Nat) (own : Option Nat) (more : List TChg) :
    (posted u op q).expAt i k own more = u.expAt i k own more := by
  unfold State.expAt
  rw [changesOf_posted, tile_posted]
@[simp] theorem moveTimes_posted (u : State) (op : Byte) (q : Req) (i : Nat) (own : Option Nat) :
    (posted u op q).moveTimes i own = u.moveTimes i own := rfl
@[simp] theorem codeErrs_posted (u : State) (op : Byte) (q : Req) (i k : Nat) (e : Exp) (c : Nat) (new : Bool) (moves : List Nat) :
    (posted u op q).codeErrs i k e c new moves = u.codeErrs i k e c new moves := rfl
@[simp] theorem moveClash_posted (u : State) (op : Byte) (q : Req) (i : Nat) (T : Time) :
    (posted u op q).moveClash i T = u.moveClash i T := by
  unfold State.moveClash
  simp only [expAt_posted, key_posted, tile_posted, posted_keys]

section

variable {dt : Nat} {q : Req} {s u : State} {a b c d e : Word} {i : Nat} {op : Byte}

/-- A change that host firmware may ask of a tile is judged on the state in which its request runs. -/
theorem changeable_posted (h : Changeable u i) (op : Byte) (q : Req) : Changeable (posted u op q) i :=
  ⟨h.present, h.unfenced, h.cause⟩

/-! ## TILE_POLICY (04 R121, R134) -/

/-- What a policy word asks beside its code: the limits and the soft start of its bits [26:16]. -/
def limitsBy (b : Word) (t : Tile) : Tile :=
  { t with reactLim := BitVec.ofNat 5 (fld b 16 5), planLim := BitVec.ofNat 5 (fld b 21 5), softStart := bit b 26 }

theorem setLimits_eq {w : BitVec 64} (h : w.toNat = b.toNat) (t : Tile) : t.setLimits w = limitsBy b t := by
  rw [Tile.setLimits, fld_congr h, fld_congr h, bit_congr h]
  rfl

/-- The fields of a policy word that fits, by the word that carries them. -/
theorem policyFits_posted {w : BitVec 64} (hw : w.toNat = b.toNat) (hb : b &&& ~~~0x07FFFFFF#32 = 0)
    (h1 : fld b 21 5 + (u.chart i).head.toNat ≤ fld b 16 5) (h2 : fld b 16 5 ≤ classLim (u.clsOf i))
    (h3 : u.clsOf i ≠ 2 → 2 ≤ fld b 16 5) (h4 : u.clsOf i = 2 → fld b 21 5 = 0) (op : Byte) (q : Req) :
    PolicyFits (posted u op q) i w := by
  rw [← fld_congr hw, ← fld_congr hw] at h1
  rw [← fld_congr hw] at h2 h3 h4
  exact ⟨hw.trans_lt (toNat_lt_of_mask 27 hb), h1, h2, h3, h4⟩

theorem moveFits_posted {T : Time} {w : BitVec 64} (h : MoveFits u i T w) (op : Byte) (q : Req) : MoveFits (posted u op q) i T w := by
  obtain ⟨hT, hne, h0, hz, hl, hcl, hr, hcode, hown⟩ := h
  exact {
    some_ := hT
    changed := by rwa [expAt_posted, key_posted]
    nonzero := h0
    ahead := (inHorizon_posted ..).trans hz
    lead := by simp only [expAt_posted, key_posted]; exact hl
    clash := (moveClash_posted ..).trans hcl
    locked := (schedulable_posted ..).trans hr
    code := by rwa [expAt_posted, key_posted, codeErrs_posted, moveTimes_posted]
    own := hown }

theorem masks_tilePolicy (hq : q.args = [a, b, c, d, e]) (ha : a &&& ~~~0xFF#32 = 0) (hb : b &&& ~~~0x07FFFFFF#32 = 0) (hc : c = 0) :
    rsvWord 1 cmdTilePolicy.masks q.args = none := by
  rw [hq]
  exact rsvWord_three ha hb (by simp [hc]) 1

/-- The limits of a word that nothing refuses, with no instant. -/
theorem exec_tilePolicy_limits (h : ready false (s.tick dt) q = true) (hh : (s.tick dt).haltedB = false) (hq : q.args = [a, b, c, d, e])
    (ha : a &&& ~~~0xFF#32 = 0) (hb : b &&& ~~~0x07FFFFFF#32 = 0) (hc : c = 0) (hT : q.w64 4 = 0)
    (he : policyErrsAll (posted (s.tick dt) 0x21 q) q = []) :
    exec (.tilePolicy dt q) s =
      .next (State.finish (((posted (s.tick dt) 0x21 q).modTile a.toNat (limitsBy b)).redip a.toNat) q.mbx (okR [])) := by
  have hl : (fun t : Tile => t.setLimits (q.w64 2)) = limitsBy b := funext (setLimits_eq (w64_low hq hc))
  refine congrArg Host.Outcome.next ?_
  refine postCmd_final (c := cmdTilePolicy) h (by simp) (fun _ => hh) rfl
    (by simp [cmdTilePolicy, lenIs, hq]) (masks_tilePolicy hq ha hb hc) ?_ ?_
  · simp only [cmdTilePolicy, he]; rfl
  · simp only [cmdTilePolicy, he, hT, reqTile_args hq ha, hl, orElse_nil, if_true]

/-- The move that a word schedules beside its limits. -/
theorem exec_tilePolicy_move {x : Exp} (h : ready false (s.tick dt) q = true) (hh : (s.tick dt).haltedB = false)
    (hq : q.args = [a, b, c, d, e]) (ha : a &&& ~~~0xFF#32 = 0) (hb : b &&& ~~~0x07FFFFFF#32 = 0) (hc : c = 0) (hT : q.w64 4 ≠ 0)
    (hx : x = (s.tick dt).expAt a.toNat ((s.tick dt).key (q.w64 4)) none [])
    (he : policyErrsAll (posted (s.tick dt) 0x21 q) q = []) :
    exec (.tilePolicy dt q) s = .next (State.finish (State.revalidate 4 ((s.tick dt).key (q.w64 4)) [(0, a.toNat)]
      (State.booked ((((posted (s.tick dt) 0x21 q).modTile a.toNat (limitsBy b)).redip a.toNat).modTile a.toNat
        (fun t => { t with sched := t.sched ++ [{ at_ := q.w64 4, act := .code (BitVec.ofNat 16 (fld b 0 16)) }] })) a.toNat (q.w64 4)
        (isHandover x (.policy (q.w64 2))))) q.mbx (okR [])) := by
  have hl : (fun t : Tile => t.setLimits (q.w64 2)) = limitsBy b := funext (setLimits_eq (w64_low hq hc))
  have hf : fld (q.w64 2) 0 16 = fld b 0 16 := fld_congr (w64_low hq hc) 0 16
  subst hx
  refine congrArg Host.Outcome.next ?_
  refine postCmd_final (c := cmdTilePolicy) h (by simp) (fun _ => hh) rfl
    (by simp [cmdTilePolicy, lenIs, hq]) (masks_tilePolicy hq ha hb hc) ?_ ?_
  · simp only [cmdTilePolicy, he]; rfl
  · simp only [cmdTilePolicy, he, if_neg hT, reqTile_args hq ha, hl, hf, orElse_nil, key_posted, expAt_posted]

/-! ## TILE_PLUMB and TILE_DROOP (05 R141 to R143) -/

theorem exec_tilePlumb (h : ready false (s.tick dt) q = true) (hh : (s.tick dt).haltedB = false) (hq : q.args = [a, b, c])
    (ha : a &&& ~~~0xFF#32 = 0) (hb : b &&& ~~~0x3FFF3FFF#32 = 0) (hc : c &&& ~~~0x3FFF3FFF#32 = 0)
    (hp : Changeable (s.tick dt) a.toNat) (hw : PlumbFits (s.tick dt) a.toNat (q.w64 2)) :
    exec (.tilePlumb dt q) s = .next (State.finish ((posted (s.tick dt) 0x22 q).modTile a.toNat
      (fun t => t.setPlumbW (q.w64 2) ((s.tick dt).steady a.toNat) (s.tick dt).boot.uptime)) q.mbx (okR [])) := by
  have hi := reqTile_args hq ha
  have hpr : (posted (s.tick dt) 0x22 q).present a.toNat = true := (present_posted ..).trans hp.present
  have hf := fenceErrs_nil (changeable_posted hp 0x22 q)
  have he : plumbErrs ((posted (s.tick dt) 0x22 q).clsOf a.toNat) a.toNat (q.w64 2) = [] := by
    rw [clsOf_posted]
    exact plumbErrs_nil hw
  refine congrArg Host.Outcome.next ?_
  refine postCmd_final (c := cmdTilePlumb) h (by simp) (fun _ => hh) rfl
    (by simp [cmdTilePlumb, lenIs, hq]) (by rw [hq]; exact rsvWord_three ha hb hc 1) ?_ ?_
  · simp only [cmdTilePlumb, hi, hpr, he]; rfl
  · simp only [cmdTilePlumb, hi, he, hf, List.nil_append, orElse_nil, steady_posted, posted_boot]

theorem exec_tileDroop (h : ready false (s.tick dt) q = true) (hh : (s.tick dt).haltedB = false) (hq : q.args = [a, b, 0])
    (ha : a &&& ~~~0xFF#32 = 0) (hb : b &&& ~~~0x07FFFFFF#32 = 0) (hp : Changeable (s.tick dt) a.toNat)
    (he : droopErrs a.toNat (q.w64 2) = []) :
    exec (.tileDroop dt q) s =
      .next (State.finish ((posted (s.tick dt) 0x23 q).modTile a.toNat (fun t => { t with droopW := q.w64 2 })) q.mbx (okR [])) := by
  have hi := reqTile_args hq ha
  have hpr : (posted (s.tick dt) 0x23 q).present a.toNat = true := (present_posted ..).trans hp.present
  have hf := fenceErrs_nil (changeable_posted hp 0x23 q)
  refine congrArg Host.Outcome.next ?_
  refine postCmd_final (c := cmdTileDroop) h (by simp) (fun _ => hh) rfl
    (by simp [cmdTileDroop, lenIs, hq]) (by rw [hq]; exact rsvWord_three ha hb (by simp) 1) ?_ ?_
  · simp only [cmdTileDroop, hi, hpr, he]; rfl
  · simp only [cmdTileDroop, hi, hf, orElse_nil]

/-! ## LEARN_RESET (11 R294) -/

theorem exec_learnReset_one (h : ready false (s.tick dt) q = true) (hh : (s.tick dt).haltedB = false) (hq : q.args = [a])
    (ha : a &&& ~~~0xFF#32 = 0) (hp : Changeable (s.tick dt) a.toNat) (hs : (s.tick dt).steady a.toNat = false) :
    exec (.learnReset dt q) s = .next (State.finish ((posted (s.tick dt) 0x29 q).modTile a.toNat
      (fun t => { t with learn := ((s.tick dt).chart a.toNat).maxCode })) q.mbx (okR [])) := by
  have hlt : a.toNat < 256 := toNat_lt_of_mask 8 ha
  have hn : fld (q.w 1) 0 9 = a.toNat := by rw [w_one hq]; exact fld_of_lt (by omega)
  have hpr : formPresent (posted (s.tick dt) 0x29 q) q = none := by
    rw [formPresent, reqTile_args hq ha]
    exact if_pos ((present_posted ..).trans hp.present)
  have hf := fenceErrs_nil (changeable_posted hp 0x29 q)
  have hst : (posted (s.tick dt) 0x29 q).steady a.toNat = false := (steady_posted ..).trans hs
  have h9 : a &&& ~~~0x1FF#32 = 0 := by
    have e : (a &&& ~~~0xFF#32) &&& ~~~0x1FF#32 = a &&& ~~~0x1FF#32 := by rw [BitVec.and_assoc]; rfl
    rw [← e, ha]; rfl
  refine congrArg Host.Outcome.next ?_
  refine postCmd_final (c := cmdLearnReset) h (by simp) (fun _ => hh) rfl
    (by simp [cmdLearnReset, lenIs, hq]) (by rw [hq]; exact rsvWord_one h9 []) ?_ ?_
  · simp only [cmdLearnReset, hn, hpr]
    rw [if_neg (by omega), if_neg (by omega)]
  · simp only [cmdLearnReset, hn, hf, hst, if_neg (show ¬ a.toNat = 256 by omega), orElse_nil, State.learnReset, chart_posted]
    rfl

/-- Resets of learned limits, one tile after another. -/
theorem learn_each (l : List Nat) {v : State} (hi : i < v.tiles.length) :
    ((v.each l State.learnReset).tile i).learn = if i ∈ l then (v.chart i).maxCode else (v.tile i).learn := by
  induction l generalizing v with
  | nil => rfl
  | cons j r ih =>
    have hj : i < (v.learnReset j).tiles.length := by simpa [State.learnReset, State.modTile] using hi
    have hc : (v.learnReset j).chart i = v.chart i := rfl
    refine (ih hj).trans ?_
    rw [hc, State.learnReset, tile_modTile]
    by_cases hr : i ∈ r
    · simp [hr]
    · by_cases he : j = i
      · subst he; simp [hi]
      · simp [hr, he, Ne.symm he]

theorem mbxs_each_learnReset (l : List Nat) (v : State) : (v.each l State.learnReset).mbxs = v.mbxs :=
  List.foldlRecOn (motive := fun t : State => t.mbxs = v.mbxs) l _ rfl (fun _ hv _ _ => hv)

/-- The tiles that a reset of all learned limits takes. -/
def learners (v : State) : List Nat := allTiles.filter (fun i => (v.adaptive i || v.service i) && !(v.tile i).fenced)

theorem exec_learnReset_all (h : ready false (s.tick dt) q = true) (hh : (s.tick dt).haltedB = false) (hq : q.args = [256]) :
    exec (.learnReset dt q) s = .next (State.finish
      ((posted (s.tick dt) 0x29 q).each (learners (posted (s.tick dt) 0x29 q)) State.learnReset) q.mbx (okR [])) := by
  have hn : fld (q.w 1) 0 9 = 256 := by rw [w_one hq]; rfl
  refine congrArg Host.Outcome.next ?_
  refine postCmd_final (c := cmdLearnReset) h (by simp) (fun _ => hh) rfl
    (by simp [cmdLearnReset, lenIs, hq]) (by rw [hq]; rfl) ?_ ?_
  · simp only [cmdLearnReset, hn]; rfl
  · simp only [cmdLearnReset, hn]; rfl

end

/-- Settles O4: no rule refuses what the statement allows, and each body is the change of its one tile; a reset of all limits takes the
adaptive and service tiles in turn. -/
theorem tileWords : Obligations.TileWords := by
  rintro dt q s u rfl h hh
  refine ⟨?_, ?_, ?_, ?_, ?_⟩
  · rintro a b c d e i hq ha hb hc rfl hp hf hcause h1 h2 h3 h4
    have hw := w64_low hq hc
    have hfit := policyFits_posted hw hb h1 h2 h3 h4 0x21 q
    have hch := changeable_posted ⟨hp, hf, hcause⟩ 0x21 q
    refine ⟨fun hd he hcode => ?_, fun T x hT hT0 hx hne h0 hz hl hcl hr hce hown => ?_⟩
    · have hT : q.w64 4 = 0 := by simp [Req.w64, Req.w, hq, hd, he]
      exact exec_tilePolicy_limits h hh hq ha hb hc hT
        (policyErrsAll_limits hch hfit (reqTile_args hq ha) hT
          ((fld_congr hw 0 16).trans (hcode.trans (congrArg Exp.code (expAt_posted ..).symm))))
    · subst hT hx
      rw [← fld_congr hw 0 16] at hne h0 hce hown
      exact exec_tilePolicy_move h hh hq ha hb hc hT0 rfl
        (policyErrsAll_move hch hfit (reqTile_args hq ha)
          (moveFits_posted ⟨hT0, hne, h0, hz, hl, hcl, hr, hce, hown⟩ 0x21 q))
  · rintro a b c i hq ha hb hc rfl hp hf hcause hform hsteady hnear
    exact exec_tilePlumb h hh hq ha hb hc ⟨hp, hf, hcause⟩ ⟨hform, hsteady, hnear⟩
  · rintro a b i hq ha hb rfl hp hf hcause hhold h1 h2 h3 h4
    have hw := w64_low hq rfl
    rw [← fld_congr hw] at hhold h1 h2 h3 h4
    exact exec_tileDroop h hh hq ha hb ⟨hp, hf, hcause⟩ (droopErrs_nil (hw.trans_lt (toNat_lt_of_mask 27 hb)) hhold h1 h2 h3 h4)
  · rintro a i hq ha rfl hp hs hf hcause
    exact exec_learnReset_one h hh hq ha ⟨hp, hf, hcause⟩ hs
  · rintro hq ⟨htiles, -, -, -, hmbxs, -, -⟩
    refine ⟨_, exec_learnReset_all h hh hq, answered_finish hmbxs (mbxs_each_learnReset ..) _, fun i hi hcls hf => ?_⟩
    rw [tile_still (still_finish ..), learn_each _ (by rw [posted_tiles, htiles]; exact hi), if_pos, chart_posted]
    exact List.mem_filter.2 ⟨List.mem_range.2 hi, by simpa [Tile.fenced, hf] using hcls⟩

end Sys2Proof.Proofs
end

section
/-! SUPPORT. TILE_STATE and what gives way to a change of a tile (14 0x24; 04 R128, R428, Table 4.6a; 18 R407, Table 18.8). -/

namespace Sys2Proof.Proofs

open Sys2Proof.Machine Sys2Proof.Safety Sys2Proof.Laws

set_option Elab.async false

/-! ## What gives way (18 R407, Table 18.8) -/

/-- No automatic swap of the tile lies within 10 µs of T. -/
def swapsFar (v : State) (j : Nat) (T : Time) : Prop :=
  ∀ y ∈ (v.tile j).sched, y.auto = true → v.key T + 160000 ≤ v.key y.at_ ∨ v.key y.at_ + 160000 ≤ v.key T

theorem yieldSwap_far {v : State} {j : Nat} {T : Time} (h : swapsFar v j T) : v.yieldSwap j T = v := by
  have hg : (v.tile j).sched.filter (fun x => x.auto && nearKeys (v.key x.at_) (v.key T)) = [] := by
    refine List.filter_eq_nil_iff.2 (fun y hy he => ?_)
    obtain ⟨ha, hn⟩ := Bool.and_eq_true_iff.1 he
    obtain ⟨h1, h2⟩ : v.key y.at_ < v.key T + 160000 ∧ v.key T < v.key y.at_ + 160000 := by simpa [nearKeys] using hn
    have := h y hy ha
    omega
  unfold State.yieldSwap
  dsimp only
  rw [hg]
  rfl

theorem stopTest_eq (v : State) (j : Nat) : v.stopTest j =
    if (v.tile j).stby = .testing then v.modTile j (fun t => { t with stby := .calibrating }) else v := rfl

theorem swapsFar_stopTest {v : State} {j : Nat} {T : Time} (h : swapsFar v j T) : swapsFar (v.stopTest j) j T := by
  have hk : ∀ x, (v.stopTest j).key x = v.key x := fun x => by
    rw [stopTest_eq]
    split <;> rfl
  have hs : ((v.stopTest j).tile j).sched = (v.tile j).sched := by
    rw [stopTest_eq]
    split
    · exact tile_modTile_proj Tile.sched (f := fun t => { t with stby := .calibrating }) (fun _ => rfl) v j j
    · rfl
  intro y hy
  rw [hk, hk]
  exact h y (hs ▸ hy)

theorem booked_far {v : State} {j : Nat} {T : Time} (h : swapsFar v j T) (r : Bool) : v.booked j T r =
    if r = true ∧ (v.tile j).stby = .testing then v.modTile j (fun t => { t with stby := .calibrating }) else v := by
  unfold State.booked
  cases r with
  | false => simpa using yieldSwap_far h
  | true => simpa [stopTest_eq] using yieldSwap_far (swapsFar_stopTest h)

/-! ## The rules of a state operation (04 R110, R128, R428; 09 R237, R253, R260; 02 R63) -/

section

variable {v : State} {i : Nat} {e : Exp} {q : Req}

/-- An action that Table 4.6a admits, where what it starts may start. -/
theorem stateErrs_nil {c : TChg} (after : (stateAfter e.st c).isSome = true)
    (swap : c = .swap → (v.tile i).failA = false ∧ (v.tile i).failB = false)
    (starts : c = .enable ∧ e.st = .disabled ∨ c = .ungate ∧ e.st = .gated → v.steady i = true → e.code ≤ (v.chart i).maxCode.toNat)
    (enable : c = .enable → e.st = .disabled → e.code ≠ 0 ∧ v.schedulable = true ∧ v.boot.flowOnce = true ∧ v.safeFloor = false ∧
      (v.rail (v.railOf i)).active = true) : v.stateErrs i e c true = [] := by
  have hafter : (stateAfter e.st c).isNone = false := by simpa [Option.isSome_iff_ne_none] using after
  have hswap : (c = .swap && ((v.tile i).failA || (v.tile i).failB)) = false := by simpa using swap
  have hstarts : ((c = .enable && decide (e.st = .disabled) || c = .ungate && decide (e.st = .gated)) && v.steady i &&
      decide (e.code > (v.chart i).maxCode.toNat)) = false := by simpa using starts
  simp only [State.stateErrs, hafter, hswap, hstarts, Bool.false_eq_true, if_false, List.nil_append]
  split
  · next hen =>
    obtain ⟨hcode, hr, hflow, hfloor, hact⟩ := enable (by simpa using (Bool.and_eq_true_iff.1 hen).1) (by simpa using (Bool.and_eq_true_iff.1 hen).2)
    simp [hcode, hr, hflow, hfloor, hact]
  · rfl

/-- What a request for the operation `a` of a tile at `T` has to meet. -/
structure StateFits (v : State) (i : Nat) (T : Time) (a : SchedAct) : Prop extends Changeable v i where
  ahead : v.inHorizon T = true
  lead : 2 ^ 63 + leadOf (v.expAt i (v.key T) none []) a.chg ≤ v.key T
  locked : v.schedulable = true
  grant : a = .enable ∨ a = .ungate → v.granted i = false
  rules : v.stateErrs i (v.expAt i (v.key T) none []) a.chg true = []
  clash : a = .swap → v.moveClash i T = false

theorem stateErrsAll_nil {a : SchedAct} (ha : ∀ c, a ≠ .code c) (hop : stateOp (fld (q.w 2) 0 3) = some a) (hi : reqTile q = i)
    (h : StateFits v i (q.w64 3) a) : stateErrsAll v q = [] := by
  have ht := (tileErrs_state ha h.toChangeable h.lead h.grant []).trans h.rules
  simp only [stateErrsAll, hop, hi, h.present, ht, instantBad, h.ahead, h.locked, Bool.not_true, Bool.false_eq_true, if_false, if_true,
    List.append_nil]
  by_cases hs : a = .swap
  · simp [h.clash hs]
  · simp [hs]

theorem stateErrs_posted (u : State) (op : Byte) (q : Req) (i : Nat) (e : Exp) (c : TChg) (byCmd : Bool) :
    (posted u op q).stateErrs i e c byCmd = u.stateErrs i e c byCmd := rfl

/-- The rules judge the state in which the request runs as they judge the one in which it arrives. -/
theorem stateFits_posted {T : Time} {a : SchedAct} (h : StateFits v i T a) (op : Byte) (q : Req) : StateFits (posted v op q) i T a :=
  { changeable_posted h.toChangeable op q with
    ahead := (inHorizon_posted ..).trans h.ahead
    lead := by simp only [expAt_posted, key_posted]; exact h.lead
    locked := (schedulable_posted ..).trans h.locked
    grant := fun ha => (granted_posted ..).trans (h.grant ha)
    rules := by
      rw [stateErrs_posted, expAt_posted, key_posted]
      exact h.rules
    clash := fun ha => (moveClash_posted ..).trans (h.clash ha) }

end

/-! ## The request (14 0x24) -/

section

variable {dt n i : Nat} {q : Req} {s : State} {a b c d : Word} {act : SchedAct}

theorem args_withStateOp (hq : q.args = [a, b, c, d]) (hb : b &&& ~~~7#32 = 0) (n : Nat) :
    (withStateOp n q).args = [a, BitVec.ofNat 32 n, c, d] := by
  have h : b &&& ~~~7#32 = 0#32 := hb
  simp only [withStateOp, hq, List.modify_succ_cons, List.modify_zero_cons, h, BitVec.zero_or]

theorem stateOp_bounds {n : Nat} {act : SchedAct} (h : stateOp n = some act) : n < 6 ∧ ∀ c, act ≠ .code c := by
  unfold stateOp at h
  split at h <;> cases h <;> exact ⟨by decide, nofun⟩

theorem w64_withStateOp (hq : q.args = [a, b, c, d]) (hb : b &&& ~~~7#32 = 0) (n : Nat) : (withStateOp n q).w64 3 = q.w64 3 := by
  simp [Req.w64, Req.w, args_withStateOp hq hb, hq]

/-- A state operation that nothing refuses is scheduled and held ACCEPTED. -/
theorem postCmd_tileState (h : ready false (s.tick dt) q = true) (hh : (s.tick dt).haltedB = false) (hq : q.args = [a, b, c, d])
    (ha : a &&& ~~~0xFF#32 = 0) (hb : b &&& ~~~7#32 = 0) (hop : stateOp n = some act)
    (hf : StateFits (s.tick dt) a.toNat (q.w64 3) act) :
    postCmd cmdTileState dt (withStateOp n q) s = State.accept (State.revalidate 4 ((s.tick dt).key (q.w64 3)) [(0, a.toNat)]
      (State.booked ((posted (s.tick dt) 0x24 (withStateOp n q)).modTile a.toNat (fun t => { t with
        sched := t.sched ++ [{ at_ := q.w64 3, act := act, mbx := some q.mbx }] })) a.toNat (q.w64 3) (decide (act = .swap)))) q.mbx [] := by
  obtain ⟨hn, hc⟩ := stateOp_bounds hop
  have hargs := args_withStateOp hq hb n
  have hT := w64_withStateOp hq hb n
  have hi : reqTile (withStateOp n q) = a.toNat := reqTile_args hargs ha
  have hw : fld ((withStateOp n q).w 2) 0 3 = n := by
    have e : (withStateOp n q).w 2 = BitVec.ofNat 32 n := by simp [Req.w, hargs]
    have hlt : (BitVec.ofNat 32 n).toNat = n := by rw [BitVec.toNat_ofNat]; omega
    rw [e, fld_of_lt (by rw [hlt]; omega), hlt]
  have hm : BitVec.ofNat 32 n &&& ~~~7#32 = 0 := by interval_cases n <;> rfl
  have he : stateErrsAll (posted (s.tick dt) 0x24 (withStateOp n q)) (withStateOp n q) = [] :=
    stateErrsAll_nil hc (by rw [hw]; exact hop) hi (by rw [hT]; exact stateFits_posted hf _ _)
  refine postCmd_accepted (c := cmdTileState) (q := withStateOp n q) h (by simp) (fun _ => hh) rfl
    (by simp [cmdTileState, lenIs, hargs]) ?_ ?_ ?_
  · rw [hargs]
    exact rsvWord_two ha hm [] 1
  · simp only [cmdTileState, he]; rfl
  · simp only [cmdTileState, he, hw, hop, hi, hT, orElse_nil, key_posted]; rfl

end

/-- Settles O5: no rule refuses what the statement allows, each operation is scheduled for its instant, and what does not lie near it
stays. -/
theorem tileStates : Obligations.TileStates := by
  rintro dt q s u rfl h hh a b c d i T e hq ha hb rfl rfl rfl hp hf hcause hz hr
  have hfit := fun act => StateFits.mk (v := s.tick dt) (i := a.toNat) (T := q.w64 3) (a := act) ⟨hp, hf, hcause⟩ hz
  refine ⟨fun v j r hfar => booked_far hfar r, fun hl hg hne hen => ?_, fun hl => ?_, fun hl hne => ?_, fun hl hg hne hun => ?_,
    fun hl hne h1 h2 hcl => ?_⟩
  · refine congrArg Host.Outcome.next (postCmd_tileState h hh hq ha hb rfl (hfit .enable hl hr (fun _ => hg) (stateErrs_nil ?_ nofun ?_ ?_) nofun))
    · simp [SchedAct.chg, stateAfter, hne]
    · rintro (⟨-, hd⟩ | ⟨hc, -⟩)
      · exact (hen hd).2.2.2.2
      · cases hc
    · intro _ hd
      obtain ⟨hcode, hflow, hfloor, hact, -⟩ := hen hd
      exact ⟨hcode, hr, hflow, hfloor, hact⟩
  · exact congrArg Host.Outcome.next (postCmd_tileState h hh hq ha hb rfl
      (hfit .disable hl hr nofun (stateErrs_nil rfl nofun nofun nofun) nofun))
  · exact congrArg Host.Outcome.next (postCmd_tileState h hh hq ha hb rfl
      (hfit .gate hl hr nofun (stateErrs_nil (by simp [SchedAct.chg, stateAfter, hne]) nofun nofun nofun) nofun))
  · refine congrArg Host.Outcome.next (postCmd_tileState h hh hq ha hb rfl
      (hfit .ungate hl hr (fun _ => hg) (stateErrs_nil (by simp [SchedAct.chg, stateAfter, hne]) nofun ?_ nofun) nofun))
    rintro (⟨hc, -⟩ | ⟨-, hgated⟩)
    · cases hc
    · exact hun hgated
  · exact congrArg Host.Outcome.next (postCmd_tileState h hh hq ha hb rfl
      (hfit .swap hl hr nofun (stateErrs_nil (by simp [SchedAct.chg, stateAfter, hne]) (fun _ => ⟨h1, h2⟩) nofun nofun) (fun _ => hcl)))

end Sys2Proof.Proofs
end

section
/-! SUPPORT. What the instants of one tile leave alone: the other tiles, the rails, the keystones and the commands in hand (03 R79; 04 R114,
R123, R127, R128; 06 R181; 09 R250; 14 R329). -/

namespace Sys2Proof.Proofs

open Sys2Proof.Machine Sys2Proof.Safety Sys2Proof.Laws

set_option Elab.async false

/-! ## The change that is due (03 R79) -/

theorem perm_insertAt {α : Type} (key : α → Nat) (x : α) (l : List α) : (insertAt key x l).Perm (x :: l) := by
  induction l with
  | nil => exact .refl _
  | cons y r ih =>
    unfold insertAt
    split
    · exact .refl _
    · exact (ih.cons y).trans (.swap x y r)

theorem perm_sortAt {α : Type} (key : α → Nat) (l : List α) : (sortAt key l).Perm l := by
  have h : ∀ acc, (l.foldl (fun acc x => insertAt key x acc) acc).Perm (l ++ acc) := by
    induction l with
    | nil => exact fun acc => .refl acc
    | cons x r ih => exact fun acc => ((ih _).trans ((perm_insertAt key x acc).append_left r)).trans List.perm_middle
  exact (h []).trans (by rw [List.append_nil])

/-- The one change that is due at a tile is the one that an instant of its kind takes. -/
theorem dueOf_eq {s : State} {i : Nat} {x : Sched} {p : SchedAct → Bool} (h : dueIs s i x) (hp : p x.act = true) :
    s.dueOf i p = some x := by
  obtain ⟨hw, hx⟩ := h
  have hd : (sortAt (fun x => s.key x.at_) (s.tile i).sched).filter (fun y => s.due y.at_) = [x] :=
    List.perm_singleton.1 (hx ▸ (perm_sortAt _ _).filter _)
  unfold State.dueOf
  dsimp only
  rw [if_neg (by rw [hw]; decide), ← List.filter_filter, List.filter_comm, hd]
  simp [hp]

/-! ## A change at one tile -/

/-- The tiles but `i`, and the mailboxes, are as they were. -/
structure OneTile (i : Nat) (s t : State) : Prop where
  mbxs : t.mbxs = s.mbxs
  size : t.tiles.length = s.tiles.length
  others : ∀ j, j ≠ i → t.tile j = s.tile j

/-- And so are the rails and the keystones. -/
structure Alone (i : Nat) (s t : State) : Prop extends OneTile i s t where
  rails : t.rails = s.rails
  keys : t.keys = s.keys

section

variable {i : Nat} {s t u : State}

theorem OneTile.trans (a : OneTile i s t) (b : OneTile i t u) : OneTile i s u :=
  ⟨b.mbxs.trans a.mbxs, b.size.trans a.size, fun j hj => (b.others j hj).trans (a.others j hj)⟩

theorem Alone.trans (a : Alone i s t) (b : Alone i t u) : Alone i s u :=
  ⟨a.toOneTile.trans b.toOneTile, b.rails.trans a.rails, b.keys.trans a.keys⟩

/-- A change that touches none of them. -/
theorem Alone.same (mbxs : t.mbxs = s.mbxs := by rfl) (tiles : t.tiles = s.tiles := by rfl) (rails : t.rails = s.rails := by rfl)
    (keys : t.keys = s.keys := by rfl) : Alone i s t :=
  ⟨⟨mbxs, congrArg List.length tiles, fun _ _ => by rw [State.tile, State.tile, tiles]⟩, rails, keys⟩

theorem alone_modTile (s : State) (i : Nat) (f : Tile → Tile) : Alone i s (s.modTile i f) :=
  ⟨⟨rfl, List.length_modify .., fun _ hj => tile_modTile_ne s f hj⟩, rfl, rfl⟩

theorem alone_unsettle (s : State) (i : Nat) : Alone i s (s.unsettle i) :=
  (Alone.same : Alone i s (s.take .settle 3200001).2).trans (alone_modTile ..)

theorem alone_abandon (s : State) (i : Nat) : Alone i s (s.abandon i) := by
  unfold State.abandon
  split
  · exact .same
  · exact (Alone.same : Alone i s (s.countAbandon i)).trans (alone_modTile ..)

/-- The active oscillator is not settled yet; the rest of its tile stays. -/
theorem tile_unsettle (s : State) (i : Nat) : ∃ v, (s.unsettle i).tile i = { s.tile i with settle := v } := by
  by_cases hi : i < s.tiles.length
  · exact ⟨_, tile_modTile_same _ hi⟩
  · exact ⟨(s.tile i).settle, (tile_modTile ..).trans (if_neg (fun h => hi h.2))⟩

/-! ## What a tile gives up when its clock stops (06 R181; 09 R250) -/

/-- A tile without its Reckoner events, what they hold in force, and its plumbs. -/
def withoutPlan (t : Tile) : Tile := { t with events := [], dCanc := {}, dip := 0, heldK := 0, heldD := 0, plumbs := [] }

theorem foldl_endEvent_plan (l : List Event) (t : Tile) : withoutPlan (l.foldl Tile.endEvent t) = withoutPlan t := by
  induction l generalizing t with
  | nil => rfl
  | cons e r ih => exact ih (t.endEvent e)

theorem withoutPlan_abandon (s : State) (i j : Nat) : withoutPlan ((s.abandon i).tile j) = withoutPlan (s.tile j) := by
  unfold State.abandon
  split
  · rfl
  · refine tile_modTile_proj withoutPlan (fun t => ?_) (s.countAbandon i) i j
    exact foldl_endEvent_plan t.events t

theorem withoutPlan_dropCheck (s : State) (i j : Nat) : withoutPlan ((s.dropCheck i).tile j) = withoutPlan (s.tile j) :=
  tile_dropCheck (P := fun t => withoutPlan t = withoutPlan (s.tile j)) (fun _ _ _ h => h) rfl

/-- Each event that ends leaves the tile. -/
theorem foldl_endEvent_filter (l : List Event) (t : Tile) : (l.foldl Tile.endEvent t).events = t.events.filter (fun x => x ∉ l) := by
  induction l generalizing t with
  | nil => simp
  | cons e r ih =>
    refine (ih (t.endEvent e)).trans ?_
    simp only [Tile.endEvent, List.filter_filter, List.mem_cons, not_or]
    exact List.filter_congr (fun x _ => by simp [Bool.and_comm])

theorem events_abandon {s : State} {i : Nat} (hi : i < s.tiles.length) : ((s.abandon i).tile i).events = [] := by
  unfold State.abandon
  split
  · next h => simpa using h
  · refine (congrArg Tile.events (tile_modTile_same (s := s.countAbandon i) _ hi)).trans ?_
    refine (foldl_endEvent_filter _ _).trans (List.filter_eq_nil_iff.2 (fun x hx => ?_))
    simpa using hx

/-! ## The plausibility check of a tile that stops (09 R250) -/

theorem rail_modRail (s : State) (r j : Nat) (f : Rail → Rail) :
    (s.modRail r f).rail j = if r = j ∧ j < s.rails.length then f (s.rail j) else s.rail j := by
  simp only [State.rail, State.modRail, List.getD_eq_getElem?_getD, List.getElem?_modify]
  by_cases hj : j < s.rails.length
  · by_cases hr : r = j <;> simp [hj, hr]
  · simp [hj]

/-- A rail on which a check runs is there. -/
theorem rail_lt {s : State} {r : Nat} {c : PlCheck} (h : (s.rail r).check = some c) : r < s.rails.length := by
  by_contra hr
  rw [State.rail, List.getD_eq_default _ _ (Nat.not_lt.1 hr)] at h
  cases h

/-- What `dropCheck` does at one rail: the check that runs there goes where it is of the tile. -/
def dropStep (i : Nat) (v : State) (r : Nat) : State :=
  match (v.rail r).check with
  | some c => if c.tile.toNat = i then
      ((v.modRail r (fun x => { x with check := none, plWaitAt := none })).modChan c.ch.toNat
        (fun ch => { ch with owner := .none, armed := false, setup := 0 })).modPlumb i c.plumb.toNat (fun p => { p with masked := false })
    else v
  | none => v

theorem dropCheck_eq (s : State) (i : Nat) : s.dropCheck i = s.each (List.range 8) (dropStep i) := rfl

theorem oneTile_dropStep (i : Nat) (v : State) (r : Nat) : OneTile i v (dropStep i v r) := by
  unfold dropStep
  split
  · split
    · exact ⟨rfl, List.length_modify .., fun j hj => tile_modTile_ne _ _ hj⟩
    · exact ⟨rfl, rfl, fun _ _ => rfl⟩
  · exact ⟨rfl, rfl, fun _ _ => rfl⟩

theorem oneTile_dropCheck (s : State) (i : Nat) : OneTile i s (s.dropCheck i) := by
  rw [dropCheck_eq]
  exact List.foldlRecOn (motive := OneTile i s) _ _ ⟨rfl, rfl, fun _ _ => rfl⟩ (fun v hv r _ => hv.trans (oneTile_dropStep i v r))

/-- Where no rail checks the tile, nothing is dropped. -/
theorem dropCheck_self (h : ∀ r < 8, ∀ c, (s.rail r).check = some c → c.tile.toNat ≠ i) : s.dropCheck i = s := by
  rw [dropCheck_eq]
  refine List.foldlRecOn (motive := fun v : State => v = s) _ _ rfl (fun v hv r hr => ?_)
  subst hv
  unfold dropStep
  split
  · next c hc => exact if_neg (h r (List.mem_range.1 hr) c hc)
  · rfl

/-- The check that a rail is left with once the checks of tile `i` are dropped. -/
def otherCheck (i : Nat) (c : Option PlCheck) : Option PlCheck := c.filter (fun c => c.tile.toNat ≠ i)

theorem check_dropStep (i : Nat) (v : State) (r j : Nat) : ((dropStep i v r).rail j).check =
    if r = j then otherCheck i (v.rail j).check else (v.rail j).check := by
  by_cases hj : r = j
  · subst hj
    rw [if_pos rfl]
    unfold dropStep otherCheck
    cases hc : (v.rail r).check with
    | none => simp [hc]
    | some c =>
      by_cases hi : c.tile.toNat = i
      · simp only [hi, if_true]
        refine (congrArg Rail.check ((rail_modRail v r r _).trans (if_pos ⟨rfl, rail_lt hc⟩))).trans ?_
        simp [Option.filter, hi]
      · simp [Option.filter, hi, hc]
  · rw [if_neg hj]
    unfold dropStep
    split
    · split
      · exact congrArg Rail.check ((rail_modRail v r j _).trans (if_neg (fun h => hj h.1)))
      · rfl
    · rfl

theorem check_dropSteps (i j : Nat) (l : List Nat) (v : State) : ((v.each l (dropStep i)).rail j).check =
    if j ∈ l then otherCheck i (v.rail j).check else (v.rail j).check := by
  induction l generalizing v with
  | nil => rfl
  | cons r l ih =>
    refine (ih (dropStep i v r)).trans ?_
    rw [check_dropStep]
    by_cases hr : r = j
    · subst hr
      by_cases hl : r ∈ l <;> simp [hl, otherCheck]
    · by_cases hl : j ∈ l <;> simp [hl, hr, Ne.symm hr]

/-- No check of a tile that stops goes on. -/
theorem check_dropCheck {r : Nat} (hr : r < 8) {c : PlCheck} (hc : (s.rail r).check = some c) (hi : c.tile.toNat = i) :
    ((s.dropCheck i).rail r).check = none := by
  rw [dropCheck_eq, check_dropSteps, if_pos (List.mem_range.2 hr), hc]
  simp [otherCheck, hi]

/-! ## The command of a change ends (14 R329) -/

/-- The command that waits in a mailbox, if there is one and it stands ACCEPTED, has its final answer. -/
theorem settledAs_settleO (hl : t.mbxs.length = s.mbxs.length) (hh : ∀ n, (t.mbx n).held = (s.mbx n).held) (m : Option (BitVec 3)) (r : Resp) :
    settledAs s (t.settleO m r) m r := by
  rintro n rfl h8 hacc
  change ((t.settle n r).mbx n).final = some r
  rw [State.settle, if_pos ((hh n).trans hacc), mbx_modMbx_same (by rw [hl, h8]; exact n.isLt)]

theorem settleState_eq (s : State) (i : Nat) (x : Sched) : s.settleState i x = s.settleO x.mbx (okR [w32 (s.tile i).st.code]) := rfl

/-- A change of tile `i` whose command ends with the tile's state. -/
theorem settleState_facts (h : OneTile i s t) (x : Sched) : (∀ j, (t.settleState i x).tile j = t.tile j) ∧
    (∀ j, j ≠ i → (t.settleState i x).tile j = s.tile j) ∧ (t.settleState i x).rails = t.rails ∧ (t.settleState i x).keys = t.keys ∧
    ∀ w, w32 (t.tile i).st.code = w → settledAs s (t.settleState i x) x.mbx (okR [w]) := by
  have ht : ∀ j, (t.settleState i x).tile j = t.tile j := fun j => tile_still (still_settleO ..) j
  refine ⟨ht, fun j hj => (ht j).trans (h.others j hj), ?_, (answered_settleO ..).keys, ?_⟩
  · rw [settleState_eq, (answered_settleO t x.mbx _).eq]
  · rintro w rfl
    exact settledAs_settleO (by rw [h.mbxs]) (fun n => by rw [State.mbx, State.mbx, h.mbxs]) x.mbx _

end

end Sys2Proof.Proofs
end

section
/-! SUPPORT. What keystones that abort, fences and starts leave of the domains, of the commands in hand and of the other tiles (04 R128,
R132; 08 R231, R232; 13 R319; 17 R395). -/

namespace Sys2Proof.Proofs

open Sys2Proof.Machine Sys2Proof.Safety Sys2Proof.Laws

set_option Elab.async false

/-- A tile without its handover and its standby, which a keystone that aborts may end (08 R231). -/
def restOf (t : Tile) : Tile := { t with hov := none, stby := .off }

/-- The domains, their returns and what each mailbox holds stay; so does every tile outside `l`, its handover and its standby aside. -/
structure Within (l : List Nat) (s t : State) : Prop where
  doms : t.doms = s.doms
  domRet : t.domRet = s.domRet
  ties : t.ties = s.ties
  size : t.tiles.length = s.tiles.length
  mbxs : t.mbxs.length = s.mbxs.length
  held : ∀ n, (t.mbx n).held = (s.mbx n).held
  rest : ∀ j, j ∉ l → restOf (t.tile j) = restOf (s.tile j)

namespace Within

variable {l : List Nat} {i : Nat} {s t u : State}

theorem refl (s : State) : Within l s s := ⟨rfl, rfl, rfl, rfl, rfl, fun _ => rfl, fun _ _ => rfl⟩
theorem trans (a : Within l s t) (b : Within l t u) : Within l s u where
  doms := b.doms.trans a.doms
  domRet := b.domRet.trans a.domRet
  ties := b.ties.trans a.ties
  size := b.size.trans a.size
  mbxs := b.mbxs.trans a.mbxs
  held := fun n => (b.held n).trans (a.held n)
  rest := fun j hj => (b.rest j hj).trans (a.rest j hj)
/-- The parts of a change from the last to the first. -/
theorem after (b : Within l t u) (a : Within l s t) : Within l s u := a.trans b
theorem mono {m : List Nat} (h : ∀ j ∈ l, j ∈ m) (a : Within l s t) : Within m s t :=
  { a with rest := fun j hj => a.rest j (fun hl => hj (h j hl)) }
theorem of_nil (a : Within [] s t) : Within l s t := a.mono (fun _ h => by cases h)
theorem each {α : Type} {f : State → α → State} (h : ∀ s a, Within l s (f s a)) (s : State) (as : List α) : Within l s (s.each as f) :=
  List.foldlRecOn as f (refl s) (fun _ hb a _ => hb.trans (h _ a))
theorem ite {p : Prop} [Decidable p] (ha : p → Within l s t) (hb : ¬ p → Within l s u) : Within l s (if p then t else u) := by
  split
  · exact ha ‹_›
  · exact hb ‹_›
/-- A change of other fields. -/
theorem same (doms : t.doms = s.doms := by rfl) (domRet : t.domRet = s.domRet := by rfl) (ties : t.ties = s.ties := by rfl)
    (tiles : t.tiles = s.tiles := by rfl) (mbxs : t.mbxs = s.mbxs := by rfl) : Within l s t :=
  ⟨doms, domRet, ties, by rw [tiles], by rw [mbxs], fun _ => by rw [State.mbx, State.mbx, mbxs], fun _ _ => by rw [State.tile, State.tile, tiles]⟩
theorem logged (h : Logged s t) : Within l s t := .same (by rw [h.eq]) (by rw [h.eq]) h.ties h.tiles h.mbxs
theorem modTile (s : State) (i : Nat) (f : Tile → Tile) : Within [i] s (s.modTile i f) :=
  ⟨rfl, rfl, rfl, List.length_modify .., rfl, fun _ => rfl, fun _ hj => congrArg restOf (tile_modTile_ne s f (by simpa using hj))⟩

/-- One change for each element of a list, each at the element's own tile. -/
theorem fold {f : State → Nat → State} (h : ∀ s a, Within [a] s (f s a)) (s : State) (l : List Nat) : Within l s (s.each l f) :=
  List.foldlRecOn l f (refl s) (fun v hv a ha => hv.trans ((h v a).mono (fun j hj => by simp at hj; subst hj; exact ha)))

/-- A tile's turn in such a list: it finds the tile as it was at first, and what it leaves lasts, handovers and standbys aside. -/
theorem turn {f : State → Nat → State} (h : ∀ s a, Within [a] s (f s a)) {l : List Nat} (hn : l.Nodup) (hi : i ∈ l) (s : State) :
    ∃ v, v.tiles.length = s.tiles.length ∧ restOf (v.tile i) = restOf (s.tile i) ∧
      restOf ((s.each l f).tile i) = restOf ((f v i).tile i) := by
  induction l generalizing s with
  | nil => cases hi
  | cons a r ih =>
    obtain ⟨ha, hr⟩ := List.nodup_cons.1 hn
    by_cases he : a = i
    · subst he
      exact ⟨s, rfl, rfl, (fold h (f s a) r).rest a ha⟩
    · obtain ⟨v, size, rest, last⟩ := ih hr ((List.mem_cons.1 hi).resolve_left (Ne.symm he)) (f s a)
      exact ⟨v, size.trans (h s a).size, rest.trans ((h s a).rest i (by simpa using Ne.symm he)), last⟩

end Within

/-! ## Answers and keystones that resolve (08 R225 to R233) -/

theorem within_settle {l : List Nat} (s : State) (n : BitVec 3) (r : Resp) : Within l s (s.settle n r) := by
  refine ⟨?_, ?_, ?_, by rw [(answered_settle ..).tiles], ?_, fun m => held_settle .., fun j _ => by rw [tile_still (still_settle ..)]⟩ <;>
    unfold State.settle <;> split <;> simp [State.modMbx]

theorem within_settleO {l : List Nat} (s : State) (o : Option (BitVec 3)) (r : Resp) : Within l s (s.settleO o r) := by
  cases o
  · exact .refl s
  · exact within_settle ..

theorem within_resolve {l : List Nat} (s : State) (k : Nat) (r : KsRes) : Within l s (s.resolve k r) :=
  .after (.each (fun _ _ => within_settle ..) _ _) (Within.trans .same (.logged (logged_logPacket ..)))

theorem within_settleMove {l : List Nat} (s : State) (m : Word) (r : Resp) : Within l s (s.settleMove m r) :=
  .after (.each (fun _ _ => within_settle ..) _ _) .same

theorem within_sendNotice {l : List Nat} (s : State) (kind inst w : Nat) (u : Option Time) (f : Bool) :
    Within l s (s.sendNotice kind inst w u f) := by
  unfold State.sendNotice State.cvyPump
  dsimp only
  split <;> exact .same

theorem within_sendNak {l : List Nat} (s : State) (reason cause status : Nat) (m : Word) (t : Time) :
    Within l s (s.sendNak reason cause status m t) :=
  Within.trans .same (within_sendNotice ..)

theorem within_outOfStep {l : List Nat} (s : State) (m : Word) (b : Bool) : Within l s (s.outOfStep m b) :=
  Within.trans .same (.logged (logged_raise0 ..))

theorem within_convoyAbort {l : List Nat} (s : State) (x : Slot) (cause : Nat) (r : KsRes) : Within l s (s.convoyAbort x cause r) := by
  unfold State.convoyAbort
  split
  · exact .refl s
  · exact .refl s
  · exact .after .same (within_settleO s _ _)
  · exact .after (within_outOfStep ..) (.after (.ite (fun _ => within_sendNak ..) (fun _ => within_sendNak ..)) (within_settleMove ..))

theorem within_abortOne {l : List Nat} (s : State) (k cause : Nat) (f : Option (Nat × Nat)) : Within l s (s.abortOne k cause f) := by
  unfold State.abortOne
  dsimp only
  refine .ite (fun _ => .refl s) (fun _ => ?_)
  refine .after (within_convoyAbort ..) (.after (.logged (logged_raise ..)) ?_)
  refine ((within_resolve s k ((s.slot k).res k .aborted cause f)).trans
    (within_settleO _ (s.slot k).sealMbx (abortedR ((s.slot k).res k .aborted cause f)))).trans ?_
  refine ⟨rfl, rfl, rfl, List.length_mapIdx, rfl, fun _ => rfl, fun j _ => ?_⟩
  refine (congrArg restOf (tile_mapIdx _ _ j)).trans ?_
  split
  · split <;> rfl
  · rfl

theorem within_revalidate {l : List Nat} (n t0 : Nat) (as : List (Nat × Nat)) (s : State) : Within l s (s.revalidate n t0 as) := by
  induction n generalizing as s with
  | zero => exact .refl s
  | succ n ih =>
    unfold State.revalidate
    dsimp only
    split
    · exact .refl s
    · exact (within_abortOne ..).trans (ih ..)

theorem within_abortKs {l : List Nat} (s : State) (k cause : Nat) (f : Option (Nat × Nat)) : Within l s (s.abortKs k cause f) :=
  .ite (fun _ => .refl s) (fun _ => (within_abortOne ..).trans (within_revalidate ..))

theorem within_abortNaming {l : List Nat} (s : State) (i cause : Nat) : Within l s (s.abortNaming i cause) :=
  .each (fun s k => by
    split
    · exact within_abortKs ..
    · exact .refl s) _ _

/-! ## Fences and starts (17 R395; 04 R127, R128, R132) -/

theorem within_abandon (s : State) (i : Nat) : Within [i] s (s.abandon i) :=
  .ite (fun _ => .refl s) (fun _ => Within.trans (t := s.countAbandon i) .same (.modTile ..))

theorem within_dropSched (s : State) (i : Nat) (r : Resp) : Within [i] s (s.dropSched i r) :=
  (Within.modTile s i (fun t => { t with sched := [], resched := [], hov := none })).trans
    (.each (f := fun (v : State) (e : Sched) => v.settleO e.mbx r) (fun _ _ => within_settleO ..) _ _)

theorem within_dropCheck (s : State) (i : Nat) : Within [i] s (s.dropCheck i) := by
  rw [dropCheck_eq]
  refine .each (fun v r => ?_) _ _
  unfold dropStep
  split
  · refine .ite (fun _ => ?_) (fun _ => .refl v)
    exact Within.trans .same (.modTile ..)
  · exact .refl v

theorem within_fence (s : State) (i cause : Nat) : Within [i] s (s.fence i cause) := by
  unfold State.fence
  dsimp only
  refine .ite (fun _ => .refl s) (fun _ => .ite (fun _ => .modTile ..) (fun _ => ?_))
  exact .after (within_abortNaming ..) <| .after (.logged (logged_raise ..)) <| .after (.modTile ..) <|
    .after (within_dropCheck ..) <| .after (within_dropSched ..) (within_abandon ..)

theorem within_unsettle (s : State) (i : Nat) : Within [i] s (s.unsettle i) :=
  (Within.same : Within [i] s (s.take .settle 3200001).2).trans (.modTile ..)

theorem within_startTile (s : State) (i : Nat) : Within [i] s (s.startTile i) := by
  unfold State.startTile
  dsimp only
  refine .ite (fun _ => within_fence ..) (fun _ => Within.trans (t := s.modXing 23 i (fun x => { x with toSeen := false })) .same ?_)
  exact .ite (fun _ => .after (within_unsettle ..) (.modTile ..)) (fun _ => .modTile ..)

theorem within_tileReturn (T : Time) (s : State) (i : Nat) : Within [i] s (s.tileReturn T i) := by
  unfold State.tileReturn
  extract_lets t go s1
  have h1 : Within [i] s s1 := .modTile ..
  refine .ite (fun _ => .refl s) (fun _ => .ite (fun _ => h1.trans (within_startTile ..)) (fun _ =>
    .ite (fun _ => ?_) (fun _ => h1.trans (.modTile ..))))
  exact .ite (fun _ => h1.trans (within_fence ..)) (fun _ => h1.trans (.after (within_unsettle ..) (.modTile ..)))

end Sys2Proof.Proofs
end

section
/-! O32: a state change takes effect at its instant (04 R123, R127 to R129, R132, R428; 05 R147; 09 R250). -/

namespace Sys2Proof.Proofs

open Sys2Proof.Machine Sys2Proof.Safety Sys2Proof.Laws

set_option Elab.async false

variable {s : State} {i : Nat} {x : Sched}

/-! ## Starts (04 R127, R128) -/

/-- A tile that has started: with its output where the oscillator that starts is calibrated, else in STARTING. -/
def startedTile (upt : Nat) (t : Tile) : Tile :=
  if t.calibrated then { (t.oscOn upt).startOutput with tapOk := none } else { t.oscOn upt with st := .starting, tapOk := none }

theorem startedTile_st (upt : Nat) (t : Tile) : (startedTile upt t).st = if t.calibrated then .running else .starting := by
  unfold startedTile
  split <;> rfl

theorem startedTile_runCode (upt : Nat) (t : Tile) : (startedTile upt t).runCode = t.code := by
  unfold startedTile
  split <;> rfl

theorem startedTile_stby (upt : Nat) (t : Tile) : (startedTile upt t).stby =
    if t.failA ∨ t.failB then .off else if t.calA ∧ t.calB then .warm else .calibrating := by
  unfold startedTile
  split <;> simp [Tile.oscOn, Tile.startOutput]

theorem startedTile_running (upt : Nat) {t : Tile} (h : t.calibrated = true) :
    startedTile upt t = { (t.oscOn upt).startOutput with tapOk := none } := if_pos h

theorem startedTile_starting (upt : Nat) {t : Tile} (h : t.calibrated = false) :
    startedTile upt t = { t.oscOn upt with st := .starting, tapOk := none } := if_neg (by simp [h])

theorem startedTile_starts (upt : Nat) (t : Tile) : (startedTile upt t).actB = t.failA ∧ (startedTile upt t).tapOk = none := by
  unfold startedTile
  split <;> exact ⟨rfl, rfl⟩

theorem startTile_eq (hf : ((s.tile i).failA && (s.tile i).failB) = false) : s.startTile i =
    if (s.tile i).calibrated then ((s.modXing 23 i (fun x => { x with toSeen := false })).modTile i (fun t =>
      { (t.oscOn s.boot.uptime).startOutput with tapOk := none })).unsettle i
    else (s.modXing 23 i (fun x => { x with toSeen := false })).modTile i (fun t => { t.oscOn s.boot.uptime with st := .starting, tapOk := none }) := by
  unfold State.startTile
  dsimp only
  rw [if_neg (by simp [hf])]
  rfl

theorem alone_startTile (hf : ((s.tile i).failA && (s.tile i).failB) = false) : Alone i s (s.startTile i) := by
  rw [startTile_eq hf]
  have h : Alone i s (s.modXing 23 i (fun x => { x with toSeen := false })) := .same
  split
  · exact (h.trans (alone_modTile ..)).trans (alone_unsettle ..)
  · exact h.trans (alone_modTile ..)

theorem tile_startTile (hi : i < s.tiles.length) (hf : ((s.tile i).failA && (s.tile i).failB) = false) :
    ∃ v, (s.startTile i).tile i = { startedTile s.boot.uptime (s.tile i) with settle := v } := by
  rw [startTile_eq hf, startedTile]
  split
  · obtain ⟨v, hv⟩ := tile_unsettle ((s.modXing 23 i (fun x => { x with toSeen := false })).modTile i (fun t =>
      { (t.oscOn s.boot.uptime).startOutput with tapOk := none })) i
    exact ⟨v, hv.trans (congrArg (fun t : Tile => { t with settle := v }) (tile_modTile_same _ hi))⟩
  · exact ⟨_, tile_modTile_same _ hi⟩

theorem alone_dropOne (s : State) (i : Nat) (x : Sched) : Alone i s (s.dropOne i x) := alone_modTile ..

theorem tile_dropOne (hi : i < s.tiles.length) (x : Sched) :
    (s.dropOne i x).tile i = { s.tile i with sched := (s.tile i).sched.erase x } := tile_modTile_same _ hi

/-! ## The four changes at their instants -/

theorem enableInstant_eq (hd : dueIs s i x) (ha : x.act = .enable) (hst : (s.tile i).st = .disabled) (htap : (s.tile i).tapOk = some x.at_)
    (hi : i < s.tiles.length) (hf : ((s.tile i).failA && (s.tile i).failB) = false) :
    s.enableInstant i = ((s.startTile i).dropOne i x).settleState i x := by
  obtain ⟨v, hv⟩ := tile_startTile hi hf
  have hfen : ((s.startTile i).tile i).fenced = false := by
    rw [hv]
    simp only [Tile.fenced, startedTile_st]
    split <;> rfl
  simp [State.enableInstant, dueOf_eq hd (p := fun a => a = .enable) (by simp [ha]), hst, htap, hfen]

theorem enableInstant_refuses (hd : dueIs s i x) (ha : x.act = .enable) (hst : (s.tile i).st = .disabled) (htap : (s.tile i).tapOk ≠ some x.at_) :
    s.enableInstant i = s.tapRefuse i x := by
  simp [State.enableInstant, dueOf_eq hd (p := fun a => a = .enable) (by simp [ha]), hst, htap]

/-- Facts of an enabled tile. -/
theorem enable_facts (hd : dueIs s i x) (ha : x.act = .enable) (hst : (s.tile i).st = .disabled) (htap : (s.tile i).tapOk = some x.at_)
    (hi : i < s.tiles.length) (hf : ((s.tile i).failA && (s.tile i).failB) = false) :
    ∃ v, (s.enableInstant i).tile i = { startedTile s.boot.uptime (s.tile i) with settle := v, sched := (s.tile i).sched.erase x } ∧
      (∀ j, j ≠ i → (s.enableInstant i).tile j = s.tile j) ∧ (s.enableInstant i).rails = s.rails ∧ (s.enableInstant i).keys = s.keys ∧
      ∀ w, w32 (startedTile s.boot.uptime (s.tile i)).st.code = w → settledAs s (s.enableInstant i) x.mbx (okR [w]) := by
  rw [enableInstant_eq hd ha hst htap hi hf]
  obtain ⟨v, hv⟩ := tile_startTile hi hf
  have hal : Alone i s ((s.startTile i).dropOne i x) := (alone_startTile hf).trans (alone_dropOne ..)
  obtain ⟨ht, others, rails, keys, answer⟩ := settleState_facts hal.toOneTile x
  have hs : ((startedTile s.boot.uptime (s.tile i)).sched) = (s.tile i).sched := by
    unfold startedTile
    split <;> rfl
  have h : ((s.startTile i).dropOne i x).tile i =
      { startedTile s.boot.uptime (s.tile i) with settle := v, sched := (s.tile i).sched.erase x } := by
    rw [tile_dropOne (by rw [(alone_startTile hf).size]; exact hi), hv, hs]
  exact ⟨v, (ht i).trans h, others, rails.trans hal.rails, keys.trans hal.keys, fun w hw => answer w (by rw [h]; exact hw)⟩

/-- A change is done with at a tile whose clock or output stops: its events and plumbs are given up, and its check is dropped. -/
def quieted (s : State) (i : Nat) (x : Sched) : State := ((s.dropOne i x).abandon i).dropCheck i

theorem oneTile_quieted (s : State) (i : Nat) (x : Sched) : OneTile i s (quieted s i x) :=
  ((alone_dropOne ..).trans (alone_abandon ..)).toOneTile.trans (oneTile_dropCheck ..)

theorem withoutPlan_quieted (hi : i < s.tiles.length) (x : Sched) :
    withoutPlan ((quieted s i x).tile i) = withoutPlan { s.tile i with sched := (s.tile i).sched.erase x } :=
  (withoutPlan_dropCheck ..).trans ((withoutPlan_abandon ..).trans (congrArg withoutPlan (tile_dropOne hi x)))

theorem rails_abandoned (s : State) (i : Nat) (x : Sched) : ((s.dropOne i x).abandon i).rails = s.rails :=
  ((alone_dropOne ..).trans (alone_abandon ..)).rails

theorem rails_quieted (h : ∀ r < 8, ∀ c, (s.rail r).check = some c → c.tile.toNat ≠ i) (x : Sched) : (quieted s i x).rails = s.rails := by
  rw [quieted, dropCheck_self (fun r hr c hc => h r hr c ?_), rails_abandoned]
  rwa [State.rail, rails_abandoned] at hc

theorem check_quieted {r : Nat} (hr : r < 8) {c : PlCheck} (hc : (s.rail r).check = some c) (hi : c.tile.toNat = i) (x : Sched) :
    ((quieted s i x).rail r).check = none :=
  check_dropCheck hr (by rwa [State.rail, rails_abandoned]) hi

/-- And then `f` is done at the tile, and the change's command ends. -/
def stopped (s : State) (i : Nat) (x : Sched) (f : Tile → Tile) : State := ((quieted s i x).modTile i f).settleState i x

theorem stopped_facts (hi : i < s.tiles.length) (x : Sched) (f : Tile → Tile) :
    ∃ o, withoutPlan o = withoutPlan { s.tile i with sched := (s.tile i).sched.erase x } ∧ (stopped s i x f).tile i = f o ∧
      (∀ w, w32 (f o).st.code = w → settledAs s (stopped s i x f) x.mbx (okR [w])) ∧
      (∀ j, j ≠ i → (stopped s i x f).tile j = s.tile j) ∧
      ((∀ r < 8, ∀ c, (s.rail r).check = some c → c.tile.toNat ≠ i) → (stopped s i x f).rails = s.rails) ∧
      (∀ r < 8, ∀ c, (s.rail r).check = some c → c.tile.toNat = i → ((stopped s i x f).rail r).check = none) := by
  have quiet := oneTile_quieted s i x
  obtain ⟨ht, others, rails, -, answer⟩ := settleState_facts (quiet.trans (alone_modTile _ i f).toOneTile) x
  have hf : ((quieted s i x).modTile i f).tile i = f ((quieted s i x).tile i) := tile_modTile_same f (by rw [quiet.size]; exact hi)
  have hr : (stopped s i x f).rails = (quieted s i x).rails := rails.trans (alone_modTile (quieted s i x) i f).rails
  rw [hf] at answer
  refine ⟨_, withoutPlan_quieted hi x, (ht i).trans hf, answer, others, fun h => hr.trans (rails_quieted h x), fun r h8 c hc htile => ?_⟩
  rw [State.rail, hr]
  exact check_quieted h8 hc htile x

/-- A tile whose clock stops at a disable. -/
def disabledTile (t : Tile) : Tile := { t.stopClock with st := .disabled, hov := none }

/-- A tile whose output stops at a gate. -/
def gatedTile (t : Tile) : Tile :=
  { t with st := .gated, start := 0, startPer := 0, low := false, wait := {}, lead := {}, exRun := false, foGap := false }

theorem disableInstant_eq (hd : dueIs s i x) (ha : x.act = .disable) (hi : i < s.tiles.length) (hl : (s.tile i).live = true) :
    s.disableInstant i = stopped s i x disabledTile := by
  have hl' : ((s.dropOne i x).tile i).live = true := (congrArg Tile.live (tile_dropOne hi x)).trans hl
  rw [State.disableInstant, dueOf_eq hd (p := fun a => a = .disable) (by simp [ha])]
  dsimp only
  rw [State.disableTile]
  rw [if_pos hl']
  rfl

theorem gateInstant_eq (hd : dueIs s i x) (ha : x.act = .gate) (hi : i < s.tiles.length)
    (hst : (s.tile i).st = .running ∨ (s.tile i).st = .starting) : s.gateInstant i = stopped s i x gatedTile := by
  have hl' : ((s.dropOne i x).tile i).st = .running ∨ ((s.dropOne i x).tile i).st = .starting := by
    rw [congrArg Tile.st (tile_dropOne hi x)]
    exact hst
  rw [State.gateInstant, dueOf_eq hd (p := fun a => a = .gate) (by simp [ha])]
  dsimp only
  rw [State.gateTile]
  rw [if_pos (by simpa using hl')]
  rfl

/-- A gated tile whose output restarts. -/
def ungatedTile (t : Tile) : Tile := if t.actCal then { t with st := .starting } else t.startOutput

theorem ungateInstant_eq (hd : dueIs s i x) (ha : x.act = .ungate) (hi : i < s.tiles.length) (hst : (s.tile i).st = .gated) :
    s.ungateInstant i = ((s.dropOne i x).modTile i ungatedTile).settleState i x := by
  have hst' : ((s.dropOne i x).tile i).st = .gated := (congrArg Tile.st (tile_dropOne hi x)).trans hst
  rw [State.ungateInstant, dueOf_eq hd (p := fun a => a = .ungate) (by simp [ha])]
  dsimp only
  rw [State.ungateTile]
  rw [if_pos hst']
  rfl

theorem ungate_facts (hi : i < s.tiles.length) (x : Sched) :
    let u := ((s.dropOne i x).modTile i ungatedTile).settleState i x
    u.tile i = ungatedTile { s.tile i with sched := (s.tile i).sched.erase x } ∧ (∀ j, j ≠ i → u.tile j = s.tile j) ∧
      u.rails = s.rails ∧ u.keys = s.keys ∧
      ∀ w, w32 (ungatedTile { s.tile i with sched := (s.tile i).sched.erase x }).st.code = w → settledAs s u x.mbx (okR [w]) := by
  have al : Alone i s ((s.dropOne i x).modTile i ungatedTile) := (alone_dropOne ..).trans (alone_modTile ..)
  obtain ⟨ht, others, rails, keys, answer⟩ := settleState_facts al.toOneTile x
  have h : ((s.dropOne i x).modTile i ungatedTile).tile i = ungatedTile { s.tile i with sched := (s.tile i).sched.erase x } :=
    (tile_modTile_same _ (by rw [(alone_dropOne ..).size]; exact hi)).trans (congrArg ungatedTile (tile_dropOne hi x))
  exact ⟨(ht i).trans h, others, rails.trans al.rails, keys.trans al.keys, fun w hw => answer w (by rw [h]; exact hw)⟩

/-! ## The return of a domain (04 R132) -/

/-- A tile of a domain that returns takes the state it held: what `t` is of `o`, which was off and had no enable recorded. -/
def Returned (o t : Tile) : Prop :=
  (o.ret = .disabled → t.st = .disabled) ∧
  (o.ret = .gated → (o.failA && o.failB) = false → t.st = .gated ∧ t.runCode = o.code) ∧
  (o.ret = .running → (o.failA && o.failB) = false →
    t.st = (if (if o.failA then o.calB else o.calA) then .running else .starting) ∧ t.runCode = o.code)

/-- Neither its handover nor its standby matters to that. -/
theorem Returned.of_rest {o o' t t' : Tile} (ho : restOf o = restOf o') (ht : restOf t = restOf t') (h : Returned o t) : Returned o' t' := by
  change Returned (restOf o') (restOf t')
  rw [← ho, ← ht]
  exact h

theorem tileReturn_off {T : Time} (hst : (s.tile i).st = .domainOff) (hrec : (s.tile i).recEn = false) : s.tileReturn T i =
    if (s.tile i).ret = .running then (s.modTile i (fun t => { t with recEn := false, ret := .disabled })).startTile i
    else if (s.tile i).ret = .gated then
      if (s.tile i).failA && (s.tile i).failB then (s.modTile i (fun t => { t with recEn := false, ret := .disabled })).fence i 2
      else ((s.modTile i (fun t => { t with recEn := false, ret := .disabled })).modTile i (fun t =>
        { t.oscOn s.boot.uptime with st := .gated })).unsettle i
    else (s.modTile i (fun t => { t with recEn := false, ret := .disabled })).modTile i (fun t => { t with st := .disabled }) := by
  unfold State.tileReturn
  simp only [hst, hrec, ne_eq, not_true_eq_false, if_false, Bool.false_eq_true, decide_eq_true_eq, Bool.not_false, Bool.and_true]

theorem tileReturn_returned {T : Time} (hi : i < s.tiles.length) (hst : (s.tile i).st = .domainOff) (hrec : (s.tile i).recEn = false) :
    Returned (s.tile i) ((s.tileReturn T i).tile i) := by
  have size : i < (s.modTile i (fun t => { t with recEn := false, ret := .disabled })).tiles.length := by
    rw [(alone_modTile ..).size]
    exact hi
  have h1 := tile_modTile_same (s := s) (fun t => { t with recEn := false, ret := .disabled }) hi
  rw [tileReturn_off hst hrec]
  refine ⟨fun hret => ?_, fun hret hf => ?_, fun hret hf => ?_⟩
  · rw [if_neg (by simp [hret]), if_neg (by simp [hret]), tile_modTile_same _ size]
  · rw [if_neg (by simp [hret]), if_pos hret, if_neg (by simp [hf])]
    obtain ⟨v, hv⟩ := tile_unsettle ((s.modTile i (fun t => { t with recEn := false, ret := .disabled })).modTile i (fun t =>
        { t.oscOn s.boot.uptime with st := .gated })) i
    rw [hv, tile_modTile_same _ size, h1]
    exact ⟨rfl, rfl⟩
  · rw [if_pos hret]
    obtain ⟨v, hv⟩ := tile_startTile size (by rw [h1]; exact hf)
    rw [hv, h1]
    exact ⟨startedTile_st .., startedTile_runCode ..⟩

/-- Domain `d` is on again, and no return of it waits. -/
def domainBack (s : State) (d : Nat) : State := { s with doms := s.doms.set d true, domRet := s.domRet.set d none }

theorem domainReturn_eq {d : Nat} {T : Time} {m : Option (BitVec 3)} (hret : s.domRet.getD d none = some (T, m)) (hdue : s.due T = true) :
    s.domainReturn d = ((domainBack s d).each (s.domTiles d)
      (State.tileReturn T)).settleO m (okR []) := by
  rw [State.domainReturn, hret]
  dsimp only
  rw [if_neg (by simp [hdue])]
  rfl

theorem domainReturn_facts {d : Nat} {T : Time} {m : Option (BitVec 3)} (hret : s.domRet.getD d none = some (T, m)) (hdue : s.due T = true)
    (hd : d < s.doms.length) (hlen : s.tiles.length = 256) :
    (s.domainReturn d).doms.getD d false = true ∧ (s.domainReturn d).domRet.getD d none = none ∧
      settledAs s (s.domainReturn d) m (okR []) ∧
      (∀ j < 256, j ∈ s.domTiles d → (s.tile j).st = .domainOff → (s.tile j).recEn = false →
        Returned (s.tile j) ((s.domainReturn d).tile j)) ∧
      (∀ j < 256, j ∉ s.domTiles d → ((s.domainReturn d).tile j).st = (s.tile j).st) := by
  have w := Within.fold (within_tileReturn T) (domainBack s d) (s.domTiles d)
  rw [domainReturn_eq hret hdue]
  have last := within_settleO (l := s.domTiles d) ((domainBack s d).each
    (s.domTiles d) (State.tileReturn T)) m (okR [])
  have both := w.trans last
  refine ⟨?_, ?_, settledAs_settleO w.mbxs w.held m _, fun j hj hmem hst hrec => ?_, fun j _ hmem => ?_⟩
  · rw [both.doms]
    simp [domainBack, hd]
  · rw [both.domRet]
    by_cases h : d < s.domRet.length <;> simp [domainBack, h]
  · have nodup : (s.domTiles d).Nodup := List.nodup_range.filter _
    obtain ⟨v, size, before, after⟩ := Within.turn (within_tileReturn T) nodup hmem
      (domainBack s d)
    have hr := tileReturn_returned (s := v) (T := T) (i := j) (by rw [size]; exact hlen ▸ hj) ((congrArg Tile.st before).trans hst)
      ((congrArg Tile.recEn before).trans hrec)
    refine hr.of_rest before (after.symm.trans ?_)
    rw [tile_still (still_settleO ..)]
  · have h := congrArg Tile.st (both.rest j hmem)
    exact h

/-! ## The obligation -/

/-- Settles O32: the change that is due is what its instant takes; a start, a stop and a gate change its own tile alone, whose command then
ends with the tile's state; and each tile of a returning domain has its turn. -/
theorem stateInstants : Obligations.StateInstants := by
  rintro dt b i s u x o rfl hr rfl hlen rfl
  have hi : b.toNat < (s.tick dt).tiles.length := hlen ▸ b.isLt
  refine ⟨fun hd ha hst htap hf => ?_, fun hd ha hst htap => ?_, fun hd ha hst => ?_, fun hd ha hst => ?_, fun hd ha hst => ?_,
    fun d T m hret hdue hdl => ?_, ?_⟩
  · obtain ⟨v, tile, others, rails, keys, answer⟩ := enable_facts hd ha hst htap hi hf
    refine ⟨_, (event_live _ hr : execEnableInstant dt b s = _), ?_⟩
    rw [tile]
    obtain ⟨actB, tapOk⟩ := startedTile_starts (s.tick dt).boot.uptime ((s.tick dt).tile b.toNat)
    refine ⟨startedTile_runCode .., actB, startedTile_stby .., rfl, tapOk, others, rails, keys, fun hc => ?_, fun hc => ?_⟩
    · have h := startedTile_running (s.tick dt).boot.uptime (t := (s.tick dt).tile b.toNat) hc
      refine ⟨?_, ?_, ?_, ?_, answer _ ?_⟩ <;> rw [h] <;> rfl
    · have h := startedTile_starting (s.tick dt).boot.uptime (t := (s.tick dt).tile b.toNat) hc
      refine ⟨by rw [h], answer _ ?_⟩
      rw [h]
      rfl
  · exact (event_live _ hr : execEnableInstant dt b s = _).trans (congrArg _ (enableInstant_refuses hd ha hst htap))
  · have hl : ((s.tick dt).tile b.toNat).live = true := by
      rcases hst with h | h | h <;> simp [Tile.live, h]
    obtain ⟨q, plan, tile, answer, others, rails, checks⟩ := stopped_facts hi x disabledTile
    refine ⟨_, (event_live _ hr : execDisableInstant dt b s = _).trans (congrArg _ (disableInstant_eq hd ha hi hl)), ?_⟩
    have code := congrArg Tile.code plan
    have sched := congrArg Tile.sched plan
    rw [tile]
    exact ⟨rfl, rfl, rfl, code, rfl, sched, answer _ rfl, others, rails, checks⟩
  · obtain ⟨q, plan, tile, answer, others, rails, checks⟩ := stopped_facts hi x gatedTile
    refine ⟨_, (event_live _ hr : execGateInstant dt b s = _).trans (congrArg _ (gateInstant_eq hd ha hi hst)), ?_⟩
    have runCode := congrArg Tile.runCode plan
    have actB := congrArg Tile.actB plan
    have sched := congrArg Tile.sched plan
    rw [tile]
    exact ⟨rfl, runCode, actB, rfl, sched, answer _ rfl, others, rails, checks⟩
  · obtain ⟨tile, others, rails, keys, answer⟩ := ungate_facts hi x
    refine ⟨_, (event_live _ hr : execUngateInstant dt b s = _).trans (congrArg _ (ungateInstant_eq hd ha hi hst)), ?_⟩
    rw [tile]
    unfold ungatedTile at answer ⊢
    refine ⟨?_, ?_, others, rails, keys, fun hc => ?_, fun hc => ?_⟩
    · split <;> rfl
    · split <;> rfl
    · rw [if_neg (by simp [hc])] at answer ⊢
      exact ⟨rfl, rfl, rfl, answer _ rfl⟩
    · rw [if_pos hc] at answer ⊢
      exact ⟨rfl, answer _ rfl⟩
  · exact ⟨_, (event_live _ hr : execDomainReturnInstant dt d s = _), domainReturn_facts hret hdue hdl hlen⟩
  · refine (event_live _ hr : execSoftStartStep dt b s = _).trans (congrArg _ (congrArg _ (funext fun t => ?_)))
    simp [Tile.rampStep, or_assoc]

end Sys2Proof.Proofs
end

section
/-! SUPPORT. What a fence makes of its tile, and a tile that is left with one oscillator (04 R108 to R110, R130; 17 R395). -/

namespace Sys2Proof.Proofs

open Sys2Proof.Machine Sys2Proof.Safety Sys2Proof.Laws

set_option Elab.async false

variable {s : State} {i : Nat}

/-! ## A fence (17 R395) -/

theorem timed_abandon (s : State) (i : Nat) : Timed s (s.abandon i) :=
  .ite (fun _ => .refl s) (fun _ => ⟨rfl, rfl⟩)

theorem timed_dropSched (s : State) (i : Nat) (r : Resp) : Timed s (s.dropSched i r) :=
  .of_update (.each (f := fun (v : State) (e : Sched) => v.settleO e.mbx r) (fun _ _ => timed_settleO ..) _ _)

theorem timed_dropCheck (s : State) (i : Nat) : Timed s (s.dropCheck i) := by
  rw [dropCheck_eq]
  refine .each (fun v r => ?_) _ _
  unfold dropStep
  split
  · exact .ite (fun _ => ⟨rfl, rfl⟩) (fun _ => .refl v)
  · exact .refl v

theorem timed_abortNaming (s : State) (i cause : Nat) : Timed s (s.abortNaming i cause) :=
  .each (fun s k => by
    split
    · exact timed_abortKs ..
    · exact .refl s) _ _

theorem timed_raise (s : State) (code arg data : Nat) : Timed s (s.raise code arg data) := .logged (logged_raise ..)

theorem timed_modTile (s : State) (i : Nat) (f : Tile → Tile) : Timed s (s.modTile i f) := ⟨rfl, rfl⟩

/-- A tile that gives up what waits at it: its events, its scheduled changes, its check. -/
def given (s : State) (i : Nat) : State := ((s.abandon i).dropSched i (fencedR i)).dropCheck i

theorem timed_given (s : State) (i : Nat) : Timed s (given s i) :=
  ((timed_abandon ..).trans (timed_dropSched ..)).trans (timed_dropCheck ..)

theorem size_given (s : State) (i : Nat) : (given s i).tiles.length = s.tiles.length :=
  ((within_abandon s i).trans ((within_dropSched _ i _).trans (within_dropCheck _ i))).size

theorem tile_dropSched (hi : i < s.tiles.length) (r : Resp) :
    (s.dropSched i r).tile i = { s.tile i with sched := [], resched := [], hov := none } :=
  (tile_still (.each (f := fun (v : State) (e : Sched) => v.settleO e.mbx r) (fun _ _ => still_settleO ..) _ _) i).trans
    (tile_modTile_same _ hi)

/-- A tile with no change scheduled and no handover prepared. -/
def unscheduled (t : Tile) : Tile := { t with sched := [], resched := [], hov := none }

theorem tile_given (hi : i < s.tiles.length) :
    ∃ t, (given s i).tile i = t ∧ withoutPlan t = withoutPlan (unscheduled (s.tile i)) ∧ t.events = [] := by
  have size : i < (s.abandon i).tiles.length := by
    rw [(within_abandon s i).size]
    exact hi
  refine ⟨_, rfl, (withoutPlan_dropCheck ..).trans ?_, tile_dropCheck (P := fun t => t.events = []) (fun _ _ _ h => h) ?_⟩
  · have h := congrArg unscheduled (withoutPlan_abandon s i i)
    exact (congrArg withoutPlan (tile_dropSched size _)).trans h
  · exact (congrArg Tile.events (tile_dropSched size _)).trans (events_abandon hi)

/-- A tile that the fence takes, at uptime `upt` and for cause `c`. -/
def fencedTile (c upt : Nat) (t : Tile) : Tile :=
  { t.stopClock with
    st := .fenced, cause := BitVec.ofNat 4 c, fences := satInc t.fences, plumbs := t.plumbs.map Plumb.silence, ret := .disabled
    recEn := false, window := [], stats := List.replicate 4 {}, disagree := 0, trialRun := false, mism := 0, trialAt := upt + 16000000 }

theorem fence_eq (hp : s.present i = true) (hf : (s.tile i).st ≠ .fenced) (hh : (s.tile i).st ≠ .halted) (c : Nat) :
    s.fence i c = (((given s i).modTile i (fencedTile c (given s i).boot.uptime)).raise 0x401 i c).abortNaming i 2 := by
  unfold State.fence
  dsimp only
  rw [if_neg (by simp [hp]), if_neg (by simp [Tile.fenced, hf, hh]), given]
  generalize ((s.abandon i).dropSched i (fencedR i)).dropCheck i = v
  rfl

/-- A fence takes a tile that was neither fenced nor halted, and leaves it what no fence gives up. -/
theorem tile_fence (hp : s.present i = true) (hi : i < s.tiles.length) (hf : (s.tile i).st ≠ .fenced) (hh : (s.tile i).st ≠ .halted) (c : Nat) :
    ∃ t, withoutPlan t = withoutPlan (unscheduled (s.tile i)) ∧ t.events = [] ∧ (s.fence i c).tile i = fencedTile c s.boot.uptime t := by
  obtain ⟨t, tile, plan, events⟩ := tile_given hi
  have hov : t.hov = none := congrArg Tile.hov plan
  rw [fence_eq hp hf hh, tile_modTile_fence (f := fencedTile c _) (by rw [size_given]; exact hi) (fun _ => rfl) (by rw [tile, hov]), tile,
    (timed_given s i).boot]
  exact ⟨t, plan, events, rfl⟩

theorem timed_fence (hp : s.present i = true) (hf : (s.tile i).st ≠ .fenced) (hh : (s.tile i).st ≠ .halted) (c : Nat) :
    Timed s (s.fence i c) := by
  rw [fence_eq hp hf hh]
  exact (((timed_given s i).trans (timed_modTile ..)).trans (timed_raise ..)).trans (timed_abortNaming ..)

/-! ## A tile with one oscillator (04 R109, R110) -/

theorem tile_abortKs (h : (s.tile i).hov = none) (k cause : Nat) (f : Option (Nat × Nat)) : (s.abortKs k cause f).tile i = s.tile i := by
  unfold State.abortKs
  dsimp only
  split
  · rfl
  · have ha := tile_abortOne h k cause f
    rw [tile_revalidate (by rw [ha]; exact h), ha]

/-- A tile whose scheduled swaps are gone. -/
def noSwaps (t : Tile) : Tile := { t with sched := t.sched.filter (fun x => x.act ≠ .swap) }

theorem noSwaps_sched (t : Tile) : ∀ x ∈ (noSwaps t).sched, x.act ≠ .swap := fun x hx => by
  simpa using (List.mem_filter.1 hx).2

/-- A tile that prepares no handover loses its scheduled swaps alone as it becomes single. -/
theorem tile_becomeSingle (h : (s.tile i).hov = none) (hi : i < s.tiles.length) (d : Option Time) :
    (s.becomeSingle i d).tile i = noSwaps (s.tile i) := by
  unfold State.becomeSingle
  rw [h]
  dsimp only
  have hv : ((s.modTile i noSwaps).each ((s.tile i).sched.filter (fun x => x.act = .swap)) (fun s x =>
      s.settleO x.mbx (missedSwapR x.at_))).tile i = noSwaps (s.tile i) :=
    (tile_still (.each (f := fun (v : State) (x : Sched) => v.settleO x.mbx (missedSwapR x.at_)) (fun _ _ => still_settleO ..) _ _) i).trans
      (tile_modTile_same _ hi)
  refine List.foldlRecOn (motive := fun v : State => v.tile i = noSwaps (s.tile i)) _ _ hv (fun v hv k _ => ?_)
  exact (tile_abortKs (by rw [hv]; exact h) ..).trans hv

/-- A tile of which oscillator `b` has failed. -/
def lostTile (b : Bool) (t : Tile) : Tile := { t with failA := t.failA || !b, failB := t.failB || b, oscFails := satInc t.oscFails }

/-- The state in which that failure is known. -/
def lost (s : State) (i : Nat) (b : Bool) (why : Nat) : State := (s.modTile i (lostTile b)).raise 0x301 i (b2n b + 2 * why)

theorem tile_lost (hi : i < s.tiles.length) (b : Bool) (why : Nat) : (lost s i b why).tile i = lostTile b (s.tile i) :=
  (tile_still (still_raiseC ..) i).trans (tile_modTile_same _ hi)

theorem within_lost (s : State) (i : Nat) (b : Bool) (why : Nat) : Within [i] s (lost s i b why) :=
  (Within.modTile ..).trans (.logged (logged_raise ..))

end Sys2Proof.Proofs
end

section
/-! SUPPORT. What a move, a switch, a loss of an oscillator and the end of a calibration make of the tile (04 R108 to R117; 18 R406). -/

namespace Sys2Proof.Proofs

open Sys2Proof.Machine Sys2Proof.Safety Sys2Proof.Laws

set_option Elab.async false

variable {s : State} {i : Nat}

/-! ## Moves (04 R111 to R116) -/

theorem alone_cancelDips (s : State) (i : Nat) : Alone i s (s.cancelDips i) := alone_modTile ..

theorem tile_cancelDips (hi : i < s.tiles.length) :
    ∃ es n, (s.cancelDips i).tile i = { s.tile i with events := es, dip := 0, heldD := 0, dipCanc := n } :=
  ⟨_, _, tile_modTile_same _ hi⟩

theorem slideInstant_eq {x : Sched} {c : BitVec 16} (hd : dueIs s i x) (ha : x.act = .code c) (hl : (s.tile i).live = true)
    (hne : (s.tile i).runCode ≠ c) (hr : slideReach (s.tile i).runCode.toNat c.toNat = true) :
    s.slideInstant i = (((s.dropOne i x).cancelDips i).modTile i (fun t => t.slid c x.at_)).unsettle i := by
  unfold State.slideInstant
  rw [dueOf_eq hd]
  · dsimp only
    rw [ha]
    dsimp only
    rw [if_neg (by simp [hl]), if_neg hne, if_pos (by simp [Tile.reaches, hr])]
  · rw [ha]

theorem slide_facts {x : Sched} {c : BitVec 16} (hd : dueIs s i x) (ha : x.act = .code c) (hi : i < s.tiles.length)
    (hl : (s.tile i).live = true) (hne : (s.tile i).runCode ≠ c) (hr : slideReach (s.tile i).runCode.toNat c.toNat = true) :
    (∃ es n v, (s.slideInstant i).tile i = { Tile.slid { s.tile i with
        sched := (s.tile i).sched.erase x, events := es, dip := 0, heldD := 0, dipCanc := n } c x.at_ with settle := v }) ∧
      Alone i s (s.slideInstant i) := by
  have al : Alone i s ((s.dropOne i x).cancelDips i) := (alone_dropOne ..).trans (alone_cancelDips ..)
  rw [slideInstant_eq hd ha hl hne hr]
  refine ⟨?_, (al.trans (alone_modTile ..)).trans (alone_unsettle ..)⟩
  obtain ⟨es, n, hc⟩ := tile_cancelDips (s := s.dropOne i x) (by rw [(alone_dropOne ..).size]; exact hi)
  obtain ⟨v, hv⟩ := tile_unsettle (((s.dropOne i x).cancelDips i).modTile i (fun t => t.slid c x.at_)) i
  have hs := tile_modTile_same (s := (s.dropOne i x).cancelDips i) (fun t => t.slid c x.at_) (i := i) (by rw [al.size]; exact hi)
  exact ⟨es, n, v, by rw [hv, hs, hc, tile_dropOne hi]⟩

theorem retuneStart_eq {h : Hov} (hst : (s.tile i).st = .running ∨ (s.tile i).st = .gated) (hn : (s.tile i).hov = none)
    (hA : (s.tile i).failA = false) (hB : (s.tile i).failB = false) (hh : s.nextHov i = some h) :
    s.retuneStart i = s.modTile i (fun t => { t with hov := some h, stby := .calibrating }) := by
  unfold State.retuneStart
  dsimp only
  rw [if_neg (by rcases hst with hst | hst <;> simp [hst, hn, hA, hB]), hh]

theorem alignStart_eq {h : Hov} (hh : (s.tile i).hov = some h) (hk : s.key h.at_ ≤ 2 ^ 63 + 32000) (ht : h.tuned = true) :
    s.alignStart i = s.modTile i (fun t => { t with hov := some { h with aligning := true } }) := by
  unfold State.alignStart
  rw [hh]
  dsimp only
  exact (if_neg (Nat.not_lt.2 hk : ¬ nowK + 32000 < s.key h.at_)).trans (if_pos ht)

/-! ## The switch of a handover or swap (04 R115, R117) -/

/-- A tile without what times the period under way. -/
def untimed (t : Tile) : Tile :=
  { t with wait := {}, perCode := 0, frLen := {}, dSupp := {}, dReact := {}, dPred := {}, dThr := {} }

theorem untimed_rephase (t : Tile) (o : Orig) (n c1 c2 : Nat) : untimed (t.rephase o n c1 c2) = untimed t := by
  cases o <;> rfl

theorem untimed_transit (t : Tile) (c1 c2 : Nat) (e : Frac) : untimed (t.transit c1 c2 e) = untimed t := by
  unfold Tile.transit
  dsimp only
  split
  · rfl
  · rw [untimed_rephase]
    split <;> split <;> rfl

section

variable (t : Tile) (c1 c2 : Nat) (e : Frac)

theorem transit_actB : (t.transit c1 c2 e).actB = t.actB := (congrArg Tile.actB (untimed_transit t c1 c2 e) :)
theorem transit_code : (t.transit c1 c2 e).code = t.code := (congrArg Tile.code (untimed_transit t c1 c2 e) :)
theorem transit_hovs : (t.transit c1 c2 e).hovs = t.hovs := (congrArg Tile.hovs (untimed_transit t c1 c2 e) :)
theorem transit_swaps : (t.transit c1 c2 e).swaps = t.swaps := (congrArg Tile.swaps (untimed_transit t c1 c2 e) :)

end

/-- The other oscillator is the active one at the handover's code, and the old one is calibrated to it. -/
theorem switched_facts (t : Tile) (h : Hov) (e : Frac) (upt : Nat) :
    (t.switched h e upt).actB = (!t.actB) ∧ (t.switched h e upt).runCode = h.code ∧
      (t.switched h e upt).code = (if h.swap then t.code else h.code) ∧ (t.switched h e upt).stby = .calibrating ∧
      (t.switched h e upt).hov = none ∧ (t.switched h e upt).st = t.st ∧
      (t.switched h e upt).hovs = (if h.swap then t.hovs else satInc t.hovs) ∧
      (t.switched h e upt).swaps = (if h.swap then satInc t.swaps else t.swaps) := by
  unfold Tile.switched
  dsimp only
  split
  · simp only [transit_actB, transit_code, transit_hovs, transit_swaps, transit_st, and_self]
  · exact ⟨rfl, rfl, rfl, rfl, rfl, rfl, rfl, rfl⟩

theorem hovSwitch_eq {h : Hov} (hh : (s.tile i).hov = some h) (hd : s.due h.at_ = true) (hw : (s.tile i).withhold = false)
    (ha : h.aligning = true) (hne : (s.tile i).sched.filter h.answers ≠ []) (e : Nat) : s.hovSwitch i true e =
      ((if h.swap then s else s.cancelDips i).modTile i (fun t => { (t.switched h (Frac.mk' e 62500) s.boot.uptime) with
        sched := t.sched.filter (fun x => !h.answers x) })).each ((s.tile i).sched.filter h.answers) (fun s x => s.settleState i x) := by
  unfold State.hovSwitch
  rw [hh]
  dsimp only
  rw [if_neg (by simp [hd, hw, hne]), if_neg (by simp [ha])]
  split <;> rfl

theorem still_settleStates (s : State) (i : Nat) (l : List Sched) : Still s (s.each l (fun s x => s.settleState i x)) :=
  .each (f := fun (v : State) (x : Sched) => v.settleState i x) (fun _ _ => still_settleO ..) s l

theorem rails_settleStates (s : State) (i : Nat) (l : List Sched) : (s.each l (fun s x => s.settleState i x)).rails = s.rails :=
  List.foldlRecOn (motive := fun v : State => v.rails = s.rails) _ _ rfl (fun v hv x _ => by
    rw [settleState_eq, (answered_settleO ..).eq]
    exact hv)

/-- The switch of a handover or swap that is aligned. -/
theorem hovSwitch_facts {h : Hov} (hi : i < s.tiles.length) (hh : (s.tile i).hov = some h) (hd : s.due h.at_ = true)
    (hw : (s.tile i).withhold = false) (ha : h.aligning = true) (hne : (s.tile i).sched.filter h.answers ≠ []) (e : Nat) :
    (∃ es dip k n, (s.hovSwitch i true e).tile i = { Tile.switched { s.tile i with events := es, dip := dip, heldD := k, dipCanc := n } h
        (Frac.mk' e 62500) s.boot.uptime with sched := (s.tile i).sched.filter (fun x => !h.answers x) }) ∧
      (∀ j, j ≠ i → (s.hovSwitch i true e).tile j = s.tile j) ∧ (s.hovSwitch i true e).rails = s.rails := by
  have al : Alone i s (if h.swap then s else s.cancelDips i) := by
    split
    · exact .same
    · exact alone_cancelDips ..
  have ht : ∃ es dip k n, (if h.swap then s else s.cancelDips i).tile i =
      { s.tile i with events := es, dip := dip, heldD := k, dipCanc := n } := by
    split
    · exact ⟨_, _, _, _, rfl⟩
    · obtain ⟨es, n, hc⟩ := tile_cancelDips hi
      exact ⟨_, _, _, _, hc⟩
  rw [hovSwitch_eq hh hd hw ha hne]
  generalize (if h.swap then s else s.cancelDips i) = v at al ht
  obtain ⟨es, dip, k, n, ht⟩ := ht
  refine ⟨⟨es, dip, k, n, (tile_still (still_settleStates ..) i).trans ((tile_modTile_same _ (by rw [al.size]; exact hi)).trans ?_)⟩,
    fun j hj => (tile_still (still_settleStates ..) j).trans ((tile_modTile_ne _ _ hj).trans (al.others j hj)), ?_⟩
  · rw [ht]
  · exact (rails_settleStates ..).trans al.rails

/-! ## Oscillators that fail (04 R109, R110) -/

/-- A present tile with both oscillators, one of which fails. -/
structure Losing (s : State) (i : Nat) : Prop where
  size : i < s.tiles.length
  present : s.present i = true
  running : (s.tile i).st = .running
  goodA : (s.tile i).failA = false
  goodB : (s.tile i).failB = false
  single : (s.tile i).hov = none

theorem failOsc_live (h : Losing s i) (b : Bool) (why : Nat) : s.failOsc i b why =
    if (s.tile i).actB = b then (lost s i b why).failover i
    else ((lost s i b why).modTile i (fun t => { t with stby := .off, stbySettle := 0 })).becomeSingle i none := by
  have ht := tile_lost h.size b why
  have hg : (if b then (s.tile i).failB else (s.tile i).failA) = false := by cases b <;> simp [h.goodA, h.goodB]
  unfold State.failOsc
  dsimp only
  rw [if_neg (by simp [h.present, h.running, Tile.fenced, hg])]
  change (if ((lost s i b why).tile i).failA && ((lost s i b why).tile i).failB then _ else if ((lost s i b why).tile i).live then
    if ((lost s i b why).tile i).actB = b then _ else _ else _) = _
  rw [ht, if_neg (by cases b <;> simp [lostTile, h.goodA, h.goodB]), if_pos (by simp [Tile.live, lostTile, h.running])]
  rfl

theorem failover_single {v : State} (h : (v.tile i).hov = none) :
    v.failover i = if (v.tile i).stby = .warm then v.failoverWarm i else v.failoverCold i := by
  unfold State.failover
  dsimp only
  rw [h]

/-- The standby is lost. -/
theorem tile_standbyLost (h : Losing s i) {b : Bool} (hb : (s.tile i).actB ≠ b) (why : Nat) :
    (s.failOsc i b why).tile i = noSwaps { lostTile b (s.tile i) with stby := .off, stbySettle := 0 } := by
  have size : i < (lost s i b why).tiles.length := by
    rw [(within_lost ..).size]
    exact h.size
  have ht : ((lost s i b why).modTile i (fun t => { t with stby := .off, stbySettle := 0 })).tile i =
      { lostTile b (s.tile i) with stby := .off, stbySettle := 0 } := by
    rw [tile_modTile_same _ size, tile_lost h.size]
  rw [failOsc_live h, if_neg hb, tile_becomeSingle (by rw [ht]; exact h.single) (by rw [(alone_modTile ..).size]; exact size), ht]

/-- A tile that its warm standby drives, whose output is held low for `g` mt more. -/
def warmHanded (g : Nat) (t : Tile) : Tile :=
  if t.st = .running then t.handed.pause g else if t.st = .starting then t.handed.startOutput else { t.handed with actCal := false }

theorem failoverWarm_eq (v : State) (i : Nat) : v.failoverWarm i =
    ((v.take .failoverGap 321).2.modTile i (warmHanded (v.take .failoverGap 321).1)).becomeSingle i none := rfl

section

variable {v : State} (hi : i < v.tiles.length) (hh : (v.tile i).hov = none)

include hi hh

/-- The warm standby drives the tile from now on. -/
theorem tile_failoverWarm (hr : (v.tile i).st = .running) : ∃ g, (v.failoverWarm i).tile i = noSwaps ((v.tile i).handed.pause g) := by
  have ht := (tile_modTile_same (s := (v.take .failoverGap 321).2) (warmHanded (v.take .failoverGap 321).1) (i := i) hi).trans (if_pos hr)
  rw [failoverWarm_eq, tile_becomeSingle (by rw [ht]; exact hh) (by rw [(alone_modTile ..).size]; exact hi), ht]
  exact ⟨_, rfl⟩

/-- The standby is first brought to the code. -/
theorem tile_failoverCold : ∃ q, withoutPlan q = withoutPlan (v.tile i) ∧ (v.failoverCold i).tile i = noSwaps { q.handed with
    st := if q.st = .gated then .gated else .starting, actCal := true, foGap := q.st = .running || q.foGap, low := false, wait := {}
    lead := {} } := by
  obtain ⟨q, tile, plan⟩ : ∃ q, (v.dropCheck i).tile i = q ∧ withoutPlan q = withoutPlan (v.tile i) := ⟨_, rfl, withoutPlan_dropCheck ..⟩
  have hov : q.hov = none := (congrArg Tile.hov plan :).trans hh
  have size : i < (v.dropCheck i).tiles.length := by
    rw [(oneTile_dropCheck ..).size]
    exact hi
  refine ⟨q, plan, ?_⟩
  unfold State.failoverCold
  rw [tile_becomeSingle ?_ (by rw [(alone_modTile ..).size]; exact size), tile_modTile_same _ size, tile]
  rw [tile_modTile_same _ size, tile]
  exact hov

end

/-- The active oscillator is lost while its standby is warm. -/
theorem tile_activeLost_warm (h : Losing s i) (hw : (s.tile i).stby = .warm) (why : Nat) :
    ∃ g, (s.failOsc i (s.tile i).actB why).tile i = noSwaps ((lostTile (s.tile i).actB (s.tile i)).handed.pause g) := by
  have ht := tile_lost h.size (s.tile i).actB why
  have size : i < (lost s i (s.tile i).actB why).tiles.length := by
    rw [(within_lost ..).size]
    exact h.size
  obtain ⟨g, hg⟩ := tile_failoverWarm size (by rw [ht]; exact h.single) (by rw [ht]; exact h.running)
  rw [ht] at hg
  rw [failOsc_live h, if_pos rfl, failover_single (by rw [ht]; exact h.single), if_pos (by rw [ht]; exact hw)]
  exact ⟨g, hg⟩

/-- The active oscillator is lost while its standby is not warm. -/
theorem tile_activeLost_cold (h : Losing s i) (hw : (s.tile i).stby ≠ .warm) (why : Nat) :
    ∃ q, withoutPlan q = withoutPlan (lostTile (s.tile i).actB (s.tile i)) ∧ (s.failOsc i (s.tile i).actB why).tile i =
      noSwaps { q.handed with
        st := if q.st = .gated then .gated else .starting, actCal := true, foGap := q.st = .running || q.foGap, low := false, wait := {}
        lead := {} } := by
  have ht := tile_lost h.size (s.tile i).actB why
  have size : i < (lost s i (s.tile i).actB why).tiles.length := by
    rw [(within_lost ..).size]
    exact h.size
  obtain ⟨q, plan, hq⟩ := tile_failoverCold size (by rw [ht]; exact h.single)
  rw [ht] at plan
  rw [failOsc_live h, if_pos rfl, failover_single (by rw [ht]; exact h.single), if_neg (by rw [ht]; exact hw)]
  exact ⟨q, plan, hq⟩

/-- The loss of the oscillator that was left fences the tile. -/
theorem bothLost_facts {b : Bool} (hi : i < s.tiles.length) (hp : s.present i = true) (hr : (s.tile i).st = .running)
    (hA : (s.tile i).failA = b) (hB : (s.tile i).failB = !b) (why : Nat) :
    let t := (s.failOsc i b why).tile i
    t.st = .fenced ∧ t.cause = 2 ∧ t.failA = true ∧ t.failB = true := by
  have ht := tile_lost hi b why
  have eq : s.failOsc i b why = (lost s i b why).failBoth i := by
    unfold State.failOsc
    dsimp only
    rw [if_neg (by cases b <;> simp [hp, hr, Tile.fenced, hA, hB])]
    change (if ((lost s i b why).tile i).failA && ((lost s i b why).tile i).failB then _ else _) = _
    rw [ht, if_pos (by cases b <;> simp [lostTile, hA, hB])]
    rfl
  have w : Within [] (lost s i b why) ((lost s i b why).abortNaming i 11) := within_abortNaming ..
  have rest := w.rest i (by simp)
  rw [ht] at rest
  have whole := (within_lost s i b why).trans w.of_nil
  obtain ⟨q, hq⟩ : ∃ q, ((lost s i b why).abortNaming i 11).tile i = q := ⟨_, rfl⟩
  rw [hq] at rest
  have st : q.st = .running := (congrArg Tile.st rest :).trans hr
  obtain ⟨t, plan, -, tile⟩ := tile_fence (s := (lost s i b why).abortNaming i 11) (i := i)
    (by rw [State.present, State.clsOf, whole.ties]; exact hp) (by rw [whole.size]; exact hi) (by simp [hq, st]) (by simp [hq, st]) 2
  rw [hq] at plan
  have failA : t.failA = (lostTile b (s.tile i)).failA := (congrArg Tile.failA plan :).trans (congrArg Tile.failA rest :)
  have failB : t.failB = (lostTile b (s.tile i)).failB := (congrArg Tile.failB plan :).trans (congrArg Tile.failB rest :)
  rw [eq, State.failBoth]
  dsimp only
  rw [tile]
  exact ⟨rfl, rfl, failA.trans (by cases b <;> simp [lostTile, hA]), failB.trans (by cases b <;> simp [lostTile, hB])⟩

/-! ## Calibrations that end (04 R106 to R108, R127; 18 R406) -/

theorem calDone_standby {b : Bool} (hp : s.present i = true) (hr : (s.tile i).st = .running) (hb : (s.tile i).actB ≠ b)
    (hc : (s.tile i).stby = .calibrating) : s.calDone i b true = s.stbyTuned i := by
  simp [State.calDone, hp, hr, hb, hc, Tile.fenced, Tile.live]

theorem calDone_before {b : Bool} (hp : s.present i = true) (hd : (s.tile i).st = .disabled) :
    s.calDone i b true = s.modTile i (fun t => { t with calA := t.calA || !b, calB := t.calB || b }) := by
  simp [State.calDone, hp, hd, Tile.fenced, Tile.live]

/-- A tile whose active oscillator has been brought to its code. -/
def tunedTile (t : Tile) : Tile := if t.st = .starting then t.startOutput else { t with actCal := false }

theorem calDone_starting {b : Bool} (hp : s.present i = true) (hs : (s.tile i).st = .starting) (hc : (s.tile i).actCal = true)
    (hb : (s.tile i).actB = b) :
    s.calDone i b true = (s.modTile i tunedTile).unsettle i := by
  simp only [State.calDone, State.actTuned, hp, hs, hb, hc, Tile.fenced, Tile.live]
  rfl

theorem calDone_starts {b : Bool} (hi : i < s.tiles.length) (hp : s.present i = true) (hs : (s.tile i).st = .starting)
    (hc : (s.tile i).actCal = true) (hb : (s.tile i).actB = b) :
    (∃ v, (s.calDone i b true).tile i = { (s.tile i).startOutput with settle := v }) ∧ Alone i s (s.calDone i b true) := by
  rw [calDone_starting hp hs hc hb]
  refine ⟨?_, (alone_modTile ..).trans (alone_unsettle ..)⟩
  obtain ⟨v, hv⟩ := tile_unsettle (s.modTile i tunedTile) i
  exact ⟨v, hv.trans (congrArg (fun t : Tile => { t with settle := v }) ((tile_modTile_same tunedTile hi).trans (if_pos hs)))⟩

end Sys2Proof.Proofs
end

section
/-! O33: moves, handovers, losses of oscillators, swaps and the rotation's test (04 R108 to R117; 18 R406, R407, R410). -/

namespace Sys2Proof.Proofs

open Sys2Proof.Machine Sys2Proof.Safety Sys2Proof.Laws

set_option Elab.async false

variable {s : State} {i : Nat}

/-! ## Changes of one tile made one after another -/

theorem modTile_modTile (s : State) (i : Nat) (f g : Tile → Tile) : (s.modTile i f).modTile i g = s.modTile i (g ∘ f) := by
  simp [State.modTile, List.modify_modify_eq]

/-- Only what a change makes of the tile as it stands matters. -/
theorem modTile_congr {f g : Tile → Tile} (h : f (s.tile i) = g (s.tile i)) : s.modTile i f = s.modTile i g := by
  suffices s.tiles.modify i f = s.tiles.modify i g by simp [State.modTile, this]
  refine List.ext_getElem? (fun j => ?_)
  rw [List.getElem?_modify, List.getElem?_modify]
  by_cases hj : i = j
  · subst hj
    cases hs : s.tiles[i]? with
    | none => rfl
    | some t =>
      have ht : s.tile i = t := by simp [State.tile, List.getD_eq_getElem?_getD, hs]
      simp [← ht, h]
  · simp [hj]

/-! ## The swap that is due (18 R407) -/

theorem mem_enumFrom' {α : Type} {n : Nat} {l : List α} {p : Nat × α} (h : p ∈ enumFrom' n l) : p.2 ∈ l := by
  induction l generalizing n with
  | nil => cases h
  | cons a r ih =>
    rcases List.mem_cons.1 h with rfl | h
    · exact List.mem_cons_self
    · exact List.mem_cons_of_mem _ (ih h)

/-- With no change scheduled and no live keystone nothing changes at the tile. -/
theorem changesOf_nil (hs : (s.tile i).sched = []) (hk : ∀ x ∈ s.keys.slots, x.live = false) : s.changesOf i none = [] := by
  have hf : (enumFrom' 0 s.keys.slots).filter (fun p => p.2.live && (none : Option Nat) != some p.1) = [] :=
    List.filter_eq_nil_iff.2 (fun p hp => by simp [hk p.2 (mem_enumFrom' hp)])
  rw [State.changesOf, hs, hf]
  rfl

theorem slots_dead (h4 : s.keys.slots.length = 4) (hk : ∀ k < 4, (s.slot k).live = false) : ∀ x ∈ s.keys.slots, x.live = false := by
  intro x hx
  obtain ⟨k, hlt, rfl⟩ := List.getElem_of_mem hx
  have h := hk k (h4 ▸ hlt)
  rwa [State.slot, List.getD_eq_getElem _ _ hlt] at h

/-- The swap that is scheduled where nothing stands in its way. -/
def firstSwap (s : State) : Sched :=
  { at_ := BitVec.ofNat 64 ((s.mer.now.toNat + 1024000 + 15999999) / 16000000 * 16000000), act := .swap, auto := true }

theorem placeSwap_free (hs : ∀ j < 256, (s.tile j).sched = []) (hi : i < 256) (hk : ∀ x ∈ s.keys.slots, x.live = false) :
    s.placeSwap i = (s.modTile i (fun t => { t with sched := t.sched ++ [firstSwap s] })).stopTest i := by
  have group : s.groupSwaps i = [] := by
    refine List.flatMap_eq_nil_iff.2 (fun j hj => ?_)
    rw [hs j (List.mem_range.1 (List.mem_filter.1 hj).1)]
    rfl
  have hb : alignUp (s.nowN + 1024000) 16000000 + 0 * 16000000 = (s.mer.now.toNat + 1024000 + 15999999) / 16000000 * 16000000 := by
    rw [Nat.zero_mul, Nat.add_zero, alignUp, cdiv, Nat.add_sub_assoc (by decide)]
    rfl
  unfold State.placeSwap
  dsimp only
  rw [changesOf_nil (hs i hi) hk, group, show List.range 600 = 0 :: List.map Nat.succ (List.range 599) from List.range_succ_eq_map,
    List.find?_cons_of_pos (by simp)]
  dsimp only
  rw [hb, firstSwap]

theorem autoSwap_eq (hd : s.swapDue i = true) (hs : ∀ j < 256, (s.tile j).sched = []) (hi : i < 256) (hlen : s.tiles.length = 256)
    (hk : ∀ x ∈ s.keys.slots, x.live = false) : s.autoSwap i = s.modTile i (fun t => { t with
      stby := if t.stby = .testing then .calibrating else t.stby, sched := t.sched ++ [firstSwap s] }) := by
  rw [State.autoSwap, if_pos hd, placeSwap_free hs hi hk, stopTest_eq, tile_modTile_same _ (hlen ▸ hi)]
  by_cases ht : (s.tile i).stby = .testing
  · rw [if_pos ht, modTile_modTile]
    exact modTile_congr (by simp [ht])
  · rw [if_neg ht]
    exact modTile_congr (by simp [ht])

/-! ## The rotation's test of a standby (18 R410) -/

/-- A test begins. -/
theorem rotTest_begins {r : StbyRot} {p : Bool} (hr : s.tests.stby.getD (i / 32) {} = r)
    (hn : (r.runs && decide ((s.tile (32 * (i / 32) + r.pos)).stby = .testing)) = false)
    (hat : ∀ t, r.at_ = some t → t + 1600000000 ≤ s.boot.uptime) (hnext : s.rotNext (i / 32) = some i) : s.rotTest i p =
      (s.modRot (i / 32) (fun _ => { at_ := some s.boot.uptime, pos := i % 32, runs := true })).modTile i (fun t => { t with
        stby := .testing }) := by
  unfold State.rotTest
  dsimp only
  rw [hr, if_neg (by simpa using hn), if_pos]
  rw [hnext]
  cases h : r.at_ with
  | none => simp
  | some t => simpa using hat t h

section

variable {r : StbyRot} {t0 : Nat} (hr : s.tests.stby.getD (i / 32) {} = r) (hruns : r.runs = true) (hpos : r.pos = i % 32)
  (hat : r.at_ = some t0) (ht : (s.tile i).stby = .testing)

include hr hruns hpos hat ht

/-- A test that runs goes on until its windows have passed. -/
theorem rotTest_running (p : Bool) : s.rotTest i p =
    if t0 + 2621440 ≤ s.boot.uptime then (s.modRot (i / 32) (fun r => { r with runs := false })).standbyTest i p else s := by
  have hg : 32 * (i / 32) + r.pos = i := by rw [hpos]; exact Nat.div_add_mod ..
  unfold State.rotTest
  dsimp only
  rw [hr, hg, if_pos (by simp [hruns, ht]), hat]
  simp [stbyTestMt]

end

theorem standbyTest_passes {v : State} (hr : (v.tile i).st = .running) (ht : (v.tile i).stby = .testing) (hh : (v.tile i).hov = none) :
    v.standbyTest i true = v.modTile i (fun t => { t with stby := .warm, stbyTests := satInc t.stbyTests }) := by
  simp [State.standbyTest, hr, ht, hh]

theorem standbyTest_fails {v : State} (hr : (v.tile i).st = .running) (ht : (v.tile i).stby = .testing) (hh : (v.tile i).hov = none) :
    v.standbyTest i false = (v.take .race 2).2.failOsc i (!(v.tile i).actB) (2 + (v.take .race 2).1) := by
  simp only [State.standbyTest, hr, ht, hh]
  rfl

/-! ## The obligation -/

/-- What is left of a running tile that has lost its standby. -/
theorem standbyLost_facts (h : Losing s i) {b : Bool} (hb : (s.tile i).actB ≠ b) (why : Nat) :
    let t := (s.failOsc i b why).tile i
    t.st = .running ∧ t.stby = .off ∧ t.actB = (s.tile i).actB ∧ t.runCode = (s.tile i).runCode ∧ t.failA = !b ∧ t.failB = b ∧
      t.oscFails = satInc (s.tile i).oscFails ∧ ∀ x ∈ t.sched, x.act ≠ .swap := by
  dsimp only
  rw [tile_standbyLost h hb]
  refine ⟨h.running, rfl, rfl, rfl, ?_, ?_, rfl, noSwaps_sched _⟩ <;> simp [noSwaps, lostTile, h.goodA, h.goodB]

/-- Of a tile whose warm standby has taken over. -/
theorem activeLost_warm_facts (h : Losing s i) (hw : (s.tile i).stby = .warm) (why : Nat) :
    let t := (s.failOsc i (s.tile i).actB why).tile i
    t.st = .running ∧ t.stby = .off ∧ t.actB = (!(s.tile i).actB) ∧ t.runCode = (s.tile i).runCode ∧ t.failA = (!(s.tile i).actB) ∧
      t.failB = (s.tile i).actB := by
  obtain ⟨g, hg⟩ := tile_activeLost_warm h hw why
  dsimp only
  rw [hg]
  refine ⟨h.running, rfl, rfl, rfl, ?_, ?_⟩ <;> simp [noSwaps, Tile.pause, Tile.handed, lostTile, h.goodA, h.goodB]

/-- Of a tile whose standby is first brought to the code. -/
theorem activeLost_cold_facts (h : Losing s i) (hw : (s.tile i).stby ≠ .warm) (why : Nat) :
    let t := (s.failOsc i (s.tile i).actB why).tile i
    t.st = .starting ∧ t.stby = .off ∧ t.actB = (!(s.tile i).actB) ∧ t.actCal = true ∧ t.failA = (!(s.tile i).actB) ∧
      t.failB = (s.tile i).actB := by
  obtain ⟨q, plan, hq⟩ := tile_activeLost_cold h hw why
  have st : q.st = .running := (congrArg Tile.st plan :).trans h.running
  have actB : q.actB = (s.tile i).actB := (congrArg Tile.actB plan :)
  have failA : q.failA = (lostTile (s.tile i).actB (s.tile i)).failA := (congrArg Tile.failA plan :)
  have failB : q.failB = (lostTile (s.tile i).actB (s.tile i)).failB := (congrArg Tile.failB plan :)
  dsimp only
  rw [hq]
  exact ⟨if_neg (by simp [st]), rfl, (congrArg (! ·) actB :), rfl, failA.trans (by simp [lostTile, h.goodA]),
    failB.trans (by simp [lostTile, h.goodB])⟩

/-- Settles O33: a move and a switch change their tile alone; a lost oscillator takes the tile's scheduled swaps with it, and the last one
the tile; and the rotation takes its turn where no test runs. -/
theorem movesAndOscillators : Obligations.MovesAndOscillators := by
  rintro dt b i s u o rfl hr rfl hlen rfl
  have hi : b.toNat < (s.tick dt).tiles.length := hlen ▸ b.isLt
  have fails : ∀ a f, exec (.oscFail dt b a f) s = .next ((s.tick dt).failOsc b.toNat a (oscWhy f)) :=
    fun a f => (event_live _ hr : execOscFail dt b a f s = _)
  have cals : ∀ a, exec (.oscCalDone dt b a true) s = .next ((s.tick dt).calDone b.toNat a true) :=
    fun a => (event_live _ hr : execOscCalDone dt b a true s = _)
  have test : ∀ p, exec (.standbyTest dt b p) s = .next ((s.tick dt).rotTest b.toNat p) :=
    fun p => (event_live _ hr : execStandbyTest dt b p s = _)
  have slide : exec (.slideInstant dt b) s = .next ((s.tick dt).slideInstant b.toNat) := (event_live _ hr : execSlideInstant dt b s = _)
  have retune : exec (.handoverRetuneStart dt b) s = .next ((s.tick dt).retuneStart b.toNat) :=
    (event_live _ hr : execHandoverRetuneStart dt b s = _)
  have align : exec (.handoverAlignStart dt b) s = .next ((s.tick dt).alignStart b.toNat) :=
    (event_live _ hr : execHandoverAlignStart dt b s = _)
  have switch : ∀ e, exec (.handoverSwitch dt b true e) s = .next ((s.tick dt).hovSwitch b.toNat true e) :=
    fun e => (event_live _ hr : execHandoverSwitch dt b true e s = _)
  have swap : exec (.autoCalibrationSwap dt b) s = .next ((s.tick dt).autoSwap b.toNat) :=
    (event_live _ hr : execAutoCalibrationSwap dt b s = _)
  generalize s.tick dt = u at *
  refine ⟨fun x c hd ha hl hne hreach => ?_, fun h hst hn hA hB hh => ?_, fun h hh hk ht => ?_, fun h e hh hd hw ha hne => ?_,
    fun a hp hst hA hB hn => ?_, fun a f hp hst hA hB => ?_, fun a v w hp hst hact hst' hv => ?_, fun a hp hd => ?_, fun a hp hst hc ha => ?_,
    fun hd hs hk h4 => ?_, fun r p hrot hn hat hnext => ?_, fun r t0 hrot hruns hpos hat ht => ?_⟩
  · obtain ⟨⟨es, n, v, tile⟩, al⟩ := slide_facts hd ha hi hl hne hreach
    refine ⟨_, slide, ?_⟩
    rw [tile]
    exact ⟨rfl, rfl, rfl, rfl, rfl, rfl, rfl, rfl, al.others, al.rails, al.keys⟩
  · exact retune.trans (congrArg _ (retuneStart_eq hst hn hA hB hh))
  · exact align.trans (congrArg _ (alignStart_eq hh hk ht))
  · obtain ⟨⟨es, dip, k, n, tile⟩, others, rails⟩ := hovSwitch_facts hi hh hd hw ha hne e
    refine ⟨_, switch e, ?_⟩
    rw [tile]
    obtain ⟨actB, runCode, code, stby, hov, st, hovs, swaps⟩ := switched_facts
      { u.tile b.toNat with events := es, dip := dip, heldD := k, dipCanc := n } h (Frac.mk' e 62500) u.boot.uptime
    exact ⟨actB, runCode, code, stby, hov, st, hovs, swaps, rfl, others, rails⟩
  · have hlose : Losing u b.toNat := ⟨hi, hp, hst, hA, hB, hn⟩
    refine ⟨fun hact => ⟨_, fails .., standbyLost_facts hlose hact _⟩, ?_, ?_⟩
    · rintro rfl hw
      exact ⟨_, fails .., activeLost_warm_facts hlose hw _⟩
    · rintro rfl hw
      exact ⟨_, fails .., activeLost_cold_facts hlose hw _⟩
  · exact ⟨_, fails .., bothLost_facts hi hp hst hA hB _⟩
  · refine (cals a).trans (congrArg _ ((calDone_standby hp hst hact hst').trans ?_))
    rw [State.stbyTuned, hv]
  · exact (cals a).trans (congrArg _ (calDone_before hp hd))
  · obtain ⟨⟨v, hv⟩, al⟩ := calDone_starts hi hp hst hc ha
    refine ⟨_, cals a, ?_⟩
    rw [hv]
    exact ⟨rfl, rfl, rfl, al.others⟩
  · exact swap.trans (congrArg _ (autoSwap_eq hd hs b.isLt hlen (slots_dead h4 hk)))
  · exact (test p).trans (congrArg _ (rotTest_begins hrot hn hat hnext))
  · have run := rotTest_running hrot hruns hpos hat ht
    refine ⟨fun hlt p => (test p).trans (congrArg _ ((run p).trans (if_neg (by omega)))), fun hle hst hn => ⟨?_, fun hp hA hB => ?_⟩⟩
    · exact (test true).trans (congrArg _ ((run true).trans ((if_pos hle).trans (standbyTest_passes hst ht hn))))
    · have hlose : Losing ((u.modRot (b.toNat / 32) (fun r => { r with runs := false })).take .race 2).2 b.toNat :=
        ⟨hi, hp, hst, hA, hB, hn⟩
      obtain ⟨running, stby, actB, -, failA, failB, -⟩ := standbyLost_facts hlose (b := !(u.tile b.toNat).actB)
        (Bool.not_eq_not.2 rfl) (2 + ((u.modRot (b.toNat / 32) (fun r => { r with runs := false })).take .race 2).1)
      refine ⟨_, (test false).trans (congrArg _ ((run false).trans ((if_pos hle).trans (standbyTest_fails hst ht hn)))), running, stby, actB,
        failA.trans (Bool.not_not _), failB⟩

end Sys2Proof.Proofs
end

section
/-! O34: fencing, trials, tap checks and mortar words (04 R130; 05 R147; 11 R294; 17 R395 to R399). -/

namespace Sys2Proof.Proofs

open Sys2Proof.Machine Sys2Proof.Safety Sys2Proof.Laws

set_option Elab.async false

variable {s : State} {i : Nat}

/-! ## Tap checks (05 R147) -/

theorem tapCheck_passes {E : Time} {x : Option Sched} {k : Option (Nat × Nat)} {f : BitVec 4} (he : (s.enables i).head? = some (E, x, k))
    (ht : (s.tile i).tapOk ≠ some E) (h0 : s.key E ≤ 2 ^ 63 + 1024000) (h1 : 2 ^ 63 + 48000 ≤ s.key E)
    (hn : s.railNear (s.railOf i) 20 = true) (hf : ∀ p < 4, plumbEn (s.tile i).plumbW p = true → bit f p = false) :
    s.tapCheck i f = s.modTile i (fun t => { t with
      tapOk := some E, plumbs := t.plumbs.map (fun p => { p with calAt := s.boot.uptime, calTemp := t.temp }) }) := by
  have bad : [0, 1, 2, 3].filter (fun p => plumbEn (s.tile i).plumbW p && bit f p) = [] := by
    refine List.filter_eq_nil_iff.2 (fun p hp => ?_)
    have h4 : p < 4 := by
      simp only [List.mem_cons, List.not_mem_nil, or_false] at hp
      omega
    cases he : plumbEn (s.tile i).plumbW p with
    | false => simp
    | true => simp [hf p h4 he]
  have h0' : ¬ s.key E > nowK + 1024000 := Nat.not_lt.2 h0
  have h1' : ¬ s.key E < nowK + 48000 := Nat.not_lt.2 h1
  unfold State.tapCheck
  rw [he]
  dsimp only
  rw [if_neg (by simp [ht, h0', h1', hn]), bad]
  rfl

theorem tapDeadline_due {E : Time} {x : Option Sched} {k : Option (Nat × Nat)} (he : (s.enables i).head? = some (E, x, k))
    (ht : (s.tile i).tapOk ≠ some E) (hk : s.key E ≤ 2 ^ 63 + 16000) : s.tapDeadline i =
      match x, k with
      | some x, _ => s.tapRefuse i x
      | none, some k => s.abortKs k.1 11 (some (k.2, i))
      | none, none => s.modTile i (fun t => { t with recEn := false, ret := .disabled }) := by
  have hk' : ¬ s.key E > nowK + 16000 := Nat.not_lt.2 hk
  unfold State.tapDeadline
  rw [he]
  exact if_neg (by simp [ht, hk'])

/-! ## Trials and mortar words (17 R396, R399) -/

section

variable (a c : Bool) (t0 t1 : Int)

theorem fenceTrial_waits (h : s.boot.uptime < (s.tile i).trialAt ∨ s.granted i = true) (v : Bool) : s.fenceTrial i a c v t0 t1 = s := by
  unfold State.fenceTrial
  exact if_pos (by rcases h with h | h <;> simp [h])

theorem fenceTrial_runs (hf : (s.tile i).st = .fenced) (hg : s.granted i = false) (ht : (s.tile i).trialAt ≤ s.boot.uptime) (v : Bool) :
    s.fenceTrial i a c v t0 t1 =
      if v then s.modTile i (fun t => { t with trialA := false, trialB := false, trialAt := s.boot.uptime + 160000000000 })
      else s.modTile i (fun t => { t with
        trialAt := s.boot.uptime + 160000000000, trialRun := true, trialA := a, trialB := c, trialS0 := tempOk t0, trialS1 := tempOk t1 }) := by
  unfold State.fenceTrial
  exact if_neg (by simp [Tile.fenced, hf, hg, Nat.not_lt.2 ht])

end

theorem mortarDiscard_counts (hi : i < s.tiles.length) (hp : s.present i = true) (hl : (s.tile i).mortarAt.length < 15) {n : Nat}
    (hn : n < 4) (cfg : Bool) : s.mortarDiscard i cfg n = s.modTile i (fun t => { t with
      mortar := satInc t.mortar
      mortarAt := s.boot.uptime :: t.mortarAt.filter (fun a => decide (s.boot.uptime < a + 16000000)) }) := by
  have le := List.length_filter_le (fun a => decide (s.boot.uptime < a + 16000000)) (s.tile i).mortarAt
  unfold State.mortarDiscard
  rw [if_neg (by simp [hp])]
  refine if_neg ?_
  rw [tile_modTile_same _ hi]
  simp only [List.length_cons, Bool.or_eq_true, Bool.and_eq_true, decide_eq_true_eq, not_or, not_and]
  exact ⟨by omega, fun _ => by omega⟩

/-! ## The examination of the learned limit (11 R294) -/

theorem learnExam_once (h : s.mer.running = false ∨ s.boot.examAt = some (s.multAt 16000000)) : s.learnExam = s :=
  if_pos (by rcases h with h | h <;> simp [h])

/-- A tile that is examined. -/
def examined (t : Tile) : Tile :=
  { t with
    exPer := 0, exLim := 0, exRun := t.st = .running
    learn := if t.exRun && t.st = .running && decide (t.exLim * 8 > t.exPer)
      then BitVec.ofNat 16 (max 2560 (min t.learn.toNat (t.code.toNat - t.code.toNat / 8))) else t.learn }

/-- The examination of tile `i` leaves the rest as it was. -/
theorem examTile_facts (s : State) (i : Nat) : Alone i s (s.examTile i) ∧ Timed s (s.examTile i) ∧
    (i < s.tiles.length → (s.examTile i).tile i = examined (s.tile i)) := by
  have tile : i < s.tiles.length → (s.modTile i examined).tile i = examined (s.tile i) := tile_modTile_same examined
  have eq : s.modTile i (fun t => { t with
      exPer := 0, exLim := 0, exRun := t.st = .running
      learn := if (s.tile i).exRun && (s.tile i).st = .running && decide ((s.tile i).exLim * 8 > (s.tile i).exPer)
        then BitVec.ofNat 16 (max 2560 (min (s.tile i).learn.toNat ((s.tile i).code.toNat - (s.tile i).code.toNat / 8))) else t.learn }) =
      s.modTile i examined := modTile_congr rfl
  unfold State.examTile
  dsimp only
  rw [eq]
  split
  · have log : Logged (s.modTile i examined) _ := logged_raise (s.modTile i examined) 0x30A i
      (max 2560 (min (s.tile i).learn.toNat ((s.tile i).code.toNat - (s.tile i).code.toNat / 8)))
    refine ⟨(alone_modTile ..).trans (.same log.mbxs log.tiles (by rw [log.eq]) (by rw [log.eq])), (timed_modTile ..).trans (.logged log),
      fun hi => ?_⟩
    rw [State.tile, log.tiles]
    exact tile hi
  · exact ⟨alone_modTile .., timed_modTile .., tile⟩

/-- Each tile of a list has its examination once. -/
theorem exams_facts {l : List Nat} (hn : l.Nodup) (s : State) : let t := s.each l State.examTile
    Timed s t ∧ t.rails = s.rails ∧ t.keys = s.keys ∧
      ∀ j < s.tiles.length, t.tile j = if j ∈ l then examined (s.tile j) else s.tile j := by
  induction l generalizing s with
  | nil => exact ⟨.refl s, rfl, rfl, fun _ _ => rfl⟩
  | cons i r ih =>
    obtain ⟨hr, hn⟩ := List.nodup_cons.1 hn
    obtain ⟨al, time, tile⟩ := examTile_facts s i
    obtain ⟨times, rails, keys, tiles⟩ := ih hn (s.examTile i)
    refine ⟨time.trans times, rails.trans al.rails, keys.trans al.keys, fun j hj => (tiles j (by rw [al.size]; exact hj)).trans ?_⟩
    by_cases hji : j = i
    · subst hji
      rw [if_neg hr, if_pos List.mem_cons_self, tile hj]
    · simp only [al.others j hji, List.mem_cons, hji, false_or]

theorem learnExam_facts (hrun : s.mer.running = true) (hne : s.boot.examAt ≠ some (s.multAt 16000000)) (hlen : s.tiles.length = 256) :
    s.learnExam.boot = { s.boot with examAt := some (s.multAt 16000000) } ∧ s.learnExam.rails = s.rails ∧ s.learnExam.keys = s.keys ∧
      ∀ j < 256, s.adaptive j = true ∨ s.service j = true → s.learnExam.tile j = examined (s.tile j) := by
  have eq : s.learnExam = State.each { s with boot := { s.boot with examAt := some (s.multAt 16000000) } }
      (allTiles.filter (fun i => s.adaptive i || s.service i)) State.examTile := if_neg (by simp [hrun, hne])
  obtain ⟨time, rails, keys, tiles⟩ := exams_facts (l := allTiles.filter (fun i => s.adaptive i || s.service i)) (List.nodup_range.filter _)
    { s with boot := { s.boot with examAt := some (s.multAt 16000000) } }
  rw [eq]
  refine ⟨time.boot, rails, keys, fun j hj hc => (tiles j (hlen ▸ hj)).trans (if_pos ?_)⟩
  exact List.mem_filter.2 ⟨List.mem_range.2 hj, by simpa using hc⟩

/-! ## The obligation -/

/-- What a fence leaves of a tile that it takes. -/
theorem fence_facts (hp : s.present i = true) (hi : i < s.tiles.length) (hf : (s.tile i).st ≠ .fenced) (hh : (s.tile i).st ≠ .halted)
    {c : Nat} (hc : c < 16) : let t := (s.fence i c).tile i
    t.st = .fenced ∧ t.cause.toNat = c ∧ t.fences = satInc (s.tile i).fences ∧ t.runCode = 0 ∧ t.stby = .off ∧ t.sched = [] ∧
      t.hov = none ∧ t.trialAt = s.boot.uptime + 16000000 ∧ t.events = [] ∧ t.code = (s.tile i).code ∧ t.plumbW = (s.tile i).plumbW := by
  obtain ⟨q, plan, events, tile⟩ := tile_fence hp hi hf hh c
  have fences : q.fences = (s.tile i).fences := (congrArg Tile.fences plan :)
  have sched : q.sched = [] := (congrArg Tile.sched plan :)
  have hov : q.hov = none := (congrArg Tile.hov plan :)
  have code : q.code = (s.tile i).code := (congrArg Tile.code plan :)
  have plumbW : q.plumbW = (s.tile i).plumbW := (congrArg Tile.plumbW plan :)
  dsimp only
  rw [tile]
  exact ⟨rfl, (BitVec.toNat_ofNat ..).trans (Nat.mod_eq_of_lt hc), congrArg satInc fences, rfl, rfl, sched, hov, rfl, events, code, plumbW⟩

/-- Settles O34: a fence gives up what waits at its tile and keeps its words; a tap check and its deadline speak of the tile's next enable;
and each tile that may learn has its examination once for each millisecond. -/
theorem fencingAndTaps : Obligations.FencingAndTaps := by
  rintro dt b i s u o rfl hr rfl hlen rfl
  have hi : b.toNat < (s.tick dt).tiles.length := hlen ▸ b.isLt
  have trial : ∀ a c v t0 t1, exec (.fenceTrial dt b a c v t0 t1) s = .next ((s.tick dt).fenceTrial b.toNat a c v t0 t1) :=
    fun a c v t0 t1 => (event_live _ hr : execFenceTrial dt b a c v t0 t1 s = _)
  have deadline : exec (.tapCheckDeadline dt b) s = .next ((s.tick dt).tapDeadline b.toNat) :=
    (event_live _ hr : execTapCheckDeadline dt b s = _)
  have exam : exec (.learnExam dt) s = .next (s.tick dt).learnExam := (event_live _ hr : execLearnExam dt s = _)
  refine ⟨fun v c hp hv hf hh hc => ?_, (event_live _ hr : execVoscLow dt b s = _), fun E x k f he ht h0 h1 hn hf => ?_,
    fun E x k he ht hk => deadline.trans (congrArg _ (tapDeadline_due he ht hk)),
    fun E he ht hk => deadline.trans (congrArg _ (tapDeadline_due he ht hk)),
    fun a c v t0 t1 hf h => (trial ..).trans (congrArg _ (fenceTrial_waits a c t0 t1 h v)),
    fun a c t0 t1 hf hg ht => (trial ..).trans (congrArg _ (fenceTrial_runs a c t0 t1 hf hg ht true)),
    fun a c t0 t1 hf hg ht => (trial ..).trans (congrArg _ ((fenceTrial_runs a c t0 t1 hf hg ht false).trans ?_)),
    fun cfg n hp hl hn => ?_, fun h => exam.trans (congrArg _ (learnExam_once h)), fun hrun hne => ?_⟩
  · obtain ⟨st, cause, fences, runCode, stby, sched, hov, trialAt, events, code, plumbW⟩ := fence_facts hp (hv ▸ b.isLt) hf hh hc
    have time := timed_fence hp hf hh c
    exact ⟨st, cause, fences, runCode, stby, sched, hov, trialAt, events, code, plumbW, time.mer, time.boot⟩
  · exact (event_live _ hr : execTapCheckAttempt dt b f s = _).trans (congrArg _ (tapCheck_passes he ht h0 h1 hn hf))
  · simp [tempOk]
  · exact (event_live _ hr : execMortarWordDiscard dt b cfg n s = _).trans (congrArg _ (mortarDiscard_counts hi hp hl hn cfg))
  · obtain ⟨boot, rails, keys, tiles⟩ := learnExam_facts hrun hne hlen
    refine ⟨_, exam, boot, rails, keys, fun j hj hc => ?_⟩
    rw [tiles j hj hc]
    exact ⟨rfl, rfl, rfl, by simp [examined, and_assoc]⟩

end Sys2Proof.Proofs
end

section
/-! O30: the plumbs (05 R139, R140, R143, R145, R148, R149; 01 R28). -/

namespace Sys2Proof.Proofs

open Sys2Proof.Machine Sys2Proof.Safety Sys2Proof.Laws

set_option Elab.async false

variable {s : State} {i p : Nat} {mv : Int}

/-! ## The comparator of a plumb -/

theorem blanked_eq_false {x : Plumb} {n : Nat} : x.blanked n = false ↔ x.blankTill ≤ n := by simp [Plumb.blanked]

theorem trimming_eq_false {x : Plumb} {n : Nat} : x.trimming n = false ↔ x.calTill ≤ n := by simp [Plumb.trimming]

theorem ran_iff {t : Tile} {x : Plumb} {n : Nat} : t.ran x n = true ↔ t.st ≠ .running ∨ n ≤ x.cnt ∧ t.low = false := by
  simp [Tile.ran]

/-- A tap 10 mV below the reference fires its plumb, whatever its calibration (05 R140). -/
theorem plumbFires_low (h : mv ≤ s.plumbRef i p - 10) : s.plumbFires i p mv = (true, s) := if_pos h

/-- A tile that is not steady throttles itself (01 R28). -/
theorem unshedIf_unsteady (h : s.steady i = false) (why : Nat) : s.unshedIf i why = s := if_neg (by simp [h])

/-- The entry into droop of a tile that is not steady changes its plumb alone. -/
theorem enterDroop_unsteady (h : s.steady i = false) : s.enterDroop i p = s.modPlumb i p (fun y => { y with
    st := .firing, req := BitVec.ofNat 5 (plumbStr (s.tile i).plumbW p), cnt := 0, out := true, outMt := 0
    hold := droopHold (s.tile i).droopW, decay := 2 ^ droopDecay (s.tile i).droopW
    entries := if y.masked then y.entries else satInc y.entries, tEnt := true, cEnt := true }) := by
  have unshed : ∀ f, (s.modPlumb i p f).unshedIf i 0 = s.modPlumb i p f := fun f =>
    unshedIf_unsteady (s := s.modPlumb i p f) h 0
  unfold State.enterDroop
  simp only [unshed, ite_self, h, Bool.false_eq_true, if_false]

section

variable {x : Plumb} (hx : (s.tile i).plumbs.getD p {} = x) (hh : s.heard i = true)

include hx hh

/-- What a tap far below its reference makes of a plumb that may fire. -/
theorem plumbFire_enters (he : plumbEn (s.tile i).plumbW p = true) (ho : x.out = false) (hb : x.blankTill ≤ s.boot.uptime)
    (hc : x.calTill ≤ s.boot.uptime) (hm : mv ≤ s.plumbRef i p - 10) : s.plumbFire i p mv = s.enterDroop i p := by
  unfold State.plumbFire
  dsimp only
  rw [hx, if_neg (by simp [hh, he, ho, blanked_eq_false.2 hb, trimming_eq_false.2 hc]), plumbFires_low hm]
  rfl

theorem plumbRelease_releases (ho : x.out = true) (hb : x.blankTill ≤ s.boot.uptime)
    (hm : s.plumbRef i p + (plumbHystMv (s.tile i).plumbW p : Int) < mv) : s.plumbRelease i p mv = s.modPlumb i p Plumb.release := by
  unfold State.plumbRelease
  dsimp only
  rw [hx, if_neg (by simp [hh, ho, blanked_eq_false.2 hb, hm])]

/-- A droop of 1 ms is held against the rail's readback (05 R148). -/
theorem droopExam_due (ho : x.out = true) (ht : 16000000 ≤ x.outMt) : s.droopExam i p =
    if s.railNear (s.railOf i) 20 then
      (s.modTile i (fun t => t.setPlumbW (setFld t.plumbW (16 * p + 6) 1 0) (s.steady i) s.boot.uptime)).tapFault i p
    else ((s.modPlumb i p (fun y => { y with outMt := 0 })).modRail (s.railOf i) (fun r => { r with
      cSag := satInc r.cSag })).raise 0x304 (s.railOf i) 0 := by
  unfold State.droopExam
  dsimp only
  rw [hx, if_neg (by simp [hh, ho, ht])]
  rfl

end

/-- A step down is taken in state `g` once `n` periods of the tile have run. -/
theorem modPlumb_fall (s : State) (i p : Nat) (g : PlumbSt) (n : Plumb → Nat) :
    s.modPlumb i p (fun y => if y.st = g && (s.tile i).ran y (n y) then y.fall else y) = s.modPlumb i p (fun y =>
      if y.st = g ∧ ((s.tile i).st ≠ .running ∨ n y ≤ y.cnt ∧ (s.tile i).low = false) then y.fall else y) :=
  congrArg (s.modPlumb i p) (funext fun y => if_congr (by rw [Bool.and_eq_true, ran_iff, decide_eq_true_eq]) rfl rfl)

/-! ## A trim (05 R149) -/

theorem plumbCal_trims (hh : s.heard i = true) (hk : s.trimOk i p = true) (hc : ∀ y ∈ (s.tile i).plumbs, y.calTill ≤ s.boot.uptime) :
    s.plumbCal i p true = (s.modTile i (fun t => { t with plCals := satInc t.plCals, trimWait := false })).modPlumb i p (fun y =>
      { y.release with calAt := s.boot.uptime, calTemp := (s.tile i).temp, calTill := s.boot.uptime + 64000 }) := by
  have none : (s.tile i).plumbs.any (fun y => y.trimming s.boot.uptime) = false :=
    List.any_eq_false.2 (fun y hy => by simp [trimming_eq_false.2 (hc y hy)])
  exact if_neg (by simp [hh, hk, none])

/-- Settles O30: a plumb that may fire enters droop, each step down waits for its periods, and an examination and a trim that are due act
by what the rail and the plumbs show. -/
theorem plumbEvents : Obligations.PlumbEvents := by
  rintro dt i p mv s u x rfl hr rfl
  refine ⟨fun hh hs he ho hb hc hm => ?_, fun hh ho hb hm => ?_, ?_, ?_, fun hh ho ht hn => ?_, fun hh ho ht hn => ?_,
    fun hh hk hc => ?_⟩
  · exact (event_live _ hr : execPlumbFire dt i p mv s = _).trans
      (congrArg _ ((plumbFire_enters rfl hh he ho hb hc hm).trans (enterDroop_unsteady hs)))
  · exact (event_live _ hr : execPlumbRelease dt i p mv s = _).trans (congrArg _ (plumbRelease_releases rfl hh ho hb hm))
  · exact (event_live _ hr : execPlumbHoldEnd dt i p s = _).trans (congrArg _ (modPlumb_fall _ _ _ .holding Plumb.hold))
  · exact (event_live _ hr : execPlumbDecayStep dt i p s = _).trans (congrArg _ (modPlumb_fall _ _ _ .decaying Plumb.decay))
  · exact (event_live _ hr : execPlumbDroopExam dt i p s = _).trans
      (congrArg _ ((droopExam_due rfl hh ho ht).trans (if_neg (by simp [hn]))))
  · exact (event_live _ hr : execPlumbDroopExam dt i p s = _).trans (congrArg _ ((droopExam_due rfl hh ho ht).trans (if_pos hn)))
  · exact (event_live _ hr : execPlumbCalibration dt i p true s = _).trans (congrArg _ (plumbCal_trims hh hk hc))

end Sys2Proof.Proofs
end

section
/-! O31: the thermal sensors and the emergency throttle input (05 R150 to R154; 02 R65). -/

namespace Sys2Proof.Proofs

open Sys2Proof.Machine Sys2Proof.Safety Sys2Proof.Laws

set_option Elab.async false

variable {s t : State} {i j : Nat} {r : TempReading} {rs : List TempReading}

/-! ## What the sample of a tile rests on -/

theorem present_congr (ties : t.ties = s.ties) : t.present j = s.present j := by
  rw [State.present, State.present, State.clsOf, State.clsOf, ties]

/-- A tile is heard by its tie-offs, the power of its domain and its state. -/
theorem heard_congr (ties : t.ties = s.ties) (doms : t.doms = s.doms) (st : (t.tile j).st = (s.tile j).st) : t.heard j = s.heard j := by
  unfold State.heard State.domOn State.domOf Tile.fenced
  rw [present_congr ties, ties, doms, st]

theorem readingOf_congr (h : restOf (t.tile j) = restOf (s.tile j)) : t.readingOf rs j = s.readingOf rs j := by
  have h0 : (t.tile j).t0 = (s.tile j).t0 := (congrArg Tile.t0 h :)
  have h1 : (t.tile j).t1 = (s.tile j).t1 := (congrArg Tile.t1 h :)
  rw [State.readingOf, State.readingOf, h0, h1]

/-- A reading is of the tile that it is taken for. -/
theorem readingOf_tile (s : State) (rs : List TempReading) (hi : i < 256) : (s.readingOf rs i).tile.toNat = i := by
  unfold State.readingOf
  cases h : rs.find? (fun r => r.tile.toNat == i) with
  | none => exact (BitVec.toNat_ofNat ..).trans (Nat.mod_eq_of_lt hi)
  | some r => simpa using List.find?_some h

/-! ## The sample of one tile (05 R150 to R152) -/

/-- Both sensors of a tile have read. -/
def sensed (s : State) (r : TempReading) : State :=
  (s.senseOne r.tile.toNat 0 (temp12 r.s0)).senseOne r.tile.toNat 1 (temp12 r.s1)

/-- The samples in a row at which the two sensors of a tile have been more than 15 °C apart, this one included. -/
def apartRun (t : Tile) : Nat := if !t.failS0 && !t.failS1 && decide ((t.t0 - t.t1).natAbs > 60) then t.disagree + 1 else 0

/-- A tile whose sensors have read, once the sample is judged; `n` throttles of it have gone unshed. -/
def judged (n : Cnt) (t : Tile) : Tile :=
  { t with
    disagree := apartRun t, senFaults := if apartRun t = 3 then satInc t.senFaults else t.senFaults
    qth := BitVec.ofNat 9 (qthNext t.qth.toNat t.temp (droopThermSet t.droopW))
    temps := (t.temp :: t.temps).take 11, peak := max t.peak t.temp, unshed := n }

theorem Logged.modTile (h : Logged s t) (i : Nat) (f : Tile → Tile) : Logged (s.modTile i f) (t.modTile i f) := by
  rw [h.eq]
  exact ⟨rfl⟩

/-- A tile of which `n` throttles have gone unshed. -/
def withUnshed (n : Cnt) (t : Tile) : Tile := { t with unshed := n }

theorem withUnshed_self (t : Tile) : withUnshed t.unshed t = t := rfl

/-- A change that leaves the tile as it stands. -/
theorem modTile_self {f : Tile → Tile} (h : f (s.tile i) = s.tile i) : s.modTile i f = s := by
  rw [modTile_congr (g := id) h, State.modTile, List.modify_id]

theorem logged_unshed_self (s : State) (i : Nat) : ∃ n, Logged (s.modTile i (withUnshed n)) s := by
  refine ⟨(s.tile i).unshed, ?_⟩
  rw [modTile_self (withUnshed_self _)]
  exact .refl s

/-- A throttle that finds no target is counted at its tile, and reported. -/
theorem logged_unshedIf (s : State) (i why : Nat) : ∃ n, Logged (s.modTile i (withUnshed n)) (s.unshedIf i why) := by
  unfold State.unshedIf
  split
  · refine ⟨satInc (s.tile i).unshed, ?_⟩
    rw [modTile_congr (g := fun t => { t with unshed := satInc t.unshed }) rfl]
    exact logged_raise ..
  · exact logged_unshed_self s i

theorem sampleTile_unheard (h : s.heard r.tile.toNat = false) : s.sampleTile r = s := if_pos (by simp [h])

section

variable (hh : s.heard r.tile.toNat = true)

include hh

theorem sampleTile_deaf (hf : (((sensed s r).tile r.tile.toNat).failS0 && ((sensed s r).tile r.tile.toNat).failS1) = true) :
    s.sampleTile r = (sensed s r).fence r.tile.toNat 5 :=
  (if_neg (by simp [hh])).trans (if_pos hf)

theorem sampleTile_judged (hf : (((sensed s r).tile r.tile.toNat).failS0 && ((sensed s r).tile r.tile.toNat).failS1) = false) :
    ∃ n, Logged ((sensed s r).modTile r.tile.toNat (judged n)) (s.sampleTile r) := by
  unfold State.sampleTile
  extract_lets i v t apart n q w x
  have senses : (t.failS0 && t.failS1) = false := hf
  rw [if_neg (by simp [i, hh]), if_neg (by simp [senses])]
  have hx : Logged w x := by
    unfold x
    split
    · exact logged_raise ..
    · exact .refl w
  clear_value x
  have last : ∃ m, Logged (x.modTile i (withUnshed m)) (if t.qth = 256 && q < 256 then x.unshedIf i 1 else x) := by
    split
    · exact logged_unshedIf x i 1
    · exact logged_unshed_self x i
  obtain ⟨m, hm⟩ := last
  refine ⟨m, .trans ?_ ((hx.modTile ..).trans hm)⟩
  have made : w.modTile i (withUnshed m) = v.modTile i (judged m) := (modTile_modTile ..).trans (modTile_congr rfl)
  rw [made]
  exact .refl _

end

/-- Readings that both sensors of a tile take: none has failed, and each lies within −40 °C to 150 °C. -/
structure Valid (t : Tile) (r : TempReading) : Prop where
  ok0 : t.failS0 = false
  ok1 : t.failS1 = false
  in0 : -160 ≤ r.s0 ∧ r.s0 ≤ 600
  in1 : -160 ≤ r.s1 ∧ r.s1 ≤ 600

theorem temp12_small {v : Int} (h : -160 ≤ v ∧ v ≤ 600) : temp12 v = v := by
  unfold temp12
  omega

theorem tempOk_iff {v : Int} : tempOk v = true ↔ -160 ≤ v ∧ v ≤ 600 := by simp [tempOk]

/-- A tile whose sensors have read `r`. -/
def withReadings (r : TempReading) (t : Tile) : Tile := { t with t0 := r.s0, t1 := r.s1 }

/-- What a sample with valid readings makes of a tile. -/
def sampled (r : TempReading) (n : Cnt) (t : Tile) : Tile := judged n (withReadings r t)

theorem sensed_valid (h : Valid (s.tile r.tile.toNat) r) : sensed s r = s.modTile r.tile.toNat (withReadings r) := by
  have first : s.senseOne r.tile.toNat 0 (temp12 r.s0) = s.modTile r.tile.toNat (fun t => { t with t0 := r.s0 }) := by
    unfold State.senseOne
    simp [temp12_small h.in0, tempOk_iff.2 h.in0, h.ok0]
  have second : ∀ v : State, (v.tile r.tile.toNat).failS1 = false →
      v.senseOne r.tile.toNat 1 (temp12 r.s1) = v.modTile r.tile.toNat (fun t => { t with t1 := r.s1 }) := by
    intro v hv
    unfold State.senseOne
    simp [temp12_small h.in1, tempOk_iff.2 h.in1, hv]
  rw [sensed, first]
  exact (second _ ((tile_modTile_proj Tile.failS1 (by exact fun _ => rfl) ..).trans h.ok1)).trans (modTile_modTile ..)

/-- Valid readings change their tile, and what is reported, alone. -/
theorem sampleTile_valid (hh : s.heard r.tile.toNat = true) (h : Valid (s.tile r.tile.toNat) r) :
    ∃ n, Logged (s.modTile r.tile.toNat (sampled r n)) (s.sampleTile r) := by
  have eq := sensed_valid h
  have ok : ((sensed s r).tile r.tile.toNat).failS0 = false := by
    rw [eq]
    exact (tile_modTile_proj Tile.failS0 (f := withReadings r) (fun _ => rfl) ..).trans h.ok0
  obtain ⟨n, log⟩ := sampleTile_judged hh (by rw [ok, Bool.false_and])
  rw [eq, modTile_modTile] at log
  exact ⟨n, log⟩

/-! ## Samples at which every tile takes its readings -/

/-- The sample of tile `i` among the readings `rs`. -/
def sampleAt (rs : List TempReading) (s : State) (i : Nat) : State := s.sampleTile (s.readingOf rs i)

/-- Each tile of `l` has had its sample, and nothing else has changed but what is reported. -/
structure Sampled (rs : List TempReading) (l : List Nat) (s t : State) : Prop where
  eq : t = { s with tiles := t.tiles, faults := t.faults, log := t.log }
  size : t.tiles.length = s.tiles.length
  others : ∀ j, j ∉ l → t.tile j = s.tile j
  own : ∀ j ∈ l, j < s.tiles.length → ∃ n, t.tile j = sampled (s.readingOf rs j) n (s.tile j)

theorem Sampled.heard {l : List Nat} (h : Sampled rs l s t) (hj : j < s.tiles.length ∨ j ∉ l) :
    (t.tile j).st = (s.tile j).st ∧ t.heard j = s.heard j := by
  have st : (t.tile j).st = (s.tile j).st := by
    by_cases hl : j ∈ l
    · obtain ⟨n, own⟩ := h.own j hl (hj.resolve_right (not_not_intro hl))
      rw [own]
      rfl
    · rw [h.others j hl]
  exact ⟨st, heard_congr (by rw [h.eq]) (by rw [h.eq]) st⟩

theorem Sampled.cons {u : State} {l : List Nat} (a : Sampled rs [i] s t) (b : Sampled rs l t u) (hi : i ∉ l) :
    Sampled rs (i :: l) s u where
  eq := b.eq.trans (by rw [a.eq])
  size := b.size.trans a.size
  others := fun j hj => by
    obtain ⟨hji, hjl⟩ := not_or.1 (fun h => hj (List.mem_cons.2 h))
    exact (b.others j hjl).trans (a.others j (by simpa using hji))
  own := fun j hj hlen => by
    rcases List.mem_cons.1 hj with rfl | hjl
    · rw [b.others j hi]
      exact a.own j List.mem_cons_self hlen
    · have same : t.tile j = s.tile j := a.others j (by simp only [List.mem_singleton]; exact fun e => hi (e ▸ hjl))
      obtain ⟨n, own⟩ := b.own j hjl (by rw [a.size]; exact hlen)
      exact ⟨n, by rw [own, same, readingOf_congr (congrArg restOf same)]⟩

theorem sampled_sampleAt (hi : i < 256) (hh : s.heard i = true) (h : Valid (s.tile i) (s.readingOf rs i)) :
    Sampled rs [i] s (sampleAt rs s i) := by
  have at_ := readingOf_tile s rs hi
  obtain ⟨n, log⟩ := sampleTile_valid (s := s) (r := s.readingOf rs i) (by rw [at_]; exact hh) (by rw [at_]; exact h)
  rw [at_] at log
  have tile : ∀ j, (sampleAt rs s i).tile j = (s.modTile i (sampled (s.readingOf rs i) n)).tile j := fun j => by
    simp only [State.tile, sampleAt, log.tiles]
  refine ⟨?_, ?_, fun j hj => ?_, fun j hj hlen => ?_⟩
  · rw [show (sampleAt rs s i).tiles = _ from log.tiles]
    exact log.eq
  · exact (congrArg List.length log.tiles).trans (List.length_modify ..)
  · exact (tile j).trans (tile_modTile_ne s _ (by simpa using hj))
  · obtain rfl := List.mem_singleton.1 hj
    exact ⟨n, (tile j).trans (tile_modTile_same _ hlen)⟩

theorem sampled_each {l : List Nat} (hn : l.Nodup) (h : ∀ i ∈ l, i < 256 ∧ s.heard i = true ∧ Valid (s.tile i) (s.readingOf rs i)) :
    Sampled rs l s (s.each l (sampleAt rs)) := by
  induction l generalizing s with
  | nil => exact ⟨rfl, rfl, fun _ _ => rfl, fun _ hj => absurd hj List.not_mem_nil⟩
  | cons i l ih =>
    obtain ⟨hi, hn⟩ := List.nodup_cons.1 hn
    obtain ⟨hlt, hh, hv⟩ := h i List.mem_cons_self
    have first := sampled_sampleAt hlt hh hv
    refine first.cons (ih hn (fun j hj => ?_)) hi
    have hji : j ∉ [i] := by
      simp only [List.mem_singleton]
      exact fun e => hi (e ▸ hj)
    obtain ⟨hlt, hh, hv⟩ := h j (List.mem_cons_of_mem _ hj)
    have same := first.others j hji
    exact ⟨hlt, (first.heard (.inr hji)).2.trans hh, by rw [readingOf_congr (congrArg restOf same), same]; exact hv⟩

/-! ## Samples at which some tile may be fenced (05 R151, R153) -/

theorem within_senseOne (s : State) (i k : Nat) (v : Int) : Within [i] s (s.senseOne i k v) :=
  .ite (fun _ => .refl s) (fun _ => .ite (fun _ => .modTile ..) (fun _ => .after (.logged (logged_raise ..)) (.modTile ..)))

theorem timed_senseOne (s : State) (i k : Nat) (v : Int) : Timed s (s.senseOne i k v) :=
  .ite (fun _ => .refl s) (fun _ => .ite (fun _ => timed_modTile ..) (fun _ => .after (timed_raise ..) (timed_modTile ..)))

/-- A fence leaves meridian time and the boot domain, whether or not it takes the tile. -/
theorem timed_fence_any (s : State) (i c : Nat) : Timed s (s.fence i c) := by
  unfold State.fence
  dsimp only
  refine .ite (fun _ => .refl s) (fun _ => .ite (fun _ => timed_modTile ..) (fun _ => ?_))
  exact .after (timed_abortNaming ..) <| .after (timed_raise ..) <| .after (timed_modTile ..) <|
    .after (timed_dropCheck ..) <| .after (timed_dropSched ..) (timed_abandon ..)

theorem sampleTile_keeps (s : State) (r : TempReading) : Within [r.tile.toNat] s (s.sampleTile r) ∧ Timed s (s.sampleTile r) := by
  have within : Within [r.tile.toNat] s (sensed s r) := .after (within_senseOne ..) (within_senseOne ..)
  have timed : Timed s (sensed s r) := .after (timed_senseOne ..) (timed_senseOne ..)
  cases hh : s.heard r.tile.toNat with
  | false =>
    rw [sampleTile_unheard hh]
    exact ⟨.refl s, .refl s⟩
  | true =>
    cases hf : ((sensed s r).tile r.tile.toNat).failS0 && ((sensed s r).tile r.tile.toNat).failS1 with
    | true =>
      rw [sampleTile_deaf hh hf]
      exact ⟨within.trans (within_fence ..), timed.trans (timed_fence_any ..)⟩
    | false =>
      obtain ⟨n, log⟩ := sampleTile_judged hh hf
      exact ⟨(within.trans (.modTile ..)).trans (.logged log), (timed.trans (timed_modTile ..)).trans (.logged log)⟩

theorem within_samples {l : List Nat} (hl : ∀ i ∈ l, i < 256) (s : State) : Within l s (s.each l (sampleAt rs)) :=
  List.foldlRecOn (motive := Within l s) l _ (.refl s) (fun v hv i hi => hv.trans (by
    have one := (sampleTile_keeps v (v.readingOf rs i)).1
    rw [readingOf_tile v rs (hl i hi)] at one
    exact one.mono (fun j hj => List.mem_singleton.1 hj ▸ hi)))

theorem timed_samples (s : State) (l : List Nat) : Timed s (s.each l (sampleAt rs)) := .each (fun _ _ => (sampleTile_keeps ..).2) s l

theorem Within.heard {l : List Nat} (h : Within l s t) (hj : j ∉ l) : t.heard j = s.heard j :=
  heard_congr h.ties h.doms (congrArg Tile.st (h.rest j hj) :)

/-- Both sensors of a tile in good order read the trip level of 115 °C. -/
structure Hot (t : Tile) (r : TempReading) : Prop extends Valid t r where
  hot0 : 460 ≤ r.s0
  hot1 : 460 ≤ r.s1

theorem trips_sampled {t : Tile} (h : Hot t r) (n : Cnt) : (sampled r n t).trips = true := by
  simp [Tile.trips, sampled, judged, withReadings, h.ok0, h.ok1, h.hot0, h.hot1]

theorem trips_sampled_cool {t : Tile} (h0 : r.s0 < 460) (h1 : r.s1 < 460) (n : Cnt) : (sampled r n t).trips = false := by
  simp [Tile.trips, sampled, judged, withReadings, h0, h1]

theorem Hot.of_rest (rest : restOf (t.tile i) = restOf (s.tile i)) (h : Hot (s.tile i) (s.readingOf rs i)) :
    Hot (t.tile i) (t.readingOf rs i) := by
  rw [readingOf_congr rest]
  exact { h with
    ok0 := (congrArg Tile.failS0 rest :).trans h.ok0
    ok1 := (congrArg Tile.failS1 rest :).trans h.ok1 }

/-- A hot tile trips on its sample, whatever the sample finds elsewhere. -/
theorem trips_samples {l : List Nat} (hl : ∀ i ∈ l, i < 256) (hn : l.Nodup) (hi : i ∈ l) (hlen : i < s.tiles.length)
    (hh : s.heard i = true) (h : Hot (s.tile i) (s.readingOf rs i)) :
    (s.each l (sampleAt rs)).heard i = true ∧ ((s.each l (sampleAt rs)).tile i).trips = true := by
  obtain ⟨a, b, rfl⟩ := List.append_of_mem hi
  obtain ⟨hib, -⟩ := List.nodup_cons.1 (List.nodup_append.1 hn).2.1
  have hia : i ∉ a := fun ha => (List.nodup_append.1 hn).2.2 i ha i List.mem_cons_self rfl
  have before : Within a s (s.each a (sampleAt rs)) := within_samples (fun j hj => hl j (List.mem_append_left _ hj)) s
  have parts : s.each (a ++ i :: b) (sampleAt rs) = (sampleAt rs (s.each a (sampleAt rs)) i).each b (sampleAt rs) := by
    simp only [State.each, List.foldl_append, List.foldl_cons]
  rw [parts]
  generalize s.each a (sampleAt rs) = v at before ⊢
  rw [← before.size] at hlen
  have hot := h.of_rest (before.rest i hia)
  have turn := sampled_sampleAt (hl i hi) ((before.heard hia).trans hh) hot.toValid
  obtain ⟨n, own⟩ := turn.own i List.mem_cons_self hlen
  have later : ∀ j ∈ b, j < 256 := fun j hj => hl j (List.mem_append_right _ (List.mem_cons_of_mem _ hj))
  have after := within_samples (rs := rs) later (sampleAt rs v i)
  refine ⟨?_, (congrArg Tile.trips (after.rest i hib) :).trans (own ▸ trips_sampled hot n)⟩
  rw [after.heard hib, (turn.heard (.inl hlen)).2, before.heard hia, hh]

/-! ## The end of a sample (05 R150, R153) -/

/-- The sample that is due has been taken. -/
def dated (s : State) : State := { s with boot := { s.boot with thermAt := some s.sampleAt } }

/-- Every tile heard has read. -/
def readAll (s : State) (rs : List TempReading) : State := (dated s).each (allTiles.filter s.heard) (sampleAt rs)

/-- Each tile notes what the next trip check needs of this sample. -/
def noted (s : State) : State := s.mapTiles (fun i t => if s.heard i then t.keepHot else t.missSample)

theorem tile_noted (hj : j < s.tiles.length) : (noted s).tile j = if s.heard j then (s.tile j).keepHot else (s.tile j).missSample :=
  (tile_mapIdx ..).trans (if_pos hj)

/-- The tiles that trip. -/
def tripping (s : State) : List Nat := (allTiles.filter s.heard).filter (fun i => (s.tile i).trips)

theorem mem_tripping : i ∈ tripping s ↔ i < 256 ∧ s.heard i = true ∧ (s.tile i).trips = true := by
  simp only [tripping, allTiles, List.mem_filter, List.mem_range, and_assoc]

section

variable (hrun : s.mer.running = true) (hne : s.boot.thermAt ≠ some s.sampleAt)

include hrun hne

theorem thermalSample_eq : s.thermalSample rs =
    ((tripping (readAll s rs)).head?.elim (noted (readAll s rs)) (noted (readAll s rs)).tripAt).followCheck := by
  unfold State.thermalSample
  rw [if_neg (by simp [hrun, hne])]
  extract_lets b u v mine hot w x
  refine congrArg State.followCheck ?_
  change x = hot.head?.elim w w.tripAt
  unfold x
  cases hot with
  | nil => rfl
  | cons => rfl

/-- A sample at which no tile heard trips. -/
theorem thermalSample_quiet (h : ∀ i < 256, (readAll s rs).heard i = true → ((readAll s rs).tile i).trips = false) :
    s.thermalSample rs = (noted (readAll s rs)).followCheck := by
  have none : tripping (readAll s rs) = [] := by
    refine List.eq_nil_iff_forall_not_mem.2 (fun i hi => ?_)
    obtain ⟨hlt, hh, ht⟩ := mem_tripping.1 hi
    exact Bool.false_ne_true ((h i hlt hh).symm.trans ht)
  rw [thermalSample_eq hrun hne, none]
  rfl

/-- A sample at which a tile heard trips: the trip names one such tile. -/
theorem thermalSample_trips (hi : i < 256) (hh : (readAll s rs).heard i = true) (ht : ((readAll s rs).tile i).trips = true) :
    ∃ k, s.thermalSample rs = ((noted (readAll s rs)).tripAt k).followCheck := by
  obtain ⟨k, l, hl⟩ := List.exists_cons_of_ne_nil (List.ne_nil_of_mem (mem_tripping.2 ⟨hi, hh, ht⟩))
  exact ⟨k, by rw [thermalSample_eq hrun hne, hl]; rfl⟩

end

/-- A trip stops the chip and every present tile (05 R153). -/
theorem tripAt_stops (h : s.boot.trip = false) (k : Nat) : (s.tripAt k).boot.trip = true ∧ (s.tripAt k).boot.chipStop = true ∧
    ∀ j < s.tiles.length, s.present j = true → ((s.tripAt k).tile j).st = .halted := by
  have calm := calm_raise ({ s with boot := { s.boot with trip := true } } : State) 0x308 k 0
  rw [State.tripAt, if_neg (by simp [h])]
  generalize State.raise { s with boot := { s.boot with trip := true } } 0x308 k 0 = v at calm ⊢
  have trip : v.boot.trip = true := calm.trip rfl
  obtain ⟨stop, halted⟩ := halt_halts v 4
  obtain ⟨len, ties, -⟩ := halt_leaves v 4
  refine ⟨(kept_halt v 4 (by simp [State.haltedB, trip])).trip trip, stop, fun j hj hp => halted j ?_ ?_⟩
  · rw [len, calm.len]
    exact hj
  · exact (present_congr (ties.trans calm.ties)).trans hp

/-! ## The emergency throttle input (02 R65; 05 R154) -/

theorem thrFall_glitch {ns : Nat} (h : ns < 10) :
    s.thrFall ns = { s with boot := { s.boot with thrGlitch := satInc s.boot.thrGlitch } } := if_pos h

theorem thrFall_confirmed {ns : Nat} (h : 10 ≤ ns) (hl : s.boot.thrLow = false) : s.thrFall ns = { s with
    power := { s.power with hostQNow := if s.boot.thrHold then s.power.hostQNow else s.power.hostQ }
    boot := { s.boot with thrPin := true, thrLow := true, thrHold := false, thrCnt := satInc s.boot.thrCnt } } := by
  have on : s.thrOn = s.boot.thrHold := by simp [State.thrOn, hl]
  rw [State.thrFall, if_neg (Nat.not_lt.2 h), if_neg (by simp [hl]), State.thrConfirm, on]

theorem thrRise_low (h : s.boot.thrLow = true) : s.thrRise = { s with boot := { s.boot with
    thrPin := false, thrLow := false, thrHold := true, thrRiseAt := s.boot.uptime } } := if_pos h

theorem thrEnd_due (h : s.boot.thrHold = true) (ht : s.boot.thrRiseAt + 160000 ≤ s.boot.uptime) :
    s.thrEnd = { s with boot := { s.boot with thrHold := false }, power := { s.power with hostQNow := s.power.hostQ } } :=
  if_pos (by simp [h, ht])

/-! ## The obligation -/

section

variable (hrun : s.mer.running = true) (hne : s.boot.thermAt ≠ some s.sampleAt) (hlen : s.tiles.length = 256)

include hrun hne hlen

/-- A sample below the trip level, at which the sensors of each tile agree. -/
theorem thermalSample_cool (hc : s.cvy.st = .none) (h : ∀ i < 256, s.heard i = true → Valid (s.tile i) (s.readingOf rs i) ∧
      (s.readingOf rs i).s0 < 460 ∧ (s.readingOf rs i).s1 < 460 ∧ ((s.readingOf rs i).s0 - (s.readingOf rs i).s1).natAbs ≤ 60) :
    ∃ v, s.thermalSample rs = noted v ∧ Sampled rs (allTiles.filter s.heard) (dated s) v := by
  have all : Sampled rs (allTiles.filter s.heard) (dated s) (readAll s rs) :=
    sampled_each (List.nodup_range.filter _) (fun i hi => by
      obtain ⟨hi, hh⟩ := List.mem_filter.1 hi
      exact ⟨List.mem_range.1 hi, hh, (h i (List.mem_range.1 hi) hh).1⟩)
  refine ⟨_, (thermalSample_quiet hrun hne (fun i hi hv => ?_)).trans (followCheck_single ?_), all⟩
  · have hh : s.heard i = true := (all.heard (.inl (hlen ▸ hi))).2.symm.trans hv
    obtain ⟨n, own⟩ := all.own i (List.mem_filter.2 ⟨List.mem_range.2 hi, hh⟩) (hlen ▸ hi)
    obtain ⟨-, h0, h1, -⟩ := h i hi hh
    rw [own]
    exact trips_sampled_cool h0 h1 n
  · change (readAll s rs).cvy.st = .none
    rw [all.eq]
    exact hc

/-- A sample at which both sensors of a tile read the trip level, whatever the others read. -/
theorem thermalSample_hot (hi : i < 256) (hb : s.boot.trip = false) (hh : s.heard i = true) (h : Hot (s.tile i) (s.readingOf rs i)) :
    (s.thermalSample rs).boot.trip = true ∧ (s.thermalSample rs).boot.chipStop = true ∧
      ∀ j < 256, s.present j = true → ((s.thermalSample rs).tile j).st = .halted := by
  have below : ∀ j ∈ allTiles.filter s.heard, j < 256 := fun j hj => List.mem_range.1 (List.mem_filter.1 hj).1
  have mem : i ∈ allTiles.filter s.heard := List.mem_filter.2 ⟨List.mem_range.2 hi, hh⟩
  have trip : (readAll s rs).heard i = true ∧ ((readAll s rs).tile i).trips = true :=
    trips_samples below (List.nodup_range.filter _) mem (hlen ▸ hi) hh h
  have within : Within (allTiles.filter s.heard) (dated s) (readAll s rs) :=
    within_samples below _
  have timed : Timed (dated s) (readAll s rs) := timed_samples ..
  obtain ⟨k, eq⟩ := thermalSample_trips hrun hne hi trip.1 trip.2
  rw [eq]
  generalize readAll s rs = v at within timed ⊢
  obtain ⟨hv, stop, halted⟩ := tripAt_stops (s := noted v) ((congrArg Boot.trip timed.boot :).trans hb) k
  obtain ⟨c, hc⟩ := followCheck_eq ((noted v).tripAt k)
  rw [hc]
  refine ⟨hv, stop, fun j hj hp => halted j ?_ ?_⟩
  · exact lt_of_lt_of_eq (hlen ▸ hj) (within.size.symm.trans (List.length_mapIdx ..).symm)
  · exact (present_congr (s := s) (t := noted v) within.ties).trans hp

end

/-- What the sample leaves at a tile that it has heard. -/
theorem keepHot_sampled {t : Tile} (h : Valid t r) (hd : (r.s0 - r.s1).natAbs ≤ 60) (n : Cnt) :
    let x := (sampled r n t).keepHot
    x.st = t.st ∧ x.disagree = 0 ∧ x.t0 = r.s0 ∧ x.t1 = r.s1 ∧ x.peak = max t.peak (max r.s0 r.s1) ∧
      x.qth = BitVec.ofNat 9 (qthNext t.qth.toNat (max r.s0 r.s1) (droopThermSet t.droopW)) := by
  have temp : (withReadings r t).temp = max r.s0 r.s1 := by simp [Tile.temp, withReadings, h.ok0, h.ok1]
  have apart : apartRun (withReadings r t) = 0 := if_neg (by simp [withReadings, hd])
  refine ⟨rfl, apart, rfl, rfl, ?_, ?_⟩
  · exact congrArg (max t.peak) temp
  · exact congrArg (fun v => BitVec.ofNat 9 (qthNext t.qth.toNat v (droopThermSet t.droopW))) temp

/-- Settles O31: a cool sample is each tile's own, a hot tile trips whatever the others read, and the throttle input moves the host's rate
by its pin and its hold. -/
theorem thermalAndThrottle : Obligations.ThermalAndThrottle := by
  rintro dt s u rfl hr
  have sample : ∀ rs, exec (.thermalSample dt rs) s = .next ((s.tick dt).thermalSample rs) :=
    fun rs => (event_live _ hr : execThermalSample dt rs s = _)
  have fall : ∀ ns, exec (.thrReqFall dt ns) s = .next ((s.tick dt).thrFall ns) :=
    fun ns => congrArg _ (if_neg (by simp [hr]))
  have rise : exec (.thrReqRise dt) s = .next (s.tick dt).thrRise := congrArg _ (if_neg (by simp [hr]))
  have hold : exec (.thrReqHoldEnd dt) s = .next (s.tick dt).thrEnd := (event_live _ hr : execThrReqHoldEnd dt s = _)
  generalize s.tick dt = u at *
  refine ⟨fun hrun hne hlen rs => ⟨fun hc h => ?_, fun i hi hb hh ok0 ok1 lo0 hi0 lo1 hi1 => ?_⟩, ?_, ?_, ?_, ?_⟩
  · have fits : ∀ i < 256, u.heard i = true → Valid (u.tile i) (u.readingOf rs i) ∧ (u.readingOf rs i).s0 < 460 ∧
        (u.readingOf rs i).s1 < 460 ∧ ((u.readingOf rs i).s0 - (u.readingOf rs i).s1).natAbs ≤ 60 := fun i hi hh => by
      obtain ⟨ok0, ok1, lo0, hi0, lo1, hi1, near⟩ := h i hi hh _ rfl
      exact ⟨⟨ok0, ok1, by omega, by omega⟩, hi0, hi1, near⟩
    obtain ⟨v, eq, all⟩ := thermalSample_cool hrun hne hlen hc fits
    have tile : ∀ i < 256, (noted v).tile i = if u.heard i then (v.tile i).keepHot else (v.tile i).missSample := fun i hi => by
      rw [tile_noted (all.size.trans hlen ▸ hi), (all.heard (.inl (hlen ▸ hi))).2]
      rfl
    have rest : (noted v).boot = (dated u).boot ∧ (noted v).rails = u.rails ∧ (noted v).keys = u.keys := by
      rw [noted, all.eq]
      exact ⟨rfl, rfl, rfl⟩
    obtain ⟨boot, rails, keys⟩ := rest
    refine ⟨noted v, (sample rs).trans (congrArg _ eq), boot, rails, keys, fun i hi => ?_⟩
    rw [tile i hi]
    cases hh : u.heard i with
    | false => exact ⟨(all.heard (.inl (hlen ▸ hi))).1, rfl, fun h => absurd h Bool.false_ne_true⟩
    | true =>
      obtain ⟨valid, -, -, near⟩ := fits i hi hh
      obtain ⟨n, own⟩ := all.own i (List.mem_filter.2 ⟨List.mem_range.2 hi, hh⟩) (hlen ▸ hi)
      obtain ⟨st, dis, t0, t1, peak, qth⟩ := keepHot_sampled valid near n
      rw [own]
      exact ⟨st, dis, fun _ r t hr ht => by rw [hr, ht]; exact ⟨t0, t1, peak, qth⟩⟩
  · obtain ⟨trip, stop, halted⟩ := thermalSample_hot hrun hne hlen hi hb hh
      { ok0 := ok0, ok1 := ok1, in0 := by omega, in1 := by omega, hot0 := lo0, hot1 := lo1 }
    exact ⟨_, sample rs, trip, stop, halted⟩
  · exact fun ns h => (fall ns).trans (congrArg _ (thrFall_glitch h))
  · exact fun ns h hl => (fall ns).trans (congrArg _ (thrFall_confirmed h hl))
  · exact fun h => rise.trans (congrArg _ (thrRise_low h))
  · exact fun h ht => hold.trans (congrArg _ (thrEnd_due h ht))

end Sys2Proof.Proofs
end

section
/-! O55: the byte memories (06 R166; 15 R358): what each operation leaves to read, and that the canonical form (log 4) of what it reads is unique. -/

namespace Sys2Proof.Proofs

open Sys2Proof.Machine Sys2Proof.Laws

/-! ## What a memory reads after each operation -/

/-- Bytes written one after another: the last write to an address is the one that it reads. -/
theorem memRead_memWriteList {m : List Host.Cell} (h : Memory.wf m = true) (a b : Nat) (bs : List Byte) :
    memRead (memWriteList m a bs) b = if a ≤ b ∧ b < a + bs.length then bs.getD (b - a) 0 else memRead m b := by
  induction bs generalizing m a with
  | nil => exact (if_neg (by simp only [List.length_nil]; omega)).symm
  | cons v r ih =>
    rw [memWriteList, ih (memWrite_wf h a v), memRead_memWrite h, List.length_cons]
    by_cases hb : b = a
    · subst hb
      rw [if_neg (by omega), if_pos rfl, if_pos (by omega), Nat.sub_self, List.getD_cons_zero]
    · rw [if_neg hb]
      by_cases hr : a + 1 ≤ b ∧ b < a + 1 + r.length
      · rw [if_pos hr, if_pos (by omega), show b - a = b - (a + 1) + 1 by omega, List.getD_cons_succ]
      · rw [if_neg hr, if_neg (by omega)]

/-- Below the first entry of a canonical memory there is none. -/
theorem below_of_lt {c : Host.Cell} {r : List Host.Cell} {a : Nat} (h : Memory.wf (c :: r) = true) (ha : a < c.1) : ∀ x ∈ c :: r, a < x.1 := by
  rintro x (_ | ⟨_, hx⟩)
  · exact ha
  · exact ha.trans (((wf_cons _ _).1 h).2.1 x hx)

/-- A memory without some of its entries reads the default at their addresses, and the rest as before. -/
theorem memRead_filter {m : List Host.Cell} (h : Memory.wf m = true) (p : Nat → Bool) (b : Nat) :
    memRead (m.filter (fun c => p c.1)) b = if p b then memRead m b else memDefault := by
  induction m with
  | nil => exact (ite_self _).symm
  | cons c r ih =>
    obtain ⟨-, below, wf⟩ := (wf_cons _ _).1 h
    rcases Nat.lt_trichotomy b c.1 with hb | rfl | hb
    · have lower := below_of_lt h hb
      rw [memRead_below lower, ite_self, memRead_below (fun x hx => lower x (List.mem_filter.1 hx).1)]
    · have rest := memRead_below (m := r.filter (fun c => p c.1)) (fun x hx => below x (List.mem_filter.1 hx).1)
      cases hp : p c.1 with
      | true => simp [hp, memRead]
      | false => simpa [hp] using rest
    · have later : ∀ l, memRead (c :: l) b = memRead l b := fun l => by
        rw [memRead, if_neg (Nat.lt_asymm hb), if_neg (Nat.ne_of_gt hb)]
      rw [List.filter_cons, later, ← ih wf]
      split
      · exact later _
      · rfl

theorem memRead_memClear {m : List Host.Cell} (h : Memory.wf m = true) (lo hi b : Nat) :
    memRead (memClear m lo hi) b = if lo ≤ b ∧ b < hi then memDefault else memRead m b := by
  rw [memClear, memRead_filter h (fun a => !(decide (lo ≤ a) && decide (a < hi)))]
  by_cases hb : lo ≤ b ∧ b < hi <;> simp [hb]

/-! ## The canonical form (log 4) -/

/-- At its first entry's address a canonical memory reads unlike one that lists nothing up to there. -/
theorem read_ne_of_below {c : Host.Cell} {r n : List Host.Cell} (h : Memory.wf (c :: r) = true) (hn : ∀ x ∈ n, c.1 < x.1) :
    memRead n c.1 ≠ memRead (c :: r) c.1 := by
  rw [memRead_below hn, memRead, if_neg (lt_irrefl _), if_pos rfl]
  exact ((wf_cons _ _).1 h).1.symm

/-- Past its first entry a memory reads as its other entries do. -/
theorem memRead_rest {c : Host.Cell} {r : List Host.Cell} (h : Memory.wf (c :: r) = true) (a : Nat) :
    memRead r a = if a ≤ c.1 then memDefault else memRead (c :: r) a := by
  obtain ⟨-, below, -⟩ := (wf_cons _ _).1 h
  split
  · exact memRead_below (fun x hx => lt_of_le_of_lt ‹_› (below x hx))
  · rw [memRead, if_neg (by omega), if_neg (by omega)]

/-- Canonical memories that read alike are equal. -/
theorem memory_ext {m n : List Host.Cell} (hm : Memory.wf m = true) (hn : Memory.wf n = true) (h : ∀ a, memRead m a = memRead n a) :
    m = n := by
  induction m generalizing n with
  | nil =>
    cases n with
    | nil => rfl
    | cons d q => exact absurd (h d.1) (read_ne_of_below hn (by simp))
  | cons c r ih =>
    cases n with
    | nil => exact absurd (h c.1).symm (read_ne_of_below hm (by simp))
    | cons d q =>
      rcases Nat.lt_trichotomy c.1 d.1 with hlt | heq | hlt
      · exact absurd (h c.1).symm (read_ne_of_below hm (below_of_lt hn hlt))
      · have value : c.2 = d.2 := by simpa [memRead, heq] using h c.1
        have rest : r = q := ih ((wf_cons _ _).1 hm).2.2 ((wf_cons _ _).1 hn).2.2 (fun a => by
          rw [memRead_rest hm, memRead_rest hn, heq, h a])
        rw [Prod.ext heq value, rest]
      · exact absurd (h d.1) (read_ne_of_below hn (below_of_lt hm hlt))

/-- Settles O55: a write by its address, a run of writes and a clear by the addresses they cover, and equality entry by entry. -/
theorem memoryReadsWrites : Obligations.MemoryReadsWrites :=
  ⟨fun _ a b v h => ⟨memRead_memWrite h a b v, memWrite_wf h a v⟩,
    fun _ a b bs h => ⟨memRead_memWriteList h a b bs, memWriteList_wf h a bs⟩,
    fun _ lo hi b h => ⟨memRead_memClear h lo hi b, memClear_wf h lo hi⟩,
    fun _ _ => memory_ext⟩

end Sys2Proof.Proofs
end

section
/-! SUPPORT. What the swap of programs and the unload leave alone: meridian time, the keystones, the rails, and the tiles' states
(06 R164 to R171, R178, R181; 07 R205 to R212). -/

namespace Sys2Proof.Proofs

open Sys2Proof.Machine Sys2Proof.Safety Sys2Proof.Laws

set_option Elab.async false

/-- The Reckoner without its classes and what it counts and sends for events given up. -/
def programOf (r : Rck) : Rck := { r with classes := [], retired := [], evAband := 0, wilds := 0, hails := [] }

/-- A field that is not set aside. -/
theorem program_proj {r r' : Rck} {α : Type} (h : programOf r = programOf r') (P : Rck → α) (hP : ∀ r, P (programOf r) = P r) :
    P r = P r' := by
  rw [← hP r, h, hP]

/-- Meridian time, the keystones, the rails, the tie-offs and every tile's state stay. -/
structure Unmoved (s t : State) : Prop where
  mer : t.mer = s.mer
  keys : t.keys = s.keys
  rails : t.rails = s.rails
  ties : t.ties = s.ties
  st : ∀ j, (t.tile j).st = (s.tile j).st

/-- And so does the Reckoner, its classes and what it counts and sends for events given up aside. -/
structure SameProgram (s t : State) : Prop extends Unmoved s t where
  program : programOf t.rck = programOf s.rck

theorem Unmoved.trans {s t u : State} (a : Unmoved s t) (b : Unmoved t u) : Unmoved s u :=
  ⟨b.mer.trans a.mer, b.keys.trans a.keys, b.rails.trans a.rails, b.ties.trans a.ties, fun j => (b.st j).trans (a.st j)⟩

theorem Unmoved.modRck (s : State) (f : Rck → Rck) : Unmoved s (s.modRck f) := ⟨rfl, rfl, rfl, rfl, fun _ => rfl⟩

theorem Unmoved.newProgram (s : State) : Unmoved s { s with tiles := s.tiles.map Tile.newProgram } :=
  ⟨rfl, rfl, rfl, rfl, fun j => (clockOf_eq ((Coursed.setTiles s Tile.newProgram s.rck (fun _ => rfl)).clock j)).1⟩

namespace SameProgram

variable {s t u : State} {α : Type}

/-- A change of other fields. -/
theorem same (mer : t.mer = s.mer := by rfl) (keys : t.keys = s.keys := by rfl) (rails : t.rails = s.rails := by rfl)
    (ties : t.ties = s.ties := by rfl) (tiles : t.tiles = s.tiles := by rfl) (program : programOf t.rck = programOf s.rck := by rfl) :
    SameProgram s t :=
  ⟨⟨mer, keys, rails, ties, fun j => by rw [State.tile, State.tile, tiles]⟩, program⟩
theorem refl (s : State) : SameProgram s s := .same
theorem trans (a : SameProgram s t) (b : SameProgram t u) : SameProgram s u :=
  ⟨a.toUnmoved.trans b.toUnmoved, b.program.trans a.program⟩
/-- The parts of a change from the last to the first. -/
theorem after (b : SameProgram t u) (a : SameProgram s t) : SameProgram s u := a.trans b
theorem ite {p : Prop} [Decidable p] (ha : p → SameProgram s t) (hb : ¬ p → SameProgram s u) : SameProgram s (if p then t else u) := by
  split
  · exact ha ‹_›
  · exact hb ‹_›
theorem each {f : State → α → State} (h : ∀ s a, SameProgram s (f s a)) (s : State) (l : List α) : SameProgram s (s.each l f) :=
  List.foldlRecOn l f (refl s) (fun _ hb a _ => hb.trans (h _ a))
theorem foldl {β : Type} {f : State × β → α → State × β} (h : ∀ a x, SameProgram a.1 (f a x).1) (a : State × β) (l : List α) :
    SameProgram a.1 (l.foldl f a).1 :=
  List.foldlRecOn (motive := fun b => SameProgram a.1 b.1) l f (refl a.1) (fun _ hb x _ => hb.trans (h _ x))
theorem logged (h : Logged s t) : SameProgram s t := .same h.mer (by rw [h.eq]) h.rails h.ties h.tiles (by rw [h.rck])
theorem modTile (s : State) (i : Nat) {f : Tile → Tile} (h : ∀ x, (f x).st = x.st) : SameProgram s (s.modTile i f) :=
  ⟨⟨rfl, rfl, rfl, rfl, tile_modTile_proj Tile.st h s i⟩, rfl⟩
theorem modCls (s : State) (c : Nat) (f : Cls → Cls) : SameProgram s (s.modCls c f) := .same

end SameProgram

/-! ## Events given up (06 R178, R181) -/

theorem sameProgram_recheck (s : State) (i : Nat) : SameProgram s (s.recheck i) := by
  unfold State.recheck
  exact .ite (fun _ => .refl s) (fun _ => .after (.ite (fun _ => .modCls ..) (fun _ => .refl _)) (.modTile s i (fun _ => rfl)))

theorem sameProgram_unsettle (s : State) (i : Nat) : SameProgram s (s.unsettle i) := .after (.modTile _ i (fun _ => rfl)) .same

theorem sameProgram_redip (s : State) (i : Nat) : SameProgram s (s.redip i) := by
  unfold State.redip
  exact .after (.ite (fun _ => .refl _) (fun _ => .after (.ite (fun _ => sameProgram_unsettle ..) (fun _ => .refl _))
    (.modTile _ i (fun _ => rfl)))) (sameProgram_recheck s i)

theorem sameProgram_sweepEvents (s : State) (i : Nat) : SameProgram s (s.sweepEvents i) :=
  .modTile s i (fun _ => (clockOf_eq (foldl_endEvent_clock ..)).1)

theorem sameProgram_countAbandon (s : State) (i : Nat) : SameProgram s (s.countAbandon i) := by
  refine .same (program := ?_)
  unfold State.countAbandon
  dsimp only
  split <;> rfl

theorem sameProgram_abandonRun (s : State) (i : Nat) : SameProgram s (s.abandonRun i) := by
  unfold State.abandonRun
  refine .ite (fun _ => .refl s) (fun _ => ?_)
  exact .after (sameProgram_sweepEvents ..) <| .after (sameProgram_redip ..) <| .after (.modTile _ i (fun _ => rfl)) <|
    .trans (sameProgram_countAbandon s i) .same

/-! ## Channels claimed and released (03 R94, R98, R100; 07 R205, R206) -/

theorem sameProgram_feedSample (s : State) (k : Nat) (p : Pair) : SameProgram s (s.feedSample k p) := .ite (fun _ => .same) (fun _ => .same)

theorem sameProgram_sxPacket (s : State) (k : Nat) : SameProgram s (s.sxPacket k) := .ite (fun _ => .refl s) (fun _ => .same)

theorem sameProgram_drain (s : State) (k : Nat) : SameProgram s (s.drain k) := .ite (fun _ => .refl s) (fun _ => .same)

theorem sameProgram_deliver (s : State) (k : Nat) (p : Pair) : SameProgram s (s.deliver k p) := by
  unfold State.deliver
  refine .after (.ite (fun _ => .same) (fun _ => .ite (fun _ => .same) (fun _ => ?_)))
    (.ite (fun _ => sameProgram_feedSample ..) (fun _ => .refl s))
  refine .after (.ite (fun _ => .ite (fun _ => sameProgram_sxPacket ..) (fun _ => .refl _)) (fun _ => sameProgram_drain ..)) .same

theorem sameProgram_lone (s : State) (k : Nat) : SameProgram s (s.lone k).1 := by
  unfold State.lone
  dsimp only
  split
  · exact .after (sameProgram_deliver ..) .same
  · exact .after (sameProgram_deliver ..) .same
  · exact .refl s

theorem sameProgram_disarm (s : State) (k : Nat) : SameProgram s (s.disarm k).1 := by
  unfold State.disarm
  split
  · exact .refl s
  · exact (sameProgram_lone s k).trans .same

theorem sameProgram_watchPair (s : State) (k : Nat) (p : Option (BitVec 8 × BitVec 2)) : SameProgram s (s.watchPair k p) := by
  cases p with
  | none => exact (sameProgram_lone s k).trans .same
  | some x => exact (sameProgram_lone s k).trans .same

/-- A channel's part of the release of a program's claims. -/
def dropClaim (s : State) (k : Nat) : State := if (s.chan k).owner = .rck then ((s.disarm k).1).freeChan k else s

theorem dropClaims_each (s : State) : s.dropClaims = s.each (List.range 60) dropClaim := rfl

theorem sameProgram_dropClaims (s : State) : SameProgram s s.dropClaims :=
  .each (fun v k => .ite (fun _ => (sameProgram_disarm v k).trans .same) (fun _ => .refl v)) s _

theorem sameProgram_takeClaims (s : State) (claim : Nat) : SameProgram s (s.takeClaims claim) := by
  unfold State.takeClaims
  extract_lets chs v ids
  have hv : SameProgram s v := .each (fun _ _ => .same) _ _
  exact hv.trans (.ite (fun _ => .refl v) (fun _ => .each (fun _ _ => .after (sameProgram_watchPair ..) (.modCls ..)) _ _))

theorem onChan_dropClaim (s : State) (k : Nat) : OnChan k s (dropClaim s k) := by
  unfold dropClaim
  split
  · exact (waiting_disarm s k).toOnChan.trans (.modChan _ _)
  · exact .refl s

theorem freeChan_owner (s : State) (k : Nat) : ((s.freeChan k).chan k).owner = .none := by
  simp only [State.freeChan, State.chan, State.modChan, List.getD_eq_getElem?_getD, List.getElem?_modify, if_true]
  cases s.sxt.chans[k]? <;> rfl

theorem freeChan_armed (s : State) (k : Nat) : ((s.freeChan k).chan k).armed = (s.chan k).armed := by
  refine chan_modChan_proj Chan.armed ?_ s k k
  exact fun _ => rfl

/-- A channel of the program is free and disarmed once the claims are released. -/
theorem dropClaims_frees {s : State} {k : Nat} (hk : k < 60) (h : (s.chan k).owner = .rck) :
    (s.dropClaims.chan k).owner = .none ∧ (s.dropClaims.chan k).armed = false := by
  obtain ⟨v, hv, own, -⟩ := each_own onChan_dropClaim List.nodup_range s (List.mem_range.2 hk)
  rw [dropClaims_each, own, dropClaim, if_pos (by rw [hv, h])]
  exact ⟨freeChan_owner .., (freeChan_armed ..).trans (disarm_armed v k)⟩

/-! ## The parts of a swap (06 R171; 07 R207 to R212) -/

theorem sameProgram_raise (s : State) (code i arg : Nat) : SameProgram s (s.raise code i arg) := .logged (logged_raise ..)

theorem sameProgram_setFlag (s : State) (c b : Nat) : SameProgram s (s.setFlag c b) := by
  unfold State.setFlag
  split
  · exact .refl s
  · exact .ite (fun _ => .refl s) (fun _ => .after (.ite (fun _ => sameProgram_raise ..) (fun _ => .refl _)) (.modCls s c _))

theorem sameProgram_writeWeight (s : State) (a : Nat) (bs : List Byte) : SameProgram s (s.writeWeight a bs) := .same

theorem sameProgram_rebuild (s : State) (c : Nat) (l : Layer) : SameProgram s (s.rebuild c l) := by
  unfold State.rebuild
  split
  · exact .refl s
  · extract_lets r v
    have hr : SameProgram s r.1 := .foldl (a := (s, 0)) (fun _ _ => .same) _
    have hv : SameProgram r.1 v := .ite (fun _ => sameProgram_writeWeight ..) (fun _ => .refl _)
    exact (hr.trans hv).trans (.ite (fun _ => .refl v) (fun _ => .after (sameProgram_setFlag ..) (.modCls ..)))

theorem sameProgram_startMasters (s : State) (x : Cls) (old : Option Cls) : SameProgram s (s.startMasters x old) := by
  unfold State.startMasters
  split
  · exact .refl s
  · exact .same

theorem sameProgram_putRow (s : State) (x old : Cls) (row : List Byte × List Byte × List Byte) : SameProgram s (s.putRow x old row) := by
  unfold State.putRow
  split
  · refine .ite (fun _ => sameProgram_rebuild ..) (fun _ => ?_)
    extract_lets f nb v
    have hv : SameProgram s v := .same
    exact hv.trans (.ite (fun _ => sameProgram_writeWeight ..) (fun _ => .refl v))
  · exact .refl s

theorem sameProgram_trimTrace (s : State) : SameProgram s s.trimTrace := .ite (fun _ => .refl s) (fun _ => .same)

theorem sameProgram_retire (s : State) : SameProgram s s.retire := .same
theorem chan_retire (s : State) (k : Nat) : s.retire.chan k = s.chan k := rfl
theorem sameProgram_clearHistory (s : State) : SameProgram s s.clearHistory := .same

theorem sameProgram_copySegs (s : State) (c : List Byte) (base : Nat) : SameProgram s (s.copySegs c base) :=
  .each (fun _ _ => .ite (fun _ => .same) (fun _ => sameProgram_writeWeight ..)) s _

/-- What each change of a sequence keeps, the sequence keeps. -/
theorem each_proj {α β : Type} (P : State → β) {f : State → α → State} (h : ∀ s a, P (f s a) = P s) (s : State) (l : List α) :
    P (s.each l f) = P s :=
  List.foldlRecOn (motive := fun t => P t = P s) l f rfl (fun _ ht a _ => (h _ a).trans ht)

/-- The tiles' part of a new class map (R162), before the map itself. -/
def clearChanged (m : List Byte) (s : State) : State :=
  s.each (allTiles.filter (fun i => s.rck.map.getD i 0 ≠ m.getD i 0))
    (fun s i => s.modTile i (fun t => { t with window := [], stats := List.replicate 4 {} }))

/-- The Reckoner with a class map in force, and for the next snapshot. -/
def withMap (m : List Byte) (r : Rck) : Rck := { r with map := m, mapNext := m }

theorem setClassMap_eq (s : State) (m : List Byte) : s.setClassMap m = (clearChanged m s).modRck (withMap m) := rfl

theorem rck_setClassMap (s : State) (m : List Byte) : (s.setClassMap m).rck = withMap m s.rck :=
  congrArg (withMap m) (each_proj State.rck (fun _ _ => State.modTile_rck ..) s _)

theorem sxt_setClassMap (s : State) (m : List Byte) : (s.setClassMap m).sxt = s.sxt :=
  each_proj State.sxt (fun _ _ => State.modTile_sxt ..) s _

theorem unmoved_setClassMap (s : State) (m : List Byte) : Unmoved s (s.setClassMap m) := by
  have h : SameProgram s (clearChanged m s) := by
    refine .each (fun v i => ?_) s _
    exact .modTile v i (fun _ => rfl)
  rw [setClassMap_eq]
  exact h.toUnmoved.trans (.modRck ..)

/-- The class map that a container leaves rests on the running map and the tie-offs. -/
theorem SameProgram.ctMapAfter {s t : State} (h : SameProgram s t) (c : List Byte) : t.ctMapAfter c = s.ctMapAfter c := by
  have next : t.rck.mapNext = s.rck.mapNext := program_proj h.program Rck.mapNext (fun _ => rfl)
  have stands : t.entryStands = s.entryStands := by
    funext kinds i e
    rw [State.entryStands, State.entryStands, present_congr h.ties, State.clsOf, State.clsOf, h.ties]
  rw [State.ctMapAfter, State.ctMapAfter, State.mapAfter, State.mapAfter, next, stands]

end Sys2Proof.Proofs
end

section
/-! O43: the end of a load, the unload, and the flits of an inbound transfer (06 R169 to R171; 09 R249; 15 R361, R362). -/

namespace Sys2Proof.Proofs

open Sys2Proof.Machine Sys2Proof.Safety Sys2Proof.Laws

set_option Elab.async false

/-! ## The swap (06 R169, R171, Table 6.8) -/

/-- The Reckoner once container `c` has been copied in at `now`, with so many entries of the class map cleared. -/
def copied (c : List Byte) (cleared : Nat) (now : Time) (r : Rck) : Rck :=
  let h := ctHeader c
  { r with
    mode := .loading, flight := false, spill := granules (hdSpill h), loadStep := 5, stepAt := now
    progId := BitVec.ofNat 64 (fld h 96 64), joest := w32 (fld h 160 32), mask := BitVec.ofNat 16 (hdMask h), shared := fld h 256 32
    cleared := cleared, watchCnt := 0, watchSkip := false, n := 0 }

/-- The Reckoner with the staged program in place of its own. -/
def installed (s : State) : Rck :=
  let c := s.rck.staging
  let m := s.ctMapAfter c
  withMap m.1 (copied c m.2 s.mer.now s.rck)

/-- The staged program takes the Reckoner; the clock, the domains and the keystones go on. -/
theorem loadSwap_facts {s : State} (hl : s.rck.loading = true) (h3 : s.rck.loadStep = 3) (hb : s.boundarySince s.rck.stepAt = true)
    (hf : ∀ x ∈ s.faults.bad, x.1 ≠ .staging) : Unmoved s s.loadSwap ∧ programOf s.loadSwap.rck = programOf (installed s) := by
  unfold State.loadSwap
  rw [if_neg (by simp [hl, h3, hb]), if_neg (by simpa using fun n h => hf (.staging, n) h rfl)]
  extract_lets c h u old rows m v g retired new w x y z carry a b n _ d
  have hu : SameProgram s u := .each sameProgram_abandonRun _ _
  have hm : m = s.ctMapAfter c := hu.ctMapAfter c
  have hv : SameProgram s v := .trans hu (.after (sameProgram_retire _) (sameProgram_dropClaims _))
  clear_value v m
  have hx : SameProgram w x := .after (sameProgram_copySegs ..) (sameProgram_trimTrace _)
  have ha : SameProgram z a := by
    refine .each (fun e x => ?_) _ _
    dsimp only
    split
    · exact .after (sameProgram_putRow ..) (sameProgram_startMasters ..)
    · exact sameProgram_startMasters ..
  have hd : SameProgram a d := .after (.same : SameProgram b d) (.after (sameProgram_takeClaims ..) (sameProgram_clearHistory a))
  have he : SameProgram z (if g = 0 then d else d.raise0 0x501 (64 * g)) :=
    (ha.trans hd).trans (.ite (fun _ => .refl d) (fun _ => .logged (logged_raise0 ..)))
  have hw : Unmoved v w := .modRck ..
  have hz : Unmoved y z := unmoved_setClassMap ..
  refine ⟨((hv.toUnmoved.trans hw).trans (hx.toUnmoved.trans (.newProgram x))).trans (hz.trans he.toUnmoved), he.program.trans ?_⟩
  have hc : programOf w.rck = copied c m.2 v.mer.now (programOf v.rck) := rfl
  calc programOf z.rck
    _ = withMap m.1 (programOf x.rck) := congrArg programOf (rck_setClassMap y m.1)
    _ = withMap m.1 (programOf w.rck) := congrArg (withMap m.1) hx.program
    _ = withMap m.1 (copied c m.2 v.mer.now (programOf v.rck)) := congrArg (withMap m.1) hc
    _ = programOf (installed s) := by rw [hv.program, hv.mer, hm]; rfl

theorem loadSwap_early {s : State} (h : s.boundarySince s.rck.stepAt = false) : s.loadSwap = s := if_pos (by simp [h])

/-! ## The end of a load (06 R169; 09 R249) -/

theorem rck_settleO (s : State) (o : Option (BitVec 3)) (r : Resp) : (s.settleO o r).rck = s.rck := by
  cases o with
  | none => rfl
  | some n =>
    unfold State.settleO State.settle
    dsimp only
    split <;> rfl

theorem runMaps_none {s : State} (h : s.rck.mapWaits = []) : s.runMaps = s := by
  have hr : { s.rck with mapWaits := [] } = s.rck := by rw [← h]
  rw [State.runMaps, h, State.modRck, hr]
  rfl

/-- The estimator is trusted, and of the rest a report at most is new. -/
theorem trustAgain_facts (s : State) : ∃ p, p.distrust = false ∧ Logged { s with power := p } s.trustAgain := by
  unfold State.trustAgain
  split
  · rename_i h
    exact ⟨s.power, by simpa using h, .refl s⟩
  · exact ⟨_, rfl, logged_raise0 ..⟩

/-- The Reckoner as a load that ends leaves it. -/
def warmed (r : Rck) : Rck :=
  { r with
    mode := .warmup, warm := 16, endMode := r.loadMode, warmups := satInc r.warmups, loads := satInc r.loads, loading := false
    loadStep := 0, staging := [] }

/-- The answer to a load that ends. -/
def loadedR (r : Rck) : Resp := okR ([w32 r.cleared, w32 (64 * r.spill)] ++ wordsOf 2 r.progId.toNat)

/-- The block once a load has ended and has its answer. -/
def loadEnded (s : State) : State := ((s.modRck warmed).trustAgain).settleO s.rck.loadMbx (loadedR s.rck)

theorem loadEnded_facts (s : State) : (loadEnded s).rck = warmed s.rck ∧ settledAs s (loadEnded s) s.rck.loadMbx (loadedR s.rck) ∧
    (loadEnded s).power.distrust = false ∧ (loadEnded s).tiles = s.tiles ∧ (loadEnded s).rails = s.rails ∧ (loadEnded s).keys = s.keys := by
  obtain ⟨p, trust, log⟩ := trustAgain_facts (s.modRck warmed)
  have ans : Answered (s.modRck warmed).trustAgain (loadEnded s) := answered_settleO ..
  refine ⟨(rck_settleO ..).trans log.rck, settledAs_settleO (by rw [log.mbxs]; rfl) (fun n => by rw [State.mbx, log.mbxs]; rfl) _ _, ?_,
    ans.tiles.trans log.tiles, ?_, ans.keys.trans log.keys⟩
  · rw [ans.eq]
    exact (congrArg Power.distrust log.power).trans trust
  · rw [ans.eq]
    exact log.rails

theorem loadComplete_early {s : State} (h : s.boundarySince s.rck.stepAt = false) : s.loadComplete = s := if_pos (by simp [h])

/-- With no map command waiting, the end of a load is its answer. -/
theorem loadComplete_eq {s : State} (hl : s.rck.loading = true) (h5 : s.rck.loadStep = 5) (hb : s.boundarySince s.rck.stepAt = true)
    (hw : s.rck.mapWaits = []) : s.loadComplete = loadEnded s := by
  have waits : (loadEnded s).rck.mapWaits = [] := (congrArg Rck.mapWaits (loadEnded_facts s).1).trans hw
  unfold State.loadComplete
  rw [if_neg (by simp [hl, h5, hb])]
  exact runMaps_none waits

/-! ## The unload (06 R170) -/

theorem sxt_recheck (s : State) (i : Nat) : (s.recheck i).sxt = s.sxt := by
  unfold State.recheck
  dsimp only
  split
  · rfl
  · split <;> rfl

theorem sxt_redip (s : State) (i : Nat) : (s.redip i).sxt = s.sxt := by
  rw [← sxt_recheck s i, State.redip]
  dsimp only
  split
  · rfl
  · split <;> rfl

theorem sxt_abandonRun (s : State) (i : Nat) : (s.abandonRun i).sxt = s.sxt := by
  unfold State.abandonRun
  split
  · rfl
  · dsimp only
    rw [State.sweepEvents, State.modTile_sxt, sxt_redip]
    rfl

/-- The program has gone, with its claims. -/
theorem dropProgram_facts (s : State) : let t := s.dropProgram
    Unmoved s t ∧ (t.rck.mode = .off ∧ t.rck.unload = false ∧ t.rck.classes = [] ∧ t.rck.map = List.replicate 256 0 ∧ t.rck.progId = 0 ∧
      t.rck.spill = 0) ∧ ∀ c < 60, (s.chan c).owner = .rck → (t.chan c).owner = .none ∧ (t.chan c).armed = false := by
  unfold State.dropProgram
  extract_lets u v _ w
  have hq : (s.each allTiles State.abandonRun).sxt = s.sxt := each_proj State.sxt sxt_abandonRun s _
  have hs : SameProgram s u := .trans (.each sameProgram_abandonRun s _) (.after (sameProgram_retire _) (sameProgram_dropClaims _))
  have hv : Unmoved u v := unmoved_setClassMap ..
  have rck : v.rck = withMap (List.replicate 256 0) u.rck := rck_setClassMap ..
  have chan : ∀ c, v.chan c = u.chan c := fun c => congrArg (fun x : Sxt => x.chans.getD c {}) (sxt_setClassMap u _)
  have old : ∀ c, (s.each allTiles State.abandonRun).chan c = s.chan c := fun c => congrArg (fun x : Sxt => x.chans.getD c {}) hq
  have free : ∀ c < 60, (s.chan c).owner = .rck → (u.chan c).owner = .none ∧ (u.chan c).armed = false :=
    fun c hc h => by
      rw [show u.chan c = _ from chan_retire _ c]
      exact dropClaims_frees hc ((congrArg Chan.owner (old c)).trans h)
  have retired : u.rck.classes = [] := rfl
  clear_value v u
  have hw : Unmoved v w := ⟨rfl, rfl, rfl, rfl, (Unmoved.newProgram v).st⟩
  refine ⟨((hs.toUnmoved.trans hv).trans hw).trans (.modRck ..),
    ⟨rfl, rfl, (congrArg Rck.classes rck).trans retired, congrArg Rck.map rck, rfl, rfl⟩, fun c hc h => ?_⟩
  change (v.chan c).owner = .none ∧ (v.chan c).armed = false
  rw [chan]
  exact free c hc h

/-! ## Inbound transfers (15 R361, R362) -/

/-- A transfer `x` is open, before those of `rest`, and has a credit for the flit that comes. -/
structure Streams (s : State) (x : Inbound) (rest : List Inbound) : Prop where
  up : s.logUp = true
  loop : s.looping 1 = false
  data : s.xingOk 8 = true
  credits : s.xingOk 9 = true
  inbound : s.log.inbound = x :: rest
  kept : x.discard = false
  whole : x.hole = false
  credit : 1 ≤ (Inbound.regrant { x with lastAt := s.boot.uptime }).credit

/-- The transfer once a flit has come and spent its credit. -/
def spent (s : State) (x : Inbound) : Inbound :=
  let y := Inbound.regrant { x with lastAt := s.boot.uptime }
  { y with credit := y.credit - 1 }

section inbound

variable {s : State} {x : Inbound} {rest : List Inbound} {f : InFlit}

/-- A flit of an open transfer is data of the open packet, or is taken for a header. -/
theorem takeFlit_streams (h : Streams s x rest) (f : InFlit) : s.takeFlit f =
    if x.inPkt then s.dataFlit (spent s x) f
    else if !f.sop then (s.discardFlit).setIn (spent s x)
    else if (spent s x).headerBad f then s.refuseIn (spent s x) (packetR (spent s x))
    else s.setIn { spent s x with inPkt := true, flits := cdiv (inBytes f.data) 8, left := inBytes f.data } := by
  have hc : ¬(Inbound.regrant { x with lastAt := s.boot.uptime }).credit = 0 := Nat.ne_of_gt h.credit
  have hk : ¬x.discard = true := by simp [h.kept]
  have hh : ¬x.hole = true := by simp [h.whole]
  unfold State.takeFlit
  rw [if_neg (by simp [h.up, h.loop]), if_neg (by simp [h.data, h.credits]), h.inbound]
  exact (if_neg hk).trans ((if_neg hc).trans (if_neg hh))

theorem setIn_eq (h : s.log.inbound = x :: rest) (y : Inbound) : s.setIn y = { s with log := { s.log with inbound := y :: rest } } := by
  rw [State.setIn, h]
  rfl

/-- A header opens its packet. -/
theorem takeFlit_header (h : Streams s x rest) (hp : x.inPkt = false) (hs : f.sop = true) (hb : (spent s x).headerBad f = false) :
    s.takeFlit f = { s with log := { s.log with inbound :=
      { spent s x with inPkt := true, flits := (inBytes f.data + 7) / 8, left := inBytes f.data } :: rest } } := by
  rw [takeFlit_streams h, if_neg (by simp [hp]), if_neg (by simp [hs]), if_neg (by simp [hb]), setIn_eq h.inbound]
  rfl

/-- A data flit that does not end its packet adds its eight bytes. -/
theorem dataFlit_within {y : Inbound} (hp : y.inPkt = true) (hk : y.kind ≠ .container) (hs : f.sop = false) (he : f.eop = false)
    (hf : 2 ≤ y.flits) (hl : 8 ≤ y.left) : s.dataFlit y f = s.setIn { y with
      got := y.got + 8, left := y.left - 8, flits := y.flits - 1, data := y.data ++ bytesOf 8 f.data.toNat } := by
  have more : ¬y.flits = 1 := by omega
  have full : min 8 y.left = 8 := by omega
  have fits : f.data.toNat >>> 64 = 0 := Nat.shiftRight_eq_zero _ _ f.data.isLt
  unfold State.dataFlit
  rw [full, if_neg (by simp [hs, he, more, fits])]
  simp [more, hk, ← hp, State.setIn]

/-- A data flit within a packet joins its transfer. -/
theorem takeFlit_data (h : Streams s x rest) (hp : x.inPkt = true) (hk : x.kind ≠ .container) (hs : f.sop = false) (he : f.eop = false)
    (hf : 2 ≤ x.flits) (hl : 8 ≤ x.left) :
    s.takeFlit f = { s with log := { s.log with inbound := { spent s x with
      got := x.got + 8, left := x.left - 8, flits := x.flits - 1, data := x.data ++ bytesOf 8 f.data.toNat } :: rest } } := by
  rw [takeFlit_streams h, if_pos hp, dataFlit_within (y := spent s x) hp hk hs he hf hl, setIn_eq h.inbound]
  rfl

/-- A message transfer whose sender is silent for 10 ms is given up. -/
theorem inTimeout_silent (h : s.log.inbound = [x]) (ht : x.lastAt + 160000000 ≤ s.boot.uptime) (hd : x.discard = false)
    (hc : 1 ≤ x.regrant.credit) (hk : x.kind = .spdm) :
    s.inTimeout = (s.settle x.mbx (notPermR 0xA { item := 1, idx := 1, extra := x.got })).closeIn := by
  unfold State.inTimeout
  rw [h]
  dsimp only
  rw [if_neg (by simpa [msMt] using ht), if_pos (by simp [Nat.ne_of_gt hc]), State.abandonIn, h]
  simp [hd, hk, State.failIn]

end inbound

/-- Settles O43: the swap by what installing a program leaves, the end of a load and the unload by what they make of the Reckoner, and the
flits by what the open transfer takes. -/
theorem loadEvents : Obligations.LoadEvents := by
  rintro dt s u rfl hr
  have swap : exec (.programLoadSwap dt) s = .next (s.tick dt).loadSwap := (event_live _ hr : execProgramLoadSwap dt s = _)
  have done : exec (.loadComplete dt) s = .next (s.tick dt).loadComplete := (event_live _ hr : execLoadComplete dt s = _)
  have unload : exec (.unloadEffect dt) s = .next (s.tick dt).unloadEffect := (event_live _ hr : execUnloadEffect dt s = _)
  have flit : ∀ f, exec (.inboundFlit dt f) s = .next ((s.tick dt).takeFlit f) := fun f => (event_live _ hr : execInboundFlit dt f s = _)
  have silent : exec (.inboundTransferTimeout dt) s = .next (s.tick dt).inTimeout := (event_live _ hr : execInboundTransferTimeout dt s = _)
  generalize s.tick dt = u at *
  refine ⟨fun hl h3 hb hf => ?_, fun hl h5 hb hw => ?_, fun h => ?_, fun h => ?_, fun hu hb => ?_,
    fun x y rest f hup hloop h8 h9 hin hd hh hy hc => ?_, fun x hin ht hd hc hk => ?_⟩
  · obtain ⟨same, program⟩ := loadSwap_facts hl h3 hb hf
    exact ⟨_, swap, program_proj program Rck.mode (fun _ => rfl), program_proj program Rck.loadStep (fun _ => rfl),
      (program_proj program Rck.loading (fun _ => rfl)).trans hl, program_proj program Rck.staging (fun _ => rfl),
      program_proj program Rck.progId (fun _ => rfl), program_proj program Rck.map (fun _ => rfl),
      program_proj program Rck.spill (fun _ => rfl), same.keys, same.rails, same.mer, same.st⟩
  · obtain ⟨rck, answer, trust, tiles, rails, keys⟩ := loadEnded_facts u
    refine ⟨_, done.trans (congrArg _ (loadComplete_eq hl h5 hb hw)), ?_⟩
    rw [rck]
    exact ⟨rfl, rfl, rfl, rfl, rfl, rfl, rfl, answer, trust, tiles, rails, keys⟩
  · exact ⟨swap.trans (congrArg _ (loadSwap_early h)), done.trans (congrArg _ (loadComplete_early h))⟩
  · exact unload.trans (congrArg _ (if_neg (by simp [h])))
  · obtain ⟨same, ⟨mode, off, classes, map, progId, spill⟩, freed⟩ := dropProgram_facts u
    have eq : u.unloadEffect = u.dropProgram := if_pos (by simp [hu, hb])
    exact ⟨_, unload.trans (congrArg _ eq), mode, off, classes, map, progId, spill, fun c hc _ => freed c hc, same.keys, same.rails, same.st⟩
  · subst hy
    have h : Streams u x rest := ⟨hup, hloop, h8, h9, hin, hd, hh, hc⟩
    exact ⟨fun hp hs hb => (flit f).trans (congrArg _ (takeFlit_header h hp hs hb)),
      fun hp hk hs he hf hl => (flit f).trans (congrArg _ (takeFlit_data h hp hk hs he hf hl))⟩
  · have ans := answered_settle u x.mbx (notPermR 0xA { item := 1, idx := 1, extra := x.got })
    refine ⟨_, silent.trans (congrArg _ (inTimeout_silent hin ht hd hc hk)), ?_, ?_, ans.tiles, rck_settleO u (some x.mbx) _⟩
    · simp only [State.closeIn, ans.log, hin]
      rfl
    · exact settledAs_settleO rfl (fun _ => rfl) (some x.mbx) _

end Sys2Proof.Proofs
end

section
/-! SUPPORT. Keystone slots as the commands 0x40 to 0x47 find them (08 R214, R221, R222, R231; 14 R337). -/

namespace Sys2Proof.Proofs

open Sys2Proof.Machine Sys2Proof.Safety Sys2Proof.Laws

set_option Elab.async false

/-! ## Slots as a request finds them -/

@[simp] theorem slot_posted (u : State) (op : Byte) (q : Req) (k : Nat) : (posted u op q).slot k = u.slot k := rfl
@[simp] theorem member_posted (u : State) (op : Byte) (q : Req) : (posted u op q).member = u.member := rfl
@[simp] theorem slotOwnErrs_posted (u : State) (op : Byte) (q : Req) (k : Nat) : (posted u op q).slotOwnErrs k = u.slotOwnErrs k := rfl
@[simp] theorem freeSlots_posted (u : State) (op : Byte) (q : Req) : (posted u op q).freeSlots = u.freeSlots := rfl
@[simp] theorem ksResult_posted (u : State) (op : Byte) (q : Req) (w : Word) : (posted u op q).ksResult w = u.ksResult w := rfl
@[simp] theorem ksOpenSlot_posted (u : State) (op : Byte) (q : Req) (w : Word) : (posted u op q).ksOpenSlot w = u.ksOpenSlot w := rfl

theorem actErrs_posted (u : State) (op : Byte) (q : Req) (base k T : Nat) (prior : List (BitVec 128)) (convoy : Bool) (a : BitVec 128) :
    (posted u op q).actErrs base k T prior convoy a = u.actErrs base k T prior convoy a := rfl

/-- The actions of a request are judged on the state in which it runs as on the one in which it arrives. -/
@[simp] theorem firstFail_posted (u : State) (op : Byte) (q : Req) (base k T : Nat) (convoy : Bool) (n : Nat)
    (prior acts : List (BitVec 128)) :
    (posted u op q).firstFail base k T convoy n prior acts = u.firstFail base k T convoy n prior acts := by
  induction acts generalizing n prior with
  | nil => rfl
  | cons a r ih => simp only [State.firstFail, actErrs_posted, ih]

section

variable {v : State} {q : Req} {w : Word} {k : Nat} {rest : List Word} {x : Slot}

theorem reqSlot_args (hq : q.args = w :: rest) : reqSlot q = fld w 0 2 := by rw [reqSlot, w_one hq]

/-- The slot that a word naming nothing else names. -/
theorem reqSlot_only (hq : q.args = w :: rest) (hw : w &&& ~~~3#32 = 0) : reqSlot q = w.toNat := by
  rw [reqSlot_args hq]
  exact fld_of_lt (toNat_lt_of_mask 2 hw)

theorem live_iff : x.live = true ↔ x.st = .opened ∨ x.st = .sealed := by simp [Slot.live]

theorem slotOwnErrs_nil (h : k = 3 → v.member = false) : v.slotOwnErrs k = [] := by
  simpa [State.slotOwnErrs] using h

theorem slotNeed_nil {ok : Bool} (h : ok = true) : slotNeed k ok = [] := if_pos h

theorem takes_iff : x.takes = true ↔ x.st = .opened ∧ x.sealing = false := by simp [Slot.takes]

/-- Nothing refuses a command that adds to a keystone, or seals it, while its slot takes actions. -/
theorem takeErrs_nil (hm : k = 3 → v.member = false) (ho : (v.slot k).st = .opened) (hs : (v.slot k).sealing = false) :
    v.slotOwnErrs k ++ slotNeed k (v.slot k).takes = [] := by
  rw [slotOwnErrs_nil hm, slotNeed_nil (takes_iff.2 ⟨ho, hs⟩), List.append_nil]

/-- The host's free slots in order: slot 3 belongs to the convoy of a member. -/
theorem freeSlots_eq (v : State) :
    v.freeSlots = (List.range (if v.member then 3 else 4)).filter (fun k => decide ((v.slot k).st = .free)) := by
  unfold State.freeSlots
  split <;> rfl

/-- The lowest free slot that the host may open comes first. -/
theorem freeSlots_lowest (hk : k < 4) (hm : k = 3 → v.member = false) (hf : (v.slot k).st = .free)
    (hl : ∀ j < k, (v.slot j).st ≠ .free) : ∃ r, v.freeSlots = k :: r := by
  have hr : k < if v.member then 3 else 4 := by
    split
    · next h =>
      have : k ≠ 3 := fun h3 => by simp [hm h3] at h
      omega
    · exact hk
  refine List.head?_eq_some_iff.1 ?_
  rw [freeSlots_eq, List.head?_filter, List.find?_range_eq_some]
  simpa [hf, hr] using hl

/-! ## Actions that are staged (08 R221) -/

theorem actScope_tile (a : BitVec 128) : actScope a = 0 ↔ actKind a ≤ 9 := by
  unfold actScope
  split <;> omega

theorem length_reqActs (q : Req) : (reqActs q).length = fld (q.w 1) 2 2 := by simp [reqActs]

/-- Shadows have to acknowledge exactly where a tile is acted on. -/
theorem all_untiled (acts : List (BitVec 128)) :
    (!acts.any (fun a => decide (actScope a = 0))) = acts.all (fun a => decide (9 < actKind a)) := by
  rw [List.not_any_eq_all_not]
  exact congrArg acts.all (funext (fun a => by simp only [actScope_tile, ← decide_not, Nat.not_le]))

theorem stage_eq (v : State) (k : Nat) (acts : List (BitVec 128)) : v.stage k acts =
    (State.bookActs k (v.slot k).t (v.slot k).acts acts v).modSlot k (fun x => { x with
      acts := x.acts ++ acts, staged := x.staged ++ List.replicate acts.length v.mer.now
      acked := x.acked && acts.all (fun a => decide (9 < actKind a)) }) := by
  simp only [State.stage, all_untiled, List.map_const']

end

end Sys2Proof.Proofs
end

section
/-! O9: the keystone commands that open, stage, seal and abort (08 R214, R220 to R222, R231; 14 R337). -/

namespace Sys2Proof.Proofs

open Sys2Proof.Machine Sys2Proof.Safety Sys2Proof.Laws

set_option Elab.async false

section

variable {u s t : State} {q : Req} {w a b : Word} {k dt : Nat} {rest : List Word} {op : Byte}

/-! ## What each command does where no rule refuses it -/

theorem run_ksOpen {r : List Nat} (hf : u.freeSlots = k :: r) (hs : u.schedulable = true) :
    cmdKsOpen.run (posted u op q) q = ((posted u op q).openSlot k (q.w64 1) .host 0, .final (okR [w32 k, u.keys.next])) := by
  simp only [cmdKsOpen, freeSlots_posted, schedulable_posted, posted_keys, hf, hs, if_true, orElse_nil]

theorem form_ksOpen (hz : u.inHorizon (q.w64 1) = true) (hk : nowK + 32000 ≤ u.key (q.w64 1)) :
    cmdKsOpen.form (posted u op q) q = none := by
  simp only [cmdKsOpen, inHorizon_posted, key_posted, hz, ge_iff_le, hk, decide_true, Bool.and_self, if_true]

theorem run_ksStage (hk : reqSlot q = k) (he : u.slotOwnErrs k ++ slotNeed k (u.slot k).takes = [])
    (hf : u.firstFail nowK k (u.key (u.slot k).t) false 0 (u.slot k).acts (reqActs q) = none) :
    cmdKsStage.run (posted u op q) q =
      ((posted u op q).stage k (reqActs q), .final (okR [w32 ((u.slot k).acts.length + (reqActs q).length)])) := by
  simp only [cmdKsStage, hk, slotOwnErrs_posted, slot_posted, key_posted, firstFail_posted, he, hf, orElse_nil]

theorem form_ksStage (hk : reqSlot q = k) (hn : 1 ≤ fld (q.w 1) 2 2) (hl : (u.slot k).acts.length + fld (q.w 1) 2 2 ≤ 512) :
    cmdKsStage.form (posted u op q) q = none := by
  simp only [cmdKsStage, hk, slot_posted, if_neg (Nat.ne_of_gt hn), gt_iff_lt, if_neg (Nat.not_lt.2 hl)]

theorem run_ksSeal (hk : reqSlot q = k) (he : u.slotOwnErrs k ++ slotNeed k (u.slot k).takes = []) :
    cmdKsSeal.run (posted u op q) q = if (u.slot k).acts.isEmpty then ((posted u op q).commitKs k, .final (okR []))
      else if (u.slot k).acked then ((posted u op q).modSlot k (fun x => { x with st := .sealed }), .final (okR []))
      else ((posted u op q).modSlot k (fun x => { x with sealing := true, sealMbx := some q.mbx }), .accepted []) := by
  simp only [cmdKsSeal, hk, slotOwnErrs_posted, slot_posted, he, orElse_nil]

theorem run_ksAbort (hk : reqSlot q = k) (hm : k = 3 → u.member = false) (hl : (u.slot k).live = true) :
    cmdKsAbort.run (posted u op q) q = ((posted u op q).abortKs k 1 none, .final (okR [])) := by
  simp only [cmdKsAbort, hk, slotOwnErrs_posted, slot_posted, slotOwnErrs_nil hm, slotNeed_nil hl, List.append_nil, orElse_nil]

/-! ## The requests -/

theorem exec_ksOpen (h : ready false (s.tick dt) q = true) (hh : (s.tick dt).haltedB = false) (hq : q.args = [a, b])
    (hz : (s.tick dt).inHorizon (q.w64 1) = true) (hk : nowK + 32000 ≤ (s.tick dt).key (q.w64 1))
    (hs : (s.tick dt).schedulable = true) {r : List Nat} (hf : (s.tick dt).freeSlots = k :: r) :
    exec (.ksOpen dt q) s = .next (State.finish ((posted (s.tick dt) 0x40 q).openSlot k (q.w64 1) .host 0) q.mbx
      (okR [w32 k, (s.tick dt).keys.next])) :=
  congrArg Host.Outcome.next (postCmd_final (c := cmdKsOpen) h nofun (fun _ => hh) rfl (by simp [cmdKsOpen, lenIs, hq]) rfl
    (form_ksOpen hz hk) (run_ksOpen hf hs))

/-- A stage command of `n` actions for slot `k` that nothing refuses. -/
theorem exec_ksStage {n : Nat} (h : ready false (s.tick dt) q = true) (hh : (s.tick dt).haltedB = false) (hq : q.args = w :: rest)
    (hw : w &&& ~~~0xF#32 = 0) (hk : k = fld w 0 2) (hn : n = fld w 2 2) (hl : rest.length = 4 * n) (h1 : 1 ≤ n)
    (hlen : ((s.tick dt).slot k).acts.length + n ≤ 512) (he : (s.tick dt).slotOwnErrs k ++ slotNeed k ((s.tick dt).slot k).takes = [])
    (hf : (s.tick dt).firstFail nowK k ((s.tick dt).key ((s.tick dt).slot k).t) false 0 ((s.tick dt).slot k).acts (reqActs q) = none) :
    exec (.ksStage dt q) s = .next (State.finish ((posted (s.tick dt) 0x41 q).stage k (reqActs q)) q.mbx
      (okR [w32 (((s.tick dt).slot k).acts.length + n)])) := by
  have hn1 : fld (q.w 1) 2 2 = n := by rw [w_one hq, hn]
  have hslot : reqSlot q = k := by rw [reqSlot_args hq, hk]
  have run := run_ksStage (op := 0x41) hslot he hf
  rw [length_reqActs, hn1] at run
  refine congrArg Host.Outcome.next (postCmd_final (c := cmdKsStage) h nofun (fun _ => hh) rfl ?_ ?_
    (form_ksStage hslot (by rwa [hn1]) (by rwa [hn1])) run)
  · simp [cmdKsStage, hn1, hq, hl, Nat.add_comm]
  · rw [hq]
    exact rsvWord_one hw rest

/-- A seal answers what its body does. -/
theorem exec_ksSeal {ans : Ans} (h : ready false (s.tick dt) q = true) (hh : (s.tick dt).haltedB = false) (hq : q.args = [w])
    (hw : w &&& ~~~3#32 = 0) (run : cmdKsSeal.run (posted (s.tick dt) 0x42 q) q = (t, ans)) :
    exec (.ksSeal dt q) s = .next (t.answer q.mbx ans) := by
  have hlen : cmdKsSeal.len q = true := by simp [cmdKsSeal, lenIs, hq]
  have hmask : rsvWord 1 cmdKsSeal.masks q.args = none := by rw [hq]; exact rsvWord_one hw []
  refine congrArg Host.Outcome.next ?_
  cases ans with
  | final r => exact postCmd_final (c := cmdKsSeal) h nofun (fun _ => hh) rfl hlen hmask rfl run
  | accepted ws => exact postCmd_accepted (c := cmdKsSeal) h nofun (fun _ => hh) rfl hlen hmask rfl run

theorem exec_ksAbort (h : ready false (s.tick dt) q = true) (hh : (s.tick dt).haltedB = false) (hq : q.args = [w])
    (hw : w &&& ~~~3#32 = 0) (hm : w.toNat = 3 → (s.tick dt).member = false) (hl : ((s.tick dt).slot w.toNat).live = true) :
    exec (.ksAbort dt q) s = .next (((posted (s.tick dt) 0x43 q).abortKs w.toNat 1 none).finish q.mbx (okR [])) := by
  refine congrArg Host.Outcome.next (postCmd_final (c := cmdKsAbort) h nofun (fun _ => hh) rfl (by simp [cmdKsAbort, lenIs, hq]) ?_ rfl
    (run_ksAbort (reqSlot_only hq hw) hm hl))
  rw [hq]
  exact rsvWord_one hw []

end

/-- Settles O9: no rule refuses what the statement allows; a seal goes by the keystone's actions and their acknowledgement. -/
theorem keystoneCommands : Obligations.KeystoneCommands := by
  rintro dt q s u rfl h hh
  refine ⟨fun a b k hq hz hk hs hlt hm hf hl => ?_, fun w rest k n hq hw hk hn hl h1 hlen hm ho hs hf => ?_, ?_⟩
  · obtain ⟨r, hr⟩ := freeSlots_lowest hlt hm hf hl
    exact exec_ksOpen h hh hq hz hk hs hr
  · have hacts : (reqActs q).length = n := by rw [length_reqActs, w_one hq, hn]
    have step := exec_ksStage h hh hq hw hk hn hl h1 hlen (takeErrs_nil hm ho hs) hf
    rwa [stage_eq, hacts] at step
  · rintro w k hq hw rfl hm
    refine ⟨fun ho hs => ?_, fun hl => exec_ksAbort h hh hq hw hm (live_iff.2 hl)⟩
    have run := run_ksSeal (op := 0x42) (reqSlot_only hq hw) (takeErrs_nil hm ho hs)
    have acting := fun ha : ((s.tick dt).slot w.toNat).acts ≠ [] => run.trans (if_neg (by simpa using ha))
    exact ⟨fun ha => exec_ksSeal h hh hq hw (run.trans (if_pos (List.isEmpty_iff.2 ha))),
      fun ha hk => exec_ksSeal h hh hq hw ((acting ha).trans (if_pos hk)),
      fun ha hk => exec_ksSeal h hh hq hw ((acting ha).trans (if_neg (by simp [hk])))⟩

end Sys2Proof.Proofs
end

section
/-! O10: what the keystone commands read, at once or when a keystone resolves (08 R233, R234; 14 R337). -/

namespace Sys2Proof.Proofs

open Sys2Proof.Machine Sys2Proof.Safety Sys2Proof.Laws

set_option Elab.async false

section

variable {u s : State} {q : Req} {w : Word} {k dt : Nat} {r : KsRes} {op : Byte}

/-! ## Keystones by their sequence number -/

theorem ksResult_eq (h : w ≠ 0) : u.ksResult w = u.keys.results.find? (fun r => r.seq == w) := if_neg h

theorem ksOpenSlot_eq (u : State) (w : Word) :
    u.ksOpenSlot w = (List.range 4).find? (fun k => (u.slot k).live && (u.slot k).seq == w) := rfl

theorem not_live_iff {x : Slot} : x.live = false ↔ x.st ≠ .opened ∧ x.st ≠ .sealed := by
  rw [← Bool.not_eq_true, live_iff, not_or]

/-- No open keystone has the number. -/
theorem ksOpenSlot_none (h : ∀ k < 4, (u.slot k).seq = w → (u.slot k).st ≠ .opened ∧ (u.slot k).st ≠ .sealed) :
    u.ksOpenSlot w = none := by
  rw [ksOpenSlot_eq, List.find?_eq_none]
  intro k hk hp
  obtain ⟨hl, hs⟩ := Bool.and_eq_true_iff.1 hp
  have hidle := not_live_iff.2 (h k (List.mem_range.1 hk) (beq_iff_eq.1 hs))
  exact absurd hl (by simp [hidle])

/-- The open keystone of the number in the lowest slot. -/
theorem ksOpenSlot_lowest (hk : k < 4) (hs : (u.slot k).seq = w) (hl : (u.slot k).st = .opened ∨ (u.slot k).st = .sealed)
    (hlow : ∀ j < k, (u.slot j).seq = w → (u.slot j).st ≠ .opened ∧ (u.slot j).st ≠ .sealed) : u.ksOpenSlot w = some k := by
  rw [ksOpenSlot_eq, List.find?_range_eq_some]
  refine ⟨by simp [live_iff.2 hl, hs], List.mem_range.2 hk, fun j hj => ?_⟩
  by_cases hw : (u.slot j).seq = w
  · simp [not_live_iff.2 (hlow j hj hw)]
  · simp [hw]

/-! ## The requests -/

theorem exec_ksResult (h : ready false (s.tick dt) q = true) (hq : q.args = [w]) (hr : (s.tick dt).ksResult w = some r) :
    exec (.ksResult dt q) s = .next ((posted (s.tick dt) 0x44 q).finish q.mbx (okR r.words)) := by
  have hw := w_one hq
  refine congrArg Host.Outcome.next (postCmd_final (c := cmdKsResult) h nofun nofun rfl (by simp [cmdKsResult, lenIs, hq]) rfl ?_ ?_)
  · simp only [cmdKsResult, hw, ksResult_posted, hr, Option.isSome_some, if_true]
  · simp only [cmdKsResult, hw, ksResult_posted, hr]

theorem exec_ksWait_resolved (h : ready false (s.tick dt) q = true) (hq : q.args = [w]) (hr : (s.tick dt).ksResult w = some r)
    (ho : (s.tick dt).ksOpenSlot w = none) : exec (.ksWait dt q) s =
      .next ((posted (s.tick dt) 0x45 q).finish q.mbx (if r.st = .committed then okR r.words else abortedR r)) := by
  have hw := w_one hq
  refine congrArg Host.Outcome.next (postCmd_final (c := cmdKsWait) h nofun nofun rfl (by simp [cmdKsWait, lenIs, hq]) rfl ?_ ?_)
  · simp only [cmdKsWait, hw, ksResult_posted, hr, Option.isSome_some, Bool.true_or, if_true]
  · simp only [cmdKsWait, hw, ksResult_posted, ksOpenSlot_posted, hr, ho]

theorem exec_ksWait_open (h : ready false (s.tick dt) q = true) (hq : q.args = [w]) (ho : (s.tick dt).ksOpenSlot w = some k) :
    exec (.ksWait dt q) s = .next (State.accept ((posted (s.tick dt) 0x45 q).modSlot k (fun x => { x with
      waits := x.waits ++ [q.mbx] })) q.mbx []) := by
  have hw := w_one hq
  refine congrArg Host.Outcome.next (postCmd_accepted (c := cmdKsWait) h nofun nofun rfl (by simp [cmdKsWait, lenIs, hq]) rfl ?_ ?_)
  · simp only [cmdKsWait, hw, ksOpenSlot_posted, ho, Option.isSome_some, Bool.or_true, if_true]
  · simp only [cmdKsWait, hw, ksOpenSlot_posted, ho]

theorem exec_ksCounters (h : ready false (s.tick dt) q = true) (hq : q.args = []) : exec (.ksCounters dt q) s =
    .next ((posted (s.tick dt) 0x46 q).finish q.mbx (okR ((s.tick dt).keys.committed :: (s.tick dt).keys.aborted ++
      [(s.tick dt).keys.misses, (s.tick dt).keys.moved]))) :=
  congrArg Host.Outcome.next (postCmd_final (c := cmdKsCounters) h nofun nofun rfl (by simp [cmdKsCounters, hq]) rfl rfl rfl)

theorem exec_ksSlots (h : ready false (s.tick dt) q = true) (hq : q.args = []) {x : Nat → Slot} (hx : x = (s.tick dt).slot) :
    exec (.ksSlots dt q) s = .next ((posted (s.tick dt) 0x47 q).finish q.mbx (okR (
      w32 (pack [(0, 3, (x 0).st.code), (3, 3, (x 1).st.code), (6, 3, (x 2).st.code), (9, 3, (x 3).st.code)]) ::
      [(x 0).seq, (x 1).seq, (x 2).seq, (x 3).seq] ++ wordsOf 2 (x 0).t.toNat ++ wordsOf 2 (x 1).t.toNat ++
      wordsOf 2 (x 2).t.toNat ++ wordsOf 2 (x 3).t.toNat))) := by
  subst hx
  exact congrArg Host.Outcome.next (postCmd_final (c := cmdKsSlots) h nofun nofun rfl (by simp [cmdKsSlots, hq]) rfl rfl rfl)

end

/-- Settles O10: a number finds its result, or the open keystone of the lowest slot, and the counters and slots are read as they stand. -/
theorem keystoneReads : Obligations.KeystoneReads := by
  rintro dt q s u rfl h
  refine ⟨fun w r hq hw hr => ?_, fun w k hq hk hs hl hlow => exec_ksWait_open h hq (ksOpenSlot_lowest hk hs hl hlow),
    fun hq => ⟨exec_ksCounters h hq, exec_ksSlots h hq rfl⟩⟩
  have hres := (ksResult_eq hw).trans hr
  exact ⟨exec_ksResult h hq hres, fun hidle => exec_ksWait_resolved h hq hres (ksOpenSlot_none hidle)⟩

end Sys2Proof.Proofs
end

section
/-! SUPPORT. Keystones that abort and keystones that commit: what becomes of their slots, their results and their counters, and of the
words of the tiles (08 R222, R226, R228, R231 to R233). -/

namespace Sys2Proof.Proofs

open Sys2Proof.Machine Sys2Proof.Safety Sys2Proof.Laws

set_option Elab.async false

/-! ## Answers and convoy notices -/

/-- The keystones and the tiles are as they were. -/
structure Told (s t : State) : Prop where
  keys : t.keys = s.keys
  tiles : t.tiles = s.tiles

namespace Told

variable {s t u : State}

theorem refl (s : State) : Told s s := ⟨rfl, rfl⟩
theorem trans (a : Told s t) (b : Told t u) : Told s u := ⟨b.keys.trans a.keys, b.tiles.trans a.tiles⟩
/-- The parts of a change from the last to the first. -/
theorem after (b : Told t u) (a : Told s t) : Told s u := a.trans b
theorem logged (h : Logged s t) : Told s t := ⟨h.keys, h.tiles⟩
theorem answered (h : Answered s t) : Told s t := ⟨h.keys, h.tiles⟩
theorem each {α : Type} {f : State → α → State} (h : ∀ s a, Told s (f s a)) (s : State) (l : List α) : Told s (s.each l f) :=
  List.foldlRecOn l f (refl s) (fun _ hb a _ => hb.trans (h _ a))
theorem ite {p : Prop} [Decidable p] (ha : p → Told s t) (hb : ¬ p → Told s u) : Told s (if p then t else u) := by
  split
  · exact ha ‹_›
  · exact hb ‹_›

end Told

theorem told_settle (s : State) (n : BitVec 3) (r : Resp) : Told s (s.settle n r) := .answered (answered_settle ..)
theorem told_settleO (s : State) (o : Option (BitVec 3)) (r : Resp) : Told s (s.settleO o r) := .answered (answered_settleO ..)
theorem told_raise (s : State) (code idx arg : Nat) : Told s (s.raise code idx arg) := .logged (logged_raise ..)

theorem told_sendNotice (s : State) (kind inst w : Nat) (u : Option Time) (f : Bool) : Told s (s.sendNotice kind inst w u f) := by
  unfold State.sendNotice State.cvyPump
  dsimp only
  split <;> exact ⟨rfl, rfl⟩

theorem told_sendNak (s : State) (reason cause status : Nat) (m : Word) (t : Time) : Told s (s.sendNak reason cause status m t) :=
  .after (told_sendNotice ..) ⟨rfl, rfl⟩

theorem told_outOfStep (s : State) (m : Word) (b : Bool) : Told s (s.outOfStep m b) := .after (.logged (logged_raise0 ..)) ⟨rfl, rfl⟩

theorem told_settleMove (s : State) (m : Word) (r : Resp) : Told s (s.settleMove m r) :=
  .after (.each (fun _ _ => told_settle ..) _ _) ⟨rfl, rfl⟩

theorem told_convoyAbort (s : State) (x : Slot) (cause : Nat) (r : KsRes) : Told s (s.convoyAbort x cause r) := by
  unfold State.convoyAbort
  split
  · exact .refl s
  · exact .refl s
  · exact (told_settleO ..).trans ⟨rfl, rfl⟩
  · exact .after (told_outOfStep ..) (.after (.ite (fun _ => told_sendNak ..) (fun _ => told_sendNak ..)) (told_settleMove ..))

theorem told_convoyCommit (s : State) (x : Slot) : Told s (s.convoyCommit x) := by
  unfold State.convoyCommit
  split
  · exact .refl s
  · exact (told_settleO ..).trans ⟨rfl, rfl⟩
  · exact (told_settleMove ..).trans ⟨rfl, rfl⟩
  · exact ⟨rfl, rfl⟩

/-- The record of a keystone that resolves comes first among the last 16 (08 R233). -/
def recorded (s : State) (r : KsRes) : State := { s with keys := { s.keys with results := (r :: s.keys.results).take 16 } }

theorem told_resolve (s : State) (k : Nat) (r : KsRes) : Told (recorded s r) (s.resolve k r) :=
  .after (.each (fun _ _ => told_settle ..) _ _) (.logged (logged_logPacket ..))

/-! ## One slot -/

theorem slot_modSlot_same {s : State} {k : Nat} (f : Slot → Slot) (h : k < s.keys.slots.length) : (s.modSlot k f).slot k = f (s.slot k) := by
  simp [State.slot, State.modSlot, h]

theorem slot_modSlot_ne (s : State) {j k : Nat} (f : Slot → Slot) (h : k ≠ j) : (s.modSlot k f).slot j = s.slot j := by
  simp [State.slot, State.modSlot, h]

theorem slot_congr {s t : State} (h : t.keys.slots = s.keys.slots) (j : Nat) : t.slot j = s.slot j := by
  rw [State.slot, h, State.slot]

/-! ## An abort (08 R231 to R233) -/

section aborts

variable {s : State} {j k c m n : Nat} {f : Option (Nat × Nat)} {r : KsRes}

theorem abortOne_idle (h : (s.slot k).live = false) (c : Nat) (f : Option (Nat × Nat)) : s.abortOne k c f = s :=
  if_pos (by simp [h])

/-- A keystone that aborts leaves its record first and its slot free. -/
theorem abortOne_keys (h : (s.slot k).live = true) (c : Nat) (f : Option (Nat × Nat)) :
    (s.abortOne k c f).keys.results = ((s.slot k).res k .aborted c f :: s.keys.results).take 16 ∧
      (s.abortOne k c f).keys.slots = (s.modSlot k (fun _ => {})).keys.slots := by
  have outcome : (State.settleO (s.resolve k ((s.slot k).res k .aborted c f)) (s.slot k).sealMbx
      (abortedR ((s.slot k).res k .aborted c f))).keys = (recorded s ((s.slot k).res k .aborted c f)).keys :=
    (told_settleO ..).keys.trans (told_resolve ..).keys
  unfold State.abortOne
  dsimp only
  rw [if_neg (by simp [h]), (told_convoyAbort ..).keys, (told_raise ..).keys]
  simp only [State.modSlot, outcome]
  exact ⟨rfl, rfl⟩

/-- What holds no keystone that could abort is left as it is. -/
theorem slot_abortOne (h : (s.slot j).live = false) (k c : Nat) (f : Option (Nat × Nat)) : (s.abortOne k c f).slot j = s.slot j := by
  by_cases hk : (s.slot k).live = true
  · have hne : k ≠ j := fun e => by simp [← e, hk] at h
    exact (slot_congr (abortOne_keys hk c f).2 j).trans (slot_modSlot_ne s _ hne)
  · rw [abortOne_idle (by simpa using hk)]

theorem slot_revalidate (h : (s.slot j).live = false) (n t0 : Nat) (l : List (Nat × Nat)) : (s.revalidate n t0 l).slot j = s.slot j := by
  induction n generalizing s l with
  | zero => rfl
  | succ n ih =>
    unfold State.revalidate
    dsimp only
    split
    · rfl
    · have ha := slot_abortOne h
      rw [ih (by rw [ha]; exact h), ha]

/-- A record of the last 16 gives way one place to the next keystone that aborts. -/
theorem mem_results_abortOne (h : r ∈ s.keys.results.take m) (hm : m < 16) (k c : Nat) (f : Option (Nat × Nat)) :
    r ∈ (s.abortOne k c f).keys.results.take (m + 1) := by
  by_cases hk : (s.slot k).live = true
  · rw [(abortOne_keys hk c f).1, List.take_take, Nat.min_eq_left hm, List.take_succ_cons]
    exact List.mem_cons_of_mem _ h
  · rw [abortOne_idle (by simpa using hk)]
    exact List.take_subset_take_left _ (Nat.le_succ m) h

theorem mem_results_revalidate (h : r ∈ s.keys.results.take m) (hm : m + n ≤ 16) (t0 : Nat) (l : List (Nat × Nat)) :
    r ∈ (s.revalidate n t0 l).keys.results := by
  induction n generalizing m s l with
  | zero => exact List.mem_of_mem_take h
  | succ n ih =>
    unfold State.revalidate
    dsimp only
    split
    · exact List.mem_of_mem_take h
    · exact ih (mem_results_abortOne h (by omega) ..) (by omega) _

theorem abortKs_live (h : (s.slot k).live = true) (c : Nat) (f : Option (Nat × Nat)) : s.abortKs k c f =
    (s.abortOne k c f).revalidate 4 (s.key (s.slot k).t) ((s.slot k).acts.map (fun a => (actScope a, actTarget a))) :=
  if_neg (by simp [h])

/-- The slot of a keystone that has aborted is free, whatever aborts with it. -/
theorem slot_abortKs (h : (s.slot k).live = true) (hk : k < s.keys.slots.length) (c : Nat) (f : Option (Nat × Nat)) :
    (s.abortKs k c f).slot k = {} := by
  have one : (s.abortOne k c f).slot k = {} := (slot_congr (abortOne_keys h c f).2 k).trans (slot_modSlot_same _ hk)
  rw [abortKs_live h, slot_revalidate (by rw [one]; rfl), one]

/-- The record of a keystone that aborts stays among the last 16, whatever aborts with it. -/
theorem mem_results_abortKs (h : (s.slot k).live = true) (c : Nat) (f : Option (Nat × Nat)) :
    (s.slot k).res k .aborted c f ∈ (s.abortKs k c f).keys.results := by
  rw [abortKs_live h]
  refine mem_results_revalidate (m := 1) ?_ (by decide) _ _
  rw [(abortOne_keys h c f).1]
  exact List.mem_cons_self

/-- What does not speak of a tile's handover and standby, an abort leaves of every tile. -/
theorem tile_abortKs_proj {α : Type} (P : Tile → α) (hP : ∀ t, P (restOf t) = P t) (s : State) (k c : Nat) (f : Option (Nat × Nat))
    (i : Nat) : P ((s.abortKs k c f).tile i) = P (s.tile i) := by
  rw [← hP, (within_abortKs (l := []) s k c f).rest i List.not_mem_nil, hP]

end aborts

/-! ## The words of a tile that a commit sets (08 R226) -/

/-- The code, the plumb word and the droop word of a tile. -/
def wordsIn (t : Tile) : BitVec 16 × BitVec 64 × BitVec 64 := (t.code, t.plumbW, t.droopW)

theorem words_recheck (s : State) (i j : Nat) : wordsIn ((s.recheck i).tile j) = wordsIn (s.tile j) := by
  have held := fun k d => tile_modTile_proj wordsIn (f := fun t => { t with heldK := k, heldD := d }) (fun _ => rfl) s i j
  unfold State.recheck
  dsimp only
  split
  · rfl
  · split
    · exact held _ _
    · exact held _ _

theorem words_unsettle (s : State) (i j : Nat) : wordsIn ((s.unsettle i).tile j) = wordsIn (s.tile j) :=
  tile_modTile_proj wordsIn (f := fun t => { t with settle := (s.take .settle 3200001).1 }) (fun _ => rfl) (s.take .settle 3200001).2 i j

/-- The plan in force follows the events without a word of the tile. -/
theorem words_redip (s : State) (i j : Nat) : wordsIn ((s.redip i).tile j) = wordsIn (s.tile j) := by
  have dipped := fun d => tile_modTile_proj wordsIn (f := fun t => { t with dip := d }) (fun _ => rfl) (s.recheck i) i j
  unfold State.redip
  dsimp only
  refine Eq.trans ?_ (words_recheck s i j)
  split
  · rfl
  · split
    · exact (words_unsettle ..).trans (dipped _)
    · exact dipped _

section commits

variable {s : State} {a : BitVec 128} {c : TChg}

theorem words_commitAct (hc : actChg a = some c) (hi : actTarget a < s.tiles.length) (T : Time) :
    wordsIn ((s.commitAct T a).tile (actTarget a)) =
      wordsIn ((s.tile (actTarget a)).commitChg T (s.steady (actTarget a)) s.boot.uptime c) := by
  simp only [State.commitAct, hc]
  rw [words_redip, tile_modTile_same _ hi]

theorem code_takeCode (t : Tile) (n : Nat) (T : Time) : (t.takeCode n T).code = BitVec.ofNat 16 n := by
  unfold Tile.takeCode
  extract_lets u
  split <;> rfl

theorem code_commitChg (t : Tile) (T : Time) (steady : Bool) (upt n : Nat) :
    (t.commitChg T steady upt (.code n)).code.toNat = n % 65536 := by
  simp only [Tile.commitChg]
  split
  · next h =>
    rw [h]
    exact (Nat.mod_eq_of_lt t.code.isLt).symm
  · rw [code_takeCode]
    exact BitVec.toNat_ofNat ..

theorem keys_commitAct (s : State) (T : Time) (a : BitVec 128) : (s.commitAct T a).keys = s.keys := by
  unfold State.commitAct
  split
  · exact (replanned_redip ..).keys
  · dsimp only
    split
    · rfl
    · split <;> rfl

/-! ## A commit (08 R222, R228, R233) -/

/-- The state in which every action of a keystone has entered the mirror. -/
def mirrored (s : State) (x : Slot) : State := s.each x.acts (fun v a => v.commitAct x.t a)

theorem keys_mirrored (s : State) (x : Slot) : (mirrored s x).keys = s.keys :=
  List.foldlRecOn (motive := fun v : State => v.keys = s.keys) _ _ rfl (fun v hv a _ => (keys_commitAct v x.t a).trans hv)

/-- A keystone that commits leaves its actions in the mirror, its record first, one more in the counter, and its slot committed, or
free where it held no action. -/
theorem commitKs_facts (s : State) (k : Nat) : (s.commitKs k).tiles = (mirrored s (s.slot k)).tiles ∧
    (s.commitKs k).keys.results = ((s.slot k).res k .committed 0 none :: s.keys.results).take 16 ∧
    (s.commitKs k).keys.committed = satInc s.keys.committed ∧
    (s.commitKs k).keys.slots = (s.modSlot k (fun y =>
      if (s.slot k).acts.isEmpty then {} else { y with st := .committed, waits := [], sealMbx := none })).keys.slots := by
  have hm := keys_mirrored s (s.slot k)
  unfold State.commitKs
  dsimp only
  rw [mirrored] at hm ⊢
  rw [(told_convoyCommit ..).keys, (told_convoyCommit ..).tiles, (told_raise ..).keys, (told_raise ..).tiles]
  simp only [State.modSlot, (told_resolve ..).keys, (told_resolve ..).tiles, recorded, (told_settleO ..).keys, (told_settleO ..).tiles,
    State.moveCaps, hm, and_self]

theorem st_commitKs {k : Nat} (hk : k < s.keys.slots.length) :
    ((s.commitKs k).slot k).st = if (s.slot k).acts = [] then .free else .committed := by
  obtain ⟨-, -, -, slots⟩ := commitKs_facts s k
  rw [slot_congr slots, slot_modSlot_same _ hk]
  by_cases ha : (s.slot k).acts = [] <;> simp [ha]

/-- The one action of a keystone sets the word of its tile. -/
theorem words_commitKs {k : Nat} (ha : (s.slot k).acts = [a]) (hc : actChg a = some c) (hi : actTarget a < s.tiles.length) :
    wordsIn ((s.commitKs k).tile (actTarget a)) =
      wordsIn ((s.tile (actTarget a)).commitChg (s.slot k).t (s.steady (actTarget a)) s.boot.uptime c) := by
  obtain ⟨tiles, -⟩ := commitKs_facts s k
  rw [State.tile, tiles, mirrored, ha]
  exact words_commitAct hc hi _

end commits

end Sys2Proof.Proofs
end

section
/-! O35: the life of a keystone after its commands (08 R222 to R229, R231, R233; 04 R116). -/

namespace Sys2Proof.Proofs

open Sys2Proof.Machine Sys2Proof.Safety Sys2Proof.Laws

set_option Elab.async false

section

variable {s : State} {k c : Nat} {m l : List (BitVec 8)} {f : Nat × Nat}

/-! ## Acknowledgement and the deadlines (08 R222, R227) -/

theorem sealComplete_waiting (hl : (s.slot k).live = true) (ha : (s.slot k).acked = false) : s.sealComplete k =
    (s.modSlot k (fun y => { y with acked := true, st := if y.sealing then .sealed else y.st, sealing := false, sealMbx := none })).settleO
      (s.slot k).sealMbx (okR []) :=
  if_neg (by simp [hl, ha])

theorem sealDeadline_due (h : (s.slot k).st = .opened ∨ (s.slot k).st = .sealed ∧ (s.slot k).acked = false)
    (hk : s.key (s.slot k).t ≤ nowK + 16000) : s.sealDeadline k =
    s.abortKs k (if (s.slot k).sealing = true ∨ (s.slot k).st = .sealed then 7 else 6) none := by
  have open_ : (decide ((s.slot k).st = .opened) || (decide ((s.slot k).st = .sealed) && !(s.slot k).acked)) = true := by simpa using h
  simp only [State.sealDeadline, open_, Bool.not_true, Bool.false_or, gt_iff_lt, Nat.not_lt.2 hk, decide_false, Bool.false_eq_true,
    if_false, Bool.or_eq_true, decide_eq_true_eq]

/-- Every member has acknowledged: the slot frees. -/
theorem ackDeadline_all (h : (s.slot k).st = .committed) (hk : s.key (s.slot k).t ≤ nowK) : s.ackDeadline k [] =
    { s.modSlot k (fun _ => {}) with keys := { (s.modSlot k (fun _ => {})).keys with
        results := s.keys.results.map (fun r => if r.seq = (s.slot k).seq then { r with late := 0 } else r)
        freed3 := if k = 3 then s.mer.now else s.keys.freed3 } } :=
  if_neg (by simp [h, Nat.not_lt.2 hk])

/-! ## The launch edge (08 R223, R228; 04 R116) -/

theorem launch_due (h : (s.slot k).st = .sealed) (hk : s.key (s.slot k).t ≤ nowK + 20) : s.launch k m l =
    s.each ([0, 1, 2, 3].filter (fun j => decide ((s.slot j).st = .sealed) && decide ((s.slot j).t = (s.slot k).t))) (State.launchOne m l) :=
  if_neg (by simp [h, Nat.not_lt.2 hk])

/-- Nothing keeps the keystone from its commit, and no tile of it missed the strobe. -/
theorem launchOne_commits (h : (s.slot k).st = .sealed) (hf : s.launchFail k l = none)
    (hm : ∀ t ∈ m, (s.slot k).naming t.toNat = none) : s.launchOne m l k = s.commitKs k := by
  have none_missed : (m.map (·.toNat)).filter (fun t => ((s.slot k).naming t).isSome) = [] := by
    simpa [List.filter_eq_nil_iff] using hm
  simp only [State.launchOne, h, ne_eq, not_true_eq_false, if_false, hf, none_missed]
  rfl

theorem launchOne_aborts (h : (s.slot k).st = .sealed) (hf : s.launchFail k l = some (c, f)) : s.launchOne m l k =
    (s.abortKs k c (some f)).each (if c = 8 then (s.hovFails (s.slot k) l).map (·.2) else []) State.countMiss := by
  simp only [State.launchOne, h, ne_eq, not_true_eq_false, if_false, hf]

/-! ## Captures (08 R229) -/

theorem logged_keepPacket (s : State) (ty src nrec : Nat) (t : Time) (b : List Flit) : Logged s (s.keepPacket ty src nrec t b) := by
  unfold State.keepPacket
  split <;> exact ⟨rfl⟩

theorem logged_captureOut (s : State) (x : Capture) : Logged s (s.captureOut x) := by
  unfold State.captureOut
  split
  · exact (logged_keepPacket ..).trans (logged_keepPacket ..)
  · exact List.foldlRecOn (motive := fun v : State => Logged s v) _ _ (.refl s) (fun v hv k _ => hv.trans (logged_keepPacket ..))

/-- The state in which the one capture that waits is taken up. -/
def capTaken (s : State) : State := { s with keys := { s.keys with
  caps := [], recentT := s.keys.recentT.filter (fun t => decide (nowK < s.key t + 160)) } }

theorem capLatch_one {x : Capture} (hc : s.keys.caps = [x]) (hr : s.capReady x = true) :
    s.capLatch = ((capTaken s).captureOut x).settleO x.mbx (okR (wordsOf 2 x.at_.toNat)) := by
  simp only [State.capLatch, hc, List.filter_cons, hr, Bool.not_true, Bool.false_eq_true, if_false, if_true, List.filter_nil]
  rfl

theorem capLatch_facts {x : Capture} (hc : s.keys.caps = [x]) (hr : s.capReady x = true) : s.capLatch.keys.caps = [] ∧
    settledAs s s.capLatch x.mbx (okR (wordsOf 2 x.at_.toNat)) ∧ s.capLatch.tiles = s.tiles ∧ s.capLatch.rails = s.rails ∧
    s.capLatch.ledger = s.ledger := by
  have out := logged_captureOut (capTaken s) x
  have ans := answered_settleO ((capTaken s).captureOut x) x.mbx (okR (wordsOf 2 x.at_.toNat))
  have held : ((capTaken s).captureOut x).mbxs = s.mbxs := out.mbxs
  rw [capLatch_one hc hr]
  refine ⟨?_, settledAs_settleO (by rw [held]) (fun n => by rw [State.mbx, State.mbx, held]) _ _, ?_, ?_, ?_⟩
  · rw [ans.keys, out.keys]
    rfl
  · rw [ans.tiles, out.tiles]
    rfl
  · rw [ans.eq]
    exact out.rails
  · rw [ans.eq]
    exact out.ledger

end

/-! ## The obligation -/

/-- Settles O35: each event by the state that it waits for, an abort by its record and its slot, which last through the aborts that depend
on it, and a commit by the mirror, into which no later part of it writes. -/
theorem keystoneEvents : Obligations.KeystoneEvents := by
  rintro dt b _ s u x rfl hr rfl rfl hlen
  have hk4 : b.toNat < 4 := b.isLt
  have ack : exec (.ksSealComplete dt b) s = .next ((s.tick dt).sealComplete b.toNat) := (event_live _ hr : execKsSealComplete dt b s = _)
  have deadline : exec (.ksSealDeadline dt b) s = .next ((s.tick dt).sealDeadline b.toNat) :=
    (event_live _ hr : execKsSealDeadline dt b s = _)
  have launch : ∀ m l, exec (.ksLaunchEdge dt b ⟨m, l⟩) s = .next ((s.tick dt).launch b.toNat m l) := fun m l =>
    (event_live _ hr : execKsLaunchEdge dt b ⟨m, l⟩ s = _)
  have acks : exec (.ksAckDeadline dt b []) s = .next ((s.tick dt).ackDeadline b.toNat []) :=
    (event_live _ hr : execKsAckDeadline dt b [] s = _)
  have latch : exec (.captureLatch dt) s = .next (s.tick dt).capLatch := (event_live _ hr : execCaptureLatch dt s = _)
  generalize b.toNat = k at *
  generalize s.tick dt = u at *
  refine ⟨fun hl ha => ?_, fun hst hT => ?_, fun m l hst hT => ?_, fun v m l hst => ⟨fun hf hm => ?_, fun c f hf hc => ?_, fun f hf => ?_⟩,
    fun hst hT => ?_, fun v c f h4 hl hc => ?_, fun v h4 hl => ?_, fun c hc hready => ?_⟩
  · exact ack.trans (congrArg _ (sealComplete_waiting hl ha))
  · exact deadline.trans (congrArg _ (sealDeadline_due hst hT))
  · exact (launch m l).trans (congrArg _ (launch_due hst hT))
  · exact launchOne_commits hst hf hm
  · rw [launchOne_aborts hst hf, if_neg hc]
    rfl
  · rw [launchOne_aborts hst hf, if_pos rfl]
  · exact acks.trans (congrArg _ (ackDeadline_all hst hT))
  · have timed := timed_abortKs v k c f
    have kept := tile_abortKs_proj (fun t => (t.policyN, t.plumbW, t.droopW, t.st)) (fun _ => rfl) v k c f
    simp only [Prod.mk.injEq] at kept
    refine ⟨by rw [slot_abortKs hl (h4 ▸ hk4)], timed.mer, timed.boot, ⟨_, mem_results_abortKs hl c f, rfl, rfl, ?_, rfl⟩, kept⟩
    exact (BitVec.toNat_ofNat ..).trans (Nat.mod_eq_of_lt hc)
  · obtain ⟨-, results, committed, -⟩ := commitKs_facts v k
    refine ⟨⟨_, by rw [results]; rfl, rfl, rfl, rfl⟩, committed, st_commitKs (h4 ▸ hk4), ?_⟩
    rintro a i ha rfl hi -
    refine ⟨fun h1 => ?_, fun h8 => ?_, fun h9 => ?_⟩
    · have hw := words_commitKs ha (c := .code (actValue a)) (by simp only [actChg, h1]) hi
      exact (congrArg (fun w => BitVec.toNat w.1) hw).trans (code_commitChg ..)
    · have hw := words_commitKs ha (c := .plumb (BitVec.ofNat 64 (actValue a))) (by simp only [actChg, h8]) hi
      exact congrArg (fun w => w.2.1) hw
    · have hw := words_commitKs ha (c := .droop (BitVec.ofNat 64 (actValue a))) (by simp only [actChg, h9]) hi
      exact congrArg (fun w => w.2.2) hw
  · exact ⟨_, latch, capLatch_facts hc hready⟩

end Sys2Proof.Proofs
end

section
/-! O53: the software floor's clip (11 R292) and the cap rates (09 R244 to R246, Table 9.5; log 53). -/

namespace Sys2Proof.Proofs

open Sys2Proof.Machine Sys2Proof.Safety Sys2Proof.Laws

set_option Elab.async false

/-! ## The clip (11 R292) -/

/-- The quotient rounded up is the least multiplier that reaches the dividend. -/
theorem cdiv_le_iff {a b n : Nat} (hb : 0 < b) : cdiv a b ≤ n ↔ a ≤ b * n := by
  rw [cdiv, Nat.div_le_iff_le_mul_add_pred hb]
  omega

section

variable {f c k d : Nat}

theorem floorClip_passes (h : f * (32 + k) * c ≤ 8192 * (c - d)) : floorClip f c k d = (k, d) := if_pos h

theorem floorClip_lowers_dip (h : 8192 * (c - d) < f * (32 + k) * c) (hk : f * (32 + k) ≤ 8192) :
    floorClip f c k d = (k, c - cdiv (f * (32 + k) * c) 8192) := by
  rw [floorClip, if_neg (Nat.not_le.2 h), if_pos hk]

theorem floorClip_lowers_stretch (h : 8192 * (c - d) < f * (32 + k) * c) (hk : 8192 < f * (32 + k)) :
    floorClip f c k d = (min k (8192 / f - 32), 0) := by
  rw [floorClip, if_neg (Nat.not_le.2 h), if_neg (Nat.not_le.2 hk)]

/-- What the floor makes of a stretch and a dip: each stays or falls, they pass its check then, and neither falls further than it must. -/
structure Clipped (f c k d k' d' : Nat) : Prop where
  kept : f * (32 + k) * c ≤ 8192 * (c - d) → k' = k ∧ d' = d
  stretch_le : k' ≤ k
  dip_le : d' ≤ d
  passes : f * (32 + k') * c ≤ 8192 * (c - d')
  dip_first : k' < k → d' = 0
  dip_largest : ∀ e, d' < e → e ≤ d → 8192 * (c - e) < f * (32 + k) * c
  stretch_largest : ∀ j, k' < j → j ≤ k → 8192 < f * (32 + j)

theorem clipped_of_passes (h : f * (32 + k) * c ≤ 8192 * (c - d)) : Clipped f c k d k d where
  kept _ := ⟨rfl, rfl⟩
  stretch_le := le_rfl
  dip_le := le_rfl
  passes := h
  dip_first hk := absurd hk (lt_irrefl k)
  dip_largest _ he hd := absurd hd (Nat.not_le.2 he)
  stretch_largest _ hj hk := absurd hk (Nat.not_le.2 hj)

/-- The stretch alone passes, so a dip is left, and the largest is the code less the quotient rounded up. -/
theorem clipped_dip (hd : d ≤ c) (h : 8192 * (c - d) < f * (32 + k) * c) (hk : f * (32 + k) ≤ 8192) :
    Clipped f c k d k (c - cdiv (f * (32 + k) * c) 8192) := by
  have least : ∀ n, cdiv (f * (32 + k) * c) 8192 ≤ n ↔ f * (32 + k) * c ≤ 8192 * n := fun n => cdiv_le_iff (by decide)
  have within : cdiv (f * (32 + k) * c) 8192 ≤ c := (least c).2 (Nat.mul_le_mul_right c hk)
  have more : c - d < cdiv (f * (32 + k) * c) 8192 := by rw [← Nat.not_le, least]; omega
  exact {
    kept := fun hp => absurd hp (Nat.not_le.2 h)
    stretch_le := le_rfl
    dip_le := by omega
    passes := by rw [Nat.sub_sub_self within]; exact (least _).1 le_rfl
    dip_first := fun hk => absurd hk (lt_irrefl k)
    dip_largest := fun e he hed => by rw [← Nat.not_le, ← least]; omega
    stretch_largest := fun j hj hk => absurd hk (Nat.not_le.2 hj) }

/-- No dip passes, so the stretch falls to the largest that passes without one. -/
theorem clipped_stretch (hc : 0 < c) (hf : f ≤ 256) (h : 8192 * (c - d) < f * (32 + k) * c) (hk : 8192 < f * (32 + k)) :
    Clipped f c k d (min k (8192 / f - 32)) 0 := by
  have pos : 0 < f := Nat.pos_of_mul_pos_right (Nat.zero_lt_of_lt hk)
  have largest : ∀ j, 32 + j ≤ 8192 / f ↔ f * (32 + j) ≤ 8192 := fun j => by rw [Nat.le_div_iff_mul_le pos, Nat.mul_comm]
  have whole : 32 ≤ 8192 / f := (largest 0).2 (by omega)
  have fits : f * (32 + min k (8192 / f - 32)) ≤ 8192 := (largest _).1 (by omega)
  exact {
    kept := fun hp => absurd hp (Nat.not_le.2 h)
    stretch_le := min_le_left ..
    dip_le := Nat.zero_le d
    passes := Nat.mul_le_mul_right c fits
    dip_first := fun _ => rfl
    dip_largest := fun e _ _ => (Nat.mul_le_mul_left 8192 (Nat.sub_le c e)).trans_lt (Nat.mul_lt_mul_of_pos_right hk hc)
    stretch_largest := fun j hj _ => by rw [← Nat.not_le, ← largest]; omega }

theorem clipped_floorClip (hc : 0 < c) (hd : d ≤ c) (hf : f ≤ 256) :
    Clipped f c k d (floorClip f c k d).1 (floorClip f c k d).2 := by
  rcases Nat.lt_or_ge (8192 * (c - d)) (f * (32 + k) * c) with h | h
  · rcases Nat.lt_or_ge 8192 (f * (32 + k)) with hk | hk
    · rw [floorClip_lowers_stretch h hk]
      exact clipped_stretch hc hf h hk
    · rw [floorClip_lowers_dip h hk]
      exact clipped_dip hd h hk
  · rw [floorClip_passes h]
    exact clipped_of_passes h

end

/-! ## The cap rates (09 R244) -/

section

variable {q lim up m : Nat} {f : Frac}

/-- Above the reduced limit a cap rate is scaled down to it, and to 8 at least. -/
theorem capStep_above (h : lim * (100 - m) * 65536 * f.den < 100 * f.num) :
    capStep q lim up m f = max 8 (q * (lim * (100 - m) * 65536) * f.den / (100 * f.num)) := if_pos h

theorem capStep_within (h : 100 * f.num ≤ lim * (100 - m) * 65536 * f.den) : capStep q lim up m f =
    if 10000 * f.num < 95 * (lim * (100 - m) * 65536) * f.den then min 256 (q + up) else q := if_neg (Nat.not_lt.2 h)

/-- A rate scaled down by a limit that is exceeded falls. -/
theorem scaled_lt {a b : Nat} (hq : 0 < q) (h : a < b) : q * a / b < q :=
  Nat.div_lt_of_lt_mul (by rw [Nat.mul_comm b]; exact Nat.mul_lt_mul_of_pos_left h hq)

theorem capStep_facts (h8 : 8 ≤ q) (h256 : q ≤ 256) : 8 ≤ capStep q lim up m f ∧ capStep q lim up m f ≤ 256 ∧
    (lim * (100 - m) * 65536 * f.den < 100 * f.num → capStep q lim up m f ≤ q ∧ (8 < q → capStep q lim up m f < q)) ∧
    (q < capStep q lim up m f → 10000 * f.num < 95 * (lim * (100 - m) * 65536) * f.den ∧ capStep q lim up m f ≤ q + up) := by
  rcases Nat.lt_or_ge (lim * (100 - m) * 65536 * f.den) (100 * f.num) with h | h
  · have falls := scaled_lt (by omega : 0 < q) h
    rw [capStep_above h, Nat.mul_assoc q]
    omega
  · rw [capStep_within h]
    split
    · next low => exact ⟨by omega, by omega, fun e => absurd e (Nat.not_lt.2 h), fun _ => ⟨low, min_le_right ..⟩⟩
    · exact ⟨h8, h256, fun e => absurd e (Nat.not_lt.2 h), fun e => absurd e (lt_irrefl q)⟩

end

/-! ## The check of what a tile holds (11 R292; log 40) -/

section

variable {s : State} {i : Nat}

/-- A class that is changed, and keeps its identifier, is found as what the change makes of it. -/
theorem cls_modCls_same {n : Nat} {c : Cls} {f : Cls → Cls} (hf : ∀ x, (f x).id = x.id) (h : s.cls n = some c) :
    (s.modCls n f).cls n = some (f c) := by
  have hid : c.id = n := by simpa using List.find?_some (p := fun x : Cls => x.id == n) h
  have keeps : (fun x : Cls => x.id == n) ∘ (fun x => if x.id == n then f x else x) = fun x => x.id == n := by
    funext x
    by_cases hx : x.id = n
    · simp [hx, hf]
    · simp [hx]
  change (s.rck.classes.map _).find? _ = _
  rw [List.find?_map, keeps, show s.rck.classes.find? _ = some c from h]
  exact congrArg some (if_pos (beq_iff_eq.2 hid))

/-- The slide that follows the check leaves the classes alone. -/
theorem rck_redip (s : State) (i : Nat) : (s.redip i).rck = (s.recheck i).rck := by
  unfold State.redip
  dsimp only
  split
  · rfl
  · split <;> rfl

theorem recheck_unchanged (h : (s.tile i).rawPlan = ((s.tile i).heldK.toNat, (s.tile i).heldD.toNat)) : s.recheck i = s := if_pos h

theorem rck_recheck_unclipped (h : s.heldPlan i = (s.tile i).rawPlan) : (s.recheck i).rck = s.rck := by
  unfold State.recheck
  simp only [h, ne_eq, not_true_eq_false, decide_false, Bool.false_eq_true, if_false]
  split <;> rfl

/-- A clip of a plan that has changed counts in the class of the tile. -/
theorem rck_recheck_clipped (hn : (s.tile i).rawPlan ≠ ((s.tile i).heldK.toNat, (s.tile i).heldD.toNat))
    (h : s.heldPlan i ≠ (s.tile i).rawPlan) :
    (s.recheck i).rck = (s.modCls (s.classOf i) (fun x => { x with clips := satInc x.clips })).rck := by
  simp only [State.recheck, hn, h, ne_eq, not_false_eq_true, decide_true, if_true, if_false]
  rfl

end

/-! ## The obligation -/

/-- Settles O53: the clip by whether the check passes, and whether a dip can make it pass; a cap rate by where the filter lies; a held plan
by whether it has changed and whether the floor clips it. -/
theorem floorAndCaps : Obligations.FloorAndCaps := by
  refine ⟨fun f c k d k' d' hc hd hf h => ?_, fun q lim up m f h8 h256 _ => capStep_facts h8 h256, fun s i k d hraw => ⟨?_, ?_⟩, fun _ => rfl⟩
  · have clip := clipped_floorClip (k := k) hc hd hf
    rw [h] at clip
    exact ⟨clip.kept, clip.stretch_le, clip.dip_le, clip.passes, clip.dip_first, clip.dip_largest, clip.stretch_largest⟩
  · rintro (⟨rfl, rfl⟩ | hp)
    · rw [rck_redip, recheck_unchanged hraw]
    · rw [rck_redip, rck_recheck_unclipped (hp.trans hraw.symm)]
  · intro c hn hp hcls
    have counted := rck_recheck_clipped (s := s) (i := i) (by rw [hraw]; simpa using hn) (by rwa [hraw])
    have found := cls_modCls_same (f := fun x => { x with clips := satInc x.clips }) (fun _ => rfl) hcls
    rwa [State.cls, ← counted, ← rck_redip] at found

end Sys2Proof.Proofs
end

section
/-! SUPPORT. The plausibility check of a suspect rail: its start, the steps of its search and its end (09 R250, R251; 03 R100; log 55). -/

namespace Sys2Proof.Proofs

open Sys2Proof.Machine Sys2Proof.Safety Sys2Proof.Laws

set_option Elab.async false

section

variable {u : State} {r : Nat}

/-! ## The start (09 R250) -/

/-- No instant is as near as `d` before the present. -/
theorem within_false {a : Option Nat} {d : Nat} (h : ∀ t, a = some t → t + d ≤ u.boot.uptime) : u.within a d = false := by
  cases a with
  | none => rfl
  | some t => simpa [State.within] using h t rfl

/-- A check of the rail begins if a plumb and a channel are free for it. -/
structure CheckDue (u : State) (r : Nat) : Prop where
  suspect : (u.rail r).suspect = true
  fault : (u.rail r).fault = false
  none_runs : (u.rail r).check = none
  grid : rmRGrid (u.rail r).map ≠ 0
  cleared : ∀ c, (u.rail r).clearedAt = some c → c + 160000000000 ≤ u.boot.uptime
  waited : ∀ c, (u.rail r).plWaitAt = some c → c + 16000000 ≤ u.boot.uptime

/-- The tile, plumb and channel that a check of the rail takes. -/
def checkParts (u : State) (r : Nat) : Option (Nat × Nat × Nat) :=
  (u.checkTile r).bind (fun c => (u.checkChan c.1 c.2).map (fun ch => (c.1, c.2, ch)))

/-- A check that begins on plumb `p` of tile `i`, measured on channel `ch`. -/
def checkBegun (u : State) (r i p ch : Nat) : State :=
  ((u.modRail r (fun x => { x with
    check := some { tile := BitVec.ofNat 8 i, plumb := BitVec.ofNat 2 p, ch := BitVec.ofNat 6 ch, t0 := u.boot.uptime } })).modChan ch
      (fun c => { c with owner := .service, setup := checkSetup i p, armed := true, armAt := u.boot.uptime })).modPlumb i p
        (fun y => { y with masked := true })

/-- A check that is due begins where its parts are free, and waits where they are not. -/
theorem checkStart_due (h : CheckDue u r) {q : Option (Nat × Nat × Nat)} (hq : checkParts u r = q) : u.checkStart r =
    q.elim (u.modRail r (fun x => { x with cWait := satInc x.cWait, plWaitAt := some u.boot.uptime }))
      (fun q => checkBegun u r q.1 q.2.1 q.2.2) := by
  unfold State.checkStart
  dsimp only
  rw [if_neg (by simp [h.suspect, h.fault, h.none_runs, h.grid, within_false h.cleared, within_false h.waited]),
    show (u.checkTile r).bind _ = q from hq]
  cases q with
  | none => rfl
  | some q => rfl

theorem checkStart_begins {i p ch : Nat} (h : CheckDue u r) (ht : u.checkTile r = some (i, p)) (hc : u.checkChan i p = some ch) :
    u.checkStart r = checkBegun u r i p ch :=
  checkStart_due h (q := some (i, p, ch)) (by simp [checkParts, ht, hc])

theorem checkStart_waits (h : CheckDue u r) (hn : u.checkTile r = none ∨ ∃ i p, u.checkTile r = some (i, p) ∧ u.checkChan i p = none) :
    u.checkStart r = u.modRail r (fun x => { x with cWait := satInc x.cWait, plWaitAt := some u.boot.uptime }) := by
  refine checkStart_due h (q := none) ?_
  rcases hn with ht | ⟨i, p, ht, hc⟩
  · simp [checkParts, ht]
  · simp [checkParts, ht, hc]

/-- The plumb that a check takes is masked, and no other tile is touched. -/
theorem checkBegun_tiles (u : State) (r i p ch : Nat) :
    (i < u.tiles.length → p < (u.tile i).plumbs.length → (((checkBegun u r i p ch).tile i).plumbs.getD p {}).masked = true) ∧
    ∀ j, j ≠ i → (checkBegun u r i p ch).tile j = u.tile j := by
  refine ⟨fun hi hp => ?_, fun j hj => tile_modTile_ne _ _ hj⟩
  have plumbs : ((checkBegun u r i p ch).tile i).plumbs = (u.tile i).plumbs.modify p (fun y => { y with masked := true }) :=
    congrArg Tile.plumbs (tile_modTile_same _ hi)
  simp [plumbs, hp]

/-- A channel that a check takes is unclaimed and fit for service. -/
theorem checkChan_free {i p ch : Nat} (h : u.checkChan i p = some ch) :
    ch < 60 ∧ (u.chan ch).owner = .none ∧ (u.chan ch).failed = false ∧ (u.chan ch).caling = false := by
  have found := List.find?_some h
  simp only [Bool.and_eq_true, decide_eq_true_eq, Bool.not_eq_true'] at found
  obtain ⟨⟨⟨owner, failed⟩, caling⟩, -⟩ := found
  exact ⟨List.mem_range.1 (List.mem_of_find?_eq_some h), owner, failed, caling⟩

/-! ## The search (09 R251) -/

/-- The code after a step that measured `d`: the probe where the droop lasted half the step or more. -/
def codeAfter (c : PlCheck) (d : Nat) : Nat := if 160000 ≤ d then c.code + 2 ^ (5 - c.steps) else c.code

theorem codeAfter_eq (c : PlCheck) (d : Nat) : (if 2 * d ≥ 320000 then c.probe else c.code) = codeAfter c d := by
  have half : 2 * d ≥ 320000 ↔ 160000 ≤ d := by omega
  simp only [half, codeAfter, PlCheck.probe]

/-- What the last step makes of its rail: confirmed, or cleared at the present. -/
def concluded (now : Nat) (bad : Bool) (x : Rail) : Rail :=
  if bad then { x with cRun := satInc x.cRun, fault := true, cConf := satInc x.cConf }
  else { x with cRun := satInc x.cRun, suspect := false, cClear := satInc x.cClear, clearedAt := some now }

theorem concluded_facts (now : Nat) (bad : Bool) (x : Rail) : (concluded now bad x).check = x.check ∧
    (concluded now bad x).cRun = satInc x.cRun ∧
    (bad = true → (concluded now bad x).fault = true ∧ (concluded now bad x).cConf = satInc x.cConf) ∧
    (bad = false → (concluded now bad x).suspect = false ∧ (concluded now bad x).cClear = satInc x.cClear ∧
      (concluded now bad x).clearedAt = some now) := by
  cases bad with
  | true => exact ⟨rfl, rfl, fun _ => ⟨rfl, rfl⟩, nofun⟩
  | false => exact ⟨rfl, rfl, nofun, fun _ => ⟨rfl, rfl, rfl⟩⟩

section

variable {c : PlCheck} {d : Nat}

theorem checkStep_drops (hc : (u.rail r).check = some c) (hs : (u.tile c.tile.toNat).st ≠ .running) :
    u.checkStep r d = u.dropCheck c.tile.toNat := by
  simp only [State.checkStep, hc, ne_eq, hs, not_false_eq_true, if_true]

theorem checkStep_early (hc : (u.rail r).check = some c) (hs : (u.tile c.tile.toNat).st = .running)
    (ht : u.boot.uptime < c.t0 + 320800 * (c.steps + 1)) : u.checkStep r d = u := by
  simp only [State.checkStep, hc, ne_eq, hs, not_true_eq_false, if_false, ht, if_true]

theorem checkStep_narrows (hc : (u.rail r).check = some c) (hs : (u.tile c.tile.toNat).st = .running)
    (ht : c.t0 + 320800 * (c.steps + 1) ≤ u.boot.uptime) (h5 : c.steps < 5) :
    u.checkStep r d = u.modRail r (fun x => { x with check := some { c with code := codeAfter c d, steps := c.steps + 1 } }) := by
  simp only [State.checkStep, hc, ne_eq, hs, not_true_eq_false, if_false, Nat.not_lt.2 ht, h5, if_true, codeAfter_eq]

/-- The checks of a tile that are dropped leave what else a rail holds. -/
theorem rail_dropCheck_proj {α : Type} (P : Rail → α) (h : ∀ x : Rail, P { x with check := none, plWaitAt := none } = P x) (s : State)
    (i j : Nat) : P ((s.dropCheck i).rail j) = P (s.rail j) := by
  rw [dropCheck_eq]
  refine List.foldlRecOn (motive := fun v : State => P (v.rail j) = P (s.rail j)) _ _ rfl (fun v hv k _ => ?_)
  unfold dropStep
  split
  · split
    · exact (rail_modRail_proj P h v k j).trans hv
    · exact hv
  · exact hv

theorem length_rails_dropCheck (s : State) (i : Nat) : (s.dropCheck i).rails.length = s.rails.length := by
  rw [dropCheck_eq]
  refine List.foldlRecOn (motive := fun v : State => v.rails.length = s.rails.length) _ _ rfl (fun v hv k _ => ?_)
  unfold dropStep
  split
  · split
    · exact (List.length_modify ..).trans hv
    · exact hv
  · exact hv

/-- The sixth step ends the check, and its rail is as its last code judges it. -/
theorem rail_checkStep_last (hr : r < u.rails.length) (hc : (u.rail r).check = some c) (hs : (u.tile c.tile.toNat).st = .running)
    (ht : c.t0 + 320800 * (c.steps + 1) ≤ u.boot.uptime) (h5 : c.steps = 5) : (u.checkStep r d).rail r =
      concluded u.boot.uptime ((u.rail r).drops (codeAfter c d)) ((u.dropCheck c.tile.toNat).rail r) := by
  have more : ¬ c.steps < 5 := by omega
  have held : r < (u.dropCheck c.tile.toNat).rails.length := by rwa [length_rails_dropCheck]
  have after : ∀ f g : Rail → Rail, (((u.dropCheck c.tile.toNat).modRail r f).modRail r g).rail r =
      g (f ((u.dropCheck c.tile.toNat).rail r)) := fun f g => by
    rw [rail_modRail_same _ (held.trans_eq (List.length_modify ..).symm), rail_modRail_same _ held]
  simp only [State.checkStep, hc, ne_eq, hs, not_true_eq_false, if_false, Nat.not_lt.2 ht, more, codeAfter_eq, concluded]
  split
  · rw [rail_logged (logged_raise ..), after]
  · rw [rail_logged (logged_raise ..), after, State.modRail_boot, (timed_dropCheck ..).boot]

theorem checkStep_last_facts (h8 : r < 8) (hr : r < u.rails.length) (hc : (u.rail r).check = some c)
    (hs : (u.tile c.tile.toNat).st = .running) (ht : c.t0 + 320800 * (c.steps + 1) ≤ u.boot.uptime) (h5 : c.steps = 5) :
    ((u.checkStep r d).rail r).check = none ∧ ((u.checkStep r d).rail r).cRun = satInc (u.rail r).cRun ∧
    ((u.rail r).drops (codeAfter c d) = true →
      ((u.checkStep r d).rail r).fault = true ∧ ((u.checkStep r d).rail r).cConf = satInc (u.rail r).cConf) ∧
    ((u.rail r).drops (codeAfter c d) = false → ((u.checkStep r d).rail r).suspect = false ∧
      ((u.checkStep r d).rail r).cClear = satInc (u.rail r).cClear ∧ ((u.checkStep r d).rail r).clearedAt = some u.boot.uptime) := by
  have ended : ((u.dropCheck c.tile.toNat).rail r).check = none := check_dropCheck h8 hc rfl
  have counts := rail_dropCheck_proj (fun x => (x.cRun, x.cConf, x.cClear)) (fun _ => rfl) u c.tile.toNat r
  simp only [Prod.mk.injEq] at counts
  obtain ⟨run, conf, clear⟩ := counts
  rw [rail_checkStep_last hr hc hs ht h5, ← ended, ← run, ← conf, ← clear]
  exact concluded_facts ..

end

end

end Sys2Proof.Proofs
end

section
/-! O38: the plausibility check of a rail, the AVSBus links and the PMBus (02 R60, R61; 09 R239, R240, R250, R251; logs 54, 55, 89). -/

namespace Sys2Proof.Proofs

open Sys2Proof.Machine Sys2Proof.Safety Sys2Proof.Laws

set_option Elab.async false

section

variable {u : State} {r l n v bad : Nat} {volt : Bool}

/-! ## The AVSBus links (02 R60) -/

theorem avsFault_good (h : bit u.power.avsBad l = false) : u.avsFault l = State.raise { u with power := { u.power with
    avsBad := u.power.avsBad ||| BitVec.ofNat 2 (2 ^ l), avsAt := u.power.avsAt.set l u.boot.uptime } } 0x701 l 0 := by
  simp only [State.avsFault, h, Bool.false_eq_true, if_false, Nat.one_shiftLeft]

theorem avsRetry_early (h : u.boot.uptime < u.power.avsAt.getD l 0 + 1600000000) : u.avsRetry l n = u :=
  if_pos (by simp only [h, decide_true, Bool.or_true])

/-- An attempt that is due: too few good frames put it off, enough return the link. -/
theorem avsRetry_due (hb : bit u.power.avsBad l = true) (h : u.power.avsAt.getD l 0 + 1600000000 ≤ u.boot.uptime) : u.avsRetry l n =
    if n < 16 then { u with power := { u.power with avsAt := u.power.avsAt.set l u.boot.uptime } }
    else State.raise { u with power := { u.power with avsBad := u.power.avsBad &&& ~~~(BitVec.ofNat 2 (2 ^ l)) } } 0x702 l 0 := by
  simp only [State.avsRetry, hb, Nat.not_lt.2 h, decide_false, Bool.not_true, Bool.or_self, Bool.false_eq_true, if_false, Nat.one_shiftLeft]

/-! ## The PMBus (02 R61; 09 R239, R240) -/

theorem pmbus_ends (h : bad < 3) (s : State) (ops : List BusOp) (f : State → State) :
    s.pmbus bad ops f = f { s with power := { s.power with bus := ops } } := if_neg (Nat.not_le.2 h)

/-- A transaction that failed to the last retry is lost and counted. -/
theorem pmbus_lost (h : 3 ≤ bad) (s : State) (ops : List BusOp) (f : State → State) :
    s.pmbus bad ops f = { s with power := { s.power with bus := ops, pmbBad := satInc s.power.pmbBad } } := if_pos h

/-- The last retry is the one that all ones name. -/
theorem tries_left {f : BitVec 2} (h : f ≠ 3) : f.toNat < 3 := by bv_omega

theorem fallbackRead_early (h : u.fallbackDue r volt = false) : u.fallbackRead r volt v bad = u :=
  if_pos (by simp only [h, Bool.not_false, Bool.or_true])

/-- An alert whose status is read: it is logged, and CLEAR_FAULTS follows. -/
theorem pmbAlert_reads (h : bad < 3) (st : BitVec 16) : u.pmbAlert r st bad = (State.modRail { u with power := { u.power with
    bus := pmbOps (u.rail r).map 0x79 none ++ pmbOps (u.rail r).map 0x03 none } } r
      (fun y => { y with cAlert := satInc y.cAlert })).raise 0x704 r st.toNat := by
  rw [State.pmbAlert, pmbus_ends h]

theorem pmbAlert_lost (h : 3 ≤ bad) (st : BitVec 16) : u.pmbAlert r st bad = { u with power := { u.power with
    bus := pmbOps (u.rail r).map 0x79 none, pmbBad := satInc u.power.pmbBad } } := by
  rw [State.pmbAlert, pmbus_lost h]

/-- The instant of a read is its rail's latest of its kind. -/
def readAt (u : State) (r : Nat) (volt : Bool) : State := u.modRail r (fun y => { y with
  pmVolt := if volt then some u.boot.uptime else y.pmVolt, pmCurr := if volt then y.pmCurr else some u.boot.uptime })

theorem fallbackRead_due (ha : (u.rail r).active = true) (hp : u.onPmbus r = true) (hd : u.fallbackDue r volt = true) :
    u.fallbackRead r volt v bad = (readAt u r volt).pmbus bad (pmbOps (u.rail r).map (if volt then 0x8B else 0x8C) none)
      (fun s => if volt then s.takeVolt r v else s.takeCurrent r v) := by
  simp only [State.fallbackRead, ha, hp, hd, Bool.not_true, Bool.or_self, Bool.false_eq_true, if_false]
  rfl

/-- The fallback rates of a voltage and of a current. -/
theorem fallbackMt_eq (u : State) (volt : Bool) : u.fallbackMt volt = (if bit u.power.pmbus 0
    then (if volt = true then 80000000 else 20000000) else (if volt = true then 32000000 else 8000000)) *
      (if u.power.avsBad = 3 then 2 else 1) := by
  have rate : (if volt then 4 else 1) * (if bit u.power.pmbus 0 then 20000000 else 8000000) = if bit u.power.pmbus 0
      then (if volt = true then 80000000 else 20000000) else (if volt = true then 32000000 else 8000000) := by
    cases volt with
    | true => cases bit u.power.pmbus 0 <;> rfl
    | false => cases bit u.power.pmbus 0 <;> rfl
  rw [State.fallbackMt, Nat.mul_right_comm, rate]

theorem fallbackDue_of_read {t : Nat} (h : (if volt = true then (u.rail r).pmVolt else (u.rail r).pmCurr) = some t) :
    u.fallbackDue r volt = decide (t + u.fallbackMt volt ≤ u.boot.uptime) := by
  simp only [State.fallbackDue, h, ge_iff_le]

end

/-! ## The obligation -/

/-- Settles O38: a check that is due by what is free for it, a step of it by its tile, its time and its number, and the buses by what is
faulted, what is due and what failed to the last retry. -/
theorem railChecksAndBuses : Obligations.RailChecksAndBuses := by
  rintro dt b _ s u x rfl hr rfl rfl h8
  have start : exec (.plausibilityCheck dt b) s = .next ((s.tick dt).checkStart b.toNat) := (event_live _ hr : execPlausibilityCheck dt b s = _)
  have search : ∀ d, exec (.plausibilitySearchStep dt b d) s = .next ((s.tick dt).checkStep b.toNat d) := fun d =>
    (event_live _ hr : execPlausibilitySearchStep dt b d s = _)
  have retry : ∀ l n, exec (.avsLinkRetry dt l n) s = .next ((s.tick dt).avsRetry l.toNat n) := fun l n =>
    (event_live _ hr : execAvsLinkRetry dt l n s = _)
  have read : ∀ volt v f, exec (.pmbusFallbackRead dt b volt ⟨v, f⟩) s = .next ((s.tick dt).fallbackRead b.toNat volt v f.toNat) :=
    fun volt v f => (event_live _ hr : execPmbusFallbackRead dt b volt ⟨v, f⟩ s = _)
  have alert : ∀ st f, exec (.pmbusAlert dt b ⟨st, f⟩) s = .next ((s.tick dt).pmbAlert b.toNat st f.toNat) := fun st f =>
    (event_live _ hr : execPmbusAlert dt b ⟨st, f⟩ s = _)
  have fault : ∀ l, exec (.avsLinkFault dt l) s = .next ((s.tick dt).avsFault l.toNat) := fun l =>
    (event_live _ hr : execAvsLinkFault dt l s = _)
  have recover : ∀ ok, exec (.pmbusBusRecovery dt ok) s = .next ((s.tick dt).pmbRecover ok) := fun ok =>
    (event_live _ hr : execPmbusBusRecovery dt ok s = _)
  have hb : b.toNat < 8 := b.isLt
  generalize b.toNat = r at *
  generalize s.tick dt = u at *
  have hlen : r < u.rails.length := h8 ▸ hb
  refine ⟨fun hs hf hc hg hcl hw => ?_, fun i p ch => checkChan_free, fun c d hc => ⟨fun hst => ?_, fun hst ht => ?_,
    fun hst ht => ⟨fun h5 => ?_, ?_⟩⟩, fun l hl => ?_, fun l n hl => ⟨fun ht => ?_, fun ht => ⟨fun hn => ?_, fun hn => ?_⟩⟩,
    fun volt v f _ _ hd => ?_, ?_, fun volt t ht => ?_, fun st f => ⟨fun hf => ?_, ?_⟩, recover⟩
  · have due : CheckDue u r := ⟨hs, hf, hc, hg, hcl, hw⟩
    refine ⟨fun i p ch hi hch _ _ => ?_, fun hn => start.trans (congrArg _ (checkStart_waits due hn))⟩
    obtain ⟨masked, others⟩ := checkBegun_tiles u r i p ch
    refine ⟨_, start.trans (congrArg _ (checkStart_begins due hi hch)), congrArg Rail.check (rail_modRail_same _ hlen), fun hl => ?_,
      masked, others, rfl⟩
    rw [show (checkBegun u r i p ch).chan ch = _ from chan_modChan_same _ hl]
    exact ⟨rfl, rfl, rfl⟩
  · exact (search d).trans (congrArg _ (checkStep_drops hc hst))
  · exact (search d).trans (congrArg _ (checkStep_early hc hst ht))
  · exact (search d).trans (congrArg _ (checkStep_narrows hc hst ht h5))
  · rintro h5 code hcode
    obtain rfl : code = codeAfter c d := by rw [hcode, codeAfter, h5, Nat.sub_self, Nat.pow_zero]
    exact ⟨_, search d, checkStep_last_facts hb hlen hc hst ht h5⟩
  · exact (fault l).trans (congrArg _ (avsFault_good hl))
  · exact (retry l n).trans (congrArg _ (avsRetry_early ht))
  · rw [retry, avsRetry_due hl ht, if_pos hn]
  · rw [retry, avsRetry_due hl ht, if_neg (Nat.not_lt.2 hn)]
  · exact (read volt v f).trans (congrArg _ (fallbackRead_early hd))
  · rintro volt v f _ ha hp hd rfl
    refine ⟨?_, ?_, ?_⟩
    · rintro hf rfl
      rw [read, fallbackRead_due ha hp hd, pmbus_ends (tries_left hf)]
      rfl
    · rintro hf rfl
      rw [read, fallbackRead_due ha hp hd, pmbus_ends (tries_left hf)]
      rfl
    · rintro rfl
      rw [read, fallbackRead_due ha hp hd, pmbus_lost (by decide)]
      rfl
  · rw [fallbackDue_of_read ht, fallbackMt_eq]
  · exact (alert st f).trans (congrArg _ (pmbAlert_reads (tries_left hf) st))
  · rintro rfl
    exact (alert st 3).trans (congrArg _ (pmbAlert_lost (by decide) st))

end Sys2Proof.Proofs
end

section
/-! O16: the convoy commands (10 R271; 13 R317, R319; 14 R340). -/

namespace Sys2Proof.Proofs

open Sys2Proof.Machine Sys2Proof.Safety Sys2Proof.Laws

set_option Elab.async false

/-- `noMailboxes` LOCKED, as a member with a join in hand. -/
def joiningNoMailboxes : State := { noMailboxes with
  mer := { noMailboxes.mer with st := .locked }
  cvy := { noMailboxes.cvy with st := .joining } }

/-- CVY_LEAVE from mailbox 0, at the earliest instant that R271 admits, 32,000 mt ahead. -/
def leaveSoon : Req := { mbx := 0, tag := 7, sess := 0, rsv := 0, args := [32000, 0] }

/-- Nothing but the mailboxes is missing: the premises of a leave while JOINING hold. -/
theorem joiningNoMailboxes_leaves : ready false (joiningNoMailboxes.tick 0) leaveSoon = true ∧
    (joiningNoMailboxes.tick 0).haltedB = false ∧ (joiningNoMailboxes.tick 0).inHorizon (leaveSoon.w64 1) = true ∧
    2 ^ 63 + 32000 ≤ (joiningNoMailboxes.tick 0).key (leaveSoon.w64 1) ∧ (joiningNoMailboxes.tick 0).cvy.leaveAt = none ∧
    (joiningNoMailboxes.tick 0).schedulable = true ∧ (joiningNoMailboxes.tick 0).cvy.st = .joining := by decide +kernel

/-- The leave runs, and mailbox 0 does not hold its answer. -/
theorem cvyLeave_noMailboxes : ((postCmd cmdCvyLeave 0 leaveSoon joiningNoMailboxes).mbx 0).held = .idle := by decide +kernel

/-- Refutes O16: the statement admits a state without the eight mailboxes of 13 R317, where nothing holds the command's answer; there
CVY_LEAVE ends the join in hand, and no mailbox reads ACCEPTED. -/
theorem not_convoyCommands : ¬ Obligations.ConvoyCommands := by
  intro h
  obtain ⟨hready, hhalt, hin, hlead, hnone, hsched, hjoining⟩ := joiningNoMailboxes_leaves
  obtain ⟨-, leave, -⟩ := h 0 leaveSoon joiningNoMailboxes _ rfl hready
  obtain ⟨t, he, -, -, -, -, hheld, -⟩ := (leave hhalt 32000 0 rfl hin hlead hnone hsched).2 hjoining
  obtain rfl : postCmd cmdCvyLeave 0 leaveSoon joiningNoMailboxes = t := by injection he
  rw [show leaveSoon.mbx = 0 from rfl, cvyLeave_noMailboxes] at hheld
  exact absurd hheld (by decide)

end Sys2Proof.Proofs
end

section
/-! O40: the leases of a convoy member at SPAN_START (10 R280, R281). -/

namespace Sys2Proof.Proofs

open Sys2Proof.Machine Sys2Proof.Safety Sys2Proof.Laws

set_option Elab.async false

/-- A lease of rate 192 that ends 50 mt into the span from 160,000 mt. -/
def endedLease : Lease := { from_ := 0, till := 160050, q := 192, why := 0, own := false, inst := 0 }

/-- An ACTIVE member that holds this lease, 100 mt into that span. -/
def withinSpan : State := { State.reset with
  mer := { State.reset.mer with st := .locked, now := 160100 }
  cvy := { State.reset.cvy with st := .active, leases := [endedLease] } }

/-- The lease covers the start of the span that runs, and has ended. -/
theorem withinSpan_leases : withinSpan.boot.inReset = false ∧ endedLease ∈ (withinSpan.tick 0).cvy.leases ∧
    (withinSpan.tick 0).leaseNow endedLease = true ∧ (withinSpan.tick 0).key endedLease.till < nowK := by decide +kernel

/-- The lease goes, and the follow rate is full. -/
theorem spanStart_withinSpan : (withinSpan.tick 0).spanStart.cvy.leases = [] ∧ (withinSpan.tick 0).spanStart.cvy.rate = 256 := by
  decide +kernel

/-- Refutes O40: the statement bounds the follow rate by every lease that covers the start of the span that runs (`leaseNow`), and admits
a SPAN_START after that start, when such a lease may have ended; there the event lets it go, and the follow rate is 256 and not at most
its 192. -/
theorem not_convoyEvents : ¬ Obligations.ConvoyEvents := by
  intro h
  obtain ⟨hreset, hmem, hnow, -⟩ := withinSpan_leases
  obtain ⟨-, -, -, -, -, -, -, ⟨t, he, -, -, -, hrates, -⟩, -⟩ := h 0 withinSpan _ rfl hreset
  have hrate : t.cvy.rate.toNat ≤ endedLease.q.toNat := (hrates endedLease hmem hnow).1 rfl
  have hstep : exec (.spanStart 0) withinSpan = .next (withinSpan.tick 0).spanStart :=
    (event_live _ hreset : execSpanStart 0 withinSpan = _)
  obtain rfl : (withinSpan.tick 0).spanStart = t := by
    rw [hstep] at he
    injection he
  obtain ⟨-, hfull⟩ := spanStart_withinSpan
  rw [hfull] at hrate
  exact absurd hrate (by decide)

end Sys2Proof.Proofs
end

section
/-! SUPPORT. What a RESTART leaves of the Helm and of the tiles (13 R316; 16 R370, R376; 18 R411). -/

namespace Sys2Proof.Proofs

open Sys2Proof.Machine Sys2Proof.Safety Sys2Proof.Laws

set_option Elab.async false

/-- The Helm and every tile's state are as they were. -/
structure HelmStill (s t : State) : Prop where
  helm : t.helm = s.helm
  st : ∀ j, (t.tile j).st = (s.tile j).st

namespace HelmStill

variable {s t u : State}

/-- A change of other fields. -/
theorem same (helm : t.helm = s.helm := by rfl) (tiles : t.tiles = s.tiles := by rfl) : HelmStill s t :=
  ⟨helm, fun j => by rw [State.tile, State.tile, tiles]⟩
theorem refl (s : State) : HelmStill s s := .same
theorem trans (a : HelmStill s t) (b : HelmStill t u) : HelmStill s u := ⟨b.helm.trans a.helm, fun j => (b.st j).trans (a.st j)⟩
/-- The parts of a change from the last to the first. -/
theorem after (b : HelmStill t u) (a : HelmStill s t) : HelmStill s u := a.trans b
theorem ite {p : Prop} [Decidable p] (ha : p → HelmStill s t) (hb : ¬ p → HelmStill s u) : HelmStill s (if p then t else u) := by
  split
  · exact ha ‹_›
  · exact hb ‹_›
theorem each {α : Type} {f : State → α → State} (h : ∀ s a, HelmStill s (f s a)) (s : State) (l : List α) : HelmStill s (s.each l f) :=
  List.foldlRecOn l f (refl s) (fun _ hb a _ => hb.trans (h _ a))
theorem logged (h : Logged s t) : HelmStill s t := .same h.helm h.tiles
theorem answered (h : Answered s t) : HelmStill s t := .same h.helm h.tiles
theorem delivered (h : Delivered s t) : HelmStill s t := .same (by rw [h.eq]) h.tiles
theorem modTile (s : State) (i : Nat) {f : Tile → Tile} (h : ∀ x, (f x).st = x.st) : HelmStill s (s.modTile i f) :=
  ⟨rfl, tile_modTile_proj Tile.st h s i⟩
/-- A change of every tile that leaves its state. -/
theorem mapTiles {f : Tile → Tile} (h : ∀ x, (f x).st = x.st) (helm : t.helm = s.helm := by rfl)
    (tiles : t.tiles = s.tiles.map f := by rfl) : HelmStill s t :=
  ⟨helm, fun j => by rw [State.tile, State.tile, tiles]; exact st_getD_map h s.tiles j⟩

end HelmStill

/-! ## Setups and calibrations given up (03 R91, R99) -/

theorem delivered_nextSetup (s : State) (k : Nat) : Delivered s (s.nextSetup k) := by
  unfold State.nextSetup
  dsimp only
  split
  · refine .ite (fun _ => .refl s) (fun _ => .ite (fun _ => ?_) (fun _ => ?_))
    · exact .after (delivered_finishO ..) (.modChan ..)
    · exact .after (delivered_finishO ..) (.after (.modChan ..) (.modChan ..))
  · exact .refl s

theorem delivered_takeSetups (s : State) (k : Nat) : Delivered s (s.takeSetups k) := .each (fun _ _ => delivered_nextSetup ..) _ _

/-! ## Tests given up (18 R411) -/

theorem helmStill_testReset (s : State) (id target : Nat) : HelmStill s (s.testReset id target) := by
  unfold State.testReset
  refine .ite (fun _ => ?_) (fun _ => .ite (fun _ => ?_) (fun _ => .ite (fun _ => ?_) (fun _ => .refl s)))
  · exact .mapTiles newProgram_st
  · exact .same
  · refine .each (fun v i => ?_) s _
    exact .modTile v i (fun _ => rfl)

theorem helmStill_notRun (s : State) (h : BitVec 16) (r : BitVec 2) (id target : Nat) :
    HelmStill s ((s.setTest h r 0).testReset id target) := .after (helmStill_testReset ..) .same

theorem helmStill_endGrant (s : State) : HelmStill s s.endGrant := by
  unfold State.endGrant
  split
  · exact .refl s
  · exact .after (.answered (answered_settle ..)) <| .after .same <| .each (fun _ _ => helmStill_notRun ..) _ _

/-! ## RESTART (13 R316; 16 R370, R376) -/

theorem helmStill_dropWait (s : State) (n : BitVec 3) : HelmStill s (s.dropWait n) := by
  unfold State.dropWait
  split
  · exact .delivered (.after (delivered_takeSetups ..) (.modChan ..))
  · split
    · exact helmStill_notRun ..
    · exact .refl s
  · exact .refl s

theorem helmStill_failAll (s : State) (reason : Nat) : HelmStill s (s.failAll reason) :=
  .after (.each (fun v n => .after (.delivered (delivered_finishO _ (some n) _)) (helmStill_dropWait v n)) _ _) .same

theorem helmStill_dropAnswers (s : State) : HelmStill s s.dropAnswers :=
  .mapTiles (f := fun t => { t with sched := t.sched.map (fun x => { x with mbx := none }) }) (fun _ => rfl)

theorem helmStill_loadFail (s : State) (r : Resp) : HelmStill s (s.loadFail r) :=
  .answered (.trans ⟨rfl⟩ (.trans (answered_settleO ..) (answered_runMaps _)))

theorem delivered_endClaim (s : State) (k : Nat) : Delivered s (State.dropClaim s k) :=
  .after (.modChan ..) <| .after (.each (fun _ _ => delivered_finishO ..) _ _) <| .after (.modChan ..) (delivered_disarm s k)

theorem helmStill_endSess (s : State) (h : BitVec 3) : HelmStill s (s.endSess h) := by
  unfold State.endSess
  split
  · exact .refl s
  · exact .after (.ite (fun _ => .refl _) (fun _ => .logged (logged_raise ..))) <|
      .after (.delivered (.each delivered_endClaim _ _)) .same

/-- RESTART moves the Helm alone: what it has found of its code stays, and so does every tile's state. -/
theorem restart_facts (s : State) (reason : Nat) : (s.restart reason).helm.stage = .restart ∧
    (s.restart reason).helm.codeBad = s.helm.codeBad ∧ ∀ j, ((s.restart reason).tile j).st = (s.tile j).st := by
  unfold State.restart
  extract_lets lvl v w x y
  have hw : HelmStill s w := .after (helmStill_dropAnswers _) <| .after (helmStill_endGrant v) (helmStill_failAll ..)
  have hx : HelmStill w x := .ite (fun _ => helmStill_loadFail ..) (fun _ => .refl w)
  have hy : HelmStill s y := .trans hw (.trans hx (.each helmStill_endSess _ _))
  have code : y.helm.codeBad = s.helm.codeBad := congrArg Helm.codeBad hy.helm
  clear_value y
  exact ⟨rfl, code, hy.st⟩

/-- A running Helm that is asked to restart does, once it has counted that. -/
theorem askRestart_run {s : State} (h : s.helm.stage = .run) :
    ∃ m : Helm, m.codeBad = s.helm.codeBad ∧ s.askRestart = State.restart { s with helm := m } 2 :=
  ⟨{ s.helm with restarts := satInc s.helm.restarts }, rfl, if_neg (not_not_intro h)⟩

theorem askRestart_facts {s : State} (h : s.helm.stage = .run) : s.askRestart.helm.stage = .restart ∧
    s.askRestart.helm.codeBad = s.helm.codeBad ∧ ∀ j, (s.askRestart.tile j).st = (s.tile j).st := by
  obtain ⟨m, code, he⟩ := askRestart_run h
  rw [he, ← code]
  exact restart_facts { s with helm := m } 2

end Sys2Proof.Proofs
end

section
/-! SUPPORT. Scrubbed and uncorrectable words (17 R389 to R391, Table 17.3). -/

namespace Sys2Proof.Proofs

open Sys2Proof.Machine Sys2Proof.Safety Sys2Proof.Laws

set_option Elab.async false

/-! ## Scrubs (17 R390) -/

section

variable {u : State} {r : MemRegion} {n k : Nat}

/-- A scrub of a word that is not uncorrectable, in the memory whose correctable words are counted at `k`. -/
theorem scrub_reads (hk : eccPlace r = some k) (hn : n < regionWords r) (hb : (r, n) ∉ u.faults.bad) (c : Bool) : u.scrub r n c =
    if !c then { u with faults := { u.faults with once := u.faults.once.filter (· != (r, n)) } }
    else
      let again := u.faults.once.contains (r, n)
      let sticks := again && !u.faults.sticky.contains (r, n)
      let v : State := { u with faults := { u.faults with
        ecc := u.faults.ecc.modify k satInc, once := if again then u.faults.once else (r, n) :: u.faults.once
        sticky := if sticks then (r, n) :: u.faults.sticky else u.faults.sticky } }
      if sticks then v.raise 0xA02 (memIdx r) n else v := by
  unfold State.scrub
  rw [hk]
  exact if_neg (by simp [hn, hb])

theorem scrub_clean (hk : eccPlace r = some k) (hn : n < regionWords r) (hb : (r, n) ∉ u.faults.bad) : u.scrub r n false =
    { u with faults := { u.faults with once := u.faults.once.filter (fun x => x != (r, n)) } } := scrub_reads hk hn hb false

theorem scrub_first (hk : eccPlace r = some k) (hn : n < regionWords r) (hb : (r, n) ∉ u.faults.bad) (ho : (r, n) ∉ u.faults.once) :
    u.scrub r n true = { u with faults := { u.faults with
      ecc := u.faults.ecc.modify k satInc, once := (r, n) :: u.faults.once } } := by
  have again : u.faults.once.contains (r, n) = false := by simpa using ho
  rw [scrub_reads hk hn hb, again]
  rfl

theorem scrub_again (hk : eccPlace r = some k) (hn : n < regionWords r) (hb : (r, n) ∉ u.faults.bad) (ho : (r, n) ∈ u.faults.once)
    (hs : (r, n) ∉ u.faults.sticky) : u.scrub r n true = State.raise { u with faults := { u.faults with
      ecc := u.faults.ecc.modify k satInc, sticky := (r, n) :: u.faults.sticky } } 0xA02 (memIdx r) n := by
  have again : u.faults.once.contains (r, n) = true := by simpa using ho
  have fresh : u.faults.sticky.contains (r, n) = false := by simpa using hs
  rw [scrub_reads hk hn hb, again, fresh]
  rfl

end

/-! ## Uncorrectable words (17 R391, Table 17.3) -/

/-- An uncorrectable weight stays bad until it is written. -/
theorem eccUnc_weight {u : State} {n : Nat} (hn : n < 262144) : u.eccUnc .weight n = State.raise { u with faults := { u.faults with
    ecc := u.faults.ecc.modify 1 satInc
    bad := if (.weight, n) ∈ u.faults.bad then u.faults.bad else (.weight, n) :: u.faults.bad } } 0xA01 0 n := by
  have bad : (if staysBad .weight && !u.faults.bad.contains (.weight, n) then (.weight, n) :: u.faults.bad else u.faults.bad) =
      if (.weight, n) ∈ u.faults.bad then u.faults.bad else (.weight, n) :: u.faults.bad := by
    by_cases h : (MemRegion.weight, n) ∈ u.faults.bad <;> simp [staysBad, h]
  rw [← bad]
  exact if_neg (Nat.not_le.2 hn)

/-- State lost with a word of State SRAM begins anew at its tile. -/
theorem eccUnc_tileState {u : State} {n : Nat} (hn : n < 65536) : u.eccUnc .tileState n = (State.raise { u with faults := { u.faults with
    ecc := u.faults.ecc.modify 5 satInc } } 0xA01 1 n).modTile (n / 256) Tile.newProgram := if_neg (Nat.not_le.2 hn)

theorem helmStill_eccCount (s : State) (r : MemRegion) (n : Nat) : HelmStill s (s.eccCount r n) :=
  .after (.logged (logged_raise ..)) .same

/-- A bad word of the running code restarts the Helm, which does not trust that code again. -/
theorem eccUnc_helmCode {u : State} {n : Nat} (hn : n < 65536) (hr : u.helm.stage = .run) : (u.eccUnc .helmCode n).helm.stage = .restart ∧
    (u.eccUnc .helmCode n).helm.codeBad = true ∧ ∀ j, ((u.eccUnc .helmCode n).tile j).st = (u.tile j).st := by
  have counted := helmStill_eccCount u .helmCode n
  have he : u.eccUnc .helmCode n = State.askRestart { u.eccCount .helmCode n with helm := { (u.eccCount .helmCode n).helm with
      codeBad := true } } := (if_neg (Nat.not_le.2 hn)).trans (if_pos (by simp [counted.helm, hr]))
  rw [he]
  generalize u.eccCount .helmCode n = v at counted
  obtain ⟨stage, code, st⟩ := askRestart_facts (s := { v with helm := { v.helm with codeBad := true } })
    ((congrArg Helm.stage counted.helm).trans hr)
  exact ⟨stage, code, fun j => (st j).trans (counted.st j)⟩

end Sys2Proof.Proofs
end

section
/-! SUPPORT. A clock that stops and comes back (12 R308 to R310; 13 R324; 02 R50). -/

namespace Sys2Proof.Proofs

open Sys2Proof.Machine Sys2Proof.Safety Sys2Proof.Laws

set_option Elab.async false

/-! ## The clocks' bits -/

theorem bit_setFld_same {n k : Nat} (x : BitVec n) (h : k < n) (v : Nat) : bit (setFld x k 1 v) k = v.testBit 0 := by
  have hn : 0 < n := Nat.zero_lt_of_lt h
  simp only [bit, setFld, BitVec.getLsbD_or, BitVec.getLsbD_and, BitVec.getLsbD_not, BitVec.getLsbD_shiftLeft, BitVec.getLsbD_ofNat, h]
  simp [hn]

theorem domIdx_lt (d : Dom) : domIdx d < 8 := by
  cases d <;> decide

/-! ## A clock that stops (12 R308) -/

/-- The boot domain once it has declared a clock stopped. -/
def stoppedClk (b : Boot) (k : Nat) : Boot := { b with clkStopped := setFld b.clkStopped k 1 1, clkRun := setFld b.clkRun k 1 0 }

theorem clkStop_other {u : State} {d : Dom} (h : bit u.boot.clkStopped (domIdx d) = false) (hc : d ≠ .core)
    (hl : d = .lode → u.sxt.enabled = true) :
    u.clkStop d = State.raise { u with boot := stoppedClk u.boot (domIdx d) } 0x203 (domIdx d) 0 := by
  unfold State.clkStop
  rw [if_neg (by simpa [h] using hl)]
  simp only [hc, decide_false, Bool.false_and, Bool.false_eq_true, if_false]
  rfl

/-- The ctl domain keeps the meridian time that crossing 5 brought it last. -/
theorem clkStop_core {u : State} (h : bit u.boot.clkStopped 4 = false) : bit (u.clkStop .core).boot.clkStopped 4 = true ∧
    bit (u.clkStop .core).boot.clkRun 4 = false ∧ (u.xingOk 5 = true → (u.clkStop .core).ctl.snapMer = u.mer.now) ∧
    (u.clkStop .core).tiles = u.tiles := by
  have he : u.clkStop .core = State.raise { (if u.xingOk 5 then u.holdMer else u) with
      boot := stoppedClk (if u.xingOk 5 then u.holdMer else u).boot 4 } 0x203 4 0 := if_neg (by simp [domIdx, h])
  rw [he, (logged_raise ..).boot, (logged_raise ..).ctl, (logged_raise ..).tiles]
  refine ⟨bit_setFld_same _ (by decide) 1, bit_setFld_same _ (by decide) 0, fun h5 => ?_, ?_⟩
  · simp only [h5, if_true]
    rfl
  · cases u.xingOk 5 <;> rfl

/-! ## A clock that comes back (12 R308, R310; 13 R324) -/

/-- The control port, the mailboxes, the crossings and the convoy port alone differ. -/
structure PortSide (s t : State) : Prop where
  eq : t = { s with ctl := t.ctl, mbxs := t.mbxs, xings := t.xings, cvy := t.cvy }

namespace PortSide

variable {s t u : State}

theorem refl (s : State) : PortSide s s := ⟨rfl⟩
theorem trans (a : PortSide s t) (b : PortSide t u) : PortSide s u := by
  obtain ⟨a⟩ := a
  rw [a] at b
  exact ⟨b.eq⟩
/-- The parts of a change from the last to the first. -/
theorem after (b : PortSide t u) (a : PortSide s t) : PortSide s u := a.trans b
theorem ite {p : Prop} [Decidable p] (ha : p → PortSide s t) (hb : ¬ p → PortSide s u) : PortSide s (if p then t else u) := by
  split
  · exact ha ‹_›
  · exact hb ‹_›
theorem boot (h : PortSide s t) : t.boot = s.boot := by rw [h.eq]
theorem tiles (h : PortSide s t) : t.tiles = s.tiles := by rw [h.eq]
theorem rails (h : PortSide s t) : t.rails = s.rails := by rw [h.eq]
theorem faults (h : PortSide s t) : t.faults = s.faults := by rw [h.eq]

end PortSide

theorem portSide_cvyPump (s : State) : PortSide s s.cvyPump := .ite (fun _ => .refl s) (fun _ => ⟨rfl⟩)

theorem portSide_publish (s : State) (n : BitVec 3) : PortSide s (s.publish n) :=
  .ite (fun _ => ⟨rfl⟩) (fun _ => .ite (fun _ => ⟨rfl⟩) (fun _ => ⟨rfl⟩))

theorem portSide_publishHeld (s : State) : PortSide s s.publishHeld :=
  List.foldlRecOn _ _ (.refl s) (fun _ hb n _ => hb.trans (portSide_publish _ n))

theorem portSide_portUpAgain (s : State) (p : Port) : PortSide s (s.portUpAgain p) := by
  cases p with
  | ctl => exact ⟨rfl⟩
  | log => exact ⟨rfl⟩
  | man => exact ⟨rfl⟩
  | cvy => exact .after (portSide_cvyPump _) ⟨rfl⟩

theorem portSide_portRelease (s : State) (p : Port) : PortSide s (s.portRelease p) :=
  .ite (fun _ => .refl s) (fun _ => .ite (fun _ => .after (portSide_portUpAgain ..) ⟨rfl⟩) (fun _ => ⟨rfl⟩))

theorem portSide_releaseHeld (s : State) (d : Dom) : PortSide s (s.releaseHeld d) := by
  have port : ∀ (b : Bool) (p : Port), PortSide s (if b then s.portRelease p else s) := fun b p =>
    .ite (fun _ => portSide_portRelease s p) (fun _ => .refl s)
  cases d with
  | ctl => exact port _ .ctl
  | log => exact port _ .log
  | man => exact port _ .man
  | cvy => exact port _ .cvy
  | core => exact .refl s
  | rck => exact .refl s
  | sxt => exact .refl s
  | lode => exact .refl s

theorem clkBack_facts (u : State) (d : Dom) : bit (u.clkBack d).boot.clkRun (domIdx d) = true ∧
    bit (u.clkBack d).boot.clkStopped (domIdx d) = false ∧ (u.clkBack d).tiles = u.tiles ∧ (u.clkBack d).rails = u.rails ∧
    (bit u.boot.clkStopped (domIdx d) = false → (u.clkBack d).faults = u.faults) := by
  unfold State.clkBack
  extract_lets k stopped _ _ v w x y
  have hy : PortSide v y := .trans (portSide_releaseHeld v d) <|
    .trans (.ite (fun _ => portSide_cvyPump w) (fun _ => .refl w)) (.ite (fun _ => portSide_publishHeld x) (fun _ => .refl x))
  have hz : Logged y (if stopped then y.raise 0x204 k 0 else y) := by
    split
    · exact logged_raise ..
    · exact .refl y
  rw [hz.boot, hz.tiles, hz.rails, hy.boot, hy.tiles, hy.rails]
  refine ⟨bit_setFld_same _ (domIdx_lt d) 1, bit_setFld_same _ (domIdx_lt d) 0, rfl, rfl, fun h => ?_⟩
  rw [if_neg (by simp [stopped, k, h]), hy.faults]

end Sys2Proof.Proofs
end

section
/-! O45: scrubs, uncorrectable words, clock stops and crossings (12 R308 to R313; 17 R386 to R391, Table 17.3). -/

namespace Sys2Proof.Proofs

open Sys2Proof.Machine Sys2Proof.Safety Sys2Proof.Laws

set_option Elab.async false

section

variable {u : State} {x i : Nat} {e : BitVec 8}

/-! ## Waits at a crossing (12 R309) -/

/-- A wait at crossing `x` that expires is counted. -/
def waited (u : State) (x i : Nat) : State := u.modXing x i (fun c => { c with tos := satInc c.tos, toSeen := true })

theorem xingTimeout_eq (hw : xingWaits x = true) (hp : 23 ≤ x → u.present i = true) : u.xingTimeout x i =
    if (u.xing x i).toSeen then waited u x i else (waited u x i).raise 0x901 x (if 23 ≤ x then i else 0) := by
  refine if_neg ?_
  by_cases h : 23 ≤ x
  · simp [hw, hp h]
  · simp [hw, h]

/-! ## Stale crossings (12 R311, R312) -/

theorem xing_main (h : x < 23) (i : Nat) : u.xing x i = u.xings.main.getD x {} := by
  rw [State.xing, if_neg (by omega), if_neg (by omega)]

theorem xing_modXing_main (h : x < 23) (hl : x < u.xings.main.length) (i j : Nat) (f : Xing → Xing) :
    (u.modXing x i f).xing x j = f (u.xing x j) := by
  rw [xing_main h, xing_main h]
  simp [State.modXing, show x ≠ 23 by omega, show x ≠ 24 by omega, hl]

/-- Only crossings into the ctl domain and the Reckoner leave their receiver holding what they brought last. -/
theorem holdStale_inner (h : 10 < x) : u.holdStale x = u := by
  unfold State.holdStale
  split
  · omega
  · omega
  · omega
  · omega
  · omega
  · rfl

theorem xingInReset_inner (h : 13 < x) : u.xingInReset x = false := by
  unfold State.xingInReset
  rw [if_neg (by omega), if_neg (by omega), if_neg (by omega), if_neg (by omega)]

/-- Crossing `x` once it has turned stale against the epoch `e`. -/
def turned (u : State) (x i : Nat) (e : BitVec 8) : State :=
  u.modXing x i (fun c => { c with stale := true, other := e, gap := c.gap || xingCounts x, stales := satInc c.stales })

theorem logged_reportStale (s : State) (x i : Nat) : Logged s (s.reportStale x i false) := logged_raise ..

/-- A crossing beyond the ports' turns stale: its report, and for a tile's own crossing a fence. -/
theorem xingStale_turns (h13 : 13 < x) (h24 : x ≤ 24) (h21 : x ≠ 21) (hp : 23 ≤ x → u.present i = true)
    (hs : (u.xing x i).stale = false) (he : e ≠ (u.xing x i).own) : u.xingStale x i e false =
      if x ≥ 23 then State.fence ((turned u x i e).reportStale x i false) i 7 else (turned u x i e).reportStale x i false := by
  have reached : ¬ (decide (x = 21) || decide (x > 24) || (decide (x ≥ 23) && !u.present i) || u.xingInReset x) = true := by
    simpa [h21, xingInReset_inner h13, h24] using hp
  have beyond : ¬ (decide (7 ≤ x) && decide (x ≤ 9)) = true := by
    simp
    omega
  unfold State.xingStale
  dsimp only
  rw [if_neg reached, hs, if_neg Bool.false_ne_true, if_neg he, holdStale_inner (by omega), if_neg beyond]
  rfl

/-- An internal crossing turns stale against the epoch that its other side shows, and is counted. -/
theorem xingStale_internal (hlo : 14 ≤ x) (hhi : x ≤ 20) (hl : x < u.xings.main.length) (hs : (u.xing x 0).stale = false)
    (he : e ≠ (u.xing x 0).own) (i : Nat) {t : State} (ht : t = u.xingStale x i e false) : (t.xing x 0).stale = true ∧
      (t.xing x 0).other = e ∧ (t.xing x 0).stales = satInc (u.xing x 0).stales ∧ t.tiles = u.tiles := by
  have same : u.xing x i = u.xing x 0 := by rw [xing_main (by omega), xing_main (by omega)]
  rw [xingStale_turns (by omega) (by omega) (by omega) (by omega) (same ▸ hs) (same ▸ he), if_neg (by omega)] at ht
  have report := logged_reportStale (turned u x i e) x i
  rw [← ht] at report
  have hx : t.xing x 0 = (turned u x i e).xing x 0 := by rw [State.xing, State.xing, report.xings]
  rw [hx, turned, xing_modXing_main (by omega) hl]
  exact ⟨rfl, rfl, rfl, report.tiles⟩

/-- A running tile whose own crossing turns stale is fenced. -/
theorem xingStale_fences (hx : x = 23 ∨ x = 24) (hp : u.present i = true) (hs : (u.xing x i).stale = false)
    (he : e ≠ (u.xing x i).own) (hi : i < u.tiles.length) (hr : (u.tile i).st = .running) :
    ((u.xingStale x i e false).tile i).st = .fenced ∧ ((u.xingStale x i e false).tile i).cause = 7 := by
  rw [xingStale_turns (by omega) (by omega) (by omega) (fun _ => hp) hs he, if_pos (by omega)]
  have report := logged_reportStale (turned u x i e) x i
  generalize (turned u x i e).reportStale x i false = v at report
  have tiles : v.tiles = u.tiles := report.tiles
  have st : (v.tile i).st = .running := by rw [State.tile, tiles]; exact hr
  exact fence_fences ((present_congr report.ties).trans hp) (tiles ▸ hi) (by simp [st]) (by simp [st]) 7

/-! ## The resync (12 R313, Table 12.5) -/

/-- An internal crossing, its resync done and reported. -/
def resynced (u : State) (x : Nat) : State := (u.modXing x 0 (fun c => c.fresh (c.own + 1))).raise 0x903 x 0

theorem xingResync_done (hlo : 14 ≤ x) (hhi : x ≤ 20) (hs : (u.xing x 0).stale = true) (hf : (u.xing x 0).failed = false) :
    u.xingResync x true = if x = 16 then (resynced u x).each (List.range 60) State.takeSetups
      else if x = 18 then (resynced u x).each [60, 61, 62] State.takeSetups else resynced u x := by
  have reached : ¬ (decide (x < 14) || decide (x > 20) || !(u.xing x 0).stale || (u.xing x 0).failed) = true := by
    simp [hs, hf, hlo, hhi]
  exact (if_neg reached).trans (if_pos rfl)

end

/-! ## The obligation -/

/-- Settles O45: a scrub by what the passes before it found, an uncorrectable word by its memory, the clocks by their bits, and a crossing
by its place: the internal ones turn stale and come back, a tile's own one fences it. -/
theorem clocksAndCrossings : Obligations.ClocksAndCrossings := by
  rintro dt s _ rfl hr
  have scrub : ∀ r n c, exec (.scrub dt r n c) s = .next ((s.tick dt).scrub r n c) := fun r n c =>
    (event_live _ hr : execScrub dt r n c s = _)
  have unc : ∀ r n, exec (.eccUnc dt r n) s = .next ((s.tick dt).eccUnc r n) := fun r n => (event_live _ hr : execEccUnc dt r n s = _)
  have stop : ∀ d, exec (.clkStop dt d) s = .next ((s.tick dt).clkStop d) := fun d => (event_live _ hr : execClkStop dt d s = _)
  have back : ∀ d, exec (.clkBack dt d) s = .next ((s.tick dt).clkBack d) := fun d => (event_live _ hr : execClkBack dt d s = _)
  have timeout : ∀ (x : BitVec 5) (i : BitVec 8), exec (.xingTimeout dt x i) s = .next ((s.tick dt).xingTimeout x.toNat i.toNat) :=
    fun x i => (event_live _ hr : execXingTimeout dt x i s = _)
  have stale : ∀ (x : BitVec 5) (i e : BitVec 8), exec (.xingStale dt x i e false) s =
      .next ((s.tick dt).xingStale x.toNat i.toNat e false) := fun x i e => (event_live _ hr : execXingStale dt x i e false s = _)
  have resync : ∀ x : BitVec 5, exec (.xingResync dt x true) s = .next ((s.tick dt).xingResync x.toNat true) := fun x =>
    (event_live _ hr : execXingResync dt x true s = _)
  generalize s.tick dt = u at *
  refine ⟨fun r n k hk hn hb => ⟨?_, fun ho => ?_, fun ho hs => ?_⟩, fun n hn => ?_, fun n hn => ?_, fun n hn hh => ?_,
    fun d hd hc hl => ?_, fun h4 => ?_, fun d => ?_, fun x i hw hp => ⟨fun hseen => ?_, fun hseen => ?_⟩,
    fun x i e hlo hhi hl hs he => ?_, fun x i e hx hp hs he hi hrun => ?_, ?_⟩
  · exact (scrub r n false).trans (congrArg _ (scrub_clean hk hn hb))
  · exact (scrub r n true).trans (congrArg _ (scrub_first hk hn hb ho))
  · exact (scrub r n true).trans (congrArg _ (scrub_again hk hn hb ho hs))
  · exact (unc .weight n).trans (congrArg _ (eccUnc_weight hn))
  · exact (unc .tileState n).trans (congrArg _ (eccUnc_tileState hn))
  · exact ⟨_, unc .helmCode n, eccUnc_helmCode hn hh⟩
  · exact (stop d).trans (congrArg _ (clkStop_other hd hc hl))
  · exact ⟨_, stop .core, clkStop_core h4⟩
  · exact ⟨_, back d, clkBack_facts u d⟩
  · rw [timeout, xingTimeout_eq hw hp, if_pos hseen]
    rfl
  · rw [timeout, xingTimeout_eq hw hp, if_neg (by simp [hseen])]
    rfl
  · exact ⟨_, stale x i e, xingStale_internal hlo hhi hl hs he i.toNat rfl⟩
  · have place : x.toNat = 23 ∨ x.toNat = 24 := hx.imp (fun h => by rw [h]; rfl) (fun h => by rw [h]; rfl)
    exact ⟨_, stale x i e, xingStale_fences place hp hs he hi hrun⟩
  · rintro x hlo hhi hs hf _ rfl
    have at16 : x.toNat = 16 ↔ x = 16 := by bv_omega
    have at18 : x.toNat = 18 ↔ x = 18 := by bv_omega
    rw [resync, xingResync_done hlo hhi hs hf]
    simp only [at16, at18]
    rfl

end Sys2Proof.Proofs
end

section
/-! O48: the headers of requests and responses and the words behind them (13 R317, R319; Tables 13.2, 13.3). -/

namespace Sys2Proof.Proofs

open Sys2Proof.Machine Sys2Proof.Safety Sys2Proof.Laws

set_option Elab.async false

/-- A field of a packed value that no other field overlaps reads back. -/
theorem fld_pack {l : List (Nat × Nat × Nat)} {n lo w v : Nat} (hm : (lo, w, v) ∈ l) (hn : lo + w ≤ n)
    (hd : ∀ x ∈ l, x ≠ (lo, w, v) → x.1 + x.2.1 ≤ lo ∨ lo + w ≤ x.1) : fld (BitVec.ofNat n (pack l)) lo w = v % 2 ^ w := by
  refine Nat.eq_of_testBit_eq (fun i => ?_)
  rw [fld, Nat.testBit_mod_two_pow, Nat.testBit_mod_two_pow, Nat.testBit_shiftRight, BitVec.testBit_toNat, BitVec.getLsbD_ofNat,
    testBit_pack]
  by_cases hi : i < w
  · have own : l.any (fun x => decide (x.1 ≤ lo + i ∧ lo + i < x.1 + x.2.1) && x.2.2.testBit (lo + i - x.1)) = v.testBit i := by
      rw [Bool.eq_iff_iff, List.any_eq_true]
      constructor
      · rintro ⟨x, hx, hb⟩
        obtain ⟨hin, hb⟩ := by simpa only [Bool.and_eq_true, decide_eq_true_eq] using hb
        by_cases he : x = (lo, w, v)
        · subst he
          simpa using hb
        · have := hd x hx he
          omega
      · exact fun hb => ⟨(lo, w, v), hm, by simp [hi, hb]⟩
    rw [own]
    simp [hi, show lo + i < n by omega]
  · simp [hi]

/-! ## The areas of a mailbox (13 R317) -/

/-- The words of an area behind its first one. -/
theorem area16_cons (w : Word) (l : List Word) : area16 (w :: l) = w :: (l ++ List.replicate 16 0).take 15 := rfl

theorem getD_area16 {w : Word} {l xs : List Word} {k : Nat} (hl : l.length ≤ 15) (hk : k < l.length) :
    (area16 (w :: (l ++ xs))).getD (k + 1) 0 = l.getD k 0 := by
  simp [area16_cons, List.getD_eq_getElem?_getD, List.getElem?_append, hk, show k < 15 by omega]

theorem take_area16 {w : Word} {l xs : List Word} (hl : l.length ≤ 15) :
    ((area16 (w :: (l ++ xs))).drop 1).take l.length = l := by
  simp [area16_cons, List.take_take, Nat.min_eq_left hl]

/-! ## The headers (13 Tables 13.2, 13.3) -/

theorem reqHeader_spec (op : Byte) {q : Req} (hl : q.args.length ≤ 15) :
    fld (reqHeader op q) 0 8 = op.toNat ∧ fld (reqHeader op q) 8 8 = q.tag.toNat ∧ fld (reqHeader op q) 16 4 = q.args.length ∧
      fld (reqHeader op q) 20 3 = q.sess.toNat ∧ fld (reqHeader op q) 23 9 = q.rsv.toNat := by
  refine ⟨?_, ?_, ?_, ?_, ?_⟩ <;> refine (fld_pack (by simp) (by omega) (by simp)).trans (Nat.mod_eq_of_lt ?_)
  exacts [op.isLt, q.tag.isLt, by omega, q.sess.isLt, q.rsv.isLt]

theorem respHeader_spec (op tag : Byte) {r : Resp} (hl : r.words.length ≤ 15) :
    fld (respHeader op tag r) 0 8 = op.toNat ∧ fld (respHeader op tag r) 8 8 = tag.toNat ∧
      fld (respHeader op tag r) 16 8 = r.status.toNat ∧ fld (respHeader op tag r) 24 4 = r.deny.toNat ∧
      fld (respHeader op tag r) 28 4 = r.words.length := by
  refine ⟨?_, ?_, ?_, ?_, ?_⟩ <;> refine (fld_pack (by simp) (by omega) (by simp)).trans (Nat.mod_eq_of_lt ?_)
  exacts [op.isLt, tag.isLt, r.status.isLt, r.deny.isLt, by omega]

/-- The request that is written is the request that the Helm reads, whatever stood in the area behind it. -/
theorem reqOfWords_reqHeader (op : Byte) {q : Req} (xs : List Word) (hl : q.args.length ≤ 15) :
    reqOfWords q.mbx (area16 (reqHeader op q :: (q.args ++ xs))) = q := by
  obtain ⟨-, tag, len, sess, rsv⟩ := reqHeader_spec op hl
  have head : (area16 (reqHeader op q :: (q.args ++ xs))).getD 0 0 = reqHeader op q := rfl
  simp only [reqOfWords, head, tag, len, sess, rsv, take_area16 hl, BitVec.ofNat_toNat, BitVec.setWidth_eq]

/-- Settles O48: no two fields of a header overlap, and an area keeps the words behind its header at their places. -/
theorem requestRoundTrip : Obligations.RequestRoundTrip := by
  refine ⟨fun op q xs hl => ⟨reqOfWords_reqHeader op xs hl, fun m hm => ?_⟩, fun op q hl => ?_, fun op tag r hl => ?_⟩
  · obtain ⟨hop, htag⟩ := reqHeader_fields op q
    rw [Mbx.op, Mbx.tag, hm]
    exact ⟨hop, htag⟩
  · obtain ⟨op, tag, len, sess, rsv⟩ := reqHeader_spec op hl
    exact ⟨op, tag, len, sess, rsv, fun k hk xs => getD_area16 hl hk⟩
  · obtain ⟨op, tag, status, deny, len⟩ := respHeader_spec op tag hl
    refine ⟨op, tag, status, deny, len, fun k hk => ?_⟩
    rw [← getD_area16 (xs := []) hl hk, List.append_nil]

end Sys2Proof.Proofs
end

section
/-! O47, O59, O60: the front of the queue, what is fused, and what reset leaves (13 R322; 16 R364, R383; 19 R418 to R426). -/

namespace Sys2Proof.Proofs

open Sys2Proof.Machine Sys2Proof.Safety Sys2Proof.Laws

set_option Elab.async false

/-! ## The queue -/

/-- Settles O47, by the two cases of the queue. -/
theorem frontOfQueue : Obligations.FrontOfQueue := by
  refine ⟨fun c r s h => ?_, fun s h => ?_⟩
  · rw [step, h]
  · rw [step, h]

/-! ## What is fused (16 R364, R383) -/

theorem fused_inBlockReset (s : State) (por : Bool) : (s.inBlockReset por).ties = s.ties ∧
    (s.inBlockReset por).trust.fuse0 = s.trust.fuse0 ∧ (s.inBlockReset por).trust.fuse1 = s.trust.fuse1 ∧
    (s.inBlockReset por).trust.fuse2 = s.trust.fuse2 := ⟨rfl, rfl, rfl, rfl⟩

/-- A step ends in a state with the tie-offs and fuses of one that keeps them: the state itself, or, at a block reset, the one that the
time that passed leaves. -/
theorem step_fuses {s t : State} (h : step s = .next t) : ∃ r v, Kept { s with pending := r } v ∧ t.ties = v.ties ∧
    t.trust.fuse0 = v.trust.fuse0 ∧ t.trust.fuse1 = v.trust.fuse1 ∧ t.trust.fuse2 = v.trust.fuse2 := by
  unfold step at h
  split at h
  · exact ⟨s.pending, s, .refl s, by rw [Host.Outcome.next.inj h]; exact ⟨rfl, rfl, rfl, rfl⟩⟩
  · next c r _ =>
    by_cases hr : ∀ dt, c ≠ .brnRstAssert dt ∧ c ≠ .powerOnMonitor dt
    · exact ⟨r, t, (safe_exec hr h).toKept, rfl, rfl, rfl, rfl⟩
    · obtain ⟨dt, hc⟩ := not_forall.1 hr
      obtain rfl | rfl : c = .brnRstAssert dt ∨ c = .powerOnMonitor dt := by simpa [or_iff_not_imp_left] using hc
      · obtain rfl := Host.Outcome.next.inj h
        exact ⟨r, _, kept_tick _ dt, fused_inBlockReset _ false⟩
      · obtain rfl := Host.Outcome.next.inj h
        exact ⟨r, _, kept_tick _ dt, fused_inBlockReset _ true⟩

/-- Settles O59: every operation keeps what is fused, and so does a block reset. -/
theorem fusesOnlyBlow : Obligations.FusesOnlyBlow := by
  intro s t h
  obtain ⟨r, v, k, ties, f0, f1, f2⟩ := step_fuses h
  rw [ties, f0, f1, f2]
  exact ⟨k.ties, fun b => ⟨k.fuse0 b, k.fuse1 b, k.fuse2 b⟩⟩

/-! ## Reset -/

/-- Settles O60, register by register. -/
theorem resetState : Obligations.ResetState := by
  refine ⟨⟨rfl, rfl⟩, ⟨List.length_replicate (a := ({} : Tile)), rfl, rfl, rfl, rfl, rfl, rfl⟩, ⟨⟨nofun, nofun⟩, nofun⟩, rfl, ?_⟩
  simp only [List.forall_mem_cons]
  refine ⟨?_, ?_, ?_, ?_, ?_, ?_, ?_, ?_, ?_, ?_, ?_, ?_, ?_, ?_, nofun⟩
  all_goals rfl

end Sys2Proof.Proofs
end

section
/-! O49: how an answer reaches its mailbox, on either side of crossing 2 (13 R319, R324, R326). -/

namespace Sys2Proof.Proofs

open Sys2Proof.Machine Sys2Proof.Safety Sys2Proof.Laws

set_option Elab.async false

variable {s v : State} {n j : BitVec 3}

theorem mbx_modMbx_other (h : j ≠ n) (f : Mbx → Mbx) : (s.modMbx n f).mbx j = s.mbx j := by
  have hn : n.toNat ≠ j.toNat := fun e => h (BitVec.eq_of_toNat_eq e.symm)
  simp [State.mbx, State.modMbx, List.getD_eq_getElem?_getD, hn]

/-- The interrupt causes once mailbox `n` has been published: an entry to DONE is one of them where crossing 3 is not stale. -/
def doneAfter (s : State) (n : BitVec 3) (entered : Bool) : BitVec 8 :=
  if entered && s.xingOk 3 then s.ctl.done ||| BitVec.ofNat 8 (1 <<< n.toNat) else s.ctl.done

/-- While crossing 2 delivers, the ctl side takes what the Helm holds. -/
theorem publish_up (h : s.ctlUp = true) : s.publish n =
    { s.modMbx n (fun m => { m with st := m.held, resp := m.heldResp, unsent := false }) with
      ctl := { s.ctl with done := doneAfter s n (decide ((s.mbx n).held = .done)) } } := by
  unfold State.publish doneAfter
  rw [h, Bool.not_true, if_neg Bool.false_ne_true]
  by_cases hd : (decide ((s.mbx n).held = .done) && s.xingOk 3) = true
  · rw [if_pos hd]
    exact if_pos hd
  · rw [if_neg hd]
    exact if_neg hd

/-- While it does not, the answer waits on the Helm's side. -/
theorem publish_down (h : s.ctlUp = false) : s.publish n = s.modMbx n (fun m => { m with unsent := true }) := by
  unfold State.publish
  rw [h, Bool.not_false, if_pos rfl]

/-- The mailboxes and the causes are all that a publication writes. -/
theorem publish_rest (s : State) (n : BitVec 3) : { s.publish n with mbxs := s.mbxs, ctl := s.ctl } = s := by
  cases h : s.ctlUp
  · rw [publish_down h]
    rfl
  · rw [publish_up h]
    rfl

theorem publish_other (h : j ≠ n) : (s.publish n).mbx j = s.mbx j := by
  cases hu : s.ctlUp
  · rw [publish_down hu, mbx_modMbx_other h]
  · rw [publish_up hu]
    exact mbx_modMbx_other h _

/-- A mailbox whose Helm side alone was changed: what the change wrote is there after the publication, and the ctl side follows it or
stays. -/
theorem publish_changed {f : Mbx → Mbx} {m : Mbx} (hn : n.toNat < s.mbxs.length) (hm : m = f (s.mbx n)) (hst : m.st = (s.mbx n).st)
    (hresp : m.resp = (s.mbx n).resp) (hcmd : m.cmd = (s.mbx n).cmd) (hreq : m.reqArea = (s.mbx n).reqArea) {t : State}
    (ht : t = (s.modMbx n f).publish n) :
    (t.mbx n).held = m.held ∧ (t.mbx n).heldResp = m.heldResp ∧ (t.mbx n).cmd = (s.mbx n).cmd ∧
    (t.mbx n).reqArea = (s.mbx n).reqArea ∧ (t.mbx n).final = m.final ∧
    (s.ctlUp = true → (t.mbx n).st = m.held ∧ (t.mbx n).resp = m.heldResp ∧ (t.mbx n).unsent = false ∧
      t.ctl = { s.ctl with done := doneAfter s n (decide (m.held = .done)) }) ∧
    (s.ctlUp = false → (t.mbx n).st = (s.mbx n).st ∧ (t.mbx n).resp = (s.mbx n).resp ∧ (t.mbx n).unsent = true ∧ t.ctl = s.ctl) ∧
    (∀ j, j ≠ n → t.mbx j = s.mbx j) ∧ { t with mbxs := s.mbxs, ctl := s.ctl } = s := by
  have changed : (s.modMbx n f).mbx n = m := (mbx_modMbx_same hn f).trans hm.symm
  have hl : n.toNat < (s.modMbx n f).mbxs.length := by simpa [State.modMbx] using hn
  have others : ∀ j, j ≠ n → t.mbx j = s.mbx j := fun j hj => by rw [ht, publish_other hj, mbx_modMbx_other hj]
  have rest : { t with mbxs := s.mbxs, ctl := s.ctl } = s := by
    have := publish_rest (s.modMbx n f) n
    rw [← ht] at this
    exact congrArg (fun x : State => { x with mbxs := s.mbxs }) this
  cases hu : s.ctlUp
  · have down : t = (s.modMbx n f).modMbx n (fun m => { m with unsent := true }) := ht.trans (publish_down hu)
    have hold : t.mbx n = { m with unsent := true } := by rw [down, mbx_modMbx_same hl, changed]
    rw [hold]
    exact ⟨rfl, rfl, hcmd, hreq, rfl, nofun, fun _ => ⟨hst, hresp, rfl, by rw [down]; rfl⟩, others, rest⟩
  · have up : t = _ := ht.trans (publish_up (s := s.modMbx n f) hu)
    have hold : t.mbx n = { m with st := m.held, resp := m.heldResp, unsent := false } := by
      rw [up]
      exact (mbx_modMbx_same hl _).trans (by rw [changed])
    rw [hold]
    refine ⟨rfl, rfl, hcmd, hreq, rfl, fun _ => ⟨rfl, rfl, rfl, ?_⟩, nofun, others, rest⟩
    rw [up, changed]
    rfl

/-- Settles O49: an answer changes the Helm's side of its mailbox, which is then published. -/
theorem answerWritten : Obligations.AnswerWritten := by
  rintro s n r ws fin t _ h8 ht rfl
  have hn : n.toNat < s.mbxs.length := h8 ▸ n.isLt
  cases fin with
  | true =>
    obtain ⟨held, resp, cmd, req, final, rest⟩ := publish_changed hn rfl rfl rfl rfl rfl ht
    exact ⟨held, resp, cmd, req, fun _ => final, rest⟩
  | false =>
    obtain ⟨held, resp, cmd, req, -, rest⟩ := publish_changed hn rfl rfl rfl rfl rfl ht
    exact ⟨held, resp, cmd, req, nofun, rest⟩

end Sys2Proof.Proofs
end

section
/-! O54: events, their records and FAULT_SUMMARY (17 R386, R387; 15 R354). -/

namespace Sys2Proof.Proofs

open Sys2Proof.Machine Sys2Proof.Safety Sys2Proof.Laws

set_option Elab.async false

section

variable {s : State} {code idx arg : Nat}

theorem faults_sendRecs (s : State) (ty src nrec : Nat) (t : Time) (b : List Flit) : (s.sendRecs ty src nrec t b).faults = s.faults := by
  unfold State.sendRecs
  split <;> rfl

theorem faults_formEvents (s : State) : s.formEvents.faults = s.faults := by
  unfold State.formEvents
  split
  · rfl
  · exact faults_sendRecs ..

/-- What the log port takes of an event is nothing of the Helm's side. -/
theorem faults_raiseC (s : State) (code : Nat) (idx : Option Nat) (arg : Nat) (cont : Option (Nat × Nat)) :
    (s.raiseC code idx arg cont).faults = (Laws.noted s code (eventRecs code idx arg s.mer.now cont)).faults := by
  rw [raiseC_eq]
  dsimp only
  split
  · split
    · exact faults_formEvents _
    · rfl
  · rfl

/-- The fields of the record of an event that names an item (15 Table 15.4). -/
def itemFields (code idx arg : Nat) (t : Time) : List (Nat × Nat × Nat) :=
  [(0, 12, code), (12, 1, 1), (13, 1, 0), (16, 16, idx), (32, 32, arg), (64, 64, t.toNat)]

def itemRec (code idx arg : Nat) (t : Time) : BitVec 128 := BitVec.ofNat 128 (pack (itemFields code idx arg t))

theorem eventRecs_item (code idx arg : Nat) (t : Time) : eventRecs code (some idx) arg t none = [itemRec code idx arg t] := rfl

theorem bit_eq_fld {n : Nat} (x : BitVec n) (i : Nat) : bit x i = decide (fld x i 1 = 1) := by
  rw [bit, ← BitVec.testBit_toNat, Nat.testBit_eq_decide_div_mod_eq, fld, Nat.shiftRight_eq_div_pow, pow_one]

theorem itemRec_fields (hc : code < 4096) (hi : idx < 65536) (ha : arg < 2 ^ 32) (t : Time) :
    fld (itemRec code idx arg t) 0 12 = code ∧ bit (itemRec code idx arg t) 12 = true ∧ bit (itemRec code idx arg t) 13 = false ∧
      fld (itemRec code idx arg t) 16 16 = idx ∧ fld (itemRec code idx arg t) 32 32 = arg ∧
      fld (itemRec code idx arg t) 64 64 = t.toNat := by
  have field : ∀ {lo w v}, (lo, w, v) ∈ itemFields code idx arg t → lo + w ≤ 128 →
      (∀ x ∈ itemFields code idx arg t, x ≠ (lo, w, v) → x.1 + x.2.1 ≤ lo ∨ lo + w ≤ x.1) → v < 2 ^ w →
      fld (itemRec code idx arg t) lo w = v :=
    fun hm hn hd hv => (fld_pack hm hn hd).trans (Nat.mod_eq_of_lt hv)
  unfold itemFields at field
  have named : fld (itemRec code idx arg t) 12 1 = 1 := field (by simp) (by omega) (by simp) (by omega)
  have whole : fld (itemRec code idx arg t) 13 1 = 0 := field (by simp) (by omega) (by simp) (by omega)
  rw [bit_eq_fld, bit_eq_fld, named, whole]
  exact ⟨field (by simp) (by omega) (by simp) hc, rfl, rfl, field (by simp) (by omega) (by simp) hi,
    field (by simp) (by omega) (by simp) ha, field (by simp) (by omega) (by simp) t.isLt⟩

/-- The class of an event is marked, and no mark goes. -/
theorem bit_raised {c : Nat} (h16 : c < 16) :
    bit (s.raise code idx arg).faults.raised c = (bit s.faults.raised c || decide (code / 256 = c)) := by
  have raised : (s.raise code idx arg).faults.raised = s.faults.raised ||| BitVec.ofNat 16 (1 <<< (code / 256)) := by
    rw [State.raise, faults_raiseC, Laws.noted]
    dsimp only
    split <;> rfl
  rw [raised, bit, BitVec.getLsbD_or, BitVec.getLsbD_ofNat, Nat.one_shiftLeft, Nat.testBit_two_pow]
  simp [bit, h16]

/-- The record joins a queue that has room. -/
theorem queue_raise_room (h : s.faults.queue.length < 256) :
    (s.raise code idx arg).faults.queue = s.faults.queue ++ [itemRec code idx arg s.mer.now] := by
  rw [State.raise, faults_raiseC, eventRecs_item, Laws.noted]
  exact congrArg Faults.queue (if_pos h)

/-- A record that finds the queue full is counted lost. -/
theorem queue_raise_full (h : 256 ≤ s.faults.queue.length) : (s.raise code idx arg).faults.queue = s.faults.queue ∧
    (s.raise code idx arg).faults.lost = satAdd s.faults.lost 1 ∧ (s.raise code idx arg).faults.lostNow = s.faults.lostNow + 1 := by
  have full : (Laws.noted s code [itemRec code idx arg s.mer.now]).faults = _ :=
    if_neg (show ¬ s.faults.queue.length + 1 ≤ 256 by omega)
  rw [State.raise, faults_raiseC, eventRecs_item, full]
  exact ⟨rfl, rfl, rfl⟩

end

/-- FAULT_SUMMARY answers the marks and the counts, and clears the marks. -/
theorem exec_faultSummary {dt : Nat} {q : Req} {s : State} (h : ready false (s.tick dt) q = true) (hq : q.args = []) :
    exec (.faultSummary dt q) s = .next (State.finish { posted (s.tick dt) 0xA2 q with
      faults := { (s.tick dt).faults with raised := 0 } } q.mbx
      (okR (w32 (s.tick dt).faults.raised.toNat :: (s.tick dt).faults.ecc))) :=
  congrArg Host.Outcome.next (postCmd_final (c := cmdFaultSummary) h nofun nofun rfl (by simp [cmdFaultSummary, hq]) rfl rfl rfl)

/-- Settles O54: an event's record is read field by field, and joins the queue or is lost by the room that the queue has. -/
theorem eventsRaised : Obligations.EventsRaised := by
  refine ⟨fun s code idx arg hc hi ha => ⟨fun c h16 => bit_raised h16, fun hroom => ?_, queue_raise_full, ?_⟩, ?_⟩
  · exact ⟨_, queue_raise_room hroom, itemRec_fields hc hi ha _⟩
  · rw [(logged_raise s code idx arg).eq]
  · rintro dt q s u rfl - h hq
    exact exec_faultSummary h hq

end Sys2Proof.Proofs
end

section
/-! O19: the fault commands 0xA0 to 0xA6 (17 R386, R387, R395, R397, R400; 12 R314; 14 R344). -/

namespace Sys2Proof.Proofs

open Sys2Proof.Machine Sys2Proof.Safety Sys2Proof.Laws

set_option Elab.async false

section

variable {u s : State} {q : Req} {a : Word} {dt i : Nat}

/-! ## Fences and their release (17 R395, R400) -/

/-- The tile that word 1 of a request names is present. -/
theorem formPresent_args {v : State} {rest : List Word} (hq : q.args = a :: rest) (ha : a &&& ~~~0xFF#32 = 0)
    (hp : v.present a.toNat = true) : formPresent v q = none := by
  rw [formPresent, reqTile_args hq ha]
  exact if_pos hp

theorem exec_fence (h : ready false (s.tick dt) q = true) (hh : (s.tick dt).haltedB = false) (hq : q.args = [a])
    (ha : a &&& ~~~0xFF#32 = 0) (hp : (s.tick dt).present a.toNat = true) :
    exec (.fence dt q) s = .next (((posted (s.tick dt) 0xA0 q).fence a.toNat 1).finish q.mbx (okR [])) := by
  refine congrArg Host.Outcome.next (postCmd_final (c := cmdFence) h nofun (fun _ => hh) rfl (by simp [cmdFence, lenIs, hq])
    (hq ▸ rsvWord_one ha []) (formPresent_args hq ha ((present_posted ..).trans hp)) ?_)
  simp only [cmdFence, reqTile_args hq ha]

theorem exec_fenceRelease (h : ready false (s.tick dt) q = true) (hh : (s.tick dt).haltedB = false) (hq : q.args = [a])
    (ha : a &&& ~~~0xFF#32 = 0) (hp : (s.tick dt).present a.toNat = true) (hf : ((s.tick dt).tile a.toNat).st = .fenced)
    (hr : ((s.tick dt).tile a.toNat).trialRun = true)
    (ho : ((s.tick dt).tile a.toNat).trialA = true ∨ ((s.tick dt).tile a.toNat).trialB = true) :
    exec (.fenceRelease dt q) s = .next (((posted (s.tick dt) 0xA1 q).unfence a.toNat).finish q.mbx (okR [])) := by
  refine congrArg Host.Outcome.next (postCmd_final (c := cmdFenceRelease) h nofun (fun _ => hh) rfl
    (by simp [cmdFenceRelease, lenIs, hq]) (hq ▸ rsvWord_one ha []) (formPresent_args hq ha ((present_posted ..).trans hp)) ?_)
  simp only [cmdFenceRelease, reqTile_args hq ha, tile_posted]
  exact if_neg (by simpa [Tile.fenced, hf, hr, Bool.or_eq_true] using fun hA => ho.resolve_left (by simp [hA]))

/-- What a host's fence makes of a tile that was neither fenced nor halted. -/
theorem fence_host (hp : u.present i = true) (hi : i < u.tiles.length) (hf : (u.tile i).st ≠ .fenced) (hh : (u.tile i).st ≠ .halted)
    {t : Tile} (ht : t = (u.fence i 1).tile i) :
    t.st = .fenced ∧ t.cause = 1 ∧ t.fences = satInc (u.tile i).fences ∧ t.runCode = 0 ∧ t.stby = .off ∧ t.window = [] ∧
      t.sched = [] ∧ t.code = (u.tile i).code ∧ t.plumbW = (u.tile i).plumbW ∧ t.droopW = (u.tile i).droopW := by
  obtain ⟨x, plan, -, tile⟩ := tile_fence hp hi hf hh 1
  have same : ∀ {α : Type} (f : Tile → α), f (withoutPlan x) = f (withoutPlan (unscheduled (u.tile i))) := fun f => congrArg f plan
  rw [ht, tile]
  exact ⟨rfl, rfl, congrArg satInc (same Tile.fences), rfl, rfl, rfl, same Tile.sched, same Tile.code, same Tile.plumbW, same Tile.droopW⟩

/-- The tile that a release makes of a fenced one: DISABLED, or DOMAIN_OFF, by `on`; marked by its trial; its code `c`. -/
def releasedTile (on : Bool) (learn c : BitVec 16) (t : Tile) : Tile :=
  { t with
    st := if !on then .domainOff else .disabled, ret := .disabled, recEn := false, cause := 0, failA := !t.trialA, failB := !t.trialB
    failS0 := t.failS0 && !t.trialS0, failS1 := t.failS1 && !t.trialS1, learn := learn, code := c }

theorem tile_unfence (hi : i < u.tiles.length) : (u.unfence i).tile i =
    releasedTile (u.domOn i) (u.chart i).maxCode (if u.ownsCode i then u.cvy.code else (u.tile i).code) (u.tile i) := by
  unfold State.unfence
  dsimp only
  exact (tile_still (still_raiseC ..) i).trans (tile_modTile_same _ hi)

/-! ## Events taken from the queue (15 R354) -/

/-- Whole events and what is left make up the queue. -/
theorem wholeEvents_append (n : Nat) (l : List (BitVec 128)) : (wholeEvents n l).1 ++ (wholeEvents n l).2 = l := by
  induction n, l using wholeEvents.induct with
  | case1 n a b r hp hn => simp [wholeEvents, hp, hn]
  | case2 n a b r hp hn ih => simp [wholeEvents, hp, show ¬ n ≤ 1 by omega, ih]
  | case3 a b r hp => simp [wholeEvents, hp]
  | case4 n a b r hp hn ih => simp [wholeEvents, hp, hn, ih]
  | case5 a => rfl
  | case6 n a hn => simp [wholeEvents, hn]
  | case7 n => rfl

theorem readEvents_append (n : Nat) (l : List (BitVec 128)) : (readEvents n l).1 ++ (readEvents n l).2 = l := by
  unfold readEvents
  split
  · split
    · rfl
    · exact wholeEvents_append ..
  · exact wholeEvents_append ..

/-! ## The reports (14 Table 14.13) -/

@[simp] theorem xing_posted (u : State) (op : Byte) (q : Req) (x i : Nat) : (posted u op q).xing x i = u.xing x i := rfl

theorem exec_helmCounters (h : ready false (s.tick dt) q = true) (hq : q.args = []) :
    exec (.helmCounters dt q) s = .next ((posted (s.tick dt) 0xA6 q).finish q.mbx
      (okR ((posted (s.tick dt) 0xA6 q).mbxs.map (·.misuse) ++ [(s.tick dt).helm.wdogs, (s.tick dt).helm.restarts]))) :=
  congrArg Host.Outcome.next (postCmd_final (c := cmdHelmCounters) h nofun nofun rfl (by simp [cmdHelmCounters, hq]) rfl rfl
    (by simp only [cmdHelmCounters, posted_wdogs, posted_restarts]))

theorem exec_eventRead (h : ready false (s.tick dt) q = true) (hq : q.args = [a]) (ha : a = 1 ∨ a = 2 ∨ a = 3)
    {x : List (BitVec 128) × List (BitVec 128)} (hx : x = readEvents a.toNat (s.tick dt).faults.queue) :
    exec (.eventRead dt q) s = .next (State.finish
      (State.evqFlush { posted (s.tick dt) 0xA3 q with faults := { (s.tick dt).faults with queue := x.2 } }) q.mbx
      (okR (w32 (x.1.length + 4 * x.2.length) :: x.1.flatMap (fun r => wordsOf 4 r.toNat)))) := by
  have hw := w_one hq
  have mask : a &&& ~~~3#32 = 0 := by rcases ha with rfl | rfl | rfl <;> decide
  have some_ : a ≠ 0 := by rcases ha with rfl | rfl | rfl <;> decide
  subst hx
  refine congrArg Host.Outcome.next (postCmd_final (c := cmdEventRead) h nofun nofun rfl (by simp [cmdEventRead, lenIs, hq])
    (hq ▸ rsvWord_one mask []) ?_ ?_)
  · simp only [cmdEventRead, hw, if_neg some_]
  · simp only [cmdEventRead, hw, posted_faults]

theorem exec_xingRead (h : ready false (s.tick dt) q = true) (hq : q.args = [a]) (ha : a &&& ~~~0xFF1F#32 = 0)
    (hx : fld a 0 5 ≤ 24) (hp : 23 ≤ fld a 0 5 → (s.tick dt).present (fld a 8 8) = true) :
    exec (.xingRead dt q) s = .next ((posted (s.tick dt) 0xA4 q).finish q.mbx
      (okR ((s.tick dt).xing (fld a 0 5) (fld a 8 8)).words)) := by
  have hw := w_one hq
  refine congrArg Host.Outcome.next (postCmd_final (c := cmdXingRead) h nofun nofun rfl (by simp [cmdXingRead, lenIs, hq])
    (hq ▸ rsvWord_one ha []) ?_ ?_)
  · simp only [cmdXingRead, hw]
    rw [if_neg (Nat.not_lt.2 hx), if_neg]
    simpa using hp
  · simp only [cmdXingRead, hw, xing_posted]

end

/-- Settles O19: no rule refuses what the statement allows; a fence and its release are read off their one tile, and a read of events
cuts the queue in two. -/
theorem faultCommands : Obligations.FaultCommands := by
  rintro dt q s u rfl h
  refine ⟨fun hh => ?_, fun hq => ⟨exec_faultSummary h hq, exec_helmCounters h hq⟩, fun a hq => ⟨fun ha => exec_eventRead h hq ha rfl,
    fun n => readEvents_append n _, fun ha hx hp x hx' => hx' ▸ exec_xingRead h hq ha hx hp⟩⟩
  rintro a i hq ha rfl hp
  refine ⟨exec_fence h hh hq ha hp, fun hf hH hi t ht => fence_host hp hi hf hH ht, fun hf hr ho => ⟨?_, ?_⟩⟩
  · exact exec_fenceRelease h hh hq ha hp hf hr ho
  · rintro hi t rfl
    rw [tile_unfence hi]
    refine ⟨?_, rfl, rfl, rfl, rfl, rfl⟩
    cases (s.tick dt).domOn a.toNat <;> rfl

end Sys2Proof.Proofs
end

section
/-! O2 and O20: a command's answer where there is no mailbox to hold it (13 R317, R319; 14 R345; 16 R375, R384). -/

namespace Sys2Proof.Proofs

open Sys2Proof.Machine Sys2Proof.Safety Sys2Proof.Laws

set_option Elab.async false

/-! ## CHART_TIGHTEN in RUN (16 R384) -/

/-- A CHART_TIGHTEN of class 1 from mailbox 0 that repeats the chart of reset. -/
def tightenSame : Req := { mbx := 0, tag := 7, sess := 0, rsv := 0, args := [1, 40960, 0, 950, 2000000, 2000000, 2000000] }

/-- The block in RUN without its mailboxes takes the request: its form is right, and it widens nothing. -/
theorem noMailboxes_tightens : ready true (noMailboxes.tick 0) tightenSame = true ∧ (noMailboxes.tick 0).haltedB = false ∧
    (noMailboxes.tick 0).helm.stage = .run ∧ (noMailboxes.tick 0).trust.tightWait = [] ∧
    (noMailboxes.tick 0).trust.charts = List.replicate 3 {} := by decide +kernel

/-- The tightening runs, and mailbox 0 does not hold its answer. -/
theorem chartTighten_noMailboxes : ((postCmd cmdChartTighten 0 tightenSame noMailboxes).mbx 0).held = .idle := by decide +kernel

/-- Refutes O2: the statement admits a state without the eight mailboxes of 13 R317, where nothing holds the command's answer; there
CHART_TIGHTEN tightens in RUN, and no mailbox reads DONE. -/
theorem not_identityAndChart : ¬ Obligations.IdentityAndChart := by
  intro h
  obtain ⟨hready, hhalt, hrun, hwait, hcharts⟩ := noMailboxes_tightens
  obtain ⟨-, -, -, -, tighten⟩ := h 0 tightenSame noMailboxes _ rfl hready
  obtain ⟨-, inRun⟩ := tighten hhalt 1 (tightChart tightenSame) {} rfl rfl rfl rfl (by decide) (by decide) (by decide) (by decide)
    (by decide) (by decide) (by decide) (by decide) (by decide) (by decide) (by decide) (by decide) (by decide)
  obtain ⟨t, he, -, hheld, -⟩ := inRun hrun hwait (by rw [hcharts]; rfl) (by rw [hcharts]; rfl)
  obtain rfl : postCmd cmdChartTighten 0 tightenSame noMailboxes = t := by injection he
  rw [show tightenSame.mbx = 0 from rfl, chartTighten_noMailboxes] at hheld
  exact absurd hheld (by decide)

/-! ## GET_VERSION (16 R375) -/

/-- SPDM with the message GET_VERSION, from mailbox 0. -/
def getVersion : Req := { mbx := 0, tag := 7, sess := 0, rsv := 0, args := [4, 0x00008410] }

theorem noMailboxes_negotiates : ready true (noMailboxes.tick 0) getVersion = true := by decide +kernel

/-- The message is answered, and mailbox 0 does not hold the answer. -/
theorem spdm_noMailboxes : ((postCmd cmdSpdm 0 getVersion noMailboxes).mbx 0).held = .idle := by decide +kernel

/-- Refutes O20: the statement admits a state without the eight mailboxes of 13 R317, where nothing holds the command's answer; there
GET_VERSION runs, and no mailbox reads ACCEPTED. -/
theorem not_spdmVersion : ¬ Obligations.SpdmVersion := by
  intro h
  obtain ⟨t, he, ⟨hheld, -⟩, -⟩ := h 0 getVersion noMailboxes _ rfl noMailboxes_negotiates rfl
  obtain rfl : postCmd cmdSpdm 0 getVersion noMailboxes = t := by injection he
  rw [show getVersion.mbx = 0 from rfl, spdm_noMailboxes] at hheld
  exact absurd hheld (by decide)

end Sys2Proof.Proofs
end

section
/-! O1: the policy commands 0x10 to 0x15 (14 R334; 03 R78; 05 R154; 11 R291; 09 R260, R262). -/

namespace Sys2Proof.Proofs

open Sys2Proof.Machine Sys2Proof.Safety Sys2Proof.Laws

set_option Elab.async false

section

variable {s : State} {q : Req} {w a b : Word} {dt : Nat}

@[simp] theorem firstActive_posted (u : State) (op : Byte) (q : Req) : (posted u op q).firstActive = u.firstActive := rfl
@[simp] theorem thrOn_posted (u : State) (op : Byte) (q : Req) : (posted u op q).thrOn = u.thrOn := rfl
@[simp] theorem nowN_posted (u : State) (op : Byte) (q : Req) : (posted u op q).nowN = u.nowN := rfl

theorem exec_setEpoch (h : ready false (s.tick dt) q = true) (hh : (s.tick dt).haltedB = false) (hq : q.args = [a, b])
    (hb : b &&& ~~~0xFF#32 = 0) (hl : (s.tick dt).mer.st = .locked) (hm : (s.tick dt).member = false) :
    exec (.setEpoch dt q) s = .next (State.finish { posted (s.tick dt) 0x10 q with
      mer := { (s.tick dt).mer with epochPend := some (BitVec.ofNat 40 (q.w64 1).toNat, 2) } } q.mbx
      (okR (wordsOf 2 (((s.tick dt).mer.now.toNat / 16000000 + 2) * 16000000)))) := by
  refine congrArg Host.Outcome.next (postCmd_final (c := cmdSetEpoch) h nofun (fun _ => hh) rfl (by simp [cmdSetEpoch, lenIs, hq])
    ?_ rfl ?_)
  · rw [hq]
    exact rsvWord_two (by simp) hb [] 1
  · simp only [cmdSetEpoch, posted_mer, member_posted, hl, hm, if_true, if_false, Bool.false_eq_true, List.nil_append, orElse_nil,
      nowN_posted]
    rfl

/-- A lower rate acts at once, a higher one where no throttle is in force. -/
theorem setHostRate_eq (u : State) {n : Nat} (hn : n < 256) : u.setHostRate n = { u with power := { u.power with
    hostQ := BitVec.ofNat 8 n
    hostQNow := if u.thrOn = false ∨ n < u.power.hostQNow.toNat then BitVec.ofNat 8 n else u.power.hostQNow } } := by
  have value : (BitVec.ofNat 8 n).toNat = n := Nat.mod_eq_of_lt hn
  simp only [State.setHostRate, value, Bool.or_eq_true, Bool.not_eq_true', decide_eq_true_eq]

theorem exec_setHostQ (h : ready false (s.tick dt) q = true) (hh : (s.tick dt).haltedB = false) (hq : q.args = [w])
    (hw : w &&& ~~~0xFF#32 = 0) (h1 : 1 ≤ w.toNat) (h192 : w.toNat ≤ 192) :
    exec (.setHostQ dt q) s = .next (((posted (s.tick dt) 0x11 q).setHostRate w.toNat).finish q.mbx (okR [])) := by
  have word := w_one hq
  refine congrArg Host.Outcome.next (postCmd_final (c := cmdSetHostQ) h nofun (fun _ => hh) rfl (by simp [cmdSetHostQ, lenIs, hq])
    (hq ▸ rsvWord_one hw []) ?_ ?_)
  · simp only [cmdSetHostQ, word]
    exact if_neg (by simp; omega)
  · simp only [cmdSetHostQ, word]

theorem exec_setFloor (h : ready false (s.tick dt) q = true) (hh : (s.tick dt).haltedB = false) (hq : q.args = [w, 0])
    (hw : w &&& ~~~0x01FF01FF#32 = 0) (hA : 1 ≤ fld w 0 9) (hA' : fld w 0 9 ≤ 256) (hS : 1 ≤ fld w 16 9) (hS' : fld w 16 9 ≤ 256) :
    exec (.setFloor dt q) s = .next (State.finish { posted (s.tick dt) 0x12 q with
      power := { (s.tick dt).power with floorW := q.w64 1 } } q.mbx (okR [])) := by
  have low : (q.w64 1).toNat = w.toNat := (toNat_w64 (by simp [Req.w, hq])).trans (by rw [w_one hq])
  refine congrArg Host.Outcome.next (postCmd_final (c := cmdSetFloor) h nofun (fun _ => hh) rfl (by simp [cmdSetFloor, lenIs, hq])
    ?_ ?_ rfl)
  · rw [hq]
    exact rsvWord_two hw (by simp) [] 1
  · simp only [cmdSetFloor, floorA, floorS, fld_congr low]
    exact if_neg (by simp; omega)

theorem exec_setSafeQ (h : ready false (s.tick dt) q = true) (hh : (s.tick dt).haltedB = false) (hq : q.args = [w])
    (hw : w &&& ~~~0x7F#32 = 0) (h8 : 8 ≤ w.toNat) (h64 : w.toNat ≤ 64) (hf : (s.tick dt).safeFloor = false) :
    exec (.setSafeQ dt q) s = .next (State.finish { posted (s.tick dt) 0x13 q with
      power := { (s.tick dt).power with safeQ := BitVec.ofNat 7 w.toNat } } q.mbx (okR [])) := by
  have word := w_one hq
  refine congrArg Host.Outcome.next (postCmd_final (c := cmdSetSafeQ) h nofun (fun _ => hh) rfl (by simp [cmdSetSafeQ, lenIs, hq])
    (hq ▸ rsvWord_one hw []) ?_ ?_)
  · simp only [cmdSetSafeQ, word]
    exact if_neg (by simp; omega)
  · simp only [cmdSetSafeQ, word, safeFloor_posted, hf, Bool.false_eq_true, if_false, orElse_nil]
    rfl

/-- No rail is active. -/
theorem firstActive_none {u : State} (h : ∀ r < 8, (u.rail r).active = false) : u.firstActive = none :=
  List.find?_eq_none.2 (fun r hr => by simp [h r (List.mem_range.1 hr)])

theorem exec_setPmbus (h : ready false (s.tick dt) q = true) (hh : (s.tick dt).haltedB = false) (hq : q.args = [w])
    (hw : w &&& ~~~0xFFFF#32 = 0) (hlo : 0xD0 ≤ fld w 8 8) (hhi : fld w 8 8 ≤ 0xFD)
    (hr : ∀ r < 8, ((s.tick dt).rail r).active = false) :
    exec (.setPmbus dt q) s = .next (State.finish { posted (s.tick dt) 0x14 q with
      power := { (s.tick dt).power with pmbus := w } } q.mbx (okR [])) := by
  have word := w_one hq
  refine congrArg Host.Outcome.next (postCmd_final (c := cmdSetPmbus) h nofun (fun _ => hh) rfl (by simp [cmdSetPmbus, lenIs, hq])
    (hq ▸ rsvWord_one hw []) ?_ ?_)
  · simp only [cmdSetPmbus, word]
    exact if_neg (by simp; omega)
  · simp only [cmdSetPmbus, word, firstActive_posted, firstActive_none hr, orElse_nil]
    rfl

theorem exec_readPolicy (h : ready false (s.tick dt) q = true) (hq : q.args = []) {p : Power} (hp : p = (s.tick dt).power) :
    exec (.readPolicy dt q) s = .next ((posted (s.tick dt) 0x15 q).finish q.mbx
      (okR ([w32 p.hostQ.toNat] ++ wordsOf 2 p.floorW.toNat ++ [w32 p.safeQ.toNat, p.pmbus, p.cfg]))) := by
  subst hp
  exact congrArg Host.Outcome.next (postCmd_final (c := cmdReadPolicy) h nofun nofun rfl (by simp [cmdReadPolicy, hq]) rfl rfl rfl)

end

/-- Settles O1: no rule refuses what the statement allows, and each body writes its own field. -/
theorem policyCommands : Obligations.PolicyCommands := by
  rintro dt q s u rfl h
  refine ⟨fun hh a b hq hb hl hm => exec_setEpoch h hh hq hb hl hm, fun hh w hq hw h1 h192 => ?_,
    fun hh w hq hw hA hA' hS hS' => exec_setFloor h hh hq hw hA hA' hS hS', fun hh w hq hw h8 h64 hf => exec_setSafeQ h hh hq hw h8 h64 hf,
    fun hh w hq hw hlo hhi hr => exec_setPmbus h hh hq hw hlo hhi hr, fun hq => exec_readPolicy h hq rfl⟩
  rw [exec_setHostQ h hh hq hw h1 h192, setHostRate_eq _ (by omega), posted_power, thrOn_posted]

end Sys2Proof.Proofs
end

section
/-! O3: the reads of a tile, 0x20, 0x25, 0x27 and 0x28 (14 R332, R335; 04 Table 4.8; 11 R293). -/

namespace Sys2Proof.Proofs

open Sys2Proof.Machine Sys2Proof.Safety Sys2Proof.Laws

set_option Elab.async false

@[simp] theorem domOf_posted (u : State) (op : Byte) (q : Req) (i : Nat) : (posted u op q).domOf i = u.domOf i := rfl
@[simp] theorem domOn_posted (u : State) (op : Byte) (q : Req) (i : Nat) : (posted u op q).domOn i = u.domOn i := rfl
@[simp] theorem movers_posted (u : State) (op : Byte) (q : Req) : (posted u op q).movers = u.movers := rfl
@[simp] theorem statusWord_posted (u : State) (op : Byte) (q : Req) (mv : List (Nat × Nat × Nat)) (i : Nat) :
    (posted u op q).statusWord mv i = u.statusWord mv i := rfl

section

variable {s u : State} {q : Req} {w : Word} {rest : List Word} {dt i : Nat} {op : Byte}

theorem reqTile_eq (hq : q.args = w :: rest) : reqTile q = fld w 0 8 := by rw [reqTile, w_one hq]

theorem formPresent_posted (hi : reqTile q = i) (hp : u.present i = true) : formPresent (posted u op q) q = none := by
  rw [formPresent, hi]
  exact if_pos ((present_posted ..).trans hp)

theorem exec_tileInfo (h : ready false (s.tick dt) q = true) (hq : q.args = [w]) (hi : reqTile q = i)
    (hp : (s.tick dt).present i = true) (hw : w &&& ~~~0xFF#32 = 0) {v : State} (hv : v = s.tick dt) :
    exec (.tileInfo dt q) s = .next ((posted v 0x20 q).finish q.mbx (okR [
      w32 (pack [(0, 2, v.clsOf i), (2, 8, v.domOf i), (10, 3, v.railOf i), (13, 1, b2n (v.domOn i))]),
      w32 (pack [(0, 16, (v.tile i).learn.toNat), (16, 16, (v.chart i).maxCode.toNat)])])) := by
  subst hv
  refine congrArg Host.Outcome.next (postCmd_final (c := cmdTileInfo) h nofun nofun rfl (by simp [cmdTileInfo, lenIs, hq])
    (hq ▸ rsvWord_one hw []) (formPresent_posted hi hp) ?_)
  simp only [cmdTileInfo, hi, clsOf_posted, domOf_posted, railOf_posted, domOn_posted, tile_posted, chart_posted]

theorem exec_tileStatus (h : ready false (s.tick dt) q = true) (hq : q.args = [w]) (hi : reqTile q = i)
    (hp : (s.tick dt).present i = true) (hw : w &&& ~~~0xFF#32 = 0) {v : State} (hv : v = s.tick dt) :
    exec (.tileStatus dt q) s = .next ((posted v 0x25 q).finish q.mbx (okR (wordsOf 2 (v.statusWord v.movers i).toNat ++
      wordsOf 2 (v.tile i).policyN ++ wordsOf 2 (v.tile i).plumbW.toNat ++ wordsOf 2 (v.tile i).droopW.toNat))) := by
  subst hv
  refine congrArg Host.Outcome.next (postCmd_final (c := cmdTileStatus) h nofun nofun rfl (by simp [cmdTileStatus, lenIs, hq])
    (hq ▸ rsvWord_one hw []) (formPresent_posted hi hp) ?_)
  simp only [cmdTileStatus, hi, statusWord_posted, movers_posted, tile_posted]

/-- The counters' form admits the four pages of a present tile. -/
theorem form_tileCounters (hq : q.args = [w]) (hi : reqTile q = i) (hp : u.present i = true) (hpage : fld w 8 4 ≤ 3) :
    cmdTileCounters.form (posted u op q) q = none := by
  simp only [cmdTileCounters, w_one hq, formPresent_posted hi hp]
  exact if_neg (Nat.not_lt.2 hpage)

/-- Page 0 takes the snapshot, and gives its first page. -/
theorem exec_tileCounters_take (h : ready false (s.tick dt) q = true) (hq : q.args = [w]) (hi : reqTile q = i)
    (hp : (s.tick dt).present i = true) (hw : w &&& ~~~0xFFF#32 = 0) (hpage : fld w 8 4 = 0) (hlen : i < (s.tick dt).tiles.length) :
    exec (.tileCounters dt q) s = .next (State.finish
      ((posted (s.tick dt) 0x27 q).modTile i (fun t => { t with snap := t.pages, peak := -2048 })) q.mbx
      (okR (((s.tick dt).tile i).pages.getD 0 []))) := by
  refine congrArg Host.Outcome.next (postCmd_final (c := cmdTileCounters) h nofun nofun rfl (by simp [cmdTileCounters, lenIs, hq])
    (hq ▸ rsvWord_one hw []) (form_tileCounters hq hi hp (by omega)) ?_)
  simp only [cmdTileCounters, w_one hq, hi, hpage, if_true]
  rw [tile_modTile_same (s := posted (s.tick dt) 0x27 q) _ (by rw [posted_tiles]; exact hlen), tile_posted]
  rfl

/-- A later page comes from the snapshot that was taken. -/
theorem exec_tileCounters_held (h : ready false (s.tick dt) q = true) (hq : q.args = [w]) (hi : reqTile q = i)
    (hp : (s.tick dt).present i = true) (hw : w &&& ~~~0xFFF#32 = 0) (h1 : 1 ≤ fld w 8 4) (h3 : fld w 8 4 ≤ 3)
    (hs : ((s.tick dt).tile i).snap.length = 4) :
    exec (.tileCounters dt q) s = .next ((posted (s.tick dt) 0x27 q).finish q.mbx
      (okR (((s.tick dt).tile i).snap.getD (fld w 8 4) []))) := by
  have inside : fld w 8 4 < ((s.tick dt).tile i).snap.length := by omega
  refine congrArg Host.Outcome.next (postCmd_final (c := cmdTileCounters) h nofun nofun rfl (by simp [cmdTileCounters, lenIs, hq])
    (hq ▸ rsvWord_one hw []) (form_tileCounters hq hi hp h3) ?_)
  simp only [cmdTileCounters, w_one hq, hi, if_neg (show ¬ fld w 8 4 = 0 by omega), tile_posted, List.getD_eq_getElem _ _ inside]

theorem exec_floorOver (h : ready false (s.tick dt) q = true) (hq : q.args = [w]) (hi : reqTile q = i)
    (hp : (s.tick dt).present i = true) (hw : w &&& ~~~0x1FF#32 = 0) (hs : (s.tick dt).steady i = false) :
    exec (.floorOver dt q) s = .next (State.finish
      (if bit w 8 then (posted (s.tick dt) 0x28 q).modTile i (fun t => { t with dFloor := {}, floorWhy := 0 })
        else posted (s.tick dt) 0x28 q) q.mbx
      (okR (((s.tick dt).tile i).dFloor.words ++ [w32 ((s.tick dt).tile i).floorWhy.toNat]))) := by
  refine congrArg Host.Outcome.next (postCmd_final (c := cmdFloorOver) h nofun nofun rfl (by simp [cmdFloorOver, lenIs, hq])
    (hq ▸ rsvWord_one hw []) ?_ ?_)
  · simp only [cmdFloorOver, hi, steady_posted, hs, Bool.false_eq_true, if_false, formPresent_posted hi hp]
  · simp only [cmdFloorOver, w_one hq, hi, tile_posted]

end

/-- Settles O3: each read finds the tile that word 1 names, and a page of counters by whether it takes the snapshot. -/
theorem tileReads : Obligations.TileReads := by
  rintro dt q s u rfl h ⟨htiles, -⟩ w i hq hi hp
  have hr : reqTile q = i := (reqTile_eq hq).trans hi.symm
  have hlen : i < (s.tick dt).tiles.length := by
    rw [htiles, hi]
    exact Nat.mod_lt _ (by decide)
  exact ⟨fun hw => exec_tileInfo h hq hr hp hw rfl, fun hw => exec_tileStatus h hq hr hp hw rfl,
    fun hw hpage => exec_tileCounters_take h hq hr hp hw hpage hlen,
    fun hw h1 h3 hs => exec_tileCounters_held h hq hr hp hw h1 h3 hs, fun hw hs => exec_floorOver h hq hr hp hw hs⟩

end Sys2Proof.Proofs
end

section
/-! O7: the Reckoner commands that change something, 0x30 to 0x33, 0x38 and 0x39 (14 R336; 06 R159, R164, R168 to R170; 07 R202, R204). -/

namespace Sys2Proof.Proofs

open Sys2Proof.Machine Sys2Proof.Safety Sys2Proof.Laws

set_option Elab.async false

section

variable {s u : State} {q : Req} {w a b : Word} {dt : Nat} {op : Byte}

/-! ## A cleared history (07 R202) -/

/-- The tensors of the classes, class by class. -/
def tensorsOf (s : State) : List (List Tensor) := s.rck.classes.map Cls.tensors

theorem tensorsOf_congr {t : State} (h : t.rck.classes = s.rck.classes) : tensorsOf t = tensorsOf s :=
  congrArg (List.map Cls.tensors) h

theorem tensorsOf_modTile (s : State) (i : Nat) (f : Tile → Tile) : tensorsOf (s.modTile i f) = tensorsOf s := rfl

theorem tensorsOf_take (s : State) (p : Config.Purpose) (b : Nat) : tensorsOf (s.take p b).2 = tensorsOf s := rfl

theorem tensorsOf_modCls (s : State) (c : Nat) {f : Cls → Cls} (h : ∀ x, (f x).tensors = x.tensors) :
    tensorsOf (s.modCls c f) = tensorsOf s := by
  simp only [tensorsOf, State.modCls, List.map_map]
  refine List.map_congr_left (fun x _ => ?_)
  dsimp only [Function.comp]
  split
  · exact h x
  · rfl

theorem tensorsOf_recheck (s : State) (i : Nat) : tensorsOf (s.recheck i) = tensorsOf s := by
  unfold State.recheck
  dsimp only
  split
  · rfl
  · split
    · exact tensorsOf_modCls _ _ (fun _ => rfl)
    · rfl

theorem tensorsOf_redip (s : State) (i : Nat) : tensorsOf (s.redip i) = tensorsOf s :=
  (tensorsOf_congr (congrArg Rck.classes (rck_redip s i))).trans (tensorsOf_recheck s i)

theorem tensorsOf_countAbandon (s : State) (i : Nat) : tensorsOf (s.countAbandon i) = tensorsOf s := by
  unfold State.countAbandon tensorsOf
  dsimp only
  split <;> rfl

/-- Events given up take nothing from a class. -/
theorem tensorsOf_abandonRun (s : State) (i : Nat) : tensorsOf (s.abandonRun i) = tensorsOf s := by
  unfold State.abandonRun
  split
  · rfl
  · dsimp only
    rw [State.sweepEvents, tensorsOf_modTile, tensorsOf_redip, tensorsOf_modTile, tensorsOf_take, tensorsOf_countAbandon]

theorem tensorsOf_each_abandonRun (l : List Nat) (s : State) : tensorsOf (s.each l State.abandonRun) = tensorsOf s :=
  List.foldlRecOn (motive := fun t : State => tensorsOf t = tensorsOf s) l _ rfl (fun _ hb _ _ => (tensorsOf_abandonRun ..).trans hb)

/-- A state that has entered WARMUP, with the mode that follows. -/
def warming (s : State) (m : RckMode) : State :=
  { s with rck := { s.rck with mode := .warmup, warm := 16, endMode := m, warmups := satInc s.rck.warmups } }

theorem tensorsOf_warming (s : State) (m : RckMode) : tensorsOf (warming s m) = tensorsOf s := rfl

/-- Entering WARMUP takes nothing from a class. -/
theorem enterWarmup_facts (h : s.rck.mode = .warmup ∨ s.rck.mode = .active ∨ s.rck.mode = .advisory) :
    ∃ v m, s.enterWarmup = warming v m ∧ tensorsOf v = tensorsOf s := by
  unfold State.enterWarmup
  rcases h with h | h | h <;> rw [h]
  · exact ⟨s, s.rck.endMode, rfl, rfl⟩
  · exact ⟨s.each allTiles State.abandonRun, .active, rfl, tensorsOf_each_abandonRun ..⟩
  · exact ⟨s, .advisory, rfl, rfl⟩

theorem ring_clearHistory : ∀ l ∈ tensorsOf s.clearHistory, ∀ x ∈ l, x.ring = List.replicate 16 none := by
  simp only [tensorsOf, State.clearHistory, List.map_map, List.forall_mem_map, Function.comp]
  exact fun _ _ _ _ => trivial

/-! ## The commands -/

theorem masks_rckLoad (hb : b &&& ~~~0xF#32 = 0) : rsvWord 1 cmdRckLoad.masks [a, b] = none :=
  rsvWord_two (by simp) hb [] 1

theorem exec_rckLoad (h : ready false (s.tick dt) q = true) (hh : (s.tick dt).haltedB = false) (hq : q.args = [a, b])
    (hb : b &&& ~~~0xF#32 = 0) (h1 : 1 ≤ a.toNat) (hmax : a.toNat ≤ 3145728) (hm : fld b 0 3 = 3 ∨ fld b 0 3 = 4)
    (hl : (s.tick dt).rck.loading = false) (hg : ∀ g, (s.tick dt).tests.grant = some g → g.rck = false ∧ g.trace = false)
    (ho : (s.tick dt).boot.lockedOnce = true) :
    exec (.rckLoad dt q) s = .next (State.accept (State.openInbound (State.trimTrace { posted (s.tick dt) 0x30 q with
        faults := { (s.tick dt).faults with bad := (s.tick dt).faults.bad.filter (fun x => x.1 != MemRegion.staging) }
        rck := { (s.tick dt).rck with
          loading := true, loadStep := 1, loadMode := if fld b 0 3 = 3 then .active else .advisory, carry := bit b 3
          loadMbx := some q.mbx, cleared := 0, staging := [] } })
      { kind := .container, mbx := q.mbx, tag := q.tag, bytes := a.toNat, lastAt := (s.tick dt).boot.uptime }) q.mbx []) := by
  have word2 : q.w 2 = b := by simp [Req.w, hq]
  have len : loadLen q = a.toNat := by rw [loadLen, w_one hq]
  have mode : loadMode q = fld b 0 3 := by rw [loadMode, word2]
  refine congrArg Host.Outcome.next (postCmd_accepted (c := cmdRckLoad) h nofun (fun _ => hh) rfl (by simp [cmdRckLoad, lenIs, hq])
    (hq ▸ masks_rckLoad hb) ?_ ?_)
  · simp only [cmdRckLoad, len, mode]
    rw [if_neg (by omega), if_neg (by simp; omega)]
  · simp only [cmdRckLoad, len, mode, word2]
    rw [if_neg (by omega), posted_rck, hl, if_neg Bool.false_ne_true, posted_boot, ho, Bool.not_true, if_neg Bool.false_ne_true]
    refine if_neg ?_
    rw [posted_tests]
    cases grant : (s.tick dt).tests.grant with
    | none => simp
    | some g => simp [hg g grant]

theorem run_rckUnload (h : u.rck.loading = false) : cmdRckUnload.run (posted u op q) q =
    ({ posted u op q with rck := { u.rck with unload := true, unloadAt := u.mer.now } }, .final (okR [])) :=
  if_neg (by simp [h])

theorem exec_rckUnload (h : ready false (s.tick dt) q = true) (hh : (s.tick dt).haltedB = false) (hq : q.args = [])
    (hl : (s.tick dt).rck.loading = false) :
    exec (.rckUnload dt q) s = .next (State.finish { posted (s.tick dt) 0x31 q with
      rck := { (s.tick dt).rck with unload := true, unloadAt := (s.tick dt).mer.now } } q.mbx (okR [])) :=
  congrArg Host.Outcome.next (postCmd_final (c := cmdRckUnload) h nofun (fun _ => hh) rfl (by simp [cmdRckUnload, hq]) rfl rfl
    (run_rckUnload hl))

/-- RCK_MODE with one of its two values answers OK in every mode that has a program. -/
theorem exec_rckMode {t : State} (h : ready false (s.tick dt) q = true) (hh : (s.tick dt).haltedB = false) (hq : q.args = [w])
    (hw : w = 3 ∨ w = 4) (run : cmdRckMode.run (posted (s.tick dt) 0x32 q) q = (t, .final (okR []))) :
    exec (.rckMode dt q) s = .next (t.finish q.mbx (okR [])) := by
  refine congrArg Host.Outcome.next (postCmd_final (c := cmdRckMode) h nofun (fun _ => hh) rfl (by simp [cmdRckMode, lenIs, hq])
    (hq ▸ rsvWord_one ?_ []) ?_ run)
  · rcases hw with rfl | rfl <;> decide
  · simp only [cmdRckMode, w_one hq]
    exact if_neg (by rcases hw with rfl | rfl <;> decide)

/-- In WARMUP the mode that follows is set. -/
theorem run_rckMode_warmup (h : u.rck.mode = .warmup) (word : q.w 1 = w) (hw : w = 3 ∨ w = 4) : cmdRckMode.run (posted u op q) q =
    ({ posted u op q with rck := { u.rck with endMode := if w = 3 then .active else .advisory } }, .final (okR [])) := by
  dsimp only [cmdRckMode]
  conv_lhs => rw [show (posted u op q).rck.mode = .warmup from h, word]
  rcases hw with rfl | rfl <;> rfl

/-- From ADVISORY to ACTIVE the way leads through WARMUP. -/
theorem run_rckMode_up (h : u.rck.mode = .advisory) (word : q.w 1 = 3) : cmdRckMode.run (posted u op q) q =
    ({ posted u op q with rck := { u.rck with mode := .warmup, warm := 16, endMode := .active, warmups := satInc u.rck.warmups } },
      .final (okR [])) := by
  dsimp only [cmdRckMode]
  conv_lhs => rw [show (posted u op q).rck.mode = .advisory from h, word]
  rfl

/-- From ACTIVE to ADVISORY every event is given up. -/
theorem run_rckMode_down (h : u.rck.mode = .active) (word : q.w 1 = 4) : cmdRckMode.run (posted u op q) q =
    (((posted u op q).each allTiles State.abandonRun).modRck (fun r => { r with mode := .advisory }), .final (okR [])) := by
  dsimp only [cmdRckMode]
  conv_lhs => rw [show (posted u op q).rck.mode = .active from h, word]
  rfl

/-- The mode that is in force already changes nothing. -/
theorem run_rckMode_same (word : q.w 1 = w) (h : u.rck.mode = .active ∧ w = 3 ∨ u.rck.mode = .advisory ∧ w = 4) :
    cmdRckMode.run (posted u op q) q = (posted u op q, .final (okR [])) := by
  dsimp only [cmdRckMode]
  obtain ⟨h, rfl⟩ | ⟨h, rfl⟩ := h
  · conv_lhs => rw [show (posted u op q).rck.mode = .active from h, word]
    rfl
  · conv_lhs => rw [show (posted u op q).rck.mode = .advisory from h, word]
    rfl

/-- RCK_MAP with a form that fits answers what its body does. -/
theorem exec_rckMap {t : State} {ans : Ans} (h : ready false (s.tick dt) q = true) (hh : (s.tick dt).haltedB = false)
    (hlen : mapLen q = true) (hmask : rsvWord 1 [0x3FFF] q.args = none) (hform : mapFormBad q = none)
    (run : cmdRckMap.run (posted (s.tick dt) 0x33 q) q = (t, ans)) : exec (.rckMap dt q) s = .next (t.answer q.mbx ans) := by
  refine congrArg Host.Outcome.next ?_
  cases ans with
  | final r => exact postCmd_final (c := cmdRckMap) h nofun (fun _ => hh) rfl hlen hmask hform run
  | accepted ws => exact postCmd_accepted (c := cmdRckMap) h nofun (fun _ => hh) rfl hlen hmask hform run

@[simp] theorem rckMapErrs_posted (u : State) (op : Byte) (q r : Req) : (posted u op q).rckMapErrs r = u.rckMapErrs r := rfl

theorem run_rckMap_loading (h : u.rck.loading = true) : cmdRckMap.run (posted u op q) q =
    ({ posted u op q with rck := { u.rck with mapWaits := u.rck.mapWaits ++ [q.mbx] } }, .accepted []) := if_pos h

theorem run_rckMap_idle (h : u.rck.loading = false) (he : u.rckMapErrs q = []) : cmdRckMap.run (posted u op q) q =
    ({ posted u op q with rck := { u.rck with mapNext := mapWith u.rck.mapNext q } }, .final (okR [])) := by
  refine (if_neg (by simp [h])).trans ?_
  rw [rckMapErrs_posted, he]
  rfl

theorem exec_rckHistory (h : ready false (s.tick dt) q = true) (hh : (s.tick dt).haltedB = false) (hq : q.args = []) :
    exec (.rckHistory dt q) s = .next ((posted (s.tick dt) 0x38 q).clearHistory.enterWarmup.finish q.mbx (okR [])) :=
  congrArg Host.Outcome.next (postCmd_final (c := cmdRckHistory) h nofun (fun _ => hh) rfl (by simp [cmdRckHistory, hq]) rfl rfl rfl)

/-- A word below 2^n has no bit at or above the n-th. -/
theorem mask_of_toNat_lt (n : Nat) (h : w.toNat < 2 ^ n) : w &&& ~~~BitVec.ofNat 32 (2 ^ n - 1) = 0 := by
  refine BitVec.eq_of_getLsbD_eq (fun i hi => ?_)
  simp only [BitVec.getLsbD_and, BitVec.getLsbD_not, BitVec.getLsbD_ofNat, Nat.testBit_two_pow_sub_one, hi, decide_true, Bool.true_and]
  by_cases hn : i < n
  · simp [hn]
  · have high : w.getLsbD i = false := by
      rw [← BitVec.testBit_toNat]
      exact Nat.testBit_lt_two_pow (Nat.lt_of_lt_of_le h (Nat.pow_le_pow_right (by decide) (Nat.not_lt.1 hn)))
    simp [high]

theorem exec_watchSet (h : ready false (s.tick dt) q = true) (hh : (s.tick dt).haltedB = false) (hq : q.args = [w])
    (h8 : 8 ≤ w.toNat) (h16 : w.toNat ≤ 16) :
    exec (.watchSet dt q) s = .next (State.finish { posted (s.tick dt) 0x39 q with rck := { (s.tick dt).rck with
      watchW := w.toNat, watchCnt := 0, watchSkip := (s.tick dt).rck.flight
      classes := (s.tick dt).rck.classes.map (fun c => { c with tensors := c.tensors.map Tensor.newWindow }) } } q.mbx (okR [])) := by
  refine congrArg Host.Outcome.next (postCmd_final (c := cmdWatchSet) h nofun (fun _ => hh) rfl (by simp [cmdWatchSet, lenIs, hq])
    (hq ▸ rsvWord_one (mask_of_toNat_lt 5 (by omega)) []) ?_ ?_)
  · simp only [cmdWatchSet, w_one hq]
    exact if_neg (by simp; omega)
  · simp only [cmdWatchSet, w_one hq]
    rfl

end

/-- Settles O7: no rule refuses what the statement allows; a change of mode goes by the mode that it finds, a map by whether a load is in
hand. -/
theorem reckonerCommands : Obligations.ReckonerCommands := by
  rintro dt q s u rfl h hh
  refine ⟨fun a b hq hb h1 hmax hm hl hg ho => exec_rckLoad h hh hq hb h1 hmax hm hl hg ho, fun hq hl => exec_rckUnload h hh hq hl, ?_,
    fun hlen hmask hform => ⟨fun hl => ?_, fun hl he => ?_⟩, fun hq => exec_rckHistory h hh hq, fun hm => ?_,
    fun w hq h8 h16 => exec_watchSet h hh hq h8 h16⟩
  · intro w hq hw
    have word := w_one hq
    have run : ∀ {t : State}, cmdRckMode.run (posted (s.tick dt) 0x32 q) q = (t, .final (okR [])) →
        exec (.rckMode dt q) s = .next (t.finish q.mbx (okR [])) := exec_rckMode h hh hq hw
    exact ⟨fun hm => run (run_rckMode_warmup hm word hw), fun hm h3 => run (run_rckMode_up hm (word.trans h3)),
      fun hm h4 => run (run_rckMode_down hm (word.trans h4)), fun hm => run (run_rckMode_same word hm)⟩
  · exact exec_rckMap h hh hlen hmask hform (run_rckMap_loading hl)
  · exact exec_rckMap h hh hlen hmask hform (run_rckMap_idle hl he)
  · obtain ⟨v, m, entered, tensors⟩ := enterWarmup_facts (s := (s.tick dt).clearHistory) hm
    rw [entered]
    refine ⟨rfl, rfl, fun c hc x hx => ring_clearHistory (s := s.tick dt) c.tensors ?_ x hx⟩
    rw [← tensors]
    exact List.mem_map_of_mem hc

end Sys2Proof.Proofs
end

section
/-! O8: the reads of the Reckoner, 0x34 to 0x37, 0x3A and 0x3B (14 R336; 06 Table 6.9; 07 R194, R195, R204, Table 7.7). -/

namespace Sys2Proof.Proofs

open Sys2Proof.Machine Sys2Proof.Safety Sys2Proof.Laws

set_option Elab.async false

@[simp] theorem cls_posted (u : State) (op : Byte) (q : Req) (c : Nat) : (posted u op q).cls c = u.cls c := rfl
@[simp] theorem fusedCode_posted (u : State) (op : Byte) (q : Req) (n : Nat) : (posted u op q).fusedCode n = u.fusedCode n := rfl

section

variable {s u : State} {q : Req} {w : Word} {dt : Nat} {op : Byte} {x : Cls}

theorem exec_rckStatus (h : ready false (s.tick dt) q = true) (hq : q.args = []) {r : Rck} (hr : r = (s.tick dt).rck) :
    exec (.rckStatus dt q) s =
      .next ((posted (s.tick dt) 0x34 q).finish q.mbx (okR (wordsOf 2 r.status ++ wordsOf 2 r.progId.toNat ++ [r.joest]))) := by
  subst hr
  exact congrArg Host.Outcome.next (postCmd_final (c := cmdRckStatus) h nofun nofun rfl (by simp [cmdRckStatus, hq]) rfl rfl rfl)

theorem exec_rckScales (h : ready false (s.tick dt) q = true) (hq : q.args = []) {v : State} (hv : v = s.tick dt) :
    exec (.rckScales dt q) s = .next ((posted v 0x3B q).finish q.mbx (okR [w32 (pack [(0, 8, v.fusedCode 0), (8, 8, v.fusedCode 1),
      (16, 8, v.fusedCode 2)])])) := by
  subst hv
  exact congrArg Host.Outcome.next (postCmd_final (c := cmdRckScales) h nofun nofun rfl (by simp [cmdRckScales, hq]) rfl rfl
    (by simp only [cmdRckScales, fusedCode_posted]))

/-- The page of a snapshot that has been taken. -/
theorem pageOf_taken {snap : List (List Word)} {p : Nat} (h : p < snap.length) (empty : List (List Word)) :
    pageOf snap empty p = snap.getD p [] := by
  rw [pageOf, List.getD_eq_getElem _ _ h, List.getD_eq_getElem _ _ h]

theorem exec_rckCounters {t : State} {ws : List Word} (h : ready false (s.tick dt) q = true) (hq : q.args = [w]) (hw : w.toNat ≤ 1)
    (run : cmdRckCounters.run (posted (s.tick dt) 0x35 q) q = (t, .final (okR ws))) :
    exec (.rckCounters dt q) s = .next (t.finish q.mbx (okR ws)) := by
  refine congrArg Host.Outcome.next (postCmd_final (c := cmdRckCounters) h nofun nofun rfl (by simp [cmdRckCounters, lenIs, hq])
    (hq ▸ rsvWord_one (mask_of_toNat_lt 4 (by omega)) []) ?_ run)
  simp only [cmdRckCounters, w_one hq]
  exact if_neg (Nat.not_lt.2 hw)

/-- Page 0 takes the snapshot, and gives its first page. -/
theorem run_rckCounters_take (word : q.w 1 = 0) : cmdRckCounters.run (posted u op q) q =
    ({ posted u op q with rck := { u.rck with snap := [u.rck.words.take 15, (u.rck.words.drop 15).take 15] } },
      .final (okR (u.rck.words.take 15))) := by
  dsimp only [cmdRckCounters]
  rw [word]
  rfl

theorem run_rckCounters_held (word : q.w 1 = 1) (hs : u.rck.snap.length = 2) : cmdRckCounters.run (posted u op q) q =
    (posted u op q, .final (okR (u.rck.snap.getD 1 []))) := by
  have page := pageOf_taken (snap := u.rck.snap) (p := 1) (by omega) (pagesOf 2 (List.replicate 28 0))
  rw [← page]
  dsimp only [cmdRckCounters]
  rw [word]
  rfl

theorem reqClassId_eq (hq : q.args = [w]) : reqClassId q = fld w 0 4 := by rw [reqClassId, w_one hq]

theorem id_of_cls {n : Nat} (h : u.cls n = some x) : x.id = n := by simpa using List.find?_some (p := fun y : Cls => y.id == n) h

theorem exec_rckClass (h : ready false (s.tick dt) q = true) (hq : q.args = [w]) (hw : w &&& ~~~0xFF0F#32 = 0)
    (hx : (s.tick dt).cls (fld w 0 4) = some x) :
    exec (.rckClass dt q) s = .next (State.finish ((posted (s.tick dt) 0x36 q).modCls (fld w 0 4) (fun y => { y with
      flags := y.flags &&& ~~~BitVec.ofNat 64 (fld w 8 8) })) q.mbx (okR x.words)) := by
  have id := reqClassId_eq hq
  refine congrArg Host.Outcome.next (postCmd_final (c := cmdRckClass) h nofun nofun rfl (by simp [cmdRckClass, lenIs, hq])
    (hq ▸ rsvWord_one hw []) ?_ ?_)
  · simp only [cmdRckClass, id, cls_posted, hx]
    rfl
  · simp only [cmdRckClass, id, cls_posted, hx, w_one hq, id_of_cls hx]

theorem exec_rckNv (h : ready false (s.tick dt) q = true) (hq : q.args = [w]) (hw : w = 0 ∨ w = 1) :
    exec (.rckNv dt q) s = .next (State.finish (if w = 1 then { posted (s.tick dt) 0x37 q with
        rck := { (s.tick dt).rck with capture := setFld (s.tick dt).rck.capture 0 1 0 } } else posted (s.tick dt) 0x37 q) q.mbx
      (okR (wordsOf 4 (s.tick dt).rck.capture.toNat))) := by
  have named : bit w 0 = true ↔ w = 1 := by rcases hw with rfl | rfl <;> decide
  refine congrArg Host.Outcome.next (postCmd_final (c := cmdRckNv) h nofun nofun rfl (by simp [cmdRckNv, lenIs, hq])
    (hq ▸ rsvWord_one (by rcases hw with rfl | rfl <;> decide) []) rfl ?_)
  dsimp only [cmdRckNv]
  rw [w_one hq, posted_rck]
  by_cases h1 : w = 1
  · rw [if_pos h1, if_pos (named.2 h1)]
    rfl
  · rw [if_neg h1, if_neg (mt named.1 h1)]

theorem exec_watchRead (h : ready false (s.tick dt) q = true) (hq : q.args = [w]) (hw : w &&& ~~~0x1FF#32 = 0)
    (hx : (s.tick dt).cls (fld w 0 4) = some x) (hk : 2 * fld w 4 4 + fld w 8 1 < x.tensors.length) :
    exec (.watchRead dt q) s = .next ((posted (s.tick dt) 0x3A q).finish q.mbx
      (okR (wordsOf 9 (x.tensors.getD (2 * fld w 4 4 + fld w 8 1) {}).report.toNat))) := by
  have id := reqClassId_eq hq
  have tensor : reqTensor q = 2 * fld w 4 4 + fld w 8 1 := by rw [reqTensor, w_one hq]
  refine congrArg Host.Outcome.next (postCmd_final (c := cmdWatchRead) h nofun nofun rfl (by simp [cmdWatchRead, lenIs, hq])
    (hq ▸ rsvWord_one hw []) ?_ ?_)
  · simp only [cmdWatchRead, watchMiss, id, cls_posted, hx, tensor, if_pos hk]
  · simp only [cmdWatchRead, id, cls_posted, hx, tensor]

end

/-- Settles O8: each read finds its class or page, and writes what its row clears. -/
theorem reckonerReads : Obligations.ReckonerReads := by
  rintro dt q s u rfl h
  refine ⟨fun hq => ⟨exec_rckStatus h hq rfl, exec_rckScales h hq rfl⟩, fun w hq => ⟨?_, ?_, fun x hw hx => exec_rckClass h hq hw hx,
    fun hw => exec_rckNv h hq hw, fun x hw hx hk => exec_watchRead h hq hw hx hk⟩⟩
  · rintro rfl
    exact exec_rckCounters h hq (by decide) (run_rckCounters_take (w_one hq))
  · rintro rfl hs
    exact exec_rckCounters h hq (by decide) (run_rckCounters_held (w_one hq) hs)

end Sys2Proof.Proofs
end

section
/-! O14: the rail and power commands that change something, 0x60 to 0x63 (14 R339; 09 R236, R237, R243, R248). -/

namespace Sys2Proof.Proofs

open Sys2Proof.Machine Sys2Proof.Safety Sys2Proof.Laws

set_option Elab.async false

@[simp] theorem railMax_posted (u : State) (op : Byte) (q : Req) (r : Nat) : (posted u op q).railMax r = u.railMax r := rfl
@[simp] theorem ceiling_posted (u : State) (op : Byte) (q : Req) (k : Nat) : (posted u op q).ceiling k = u.ceiling k := rfl
@[simp] theorem mapBad_posted (u : State) (op : Byte) (q : Req) (r : Nat) (w : BitVec 64) : (posted u op q).mapBad r w = u.mapBad r w := rfl
@[simp] theorem actRefusals_posted (u : State) (op : Byte) (q : Req) (r : Nat) : (posted u op q).actRefusals r = u.actRefusals r := rfl

section

variable {s u : State} {q : Req} {w a b c v : Word} {rest : List Word} {dt r k : Nat} {op : Byte}

theorem reqRail_args (hq : q.args = a :: rest) (ha : a &&& ~~~7#32 = 0) : reqRail q = a.toNat := by
  rw [reqRail, w_one hq]
  exact fld_of_lt (toNat_lt_of_mask 3 ha)

/-! ## RAIL_MAP (09 R236, R237) -/

/-- A map word that fits: of a rail that is there, its fields; of one that is not, that no tile hangs on it. -/
theorem mapBad_fits {m : BitVec 64} (hp : rmPresent m = true → rmILsb m ≠ 7 ∧ 500 ≤ rmVInit m ∧ rmVInit m ≤ 950)
    (hn : rmPresent m = false → ∀ i < 256, u.present i = true → u.railOf i ≠ r) : u.mapBad r m = false := by
  unfold State.mapBad
  cases present : rmPresent m with
  | true =>
    obtain ⟨lsb, low, high⟩ := hp present
    rw [if_pos rfl]
    simp [lsb, Nat.not_lt.2 low, Nat.not_lt.2 high]
  | false =>
    rw [if_neg Bool.false_ne_true, List.any_eq_false]
    rintro i hi on
    obtain ⟨there, rail⟩ := Bool.and_eq_true_iff.1 on
    exact hn present i (List.mem_range.1 hi) there (beq_iff_eq.1 rail)

theorem exec_railMap (h : ready false (s.tick dt) q = true) (hh : (s.tick dt).haltedB = false) (hq : q.args = [a, b, c])
    (ha : a &&& ~~~7#32 = 0) (hb : b &&& ~~~0xFFF7FFFF#32 = 0) (hc : c &&& ~~~0x00FFFFFF#32 = 0)
    (hm : (s.tick dt).mapBad a.toNat (q.w64 2) = false) (hl : (s.tick dt).power.mapLock = false) :
    exec (.railMap dt q) s =
      .next (State.finish ((posted (s.tick dt) 0x60 q).modRail a.toNat (fun x => { x with map := q.w64 2 })) q.mbx (okR [])) := by
  have rail := reqRail_args hq ha
  refine congrArg Host.Outcome.next (postCmd_final (c := cmdRailMap) h nofun (fun _ => hh) rfl (by simp [cmdRailMap, lenIs, hq])
    (hq ▸ rsvWord_three ha hb hc 1) ?_ ?_)
  · simp only [cmdRailMap, rail, mapBad_posted, hm, Bool.false_eq_true, if_false]
  · simp only [cmdRailMap, rail, posted_power, hl, Bool.false_eq_true, if_false, orElse_nil]

/-! ## RAIL_ACT (09 R237) -/

/-- An activation that nothing refuses. -/
theorem actRefusals_nil (ho : u.boot.lockedOnce = true) (hp : rmPresent (u.rail r).map = true) (ha : (u.rail r).active = false)
    (hv : rmVInit (u.rail r).map ≤ u.railMax r) (hf : u.power.pmbFail ≤ 2) : u.actRefusals r = [] := by
  simp [State.actRefusals, ho, hp, ha, Nat.not_lt.2 hv, show ¬ 3 ≤ u.power.pmbFail by omega]

theorem run_railAct_starts (hr : reqRail q = r) (hn : (u.rail r).acting = none) (he : u.actRefusals r = []) :
    cmdRailAct.run (posted u op q) q = ((posted u op q).actStart r q.mbx, .accepted []) := by
  dsimp only [cmdRailAct]
  rw [hr, rail_posted, hn, actRefusals_posted, he]
  rfl

theorem run_railAct_waits (hr : reqRail q = r) (hn : (u.rail r).acting ≠ none) :
    cmdRailAct.run (posted u op q) q = ((posted u op q).setWait q.mbx (.railQueued (BitVec.ofNat 3 r)), .accepted []) := by
  dsimp only [cmdRailAct]
  rw [hr]
  exact if_pos (Option.isSome_iff_ne_none.2 hn)

theorem exec_railAct {t : State} (h : ready false (s.tick dt) q = true) (hh : (s.tick dt).haltedB = false) (hq : q.args = [a])
    (ha : a &&& ~~~7#32 = 0) (run : cmdRailAct.run (posted (s.tick dt) 0x61 q) q = (t, .accepted [])) :
    exec (.railAct dt q) s = .next (t.accept q.mbx []) :=
  congrArg Host.Outcome.next (postCmd_accepted (c := cmdRailAct) h nofun (fun _ => hh) rfl (by simp [cmdRailAct, lenIs, hq])
    (hq ▸ rsvWord_one ha []) rfl run)

/-! ## POWER_LIMIT and POWER_CFG (09 R243, R248) -/

/-- A limit within the chart and the order of the limits. -/
theorem limitErrs_nil {n : Nat} (hk : k < 3) (hc : n ≤ u.ceiling k) (h0 : k = 0 → 10000 ≤ n)
    (hn : k ≠ 0 → n ≤ (u.power.limits.getD (k - 1) 0).toNat) : u.limitErrs k n u.limitsN = [] := by
  have lims : ∀ j, u.limitsN.getD j 0 = (u.power.limits.getD j 0).toNat := fun j => by
    simp only [State.limitsN, List.getD_eq_getElem?_getD, List.getElem?_map]
    cases u.power.limits[j]? <;> rfl
  have order : ((k = 0 && n < 10000) || (k = 1 && n > u.limitsN.getD 0 0) || (k = 2 && n > u.limitsN.getD 1 0)) = false := by
    rw [lims, lims]
    interval_cases k
    · simpa using h0 rfl
    · simpa using hn (by decide)
    · simpa using hn (by decide)
  rw [State.limitErrs, order, if_neg Bool.false_ne_true, if_neg (Nat.not_lt.2 hc)]
  rfl

theorem exec_powerLimit (h : ready false (s.tick dt) q = true) (hh : (s.tick dt).haltedB = false) (hq : q.args = [a, v])
    (ha : a &&& ~~~3#32 = 0) (hk : a.toNat < 3) (he : (s.tick dt).limitErrs a.toNat v.toNat (s.tick dt).limitsN = []) :
    exec (.powerLimit dt q) s = .next (State.finish (State.revalidate 4 (2 ^ 63) [(2, 0), (2, 1), (2, 2)] { posted (s.tick dt) 0x62 q with
      power := { (s.tick dt).power with limits := (s.tick dt).power.limits.set a.toNat v } }) q.mbx (okR [])) := by
  have which : fld (q.w 1) 0 2 = a.toNat := by rw [w_one hq]; exact fld_of_lt (by omega)
  have word2 : q.w 2 = v := by simp [Req.w, hq]
  have errs : (posted (s.tick dt) 0x62 q).limitErrs a.toNat v.toNat (posted (s.tick dt) 0x62 q).limitsN = [] := by
    rw [← he, State.limitErrs, State.limitErrs, ceiling_posted, State.limitsN, State.limitsN, posted_power]
  refine congrArg Host.Outcome.next (postCmd_final (c := cmdPowerLimit) h nofun (fun _ => hh) rfl (by simp [cmdPowerLimit, lenIs, hq])
    (hq ▸ rsvWord_two ha (by simp) [] 1) ?_ ?_)
  · simp only [cmdPowerLimit, which, word2, errs, if_neg (show ¬ a.toNat = 3 by omega)]
    rfl
  · simp only [cmdPowerLimit, which, word2, errs, orElse_nil, posted_power]
    rfl

theorem exec_powerCfg (h : ready false (s.tick dt) q = true) (hh : (s.tick dt).haltedB = false) (hq : q.args = [w])
    (hw : w &&& ~~~0x3FFF#32 = 0) (h5 : 5 ≤ cfgEst w) (h50 : cfgEst w ≤ 50) (h20 : 20 ≤ cfgTel w) (h80 : cfgTel w ≤ 80) :
    exec (.powerCfg dt q) s = .next (State.finish { posted (s.tick dt) 0x63 q with
      power := { (s.tick dt).power with cfg := w } } q.mbx (okR [])) := by
  refine congrArg Host.Outcome.next (postCmd_final (c := cmdPowerCfg) h nofun (fun _ => hh) rfl (by simp [cmdPowerCfg, lenIs, hq])
    (hq ▸ rsvWord_one hw []) ?_ ?_)
  · simp only [cmdPowerCfg, w_one hq]
    exact if_neg (by simp; omega)
  · simp only [cmdPowerCfg, w_one hq, posted_power]

end

/-- Settles O14: no rule refuses what the statement allows; an activation goes by whether its rail has one in hand. -/
theorem railCommands : Obligations.RailCommands := by
  rintro dt q s u rfl h hh
  refine ⟨?_, ?_, ?_, fun w hq hw h5 h50 h20 h80 => exec_powerCfg h hh hq hw h5 h50 h20 h80⟩
  · rintro a b c r hq ha hb hc rfl hp hn hl
    exact exec_railMap h hh hq ha hb hc (mapBad_fits hp hn) hl
  · rintro a r hq ha rfl
    have rail := reqRail_args hq ha
    exact ⟨fun hn ho hp hact hv hf => exec_railAct h hh hq ha (run_railAct_starts rail hn (actRefusals_nil ho hp hact hv hf)),
      fun hn => exec_railAct h hh hq ha (run_railAct_waits rail hn)⟩
  · rintro a v k hq ha rfl hk hc h0 hn
    exact exec_powerLimit h hh hq ha hk (limitErrs_nil hk hc h0 hn)

end Sys2Proof.Proofs
end

section
/-! O15: the power and ledger reads, the partition map and the captures, 0x64 to 0x69 (14 R332, R339; 09 R252, R254, R257, R263). -/

namespace Sys2Proof.Proofs

open Sys2Proof.Machine Sys2Proof.Safety Sys2Proof.Laws

set_option Elab.async false

@[simp] theorem reasonPages_posted (u : State) (op : Byte) (q : Req) : (posted u op q).reasonPages = u.reasonPages := rfl
@[simp] theorem powerWords_posted (u : State) (op : Byte) (q : Req) : (posted u op q).powerWords = u.powerWords := rfl
@[simp] theorem margin_posted (u : State) (op : Byte) (q : Req) : (posted u op q).margin = u.margin := rfl

section

variable {s u : State} {q : Req} {w a b : Word} {dt : Nat} {op : Byte}

/-! ## PART_MAP (09 R254) -/

/-- Entries that assign present tiles alone. -/
theorem mapAbsent_none (h : ∀ p ∈ enumFrom' (mapFirst q) (mapEntries q), bit p.2 7 = true → u.present p.1 = true) :
    u.mapAbsent q = none := by
  have found : (enumFrom' (mapFirst q) (mapEntries q)).find? (fun p => bit p.2 7 && !u.present p.1) = none := by
    rw [List.find?_eq_none]
    intro p hp absent
    obtain ⟨assigned, gone⟩ := Bool.and_eq_true_iff.1 absent
    simp [h p hp assigned] at gone
  rw [State.mapAbsent, found]
  rfl

theorem exec_partMap (h : ready false (s.tick dt) q = true) (hh : (s.tick dt).haltedB = false) (hlen : mapLen q = true)
    (hmask : rsvWord 1 [0x3FFF] q.args = none) (hform : mapFormBad q = none) (he : (s.tick dt).mapAbsent q = none) :
    exec (.partMap dt q) s = .next (State.finish { posted (s.tick dt) 0x64 q with
      ledger := { (s.tick dt).ledger with mapNext := mapWith (s.tick dt).ledger.mapNext q } } q.mbx (okR [])) := by
  have absent : (posted (s.tick dt) 0x64 q).mapAbsent q = none := by
    rw [← he, State.mapAbsent, State.mapAbsent]
    simp only [present_posted]
  refine congrArg Host.Outcome.next (postCmd_final (c := cmdPartMap) h nofun (fun _ => hh) rfl hlen hmask ?_ ?_)
  · simp only [cmdPartMap, hform, absent]
  · simp only [cmdPartMap, posted_ledger]

/-! ## LEDGER_READ (09 R257) -/

theorem exec_ledgerRead (h : ready false (s.tick dt) q = true) (hq : q.args = [w]) (hw : w.toNat ≤ 25) {l : Ledger}
    (hl : l = (s.tick dt).ledger) :
    exec (.ledgerRead dt q) s = .next ((posted (s.tick dt) 0x65 q).finish q.mbx (okR (if w.toNat < 16 then wordsOf 8 (l.record w.toNat)
      else wordsOf 2 (l.sAccts.getD w.toNat {}).energy.toNat ++ wordsOf 2 l.tSnap.toNat ++ [w32 (b2n (l.sAccts.getD w.toNat {}).sat)]))) := by
  subst hl
  refine congrArg Host.Outcome.next (postCmd_final (c := cmdLedgerRead) h nofun nofun rfl (by simp [cmdLedgerRead, lenIs, hq])
    (hq ▸ rsvWord_one (mask_of_toNat_lt 5 (by omega)) []) ?_ ?_)
  · simp only [cmdLedgerRead, w_one hq]
    exact if_neg (Nat.not_lt.2 hw)
  · simp only [cmdLedgerRead, w_one hq, posted_ledger]

/-! ## REASONS and POWER_COUNTERS (14 R332) -/

theorem exec_reasons {t : State} {ws : List Word} (h : ready false (s.tick dt) q = true) (hq : q.args = [w]) (hw : w.toNat ≤ 1)
    (run : cmdReasons.run (posted (s.tick dt) 0x67 q) q = (t, .final (okR ws))) :
    exec (.reasons dt q) s = .next (t.finish q.mbx (okR ws)) :=
  congrArg Host.Outcome.next (postCmd_final (c := cmdReasons) h nofun nofun rfl (by simp [cmdReasons, lenIs, hq])
    (hq ▸ rsvWord_one (mask_of_toNat_lt 1 (by omega)) []) rfl run)

theorem run_reasons_take (word : q.w 1 = 0) : cmdReasons.run (posted u op q) q =
    ({ posted u op q with power := { u.power with snapRea := u.reasonPages } }, .final (okR (u.reasonPages.getD 0 []))) := by
  dsimp only [cmdReasons]
  rw [word, ← reasonPages_posted u op q]
  rfl

theorem run_reasons_held (word : q.w 1 = 1) (hs : u.power.snapRea.length = 2) : cmdReasons.run (posted u op q) q =
    (posted u op q, .final (okR (u.power.snapRea.getD 1 []))) := by
  have page : u.power.snapRea.getD 1 (List.replicate 13 0) = u.power.snapRea.getD 1 [] := by
    rw [List.getD_eq_getElem _ _ (by omega), List.getD_eq_getElem _ _ (by omega)]
  rw [← page]
  dsimp only [cmdReasons]
  rw [word]
  rfl

theorem exec_powerCounters {t : State} {ws : List Word} (h : ready false (s.tick dt) q = true) (hq : q.args = [w]) (hw : w.toNat ≤ 5)
    (run : cmdPowerCounters.run (posted (s.tick dt) 0x68 q) q = (t, .final (okR ws))) :
    exec (.powerCounters dt q) s = .next (t.finish q.mbx (okR ws)) := by
  refine congrArg Host.Outcome.next (postCmd_final (c := cmdPowerCounters) h nofun nofun rfl (by simp [cmdPowerCounters, lenIs, hq])
    (hq ▸ rsvWord_one (mask_of_toNat_lt 4 (by omega)) []) ?_ run)
  simp only [cmdPowerCounters, w_one hq]
  exact if_neg (Nat.not_lt.2 hw)

theorem run_powerCounters_take (word : q.w 1 = 0) : cmdPowerCounters.run (posted u op q) q =
    ({ posted u op q with power := { u.power with snapPow := pagesOf 6 u.powerWords } }, .final (okR (u.powerWords.take 15))) := by
  dsimp only [cmdPowerCounters]
  rw [word, powerWords_posted]
  rfl

theorem run_powerCounters_held (word : q.w 1 = w) (h1 : 1 ≤ w.toNat) (h5 : w.toNat ≤ 5) (hs : u.power.snapPow.length = 6) :
    cmdPowerCounters.run (posted u op q) q = (posted u op q, .final (okR (u.power.snapPow.getD w.toNat []))) := by
  have page := pageOf_taken (snap := u.power.snapPow) (p := w.toNat) (by omega) (pagesOf 6 (List.replicate 77 0))
  dsimp only [cmdPowerCounters]
  rw [word, if_neg (by omega), posted_power, page]

/-! ## CAPTURE_AT and POWER_STATUS (09 R252, R263) -/

theorem captureErrs_ahead {n : Nat} (hz : u.inHorizon (q.w64 n) = true) (hc : u.keys.caps.length + u.capsHeld ≤ 3)
    (hl : u.schedulable = true) : captureErrs u q n false = [] := by
  simp [captureErrs, instantBad, hz, hl, show ¬ 4 ≤ u.keys.caps.length + u.capsHeld by omega]

theorem exec_captureAt (h : ready false (s.tick dt) q = true) (hq : q.args = [a, b])
    (hz : (s.tick dt).inHorizon (q.w64 1) = true) (hc : (s.tick dt).keys.caps.length + (s.tick dt).capsHeld ≤ 3)
    (hl : (s.tick dt).schedulable = true) :
    exec (.captureAt dt q) s = .next (State.accept ((posted (s.tick dt) 0x66 q).addCapture none (q.w64 1) q.mbx) q.mbx []) := by
  have he : captureErrs (posted (s.tick dt) 0x66 q) q 1 false = [] :=
    captureErrs_ahead ((inHorizon_posted ..).trans hz) (by rwa [posted_keys, capsHeld_posted]) ((schedulable_posted ..).trans hl)
  refine congrArg Host.Outcome.next (postCmd_accepted (c := cmdCaptureAt) h nofun nofun rfl (by simp [cmdCaptureAt, lenIs, hq])
    (by rw [hq]; rfl) ?_ ?_)
  · simp only [cmdCaptureAt, he]
    rfl
  · simp only [cmdCaptureAt, he, orElse_nil]

theorem exec_powerStatus (h : ready false (s.tick dt) q = true) (hq : q.args = []) {v : State} (hv : v = s.tick dt) :
    exec (.powerStatus dt q) s = .next ((posted v 0x69 q).finish q.mbx (okR ([
      w32 (pack [(0, 9, (v.power.caps.getD 0 256).toNat), (9, 9, (v.power.caps.getD 1 256).toNat), (18, 9, (v.power.caps.getD 2 256).toNat)]),
      w32 (pack [(0, 5, v.margin), (5, 1, b2n v.power.distrust), (6, 2, v.boot.cool.code), (8, 8, maskOf (·.suspect) v.rails),
        (16, 8, maskOf (·.fault) v.rails)]),
      w32 (pack [(0, 8, maskOf (·.active) v.rails), (8, 2, v.power.avsBad.toNat)])] ++ v.power.limits))) := by
  subst hv
  refine congrArg Host.Outcome.next (postCmd_final (c := cmdPowerStatus) h nofun nofun rfl (by simp [cmdPowerStatus, hq]) rfl rfl ?_)
  simp only [cmdPowerStatus, posted_power, posted_boot, posted_rails, margin_posted]

end

/-- Settles O15: the map waits for its boundary, each read finds its page or account, and a capture that nothing refuses joins those that
wait. -/
theorem powerReads : Obligations.PowerReads := by
  rintro dt q s u rfl h
  refine ⟨fun hh hlen hmask hform hp => exec_partMap h hh hlen hmask hform (mapAbsent_none hp),
    fun w hq => ⟨fun h16 => ?_, fun h16 h25 => ?_, ?_, ?_, ?_, fun h1 h5 hs => ?_⟩,
    fun a b hq hz hc hl => exec_captureAt h hq hz hc hl, fun hq => exec_powerStatus h hq rfl⟩
  · rw [exec_ledgerRead h hq (by omega) rfl, if_pos h16]
  · rw [exec_ledgerRead h hq h25 rfl, if_neg (by omega)]
  · rintro rfl
    exact exec_reasons h hq (by decide) (run_reasons_take (w_one hq))
  · rintro rfl hs
    exact exec_reasons h hq (by decide) (run_reasons_held (w_one hq) hs)
  · rintro rfl
    exact exec_powerCounters h hq (by decide) (run_powerCounters_take (w_one hq))
  · exact exec_powerCounters h hq h5 (run_powerCounters_held (w_one hq) h1 h5 hs)

end Sys2Proof.Proofs
end

section
/-! O17: the log commands 0x80 to 0x84 (14 R341; 15 R351, R355, R358 to R360). -/

namespace Sys2Proof.Proofs

open Sys2Proof.Machine Sys2Proof.Safety Sys2Proof.Laws

set_option Elab.async false

@[simp] theorem traceErrs_posted (u : State) (op : Byte) (q : Req) : (posted u op q).traceErrs = u.traceErrs := rfl
@[simp] theorem traceCap_posted (u : State) (op : Byte) (q : Req) : (posted u op q).traceCap = u.traceCap := rfl
@[simp] theorem dumpBad_posted (u : State) (op : Byte) (q r : Req) : dumpBad (posted u op q) r = dumpBad u r := rfl

/-- A grant that leaves the trace SRAM alone refuses no trace command. -/
theorem traceErrs_free {u : State} (h : ∀ g, u.tests.grant = some g → g.trace = false) : u.traceErrs = [] := by
  unfold State.traceErrs
  cases grant : u.tests.grant with
  | none => rfl
  | some g => simp [h g grant]

section

variable {s u : State} {q : Req} {a b c : Word} {r : List Word} {dt : Nat}

theorem w_two (hq : q.args = a :: b :: r) : q.w 2 = b := by simp [Req.w, hq]

/-! ## LOG_SELECT (15 R351, R355, R356) -/

theorem exec_logSelect {t : State} (h : ready false (s.tick dt) q = true) (hh : (s.tick dt).haltedB = false) (hq : q.args = [a, b])
    (hb : b &&& ~~~0xFF#32 = 0) (h0 : b ≠ 0) (run : cmdLogSelect.run (posted (s.tick dt) 0x80 q) q = (t, .final (okR []))) :
    exec (.logSelect dt q) s = .next (t.finish q.mbx (okR [])) := by
  have nonzero : b.toNat ≠ 0 := fun zero => h0 (BitVec.eq_of_toNat_eq zero)
  refine congrArg Host.Outcome.next (postCmd_final (c := cmdLogSelect) h nofun (fun _ => hh) rfl (by simp [cmdLogSelect, lenIs, hq])
    (by rw [hq]; exact rsvWord_two (by simp) hb [] 1) ?_ run)
  simp only [cmdLogSelect, w_two hq]
  exact if_neg nonzero

theorem run_logSelect_telemetry (hq : q.args = [a, b]) (ht : bit a 10 = true) : cmdLogSelect.run (posted u 0x80 q) q =
    ({ posted u 0x80 q with log := { u.log with mask := a, dec := BitVec.ofNat 8 b.toNat, decNew := true } }, .final (okR [])) := by
  simp only [cmdLogSelect, w_one hq, w_two hq]
  exact if_pos ht

theorem run_logSelect_quiet (hq : q.args = [a, b]) (ht : bit a 10 = false) : cmdLogSelect.run (posted u 0x80 q) q =
    (State.each { posted u 0x80 q with
      log := { u.log with mask := a, dec := BitVec.ofNat 8 b.toNat, decNew := true, defer := [] } } allTiles
      (fun s i => s.clearTelem i false), .final (okR [])) := by
  simp only [cmdLogSelect, w_one hq, w_two hq]
  exact if_neg (by simp [ht])

/-! ## The trace (15 R358 to R360) -/

theorem exec_traceArm (h : ready false (s.tick dt) q = true) (hh : (s.tick dt).haltedB = false) (hq : q.args = [a, b, c])
    (ha : a &&& ~~~0xFF#32 = 0) (free : (s.tick dt).traceErrs = []) (hz : (s.tick dt).inHorizon (q.w64 2) = true)
    (hl : (s.tick dt).schedulable = true) {l : Log} (hlog : l = (s.tick dt).log) (harm : l.armed = false) (hrun : l.runs = false) :
    exec (.traceArm dt q) s = .next (State.finish { posted (s.tick dt) 0x81 q with log := { l with
      armed := true, runs := false, groups := BitVec.ofNat 8 a.toNat, armAt := q.w64 2, held := 0
      mem := memClear l.mem 0 l.held } } q.mbx (okR [])) := by
  subst hlog
  have ahead : instantBad (posted (s.tick dt) 0x81 q) q 2 = [] := by
    simp [instantBad, hz]
  refine congrArg Host.Outcome.next (postCmd_final (c := cmdTraceArm) h nofun (fun _ => hh) rfl (by simp [cmdTraceArm, lenIs, hq])
    (hq ▸ rsvWord_one ha [b, c]) ?_ ?_)
  · simp only [cmdTraceArm, ahead]
    rfl
  · simp only [cmdTraceArm, ahead, traceErrs_posted, free, posted_log, harm, hrun, schedulable_posted, hl, w_one hq]
    exact orElse_nil ..

theorem exec_traceStop (h : ready false (s.tick dt) q = true) (hh : (s.tick dt).haltedB = false) (hq : q.args = [])
    (free : (s.tick dt).traceErrs = []) {l : Log} (hlog : l = (s.tick dt).log) :
    exec (.traceStop dt q) s = .next (State.finish { posted (s.tick dt) 0x82 q with
      log := { l with armed := false, runs := false } } q.mbx (okR [w32 l.held])) := by
  subst hlog
  refine congrArg Host.Outcome.next (postCmd_final (c := cmdTraceStop) h nofun (fun _ => hh) rfl (by simp [cmdTraceStop, hq]) rfl rfl ?_)
  simp only [cmdTraceStop, traceErrs_posted, free, posted_log]
  exact orElse_nil ..

theorem dumpBad_none (hq : q.args = [a, b]) (ha : a.toNat % 64 = 0) (hb : b.toNat % 64 = 0) (hs : a.toNat + b.toNat ≤ u.log.held) :
    dumpBad u q = none := by
  simp [dumpBad, w_one hq, w_two hq, ha, hb, hs]

/-- Nothing refuses a dump of bytes that are held, of no capture that runs, within the capacity. -/
theorem run_traceDump (hq : q.args = [a, b]) (free : u.traceErrs = []) (hrun : u.log.runs = false)
    (hc : a.toNat + b.toNat ≤ u.traceCap) : cmdTraceDump.run (posted u 0x83 q) q =
    if b.toNat = 0 then (posted u 0x83 q, .final (okR []))
    else (State.each { posted u 0x83 q with
      log := { u.log with dumps := u.log.dumps ++ [(a.toNat, a.toNat + b.toNat, some q.mbx)] } } (List.range 63)
      (fun s _ => s.formDump), .accepted []) := by
  have within : (u.log.runs || decide (a.toNat + b.toNat > u.traceCap)) = false := by simp [hrun, hc]
  simp only [cmdTraceDump, w_one hq, w_two hq, traceErrs_posted, free, traceCap_posted, posted_log, within]
  exact orElse_nil ..

theorem exec_traceDump_none (h : ready false (s.tick dt) q = true) (hh : (s.tick dt).haltedB = false) (hq : q.args = [a, b])
    (form : dumpBad (s.tick dt) q = none)
    (run : cmdTraceDump.run (posted (s.tick dt) 0x83 q) q = (posted (s.tick dt) 0x83 q, .final (okR []))) :
    exec (.traceDump dt q) s = .next ((posted (s.tick dt) 0x83 q).finish q.mbx (okR [])) :=
  congrArg Host.Outcome.next (postCmd_final (c := cmdTraceDump) h nofun (fun _ => hh) rfl (by simp [cmdTraceDump, lenIs, hq])
    (by rw [hq]; rfl) ((dumpBad_posted ..).trans form) run)

theorem exec_traceDump_some {t : State} (h : ready false (s.tick dt) q = true) (hh : (s.tick dt).haltedB = false) (hq : q.args = [a, b])
    (form : dumpBad (s.tick dt) q = none) (run : cmdTraceDump.run (posted (s.tick dt) 0x83 q) q = (t, .accepted [])) :
    exec (.traceDump dt q) s = .next (t.accept q.mbx []) :=
  congrArg Host.Outcome.next (postCmd_accepted (c := cmdTraceDump) h nofun (fun _ => hh) rfl (by simp [cmdTraceDump, lenIs, hq])
    (by rw [hq]; rfl) ((dumpBad_posted ..).trans form) run)

theorem exec_logStatus (h : ready false (s.tick dt) q = true) (hq : q.args = []) {v : State} (hv : v = s.tick dt) :
    exec (.logStatus dt q) s = .next ((posted v 0x84 q).finish q.mbx
      (okR [w32 v.traceCap, w32 v.log.held, v.log.drops, v.log.traceDrops, v.log.discards])) := by
  subst hv
  refine congrArg Host.Outcome.next (postCmd_final (c := cmdLogStatus) h nofun nofun rfl (by simp [cmdLogStatus, hq]) rfl rfl ?_)
  simp only [cmdLogStatus, traceCap_posted, posted_log]

end

/-- Settles O17: nothing refuses these operands, so each command's own run gives its effect and its answer. -/
theorem logCommands : Obligations.LogCommands := by
  rintro dt q s u rfl h
  refine ⟨fun hh a b hq hb h0 => ⟨fun ht => exec_logSelect h hh hq hb h0 (run_logSelect_telemetry hq ht),
      fun ht => exec_logSelect h hh hq hb h0 (run_logSelect_quiet hq ht)⟩,
    fun hh grant => ⟨fun a b c hq ha hz harm hrun hl => exec_traceArm h hh hq ha (traceErrs_free grant) hz hl rfl harm hrun,
      fun hq => exec_traceStop h hh hq (traceErrs_free grant) rfl, fun a b hq ha hb hs hrun hc => ?_⟩,
    fun hq => exec_logStatus h hq rfl⟩
  have form := dumpBad_none hq ha hb hs
  have run := run_traceDump hq (traceErrs_free grant) hrun hc
  constructor
  · rintro rfl
    exact exec_traceDump_none h hh hq form run
  · intro nonzero
    have nonzeroNat : b.toNat ≠ 0 := fun zero => nonzero (BitVec.eq_of_toNat_eq zero)
    rw [if_neg nonzeroNat] at run
    exact exec_traceDump_some h hh hq form run

end Sys2Proof.Proofs
end

section
/-! O18: calibration, tests, grants and loop-backs, 0x90 to 0x95 (14 R342, R343, Tables 14.11, 14.12; 18 R408 to R413; 03 R99). -/

namespace Sys2Proof.Proofs

open Sys2Proof.Machine Sys2Proof.Safety Sys2Proof.Laws

set_option Elab.async false

@[simp] theorem trimOk_posted (u : State) (op : Byte) (q : Req) (i p : Nat) : (posted u op q).trimOk i p = u.trimOk i p := rfl
@[simp] theorem stbyReady_posted (u : State) (op : Byte) (q : Req) (i : Nat) : (posted u op q).stbyReady i = u.stbyReady i := rfl
@[simp] theorem testBusy_posted (u : State) (op : Byte) (q : Req) (id i : Nat) : (posted u op q).testBusy id i = u.testBusy id i := rfl
@[simp] theorem testBad_posted (u : State) (op : Byte) (q r : Req) : testBad (posted u op q) r = testBad u r := rfl
@[simp] theorem quiesceTile_posted (u : State) (op : Byte) (q : Req) (g : Nat) : (posted u op q).quiesceTile g = u.quiesceTile g := rfl
@[simp] theorem traceBusy_posted (u : State) (op : Byte) (q : Req) : (posted u op q).traceBusy = u.traceBusy := rfl
@[simp] theorem findTest_posted (u : State) (op : Byte) (q : Req) (h : BitVec 16) : (posted u op q).findTest h = u.findTest h := rfl
@[simp] theorem ifBusy_posted (u : State) (op : Byte) (q : Req) (i : Nat) : (posted u op q).ifBusy i = u.ifBusy i := rfl

/-- A command that is taken at once and whose form and gates pass answers what its run says. -/
theorem postCmd_run {c : Cmd} {dt : Nat} {q : Req} {s t : State} {r : Ans} (h : ready false (s.tick dt) q = true)
    (hh : c.changes = true → (s.tick dt).haltedB = false)
    (hn : c.needs.all (fun x => [14, 15, 16, 17, 18, 19, 20].contains x) = true) (hl : c.len q = true)
    (hm : rsvWord 1 c.masks q.args = none) (hf : c.form (posted (s.tick dt) c.op q) q = none)
    (hr : c.run (posted (s.tick dt) c.op q) q = (t, r)) : postCmd c dt q s = t.answer q.mbx r := by
  cases r with
  | final r => exact postCmd_final h nofun hh hn hl hm hf hr
  | accepted ws => exact postCmd_accepted h nofun hh hn hl hm hf hr

section

variable {s u t : State} {q : Req} {r : Ans} {a b : Word} {dt i : Nat}

/-! ## Calibration (03 R99; 05 R149; 18 R408) -/

theorem exec_calSextant (h : ready false (s.tick dt) q = true) (hh : (s.tick dt).haltedB = false) (hq : q.args = [a])
    (ha : a &&& ~~~0x3F#32 = 0) (hi : a.toNat < 60) {c : Chan} (hc : c = (s.tick dt).chan a.toNat) (harm : c.armed = false)
    (hcal : c.caling = false) (free : c.owner = .none ∨ c.owner = .host) :
    exec (.calSextant dt q) s = .next (State.accept (((posted (s.tick dt) 0x90 q).modChan a.toNat
      (fun c => { c with caling := true })).setWait q.mbx (.calSextant (BitVec.ofNat 6 a.toNat))) q.mbx []) := by
  subst hc
  have chan : reqChan q = a.toNat := (reqChan_args hq).trans (fld_of_lt (toNat_lt_of_mask 6 ha))
  have idle : (!(decide (((s.tick dt).chan a.toNat).owner = .none) || decide (((s.tick dt).chan a.toNat).owner = .host))) = false := by
    rcases free with free | free <;> simp [free]
  refine congrArg Host.Outcome.next (postCmd_accepted (c := cmdCalSextant) h nofun (fun _ => hh) rfl (by simp [cmdCalSextant, lenIs, hq])
    (hq ▸ rsvWord_one ha []) rfl ?_)
  simp only [cmdCalSextant, chan, chan_posted, harm, hcal, idle, Nat.not_le.2 hi, decide_false, Bool.or_self]
  exact orElse_nil ..

theorem exec_calPlumb (h : ready false (s.tick dt) q = true) (hh : (s.tick dt).haltedB = false) (hq : q.args = [a])
    (ha : a &&& ~~~0xFF#32 = 0) (hp : (s.tick dt).present a.toNat = true)
    (run : cmdCalPlumb.run (posted (s.tick dt) 0x91 q) q = (t, r)) : exec (.calPlumb dt q) s = .next (t.answer q.mbx r) :=
  congrArg Host.Outcome.next (postCmd_run (c := cmdCalPlumb) h (fun _ => hh) rfl (by simp [cmdCalPlumb, lenIs, hq])
    (hq ▸ rsvWord_one ha []) (formPresent_args hq ha ((present_posted ..).trans hp)) run)

theorem run_calPlumb (hq : q.args = [a]) (ha : a &&& ~~~0xFF#32 = 0) (hf : (u.tile a.toNat).st ≠ .fenced)
    (hc : (u.tile a.toNat).cause = 0) : cmdCalPlumb.run (posted u 0x91 q) q =
    if [0, 1, 2, 3].all (fun p => !plumbEn (u.tile a.toNat).plumbW p || u.trimOk a.toNat p) then
      ((posted u 0x91 q).setWait q.mbx (.calPlumb (BitVec.ofNat 8 a.toNat)), .accepted [])
    else ((State.newTest (posted u 0x91 q) 0x91 (w32 a.toNat)).2.modTile a.toNat (fun t => { t with trimWait := true }),
      .final (deferredR u.tests.nextH)) := by
  have unfenced : fenceErrs (posted u 0x91 q) a.toNat = [] := by
    simp [fenceErrs, Tile.fenced, hf, hc]
  simp only [cmdCalPlumb, reqTile_args hq ha, unfenced, tile_posted, trimOk_posted]
  exact orElse_nil ..

/-! ## Tests (14 Tables 14.11, 14.12) -/

theorem reqTest_args (hq : q.args = [a, b]) (ha : a &&& ~~~0xFF#32 = 0) : reqTest q = a.toNat := by
  rw [reqTest, w_one hq]
  exact fld_of_lt (toNat_lt_of_mask 8 ha)

theorem exec_testRun (h : ready false (s.tick dt) q = true) (hh : (s.tick dt).haltedB = false) (hq : q.args = [a, b])
    (ha : a &&& ~~~0xFF#32 = 0) (form : testBad (s.tick dt) q = none)
    (run : cmdTestRun.run (posted (s.tick dt) 0x92 q) q = (t, r)) : exec (.testRun dt q) s = .next (t.answer q.mbx r) :=
  congrArg Host.Outcome.next (postCmd_run (c := cmdTestRun) h (fun _ => hh) rfl (by simp [cmdTestRun, lenIs, hq])
    (hq ▸ rsvWord_one ha [b]) ((testBad_posted ..).trans form) run)

/-- A test other than the standby's, or one whose tile has a standby, gets its handle; it runs unless its resource is in service. -/
theorem run_testRun (hq : q.args = [a, b]) (ha : a &&& ~~~0xFF#32 = 0) (hs : a.toNat = 2 → u.stbyReady b.toNat = true) :
    cmdTestRun.run (posted u 0x92 q) q =
    if u.testBusy a.toNat b.toNat then
      ((State.newTest (posted u 0x92 q) a.toNat b).2, .final (deferredR u.tests.nextH))
    else
      ((if a.toNat = 2 then ((State.newTest (posted u 0x92 q) a.toNat b).2.modTile b.toNat (fun t => { t with stby := .testing })).modRot
          (b.toNat / 32) (fun r => { r with runs := false })
        else (State.newTest (posted u 0x92 q) a.toNat b).2).setWait q.mbx (.test u.tests.nextH), .accepted []) := by
  have standby : (decide (a.toNat = 2) && !u.stbyReady b.toNat) = false := by
    by_cases h2 : a.toNat = 2
    · simp [hs h2]
    · simp [h2]
  simp only [cmdTestRun, reqTest_args hq ha, w_two hq, stbyReady_posted, testBusy_posted]
  exact if_neg (by simp [standby])

theorem testBusy_warm (hs : u.stbyReady i = true) (hw : (u.tile i).stby = .warm) : u.testBusy 2 i = false := by
  simp [State.testBusy, hs, hw]

theorem exec_testResult (h : ready false (s.tick dt) q = true) (hq : q.args = [a]) (ha : a &&& ~~~0xFFFF#32 = 0) {x : Test}
    (hx : (s.tick dt).findTest (BitVec.ofNat 16 a.toNat) = some x) :
    exec (.testResult dt q) s = .next ((posted (s.tick dt) 0x94 q).finish q.mbx (okR [w32 x.res.toNat, x.detail])) := by
  refine congrArg Host.Outcome.next (postCmd_run (c := cmdTestResult) (r := .final (okR [w32 x.res.toNat, x.detail])) h nofun rfl
    (by simp [cmdTestResult, lenIs, hq]) (hq ▸ rsvWord_one ha []) ?_ ?_)
  · simp only [cmdTestResult, w_one hq, findTest_posted, hx]
    rfl
  · simp only [cmdTestResult, w_one hq, findTest_posted, hx]

/-! ## Grants (14 R343) -/

theorem exec_quiesce (h : ready false (s.tick dt) q = true) (hh : (s.tick dt).haltedB = false) (hq : q.args = [a, b])
    (ha : a &&& ~~~0x3FF#32 = 0) (h1 : 1 ≤ b.toNat) (h1000 : b.toNat ≤ 1000)
    (run : cmdQuiesce.run (posted (s.tick dt) 0x93 q) q = (t, r)) : exec (.quiesce dt q) s = .next (t.answer q.mbx r) := by
  refine congrArg Host.Outcome.next (postCmd_run (c := cmdQuiesce) h (fun _ => hh) rfl (by simp [cmdQuiesce, lenIs, hq])
    (by rw [hq]; exact rsvWord_two ha (mask_of_toNat_lt 10 (by omega)) [] 1) ?_ run)
  simp only [cmdQuiesce, w_two hq]
  exact if_neg (by simp; omega)

/-- The grant that a QUIESCE of nothing refused opens. -/
def grantOf (u : State) (q : Req) (a b : Word) : Grant :=
  { groups := BitVec.ofNat 8 (fld a 0 8), rck := bit a 8, trace := bit a 9, till := u.boot.uptime + 16000000 * b.toNat, mbx := q.mbx }

theorem run_quiesce (hq : q.args = [a, b]) (free : u.tests.grant = none) (quiet : u.quiesceTile (fld a 0 8) = none)
    (rck : bit a 8 = true → u.rck.mode = .off ∧ u.rck.loading = false) (trace : bit a 9 = true → u.traceBusy = false) :
    cmdQuiesce.run (posted u 0x93 q) q =
    if u.tests.list.any (fun t => t.res == 0 && (grantOf u q a b).covers t) then
      ({ posted u 0x93 q with tests := { u.tests with grant := some (grantOf u q a b) } }, .accepted [])
    else ({ posted u 0x93 q with tests := { u.tests with grant := none } }, .final (okR [0])) := by
  have idle : ¬((bit a 8 && (decide (u.rck.mode ≠ .off) || u.rck.loading)) || (bit a 9 && u.traceBusy)) = true := by
    simp only [Bool.or_eq_true, Bool.and_eq_true, decide_eq_true_eq, not_or, not_and]
    exact ⟨fun on => by simp [rck on], fun on => by simp [trace on]⟩
  simp only [cmdQuiesce, w_one hq, w_two hq, posted_tests, free, quiesceTile_posted, quiet]
  rw [show (if ((bit a 8 && (decide ((posted u 0x93 q).rck.mode ≠ .off) || (posted u 0x93 q).rck.loading)) ||
    (bit a 9 && (posted u 0x93 q).traceBusy)) = true then [notPermR 0xA {}] else []) = [] from if_neg idle]
  exact orElse_nil ..

/-! ## Loop-backs (18 R412, R413) -/

/-- The state `v` of a mailbox that waits on a loop-back that has begun in `u`: the pattern of the control interface, the credits of the
log. -/
def looped (u v : State) (i d : Nat) (b : Word) (n : BitVec 3) : State :=
  { v with
    tests := { u.tests with
      loop := some (BitVec.ofNat 4 i, BitVec.ofNat 4 d, b, n)
      loopOut := if i = 1 then 1024 - min 1024 u.log.credits else u.tests.loopOut }
    log := if i = 1 then { u.log with credits := u.log.credits - min 1024 u.log.credits } else u.log
    ctl := if i = 0 then { u.ctl with helm := b, helmLeft := 256, helmTaken := 0 } else u.ctl }

theorem run_loopback (hq : q.args = [a, b]) (free : u.ifBusy (fld a 0 4) = false) : cmdLoopback.run (posted u 0x95 q) q =
    (looped u ((posted u 0x95 q).setWait q.mbx .loopback) (fld a 0 4) (fld a 4 4) b q.mbx, .accepted []) := by
  simp only [cmdLoopback, reqIf, reqDepth, w_one hq, w_two hq, ifBusy_posted, free, looped]
  refine (if_neg Bool.false_ne_true).trans ?_
  by_cases h0 : fld a 0 4 = 0
  · simp only [h0, if_true]
    rfl
  · by_cases h1 : fld a 0 4 = 1
    · simp only [h1, if_true]
      rfl
    · simp only [if_neg h0, if_neg h1]
      rfl

theorem exec_loopback (h : ready false (s.tick dt) q = true) (hh : (s.tick dt).haltedB = false) (hq : q.args = [a, b])
    (ha : a &&& ~~~0xFF#32 = 0) (h6 : fld a 0 4 ≤ 6) (hd : fld a 4 4 ≤ ifDepth (fld a 0 4)) (h2 : fld a 0 4 = 0 → fld a 4 4 = 2)
    (hb : b ≠ 0) (run : cmdLoopback.run (posted (s.tick dt) 0x95 q) q = (t, .accepted [])) :
    exec (.loopback dt q) s = .next (t.accept q.mbx []) := by
  have form : (decide (fld a 0 4 > 6) || decide (fld a 4 4 > ifDepth (fld a 0 4)) ||
      (decide (fld a 0 4 = 0) && decide (fld a 4 4 ≠ 2))) = false := by
    simp only [Bool.or_eq_false_iff, decide_eq_false_iff_not, Bool.and_eq_false_imp, decide_eq_true_eq]
    exact ⟨⟨Nat.not_lt.2 h6, Nat.not_lt.2 hd⟩, fun zero => not_not.2 (h2 zero)⟩
  refine congrArg Host.Outcome.next (postCmd_accepted (c := cmdLoopback) h nofun (fun _ => hh) rfl (by simp [cmdLoopback, lenIs, hq])
    (hq ▸ rsvWord_one ha [b]) ?_ run)
  simp only [cmdLoopback, reqIf, reqDepth, w_one hq, w_two hq, form]
  exact if_neg hb

end

/-- Settles O18: each command by its own run; the tests' handles and the grants decide between ACCEPTED and a final answer. -/
theorem testCommands : Obligations.TestCommands := by
  rintro dt q s u rfl h
  refine ⟨?_, ?_, ?_, ?_, ?_, ?_⟩
  · rintro hh a n hq ha rfl hi harm hcal free
    exact exec_calSextant h hh hq ha hi rfl harm hcal free
  · rintro hh a i hq ha rfl hp hf hc
    have run := run_calPlumb (u := s.tick dt) hq ha hf hc
    refine ⟨fun trims => exec_calPlumb h hh hq ha hp (run.trans (if_pos ?_)),
      fun p hp4 on held => exec_calPlumb h hh hq ha hp (run.trans (if_neg ?_))⟩
    · rw [List.all_eq_true]
      intro p hp4
      have small : p < 4 := by simp at hp4; omega
      cases on : plumbEn ((s.tick dt).tile a.toNat).plumbW p with
      | false => rfl
      | true => simp [trims p small on]
    · rw [List.all_eq_true]
      intro all
      have one := all p (by simp; omega)
      simp [on, held] at one
  · intro hh a b hq ha form
    refine ⟨fun free h2 => ?_, fun h2 ready' warm => ?_, fun busy standby => ?_⟩
    · have not2 : a.toNat ≠ 2 := fun two => h2 (BitVec.eq_of_toNat_eq two)
      refine exec_testRun (r := .accepted []) h hh hq ha form ((run_testRun hq ha (fun two => absurd two not2)).trans ?_)
      rw [free, if_neg not2]
      rfl
    · subst h2
      refine exec_testRun (r := .accepted []) h hh hq ha form ((run_testRun hq ha (fun _ => ready')).trans ?_)
      rw [show (2 : Word).toNat = 2 from rfl, testBusy_warm ready' warm]
      rfl
    · exact exec_testRun h hh hq ha form ((run_testRun hq ha (fun two => standby (BitVec.eq_of_toNat_eq two))).trans (if_pos busy))
  · rintro hh a b g hq ha h1 h1000 free quiet rck trace rfl
    have run := run_quiesce (u := s.tick dt) (b := b) hq free quiet rck trace
    refine ⟨fun ⟨t, ht, res, covers⟩ => exec_quiesce h hh hq ha h1 h1000 (run.trans (if_pos ?_)),
      fun none => ?_⟩
    · exact List.any_eq_true.2 ⟨t, ht, by rw [res]; exact covers⟩
    · have uncovered : (s.tick dt).tests.list.any (fun t => t.res == 0 && (grantOf (s.tick dt) q a b).covers t) = false := by
        rw [List.any_eq_false]
        intro t ht both
        obtain ⟨res, covers⟩ := Bool.and_eq_true_iff.1 both
        exact absurd covers (by rw [grantOf, none t ht (by simpa using res)]; exact Bool.false_ne_true)
      have kept : { (s.tick dt).tests with grant := .none } = (s.tick dt).tests := by rw [← free]
      rw [uncovered, kept] at run
      exact exec_quiesce h hh hq ha h1 h1000 run
  · intro a t hq ha ht
    exact exec_testResult h hq ha ht
  · rintro hh a b i d hq ha rfl rfl h6 hd h2 hb free
    exact exec_loopback h hh hq ha h6 hd h2 hb (run_loopback hq free)

end Sys2Proof.Proofs
end

section
/-! O44: credits, packets and formation times of the log port (15 R348, R351, R352, R354; 12 R312). -/

namespace Sys2Proof.Proofs

open Sys2Proof.Machine Sys2Proof.Safety Sys2Proof.Laws

set_option Elab.async false

/-! ## Class queues (15 R352) -/

theorem queue_setQueue (l : Log) (c : Nat) (q : List Packet) : (l.setQueue c q).queue c = q := by
  unfold Log.setQueue Log.queue
  split
  · rfl
  · split <;> rfl

theorem queue_setQueue_append (l : Log) (c d : Nat) (q : List Packet) :
    ∃ x, (l.setQueue d (l.queue d ++ q)).queue c = l.queue c ++ x := by
  unfold Log.setQueue Log.queue
  split_ifs <;> simp

@[simp] theorem setQueue_sent (l : Log) (c : Nat) (q : List Packet) : (l.setQueue c q).sent = l.sent := by
  unfold Log.setQueue
  split_ifs <;> rfl

@[simp] theorem setQueue_sentAt (l : Log) (c : Nat) (q : List Packet) : (l.setQueue c q).sentAt = l.sentAt := by
  unfold Log.setQueue
  split_ifs <;> rfl

@[simp] theorem setQueue_hold (l : Log) (c : Nat) (q : List Packet) : (l.setQueue c q).hold = l.hold := by
  unfold Log.setQueue
  split_ifs <;> rfl

@[simp] theorem setQueue_credits (l : Log) (c : Nat) (q : List Packet) : (l.setQueue c q).credits = l.credits := by
  unfold Log.setQueue
  split_ifs <;> rfl

/-! ## What follows the leaving of a packet (15 Table 15.3, R360) -/

/-- Packets have joined the class queues at their ends; what the log port sends and the block's plant are as they were. -/
structure Refilled (s t : State) : Prop where
  sent : t.log.sent = s.log.sent
  sentAt : t.log.sentAt = s.log.sentAt
  hold : t.log.hold = s.log.hold
  credits : t.log.credits = s.log.credits
  queue : ∀ c, ∃ l, t.log.queue c = s.log.queue c ++ l
  xings : t.xings = s.xings
  tiles : t.tiles = s.tiles
  rails : t.rails = s.rails
  keys : t.keys = s.keys

namespace Refilled

theorem refl (s : State) : Refilled s s := ⟨rfl, rfl, rfl, rfl, fun _ => ⟨[], (List.append_nil _).symm⟩, rfl, rfl, rfl, rfl⟩

theorem trans {s t v : State} (a : Refilled s t) (b : Refilled t v) : Refilled s v := by
  refine ⟨b.sent.trans a.sent, b.sentAt.trans a.sentAt, b.hold.trans a.hold, b.credits.trans a.credits, fun c => ?_,
    b.xings.trans a.xings, b.tiles.trans a.tiles, b.rails.trans a.rails, b.keys.trans a.keys⟩
  obtain ⟨l, hl⟩ := a.queue c
  obtain ⟨m, hm⟩ := b.queue c
  exact ⟨l ++ m, by rw [hm, hl, List.append_assoc]⟩

theorem after {s t v : State} (b : Refilled t v) (a : Refilled s t) : Refilled s v := a.trans b

/-- A change outside the outbound queues and the plant. -/
theorem same {s t : State} (sent : t.log.sent = s.log.sent) (sentAt : t.log.sentAt = s.log.sentAt) (hold : t.log.hold = s.log.hold)
    (credits : t.log.credits = s.log.credits) (queue : ∀ c, t.log.queue c = s.log.queue c) (xings : t.xings = s.xings)
    (tiles : t.tiles = s.tiles) (rails : t.rails = s.rails) (keys : t.keys = s.keys) : Refilled s t :=
  ⟨sent, sentAt, hold, credits, fun c => ⟨[], by rw [queue c, List.append_nil]⟩, xings, tiles, rails, keys⟩

theorem each {α : Type} {f : State → α → State} (hf : ∀ s a, Refilled s (f s a)) (s : State) (l : List α) : Refilled s (s.each l f) :=
  List.foldlRecOn (motive := fun t => Refilled s t) l f (.refl s) (fun _ ht a _ => ht.trans (hf _ a))

end Refilled

theorem refilled_putPacket (s : State) (ty src nrec : Nat) (t : Time) (b : List Flit) : Refilled s (s.putPacket ty src nrec t b) := by
  refine ⟨?_, ?_, ?_, ?_, fun c => queue_setQueue_append s.log c (typeClass ty) _, rfl, rfl, rfl, rfl⟩
  · exact setQueue_sent ..
  · exact setQueue_sentAt ..
  · exact setQueue_hold ..
  · exact setQueue_credits ..

theorem refilled_setDumps (s : State) (l : List (Nat × Nat × Option (BitVec 3))) : Refilled s { s with log := { s.log with dumps := l } } :=
  .same rfl rfl rfl rfl (fun _ => rfl) rfl rfl rfl rfl

theorem refilled_setCapWait (s : State) (l : List Packet) : Refilled s { s with log := { s.log with capWait := l } } :=
  .same rfl rfl rfl rfl (fun _ => rfl) rfl rfl rfl rfl

theorem refilled_modChan (s : State) (n : Nat) (f : Chan → Chan) : Refilled s (s.modChan n f) :=
  .same rfl rfl rfl rfl (fun _ => rfl) rfl rfl rfl rfl

theorem refilled_modMbx (s : State) (n : BitVec 3) (f : Mbx → Mbx) : Refilled s (s.modMbx n f) :=
  .same rfl rfl rfl rfl (fun _ => rfl) rfl rfl rfl rfl

theorem refilled_formDump (s : State) : Refilled s s.formDump := by
  unfold State.formDump
  split
  · exact .refl s
  · dsimp only
    split
    · exact .refl s
    · exact .after (refilled_setDumps ..) (refilled_putPacket ..)

theorem refilled_sxPacket (s : State) (ch : Nat) : Refilled s (s.sxPacket ch) := by
  unfold State.sxPacket
  dsimp only
  split
  · exact .refl s
  · exact .after (refilled_putPacket ..) (refilled_modChan ..)

theorem refilled_drainCaps (n : Nat) (s : State) : Refilled s (State.drainCaps n s) := by
  induction n generalizing s with
  | zero => exact .refl s
  | succ n ih =>
    unfold State.drainCaps
    split
    · exact .refl s
    · split
      · exact .refl s
      · exact .after (ih _) (.after (refilled_putPacket ..) (refilled_setCapWait ..))

theorem refilled_refill (s : State) : Refilled s s.refill := by
  refine (refilled_drainCaps s.log.capWait.length s).trans (.trans (.each (fun v ch => ?_) _ _) (.each (fun v _ => refilled_formDump v) _ _))
  split
  · exact refilled_sxPacket v ch
  · exact .refl v

theorem refilled_settleO (s : State) (o : Option (BitVec 3)) (r : Resp) : Refilled s (s.settleO o r) := by
  cases o with
  | none => exact .refl s
  | some n =>
    rw [State.settleO, State.settle]
    split
    · exact refilled_modMbx ..
    · exact .refl s

theorem refilled_dumpSent (s : State) (p : Packet) : Refilled s (s.dumpSent p) := by
  unfold State.dumpSent
  split
  · exact .refl s
  · split
    · exact .refl s
    · dsimp only
      split
      · exact .after (refilled_settleO ..) (refilled_setDumps ..)
      · exact .refl s

section

variable {s u : State} {p : Packet} {r : List Packet} {c dt : Nat}

/-! ## Credits (15 R348) -/

theorem addCredit_below (up : u.logUp = true) (ok : u.xingOk 9 = true) (lo : u.tests.loopOut = 0) (few : u.log.credits < 1023) :
    u.addCredit = { u with log := { u.log with credits := u.log.credits + 1 } } := by
  simp only [State.addCredit, up, ok, lo]
  exact if_neg (Nat.not_le.2 few)

theorem addCredit_beyond (up : u.logUp = true) (ok : u.xingOk 9 = true) (lo : u.tests.loopOut = 0) (many : 1023 ≤ u.log.credits) :
    u.addCredit = u.raise0 0xB07 0 := by
  simp only [State.addCredit, up, ok, lo]
  exact if_pos many

/-! ## The packet that is next (15 R352; 12 R312) -/

/-- The log of a packet that has left: the credits it took, and the class that class 2 has waited for. -/
def departed (u : State) (c : Nat) (p : Packet) (r : List Packet) : State :=
  { u with log := { u.log.setQueue c r with
    credits := (u.log.setQueue c r).credits - p.flits, hold := none, sent := some p, sentAt := u.boot.uptime
    run01 := if c = 2 || (u.log.setQueue c r).q2.isEmpty then 0 else (u.log.setQueue c r).run01 + 1 } }

/-- The log of a packet whose flits crossing 7 discards. -/
def discarded (u : State) (c : Nat) (p : Packet) (r : List Packet) : State :=
  State.modXing { u with log := { u.log.setQueue c r with hold := none } } 7 0 (fun x => { x with drops := satAdd x.drops p.flits })

/-- The packet that is next on a port that is up. -/
theorem sendPacket_next (up : u.logUp = true) (lo : u.looping 1 = false) (next : u.log.nextClass = some c)
    (hq : u.log.queue c = p :: r) : u.sendPacket =
    if !u.xingOk 7 then ((discarded u c p r).dumpSent p).refill
    else if u.log.credits < p.flits then { u with log := { u.log with hold := some (BitVec.ofNat 2 c) } }
    else ((departed u c p r).dumpSent p).refill := by
  simp only [State.sendPacket, up, lo, next, hq]
  rfl

theorem departed_sent (u : State) (c : Nat) (p : Packet) (r : List Packet) : ∃ t, ((departed u c p r).dumpSent p).refill = t ∧
    t.log.sent = some p ∧ t.log.hold = none ∧ t.log.credits = u.log.credits - p.flits ∧ t.log.sentAt = u.boot.uptime ∧
    (∃ l, t.log.queue c = r ++ l) ∧ t.tiles = u.tiles ∧ t.rails = u.rails ∧ t.keys = u.keys := by
  have h := (refilled_dumpSent (departed u c p r) p).trans (refilled_refill _)
  obtain ⟨l, hl⟩ := h.queue c
  have rest : (departed u c p r).log.queue c = r := queue_setQueue u.log c r
  exact ⟨_, rfl, h.sent, h.hold, h.credits.trans (congrArg (· - p.flits) (setQueue_credits ..)), h.sentAt, ⟨l, by rw [hl, rest]⟩,
    h.tiles, h.rails, h.keys⟩

theorem discarded_sent (u : State) (c : Nat) (p : Packet) (r : List Packet) (h7 : 7 < u.xings.main.length) :
    ∃ t, ((discarded u c p r).dumpSent p).refill = t ∧ (t.xing 7 0).drops = satAdd (u.xing 7 0).drops p.flits ∧
      t.log.credits = u.log.credits ∧ t.log.hold = none ∧ (∃ l, t.log.queue c = r ++ l) ∧ t.tiles = u.tiles ∧ t.rails = u.rails ∧
      t.keys = u.keys := by
  have h := (refilled_dumpSent (discarded u c p r) p).trans (refilled_refill _)
  obtain ⟨l, hl⟩ := h.queue c
  have rest : (discarded u c p r).log.queue c = r := queue_setQueue u.log c r
  refine ⟨_, rfl, ?_, h.credits.trans (setQueue_credits ..), h.hold, ⟨l, by rw [hl, rest]⟩, h.tiles, h.rails, h.keys⟩
  have counted : (discarded u c p r).xing 7 0 = { u.xing 7 0 with drops := satAdd (u.xing 7 0).drops p.flits } :=
    xing_modXing_main (by decide) h7 0 0 _
  rw [State.xing, h.xings]
  exact congrArg Xing.drops counted

/-! ## Formation times (15 R351, R354) -/

theorem formTimeout_early {ty ch : Nat} (h : u.formDue ty ch = false) : u.formTimeout ty ch = u := by
  rw [State.formTimeout, h]
  rfl

theorem formDue_event (h : u.boot.uptime < u.log.evAt + 3200) (ch : Nat) : u.formDue 1 ch = false := by
  simp [State.formDue, h]

theorem formDue_throttle (h : u.boot.uptime < u.log.thrAt + 1600000) (ch : Nat) : u.formDue 13 ch = false := by
  simp [State.formDue, h]

theorem formDue_channel {ch : Nat} (h : u.boot.uptime < (u.chan ch).fifoAt.headD 0 + 16000) : u.formDue 6 ch = false := by
  simp only [State.formDue]
  exact decide_eq_false (Nat.not_le.2 h)

/-- The packet of one event record. -/
def eventPacket (u : State) (a : BitVec 128) : Packet :=
  { ptype := 1, src := 0, nrec := 1, seq := u.log.seqs.getD 1 0, mst := BitVec.ofNat 3 u.mer.st.code, brk := bit u.log.brks 1
    gap := bit u.log.gaps 1, epoch := (u.xings.main.getD 7 {}).own, stamp := u.mer.now, body := recFlits a }

theorem formEvents_single {a : BitVec 128} (wait : u.log.evWait = [a]) (room : u.roomFor 1 4 = true) :
    u.formEvents = { u with log := { u.log with
      evWait := [], evAt := u.boot.uptime, q0 := u.log.q0 ++ [eventPacket u a], seqs := u.log.seqs.modify 1 (· + 1)
      gaps := setFld u.log.gaps 1 1 0, brks := setFld u.log.brks 1 1 0 } } := by
  simp only [State.formEvents, wait, wholeEvents]
  exact if_pos room

theorem formTimeout_event {a : BitVec 128} (wait : u.log.evWait = [a]) (due : u.log.evAt + 3200 ≤ u.boot.uptime)
    (room : u.roomFor 1 4 = true) (ch : Nat) : ∃ t p, u.formTimeout 1 ch = t ∧ t.log.evWait = [] ∧ t.log.q0 = u.log.q0 ++ [p] ∧
      p.ptype = 1 ∧ p.nrec = 1 ∧ p.stamp = u.mer.now ∧ p.seq = u.log.seqs.getD 1 0 ∧
      p.body = [BitVec.ofNat 64 a.toNat, BitVec.ofNat 64 (a.toNat / 2 ^ 64)] ∧ t.log.q1 = u.log.q1 ∧ t.log.q2 = u.log.q2 ∧
      t.tiles = u.tiles := by
  have formed : u.formTimeout 1 ch = u.formEvents := by
    simp [State.formTimeout, State.formDue, due]
  have body : recFlits a = [BitVec.ofNat 64 a.toNat, BitVec.ofNat 64 (a.toNat / 2 ^ 64)] := by
    rw [recFlits, Nat.shiftRight_eq_div_pow]
  rw [formed, formEvents_single wait room]
  exact ⟨_, eventPacket u a, rfl, rfl, rfl, rfl, rfl, rfl, rfl, body, rfl, rfl, rfl⟩

end

/-- Settles O44: a credit, the packet that is next and a formation time each follow their own branch; what leaves the port lets others in
behind it. -/
theorem logEvents : Obligations.LogEvents := by
  rintro dt s u rfl live
  have run (f : State → State) := event_live (dt := dt) f live
  have form (ty : BitVec 5) (ch : BitVec 6) : exec (.packetFormTimeout dt ty ch) s = .next ((s.tick dt).formTimeout ty.toNat ch.toNat) :=
    run (fun s => s.formTimeout ty.toNat ch.toNat)
  refine ⟨fun up ok lo => ⟨fun few => (run _).trans (congrArg _ (addCredit_below up ok lo few)),
      fun many => (run _).trans (congrArg _ (addCredit_beyond up ok lo many))⟩,
    fun c p r up ok _ lo next hq => ?_, fun c p r up stale h7 lo next hq => ?_, fun ch early => ?_, fun ch early => ?_, fun ch early => ?_,
    fun a ch wait due _ room => ?_⟩
  · have sends := sendPacket_next up lo next hq
    rw [ok] at sends
    refine ⟨fun short => (run _).trans (congrArg _ (sends.trans (if_pos short))), fun covered => ?_⟩
    obtain ⟨t, left, facts⟩ := departed_sent (s.tick dt) c p r
    exact ⟨t, (run _).trans (congrArg _ ((sends.trans (if_neg (Nat.not_lt.2 covered))).trans left)), facts⟩
  · have sends := sendPacket_next up lo next hq
    rw [stale] at sends
    obtain ⟨t, left, facts⟩ := discarded_sent (s.tick dt) c p r h7
    exact ⟨t, (run _).trans (congrArg _ (sends.trans left)), facts⟩
  · exact (form 1 ch).trans (congrArg _ (formTimeout_early (formDue_event early ch.toNat)))
  · exact (form 13 ch).trans (congrArg _ (formTimeout_early (formDue_throttle early ch.toNat)))
  · exact (form 6 ch).trans (congrArg _ (formTimeout_early (formDue_channel early)))
  · obtain ⟨t, p, formed, facts⟩ := formTimeout_event wait due room ch.toNat
    exact ⟨t, p, (form 1 ch).trans (congrArg _ formed), facts⟩

end Sys2Proof.Proofs
end

section
/-! O46: deferred tests, grants and the test port (14 R342, R343; 18 R409 to R415; 02 R72; 16 R365). -/

namespace Sys2Proof.Proofs

open Sys2Proof.Machine Sys2Proof.Safety Sys2Proof.Laws

set_option Elab.async false

section

variable {u v : State} {h : BitVec 16} {t : Test} {g : Grant}

/-! ## Deferred tests (14 R343; 18 R411, R416) -/

theorem handle_of_findTest (found : u.findTest h = some t) : t.handle = h := by
  have hit := List.find?_some (p := fun x : Test => x.handle == h) found
  exact eq_of_beq hit

theorem covered_of_grant (grant : u.tests.grant = some g) (t : Test) : u.covered t = (t.res == 0 && g.covers t) := by
  simp only [State.covered, grant]

theorem testDone_halted (halted : u.haltedB = true) (h : BitVec 16) (p : Bool) (d : Word) : u.testDone h p d = u := by
  unfold State.testDone
  split
  · rfl
  · exact if_pos (by simp [halted])

theorem testDone_trim (found : u.findTest h = some t) (res : t.res = 0) (grant : u.tests.grant = none) (id : t.id = 0x91)
    (idle : (u.tile t.target.toNat).st ≠ .running) (live : u.haltedB = false) (d : Word) :
    u.testDone h true d = (u.setTest h 1 0).trimTile t.target.toNat (.test true d) := by
  have uncovered : u.covered t = false := by simp only [State.covered, grant]
  have ran : u.ranTest t true d = (u.setTest h 1 0).trimTile t.target.toNat (.test true d) := by
    simp [State.ranTest, id, handle_of_findTest found]
  simp [State.testDone, found, res, live, uncovered, id, idle, ran]

theorem testDone_covered (found : u.findTest h = some t) (res : t.res = 0) (grant : u.tests.grant = some g) (covers : g.covers t = true)
    (live : u.haltedB = false) {p : Bool} {d : Word}
    (hv : v = (u.ranTest t p d).modTests (fun x => { x with grant := x.grant.map (fun g => { g with ran := g.ran + 1 }) })) :
    u.testDone h p d = if v.tests.list.any v.covered then v else v.endGrant := by
  have covered : u.covered t = true := by rw [covered_of_grant grant, res, covers]; rfl
  subst hv
  simp only [State.testDone, found, res, live, covered]
  rfl

theorem ranTest_scan (id : t.id = 0x13 ∨ t.id = 0x14) (p : Bool) (d : Word) :
    u.ranTest t p d = u.setTest t.handle (if p then 1 else 2) (if p then 0 else d) := by
  rcases id with id | id <;> simp [State.ranTest, State.testReset, id]

theorem endGrant_none (grant : u.tests.grant = some g) (none : ∀ x ∈ u.tests.list, x.res = 0 → g.covers x = false) :
    u.endGrant = State.settle { u with tests := { u.tests with grant := .none } } g.mbx (okR [w32 g.ran]) := by
  have left : u.tests.list.filter (fun t => u.covered t && t.id != 0x91) = [] := by
    rw [List.filter_eq_nil_iff]
    intro x hx both
    obtain ⟨covered, -⟩ := Bool.and_eq_true_iff.1 both
    rw [covered_of_grant grant] at covered
    obtain ⟨res, covers⟩ := Bool.and_eq_true_iff.1 covered
    exact absurd covers (by rw [none x hx (eq_of_beq res)]; exact Bool.false_ne_true)
  simp only [State.endGrant, grant, left]
  rfl

theorem grantEnd_late (grant : u.tests.grant = some g) (late : g.till ≤ u.boot.uptime) : u.grantEnd = u.endGrant := by
  simp only [State.grantEnd, grant]
  exact if_pos (by simp [late])

/-! ## The test port (02 R72; 16 R365; 18 R415) -/

theorem tapIf_on {f : State → State} (ok : u.xingOk 22 = true) : u.tapIf true f = f u := by
  rw [State.tapIf, ok]
  rfl

theorem tapIf_off {f : State → State} : u.tapIf false f = u.tap 0xFF 0 := rfl

theorem lbkRun_ran {i : Nat} (hi : i = fld u.tests.lbkCfg 0 4) (h1 : 1 ≤ i) (h6 : i ≤ 6)
    (hd : fld u.tests.lbkCfg 4 4 ≤ min 1 (ifDepth i)) (hn : fld u.tests.lbkCfg 8 32 ≠ 0) (free : u.ifBusy i = false)
    (live : u.boot.inReset = false) (ok : u.xingOk 22 = true) (m : Nat) :
    u.lbkRun m = { u with tests := { u.tests with
      ir := 0x11, dr := 0, lbkRes := BitVec.ofNat 66 (pack [(0, 32, ifWords i), (32, 32, min m (ifWords i)), (64, 1, 1)]) } } := by
  subst hi
  have good : (decide (fld u.tests.lbkCfg 0 4 = 0) || decide (fld u.tests.lbkCfg 0 4 > 6) ||
      decide (fld u.tests.lbkCfg 4 4 > min 1 (ifDepth (fld u.tests.lbkCfg 0 4))) || decide (fld u.tests.lbkCfg 8 32 = 0) ||
      u.ifBusy (fld u.tests.lbkCfg 0 4) || u.boot.inReset || !u.xingOk 22) = false := by
    simp only [free, live, ok, Bool.or_eq_false_iff, decide_eq_false_iff_not]
    exact ⟨⟨⟨⟨⟨⟨by omega, by omega⟩, by omega⟩, hn⟩, trivial⟩, trivial⟩, rfl⟩
  simp only [State.lbkRun, good]
  rfl

theorem tap_lbkRes : u.tap 0x12 u.tests.lbkRes.toNat = { u with tests := { u.tests with ir := 0x12, dr := u.tests.lbkRes } } := by
  simp only [State.tap, State.modTests, BitVec.ofNat_toNat, BitVec.setWidth_eq]

theorem tap_scan (lc : u.trust.lcCode = 1) (rst : u.boot.inReset = true) (ok : u.xingOk 22 = true) :
    u.tapIf (decide (u.trust.lcCode = 1) && u.boot.inReset) (fun s => s.tap 0x20 0) = u.tap 0x20 0 := by
  rw [decide_eq_true lc, rst]
  exact tapIf_on ok

theorem mbist_ran (lc : u.trust.lcCode ≤ 2) (rom : u.helm.stage = .rom) (ok : u.xingOk 22 = true) (a b : Bool) :
    u.mbist a b = ((u.testReset 0x10 0).testReset 0x11 0).tap 0x21 (b2n a + 2 * b2n b) := by
  rw [State.mbist, decide_eq_true lc, decide_eq_true rom]
  exact tapIf_on ok

/-- The bits that MBIST captures. -/
theorem bits_mbist (a b : Bool) :
    bit (BitVec.ofNat 66 (b2n a + 2 * b2n b)) 0 = a ∧ bit (BitVec.ofNat 66 (b2n a + 2 * b2n b)) 1 = b := by
  cases a <;> cases b <;> decide

/-- Neither memory test leaves a word of its own memories known as bad. -/
theorem bad_testReset : ∀ x ∈ ((u.testReset 0x10 0).testReset 0x11 0).faults.bad,
    x.1 = .history ∨ x.1 = .master ∨ x.1 = .tileState ∨ x.1 = .helmCode ∨ x.1 = .helmData := by
  rintro ⟨r, n⟩ hx
  have kept : (r, n) ∈ (u.faults.bad.filter (fun b => !(b.1 == .weight))).filter
      (fun b => !(b.1 == .trace || b.1 == .spill || b.1 == .staging)) := hx
  cases r <;> simp_all

theorem fuseWrite_manufacture (lc : u.trust.lcCode = 1) (ok : u.xingOk 22 = true) {f : FuseField} {lo w : Nat}
    (place : fusePlace f = some (lo, w)) (v : Nat) : u.fuseWrite f v =
    if fld u.trust.fuses lo w ≠ 0 then u.tap 0x22 0
    else { (if f = .uds then (u.tap 0x22 0).take .nonce (2 ^ 384) else (v, u.tap 0x22 0)).2 with
      trust := (if f = .uds then (u.tap 0x22 0).take .nonce (2 ^ 384) else (v, u.tap 0x22 0)).2.trust.blow (BitVec.ofNat 3776
        ((if f = .uds then (u.tap 0x22 0).take .nonce (2 ^ 384) else (v, u.tap 0x22 0)).1 % 2 ^ w * 2 ^ lo)) } := by
  rw [State.fuseWrite, decide_eq_true lc, tapIf_on ok]
  simp only [place]
  rfl

theorem fuseWrite_field (lc : u.trust.lcCode = 1) (ok : u.xingOk 22 = true) {f : FuseField} {lo w : Nat}
    (place : fusePlace f = some (lo, w)) (hf : f ≠ .uds) (blank : fld u.trust.fuses lo w = 0) (v : Nat) :
    u.fuseWrite f v = { u.tap 0x22 0 with trust := u.trust.blow (BitVec.ofNat 3776 (v % 2 ^ w * 2 ^ lo)) } := by
  rw [fuseWrite_manufacture lc ok place, if_neg (not_not.2 blank)]
  simp only [if_neg hf]
  rfl

theorem fuseWrite_blown (lc : u.trust.lcCode = 1) (ok : u.xingOk 22 = true) {f : FuseField} {lo w : Nat}
    (place : fusePlace f = some (lo, w)) (blown : fld u.trust.fuses lo w ≠ 0) (v : Nat) : u.fuseWrite f v = u.tap 0x22 0 := by
  rw [fuseWrite_manufacture lc ok place, if_pos blown]

theorem fuseWrite_uds (lc : u.trust.lcCode = 1) (ok : u.xingOk 22 = true) (blank : fld u.trust.fuses 0 384 = 0) {x : Nat} {w : State}
    (drawn : (u.tap 0x22 0).take .nonce (2 ^ 384) = (x, w)) (v : Nat) :
    u.fuseWrite .uds v = { w with trust := w.trust.blow (BitVec.ofNat 3776 (x % 2 ^ 384)) } := by
  rw [fuseWrite_manufacture (lo := 0) (w := 384) lc ok rfl, if_neg (not_not.2 blank)]
  simp only [if_true, drawn, Nat.pow_zero, Nat.mul_one]

theorem lcAdvance_early (lc : u.trust.lcCode = 1 ∨ u.trust.lcCode = 2) (ok : u.xingOk 22 = true) :
    u.lcAdvance = { u.tap 0x23 0 with trust := u.trust.blow (BitVec.ofNat 3776 (2 ^ (383 + u.trust.lcCode))) } := by
  rw [State.lcAdvance, decide_eq_true (show u.trust.lcCode ≤ 2 by omega), tapIf_on ok]
  rfl

theorem rmaToken_field (lc : u.trust.lcCode = 3) (ok : u.xingOk 22 = true) (tok : BitVec 768) : u.rmaToken tok =
    if Config.tokenOk tok then { u.tap 0x24 0 with
      trust := { u.trust.blow (BitVec.ofNat 3776 (2 ^ 386)) with devKey := none, aliasKey := none } }
    else u.tap 0x24 0 := by
  rw [State.rmaToken, decide_eq_true lc, tapIf_on ok]
  rfl

end

/-- In RMA no instruction changes a fuse or runs a test: each acts as BYPASS. -/
theorem bypass_rma {u : State} (lc : u.trust.lcCode = 4) (f : FuseField) (v : Nat) (tok : BitVec 768) (a b : Bool) :
    u.fuseWrite f v = u.tap 0xFF 0 ∧ u.lcAdvance = u.tap 0xFF 0 ∧ u.rmaToken tok = u.tap 0xFF 0 ∧ u.mbist a b = u.tap 0xFF 0 ∧
      u.tapIf (decide (u.trust.lcCode = 1) && u.boot.inReset) (fun s => s.tap 0x20 0) = u.tap 0xFF 0 := by
  simp only [State.fuseWrite, State.lcAdvance, State.rmaToken, State.mbist, lc]
  exact ⟨rfl, rfl, rfl, rfl, rfl⟩

/-- Settles O46: the tests by the branch that their record and the grant choose, the instructions by what the lifecycle offers. -/
theorem testsAndTap : Obligations.TestsAndTap := by
  rintro dt s u rfl
  refine ⟨?_, ?_, ?_, ?_, ?_, rfl, fun v => rfl, ?_, ?_, ?_, ?_, ?_, ?_, ?_, ?_, rfl, ?_⟩
  · intro awake h t d found res grant id idle live
    exact (event_live (fun s => s.testDone h true d) awake).trans (congrArg _ (testDone_trim found res grant id idle live d))
  · intro awake h t p d g v found res grant covers live hv
    exact (event_live (fun s => s.testDone h p d) awake).trans (congrArg _ (testDone_covered found res grant covers live hv))
  · intro awake halted h p d
    exact (event_live (fun s => s.testDone h p d) awake).trans (congrArg _ (testDone_halted halted h p d))
  · intro t p d id
    exact ranTest_scan id p d
  · intro awake g grant late none
    exact (event_live _ awake).trans (congrArg _ ((grantEnd_late grant late).trans (endGrant_none grant none)))
  · intro c m i hi h1 h6 hd hn free live ok
    exact congrArg Host.Outcome.next (lbkRun_ran hi h1 h6 hd hn free live ok m.toNat)
  · exact congrArg Host.Outcome.next tap_lbkRes
  · intro lc rst ok
    exact congrArg Host.Outcome.next (tap_scan lc rst ok)
  · intro a b lc rom ok
    obtain ⟨bitA, bitB⟩ := bits_mbist a b
    exact ⟨_, congrArg Host.Outcome.next (mbist_ran lc rom ok a b), rfl, bitA, bitB, rfl, rfl, rfl, bad_testReset⟩
  · intro f v lo w lc ok place hf
    exact ⟨fun blank => congrArg Host.Outcome.next (fuseWrite_field lc ok place hf blank v),
      fun blown => congrArg Host.Outcome.next (fuseWrite_blown lc ok place blown v)⟩
  · intro v x w lc ok blank drawn
    exact congrArg Host.Outcome.next (fuseWrite_uds lc ok blank drawn v)
  · intro lc ok
    exact congrArg Host.Outcome.next (lcAdvance_early lc ok)
  · intro tok lc ok
    exact ⟨fun good => congrArg Host.Outcome.next ((rmaToken_field lc ok tok).trans (if_pos good)),
      fun bad => congrArg Host.Outcome.next ((rmaToken_field lc ok tok).trans (if_neg (by simp [bad])))⟩
  · intro f v tok a b lc
    obtain ⟨fuse, life, token, mem, scan⟩ := bypass_rma lc f v tok a b
    exact ⟨congrArg Host.Outcome.next fuse, congrArg Host.Outcome.next life, congrArg Host.Outcome.next token,
      congrArg Host.Outcome.next mem, congrArg Host.Outcome.next scan⟩

end Sys2Proof.Proofs
end

section
/-! SUPPORT. What a RESTART leaves in the mailboxes and closes of the sessions (13 R316, R326; 16 R376). -/

namespace Sys2Proof.Proofs

open Sys2Proof.Machine Sys2Proof.Safety Sys2Proof.Laws

set_option Elab.async false

/-! ## Results that leave a channel -/

/-- The sextants, the Reckoner and the log port alone differ. -/
structure Measured (s t : State) : Prop where
  eq : t = { s with sxt := t.sxt, rck := t.rck, log := t.log }

namespace Measured

variable {s t u : State}

theorem refl (s : State) : Measured s s := ⟨rfl⟩
theorem trans (a : Measured s t) (b : Measured t u) : Measured s u := by
  obtain ⟨a⟩ := a
  rw [a] at b
  exact ⟨b.eq⟩
/-- The parts of a change from the last to the first. -/
theorem after (b : Measured t u) (a : Measured s t) : Measured s u := a.trans b
theorem ite {p : Prop} [Decidable p] (ha : p → Measured s t) (hb : ¬ p → Measured s u) : Measured s (if p then t else u) := by
  split
  · exact ha ‹_›
  · exact hb ‹_›
theorem modChan (s : State) (k : Nat) (f : Chan → Chan) : Measured s (s.modChan k f) := ⟨rfl⟩
theorem mbxs (h : Measured s t) : t.mbxs = s.mbxs := by rw [h.eq]
theorem ctl (h : Measured s t) : t.ctl = s.ctl := by rw [h.eq]
theorem helm (h : Measured s t) : t.helm = s.helm := by rw [h.eq]
theorem trust (h : Measured s t) : t.trust = s.trust := by rw [h.eq]

end Measured

theorem measured_deliver (s : State) (k : Nat) (p : Pair) : Measured s (s.deliver k p) := by
  have feed : ∀ v : State, Measured v (v.feedSample k p) := fun v => .ite (fun _ => .modChan ..) (fun _ => ⟨rfl⟩)
  have packet : ∀ v : State, Measured v (v.sxPacket k) := fun v => .ite (fun _ => .refl v) (fun _ => ⟨rfl⟩)
  have drain : ∀ v : State, Measured v (v.drain k) := fun v => .ite (fun _ => .refl v) (fun _ => ⟨rfl⟩)
  unfold State.deliver
  refine .after (.ite (fun _ => .modChan ..) (fun _ => .ite (fun _ => .modChan ..) (fun _ =>
    .after (.ite (fun _ => .ite (fun _ => packet _) (fun _ => .refl _)) (fun _ => drain _)) (.modChan ..)))) ?_
  exact .ite (fun _ => feed s) (fun _ => .refl s)

theorem measured_disarm (s : State) (k : Nat) : Measured s (s.disarm k).1 := by
  have lone : Measured s (s.lone k).1 := by
    unfold State.lone
    dsimp only
    split
    · exact .after (measured_deliver ..) (.modChan ..)
    · exact .after (measured_deliver ..) (.modChan ..)
    · exact .refl s
  unfold State.disarm
  split
  · exact .refl s
  · exact .after (.modChan ..) lone

/-! ## The end of what the Helm had in hand -/

/-- No setup of a channel waits, so none is answered. -/
def NoWaits (s : State) : Prop := ∀ k, (s.chan k).waits = []

/-- What the Helm holds of a mailbox: its state, its answer and its command. -/
def heldPart (m : Mbx) : MbxSt × List Word × List Word := (m.held, m.heldResp, m.cmd)

/-- A step of the Helm's way into RESTART: no setup waits, the Helm's registers and the port's error stay, and no session opens. -/
structure Ending (s t : State) : Prop where
  waits : NoWaits t
  helm : t.helm = s.helm
  err : t.ctl.err = s.ctl.err
  size : t.mbxs.length = s.mbxs.length
  sess : ∀ k, s.trust.sess.getD k none = none → t.trust.sess.getD k none = none

/-- Such a step that leaves what the Helm holds for the mailboxes. -/
structure Ended (s t : State) : Prop extends Ending s t where
  mbx : ∀ n, heldPart (t.mbx n) = heldPart (s.mbx n)

theorem Ending.trans {s t u : State} (a : Ending s t) (b : Ending t u) : Ending s u :=
  ⟨b.waits, b.helm.trans a.helm, b.err.trans a.err, b.size.trans a.size, fun k h => b.sess k (a.sess k h)⟩

namespace Ended

variable {s t u : State}

theorem trans (a : Ended s t) (b : Ended t u) : Ended s u := ⟨a.toEnding.trans b.toEnding, fun n => (b.mbx n).trans (a.mbx n)⟩

/-- A change outside the mailboxes, the Helm, the port and the sessions after which no setup waits. -/
theorem silent (waits : NoWaits t) (helm : t.helm = s.helm := by rfl) (ctl : t.ctl = s.ctl := by rfl) (mbxs : t.mbxs = s.mbxs := by rfl)
    (trust : t.trust = s.trust := by rfl) : Ended s t :=
  ⟨⟨waits, helm, by rw [ctl], by rw [mbxs], fun k h => by rwa [trust]⟩, fun n => by rw [State.mbx, State.mbx, mbxs]⟩

/-- Such a change that leaves the sextants too. -/
theorem same (h : NoWaits s) (sxt : t.sxt = s.sxt := by rfl) (helm : t.helm = s.helm := by rfl) (ctl : t.ctl = s.ctl := by rfl)
    (mbxs : t.mbxs = s.mbxs := by rfl) (trust : t.trust = s.trust := by rfl) : Ended s t :=
  silent (fun k => by rw [State.chan, sxt]; exact h k) helm ctl mbxs trust

theorem refl (h : NoWaits s) : Ended s s := .same h

theorem each {α : Type} {f : State → α → State} (hf : ∀ s a, NoWaits s → Ended s (f s a)) (h : NoWaits s) (l : List α) :
    Ended s (s.each l f) :=
  List.foldlRecOn (motive := fun t => Ended s t) l f (.refl h) (fun _ ht a _ => ht.trans (hf _ a ht.waits))

end Ended

theorem noWaits_modChan {s : State} (h : NoWaits s) {f : Chan → Chan} (hf : ∀ c, (f c).waits = c.waits) (k : Nat) :
    NoWaits (s.modChan k f) := fun j => (chan_modChan_proj Chan.waits hf s k j).trans (h j)

theorem noWaits_cleared (s : State) :
    NoWaits { s with sxt := { s.sxt with chans := s.sxt.chans.map (fun (c : Chan) => { c with waits := [] }) } } := by
  intro k
  simp only [State.chan, List.getD_eq_getElem?_getD, List.getElem?_map]
  cases s.sxt.chans[k]? <;> rfl

theorem noWaits_disarm {s : State} (h : NoWaits s) (k : Nat) : NoWaits (s.disarm k).1 := by
  have w := waiting_disarm s k
  intro j
  by_cases hj : j = k
  · rw [hj, w.waits, h k]
  · rw [w.others j hj, h j]

section

variable {s : State} (h : NoWaits s)

include h

theorem ended_modTile (i : Nat) (f : Tile → Tile) : Ended s (s.modTile i f) := .same h

theorem ended_setTest (x : BitVec 16) (r : BitVec 2) (d : Word) : Ended s (s.setTest x r d) := .same h

theorem ended_testReset (id target : Nat) : Ended s (s.testReset id target) := by
  unfold State.testReset
  split
  · exact .same h
  · split
    · exact .same h
    · split
      · exact .each (fun _ _ hv => ended_modTile hv _ _) h _
      · exact .refl h

theorem ended_notRun (x : BitVec 16) (r : BitVec 2) (id target : Nat) : Ended s ((s.setTest x r 0).testReset id target) :=
  have set := ended_setTest h x r 0
  set.trans (ended_testReset set.waits id target)

theorem ended_dropWait (n : BitVec 3) : Ended s (s.dropWait n) := by
  unfold State.dropWait
  split
  · rename_i ch _
    have waits : NoWaits (s.modChan ch.toNat (fun c => { c with caling := false })) := by
      refine noWaits_modChan h (fun _ => ?_) _
      rfl
    rw [takeSetups_none (waits _)]
    exact .silent waits
  · split
    · exact ended_notRun h ..
    · exact .refl h
  · exact .refl h

theorem ended_modMbx (n : BitVec 3) {f : Mbx → Mbx} (hf : ∀ m, heldPart (f m) = heldPart m) : Ended s (s.modMbx n f) := by
  refine ⟨⟨h, rfl, rfl, List.length_modify .., fun _ hk => hk⟩, fun j => ?_⟩
  simp only [State.mbx, State.modMbx, List.getD_eq_getElem?_getD, List.getElem?_modify]
  cases s.mbxs[j.toNat]? with
  | none => rfl
  | some m => by_cases hn : n.toNat = j.toNat <;> simp [hn, hf]

theorem ended_settle (n : BitVec 3) (r : Resp) : Ended s (s.settle n r) := by
  unfold State.settle
  split
  · exact ended_modMbx h n (fun _ => rfl)
  · exact .refl h

theorem ended_endGrant : Ended s s.endGrant := by
  unfold State.endGrant
  split
  · exact .refl h
  · rename_i g _
    have left := Ended.each (f := fun s (t : Test) => (s.setTest t.handle 3 0).testReset t.id.toNat t.target.toNat)
      (fun _ _ hv => ended_notRun hv ..) h (s.tests.list.filter (fun t => s.covered t && t.id != 0x91))
    have gone := left.trans (.same (t := State.modTests _ (fun t => { t with grant := none })) left.waits)
    exact gone.trans (ended_settle gone.waits ..)

omit h in
theorem ended_dropAnswers : Ended s s.dropAnswers := .silent (noWaits_cleared s)

/-- A channel that a session gives back answers nobody. -/
theorem ended_endClaim (k : Nat) : Ended s (State.dropClaim s k) := by
  have m := measured_disarm s k
  have waits : NoWaits ((s.disarm k).1.modChan k (fun c => { c with waits := [] })) := by
    intro j
    by_cases hj : j = k
    · rw [hj]
      refine chan_modChan_const Chan.waits (fun _ => ?_) rfl _ k
      rfl
    · rw [chan_modChan_ne _ _ hj]
      exact noWaits_disarm h k j
  have free : State.dropClaim s k = ((s.disarm k).1.modChan k (fun c => { c with waits := [] })).freeChan k := by
    rw [State.dropClaim, h k]
    rfl
  rw [free]
  refine .silent (noWaits_modChan waits (fun _ => ?_) k) m.helm m.ctl m.mbxs m.trust
  rfl

theorem ended_logged {t : State} (l : Logged s t) : Ended s t := .same h l.sxt l.helm l.ctl l.mbxs l.trust

/-- The end of a session closes it. -/
theorem ended_endSess (x : BitVec 3) : Ended s (s.endSess x) ∧ (s.endSess x).trust.sess.getD x.toNat none = none := by
  unfold State.endSess
  split
  · rename_i closed
    exact ⟨.refl h, closed⟩
  · rename_i y _
    extract_lets _ v w
    have hv : Ended s v := by
      refine ⟨⟨h, rfl, rfl, rfl, fun k hk => ?_⟩, fun _ => rfl⟩
      simp only [v, List.getD_eq_getElem?_getD, List.getElem?_set] at hk ⊢
      split
      · split <;> rfl
      · exact hk
    have closed : v.trust.sess.getD x.toNat none = none := by
      simp only [v, List.getD_eq_getElem?_getD, List.getElem?_set, if_true]
      split <;> rfl
    have hw : Ended v w := .each (fun _ _ hu => ended_endClaim hu _) hv.waits _
    have sw := hv.trans hw
    split
    · exact ⟨sw, hw.sess _ closed⟩
    · have ends := ended_logged sw.waits (logged_raise w 0xB04 x.toNat 0)
      exact ⟨sw.trans ends, ends.sess _ (hw.sess _ closed)⟩

end

theorem ended_endSessions {s : State} (h : NoWaits s) (l : List (BitVec 3)) :
    Ended s (s.each l State.endSess) ∧ ∀ x ∈ l, (s.each l State.endSess).trust.sess.getD x.toNat none = none := by
  induction l generalizing s with
  | nil => exact ⟨.refl h, nofun⟩
  | cons y l ih =>
    obtain ⟨one, closed⟩ := ended_endSess h y
    obtain ⟨rest, others⟩ := ih one.waits
    refine ⟨one.trans rest, fun x hx => ?_⟩
    rcases List.mem_cons.1 hx with rfl | hx
    · exact rest.sess _ closed
    · exact others x hx

/-! ## The answers that a RESTART writes (13 R316) -/

/-- The response that the Helm holds for the command of a mailbox. -/
def respArea (m : Mbx) (r : Resp) : List Word := area16 (respHeader m.op m.tag r :: r.words)

theorem respArea_congr {m n : Mbx} (cmd : m.cmd = n.cmd) (r : Resp) : respArea m r = respArea n r := by
  simp only [respArea, Mbx.op, Mbx.tag, cmd]

/-- What the Helm holds for a command that it has answered with a final status. -/
def answeredPart (m : Mbx) (r : Resp) : MbxSt × List Word × List Word := (.done, respArea m r, m.cmd)

/-- A RESTART's answer to one mailbox. -/
def failOne (r : Resp) (s : State) (n : BitVec 3) : State := (s.dropWait n).finish n r

section

variable {s : State} (h : NoWaits s)

include h

theorem ending_modMbx (n : BitVec 3) (f : Mbx → Mbx) : Ending s (s.modMbx n f) :=
  ⟨h, rfl, rfl, List.length_modify .., fun _ hk => hk⟩

theorem ending_publish (n : BitVec 3) : Ending s (s.publish n) := by
  cases port : s.ctlUp
  · rw [publish_down port]
    exact ending_modMbx h ..
  · rw [publish_up port]
    exact ⟨h, rfl, rfl, List.length_modify .., fun _ hk => hk⟩

theorem ending_failOne (r : Resp) (n : BitVec 3) : Ending s (failOne r s n) :=
  have drop := (ended_dropWait h n).toEnding
  have mark := ending_modMbx drop.waits n (fun m => { m with
    held := .done, heldResp := area16 (respHeader m.op m.tag r :: r.words), final := none, wait := .none })
  drop.trans (mark.trans (ending_publish mark.waits n))

/-- What the Helm holds for the mailboxes once one of them has been answered. -/
theorem held_failOne (h8 : s.mbxs.length = 8) (r : Resp) (n : BitVec 3) :
    heldPart ((failOne r s n).mbx n) = answeredPart (s.mbx n) r ∧
      ∀ j, j ≠ n → heldPart ((failOne r s n).mbx j) = heldPart (s.mbx j) := by
  have drop := ended_dropWait h n
  have hn : n.toNat < (s.dropWait n).mbxs.length := by rw [drop.size, h8]; exact n.isLt
  have cmd : ((s.dropWait n).mbx n).cmd = (s.mbx n).cmd := congrArg (fun x => x.2.2) (drop.mbx n)
  obtain ⟨held, resp, kept, -, -, -, -, others, -⟩ := publish_changed (s := s.dropWait n) (n := n) hn
    (f := fun m => { m with held := .done, heldResp := area16 (respHeader m.op m.tag r :: r.words), final := none, wait := .none })
    rfl rfl rfl rfl rfl (t := failOne r s n) rfl
  refine ⟨?_, fun j hj => by rw [others j hj, drop.mbx j]⟩
  rw [heldPart, held, resp, kept, answeredPart, ← respArea_congr cmd, ← cmd]
  rfl

end

theorem ending_failEach {s : State} (h : NoWaits s) (r : Resp) (l : List (BitVec 3)) : Ending s (s.each l (failOne r)) :=
  List.foldlRecOn (motive := fun t => Ending s t) l _ (Ended.refl h).toEnding
    (fun _ ht n _ => ht.trans (ending_failOne ht.waits r n))

theorem held_failEach {s : State} (h : NoWaits s) (h8 : s.mbxs.length = 8) (r : Resp) (l : List (BitVec 3)) :
    (∀ n ∈ l, heldPart ((s.each l (failOne r)).mbx n) = answeredPart (s.mbx n) r) ∧
      ∀ n ∉ l, heldPart ((s.each l (failOne r)).mbx n) = heldPart (s.mbx n) := by
  induction l generalizing s with
  | nil => exact ⟨nofun, fun _ _ => rfl⟩
  | cons m l ih =>
    have step := ending_failOne h r m
    obtain ⟨one, others⟩ := held_failOne h h8 r m
    obtain ⟨inside, outside⟩ := ih step.waits (step.size.trans h8)
    have cmd : ∀ n, ((failOne r s m).mbx n).cmd = (s.mbx n).cmd := fun n => by
      by_cases hn : n = m
      · rw [hn]
        exact congrArg (fun x => x.2.2) one
      · exact congrArg (fun x => x.2.2) (others n hn)
    refine ⟨fun n hn => ?_, fun n hn => ?_⟩
    · by_cases again : n ∈ l
      · exact (inside n again).trans (by rw [answeredPart, answeredPart, respArea_congr (cmd n), cmd n])
      · rcases List.mem_cons.1 hn with rfl | hn
        · exact (outside n again).trans one
        · exact absurd hn again
    · obtain ⟨other, rest⟩ := not_or.1 (List.mem_cons.not.1 hn)
      exact (outside n rest).trans (others n other)

/-- The mailboxes whose commands the Helm has in hand. -/
def inHandOf (s : State) : List (BitVec 3) :=
  allMbx.filter (fun n => decide ((s.mbx n).held = .posted) || decide ((s.mbx n).held = .accepted))

/-- The commands in hand end; every other mailbox stays. -/
theorem failAll_facts (s : State) (reason : Nat) : NoWaits (s.failAll reason) ∧ (s.failAll reason).helm = s.helm ∧
    (s.failAll reason).ctl.err = s.ctl.err ∧ (s.mbxs.length = 8 → ∀ n, (s.mbx n).held = .posted ∨ (s.mbx n).held = .accepted →
      heldPart (((s.failAll reason).mbx n)) = answeredPart (s.mbx n) (internalR reason)) := by
  have h := noWaits_cleared s
  have ending := ending_failEach h (internalR reason) (inHandOf s)
  refine ⟨ending.waits, ending.helm, ending.err, fun h8 n hand => ?_⟩
  have listed : n ∈ inHandOf s := List.mem_filter.2 ⟨(by decide : ∀ n : BitVec 3, n ∈ allMbx) n, by simpa using hand⟩
  exact (held_failEach h h8 (internalR reason) (inHandOf s)).1 n listed

/-- A load of which no command waits is given up within the Reckoner. -/
theorem ended_loadFail {s : State} (h : NoWaits s) (load : s.rck.loadMbx = none) (maps : s.rck.mapWaits = []) (r : Resp) :
    Ended s (s.loadFail r) := by
  simp only [State.loadFail, State.runMaps, load, State.modRck, State.settleO, maps]
  exact .same h

theorem ended_giveUpLoad {s : State} (r : Resp) {p : Prop} [Decidable p] :
    Ended s.dropAnswers (if p then s.dropAnswers.loadFail r else s.dropAnswers) := by
  split
  · exact ended_loadFail ended_dropAnswers.waits rfl rfl r
  · exact .refl ended_dropAnswers.waits

/-- The stage RESTART itself, with the level of the event interrupt that the port holds. -/
def restarting (lvl : Bool) (y : State) : State :=
  { y with
    helm := { y.helm with stage := .restart, open_ := false, reopen := 0, queue := [] }
    ctl := { y.ctl with evtHeld := lvl, helm := 0, helmLeft := 0 }
    trust := { y.trust with conn := 0, vca := [], certT := [], measT := [] } }

theorem restarting_helm (lvl : Bool) (y : State) :
    (restarting lvl y).helm = { y.helm with stage := .restart, open_ := false, reopen := 0, queue := [] } := rfl
theorem restarting_err (lvl : Bool) (y : State) : (restarting lvl y).ctl.err = y.ctl.err := rfl
theorem restarting_sess (lvl : Bool) (y : State) : (restarting lvl y).trust.sess = y.trust.sess := rfl
theorem restarting_mbx (lvl : Bool) (y : State) (n : BitVec 3) : (restarting lvl y).mbx n = y.mbx n := rfl

/-- Between the answers and the stage, sessions, grants and a load end without an answer of their own. -/
theorem restart_ended (s : State) (reason : Nat) : ∃ y, Ended (s.failAll reason) y ∧
    (∀ x ∈ [(1 : BitVec 3), 2, 3, 4, 5, 6, 7], y.trust.sess.getD x.toNat none = none) ∧
    s.restart reason = restarting s.evtPend y := by
  unfold State.restart
  extract_lets lvl v w x y
  have hw : Ended v w := (ended_endGrant (failAll_facts s reason).1).trans ended_dropAnswers
  have hx : Ended w x := ended_giveUpLoad (internalR reason)
  obtain ⟨hy, closed⟩ := ended_endSessions hx.waits [1, 2, 3, 4, 5, 6, 7]
  have ends : x.each [1, 2, 3, 4, 5, 6, 7] State.endSess = y := rfl
  rw [ends] at hy closed
  clear_value y
  exact ⟨y, (hw.trans hx).trans hy, closed, rfl⟩

/-- RESTART: the Helm's registers, the commands in hand, the port's error and the sessions. -/
theorem restart_ends (s : State) (reason : Nat) :
    (s.restart reason).helm = { s.helm with stage := .restart, open_ := false, reopen := 0, queue := [] } ∧
    (s.restart reason).ctl.err = s.ctl.err ∧ (∀ h < 8, 1 ≤ h → (s.restart reason).trust.sess.getD h none = none) ∧
    (s.mbxs.length = 8 → ∀ n, (s.mbx n).held = .posted ∨ (s.mbx n).held = .accepted →
      ((s.restart reason).mbx n).held = .done ∧
        ((s.restart reason).mbx n).heldResp = area16 (respHeader (s.mbx n).op (s.mbx n).tag (internalR reason) :: [w32 reason])) := by
  obtain ⟨-, helm, err, answers⟩ := failAll_facts s reason
  obtain ⟨y, ended, closed, same⟩ := restart_ended s reason
  have helmY : y.helm = s.helm := ended.helm.trans helm
  simp only [same, restarting_helm, restarting_err, restarting_sess, restarting_mbx, helmY]
  refine ⟨trivial, ended.err.trans err, fun h h8 h1 => ?_, fun h8 n hand => ?_⟩
  · have handle : (BitVec.ofNat 3 h).toNat = h := by rw [BitVec.toNat_ofNat, Nat.mod_eq_of_lt h8]
    have nonzero : BitVec.ofNat 3 h ≠ 0 := fun zero => by rw [zero] at handle; exact absurd handle (Nat.ne_of_lt h1)
    have gone := closed (BitVec.ofNat 3 h)
      ((by decide : ∀ x : BitVec 3, x ≠ 0 → x ∈ [(1 : BitVec 3), 2, 3, 4, 5, 6, 7]) _ nonzero)
    rw [handle] at gone
    exact gone
  · have part := (ended.mbx n).trans (answers h8 n hand)
    exact ⟨congrArg (fun x => x.1) part, congrArg (fun x => x.2.1) part⟩

end Sys2Proof.Proofs
end

section
/-! O21: the accesses of the control port (13 R319 to R321; 18 R414; 19 R417, R419, R421, R425). -/

namespace Sys2Proof.Proofs

open Sys2Proof.Machine Sys2Proof.Safety Sys2Proof.Laws

set_option Elab.async false

section

variable {u : State}

/-! ## Reads that change something (18 R414; 19 R425) -/

theorem readMer_live (ok : u.xingOk 5 = true) (clk : u.coreStopped = false) : u.noErr.readMer = { u.noErr with ctl := { u.noErr.ctl with
    rdata := BitVec.ofNat 32 u.mer.now.toNat, merHi := BitVec.ofNat 32 (u.mer.now.toNat / 2 ^ 32)
    merSt := u.merWord ||| w32 (32 * b2n u.ctl.brk), brk := false } } := by
  have live : (u.noErr.xingOk 5 && !u.noErr.coreStopped) = true := by
    rw [show u.noErr.xingOk 5 = u.xingOk 5 from rfl, show u.noErr.coreStopped = u.coreStopped from rfl, ok, clk]
    rfl
  simp only [State.readMer, live, Nat.shiftRight_eq_div_pow]
  rfl

/-- A read through crossing 4 that the core answers. -/
theorem read4_live (ok : u.xingOk 4 = true) (clk : u.coreStopped = false) (x : Word) (f : State → State) :
    u.noErr.read4 x f = f { u.noErr with ctl := { u.noErr.ctl with rdata := x, snap4 := x } } := by
  rw [State.read4, show u.noErr.coreStopped = u.coreStopped from rfl, show u.noErr.xingOk 4 = u.xingOk 4 from rfl, ok, clk]
  rfl

theorem readLoop_more (ok : u.xingOk 4 = true) (clk : u.coreStopped = false) (left : 2 ≤ u.ctl.helmLeft) :
    u.noErr.readLoop = { u.noErr with ctl := { u.noErr.ctl with
      rdata := u.ctl.helm, snap4 := u.ctl.helm, helm := lfsrStep u.ctl.helm, helmLeft := u.ctl.helmLeft - 1
      helmTaken := u.ctl.helmTaken + 1 } } := by
  have presented : u.noErr.regValue 0x0E08 = u.ctl.helm := if_pos (show u.ctl.helmLeft ≠ 0 by omega)
  rw [State.readLoop, read4_live ok clk, presented]
  exact (if_neg (show u.ctl.helmLeft ≠ 0 by omega)).trans (if_neg (show u.ctl.helmLeft - 1 ≠ 0 by omega))

/-! ## Plain writes (19 R417) -/

theorem regWrite_area {n : Nat} (lo : 0x100 ≤ n) (hi : n < 0x180) (w : Word) : u.regWrite (4 * n) w =
    u.modMbx (BitVec.ofNat 3 ((n - 0x100) / 16)) (fun m => { m with reqArea := m.reqArea.set ((n - 0x100) % 16) w }) := by
  have mbx : (4 * n - 0x0400) / 64 = (n - 0x100) / 16 := by omega
  have word : (4 * n - 0x0400) % 64 / 4 = (n - 0x100) % 16 := by omega
  rw [State.regWrite, if_neg (by omega), if_neg (by omega), if_neg (by omega), if_neg (by omega), if_pos (by omega), mbx, word]

/-- A write that no register takes, the core's clock running where the address is one of the core's. -/
theorem regWrite_ignored {n : Nat} (named : n ∉ [0x40, 0x41, 0x43, 0x80, 0x380]) (area : ¬(0x100 ≤ n ∧ n < 0x180))
    (core : n ∈ [0x300, 0x301, 0x302, 0x381, 0x382, 0x3C0] → u.coreStopped = false) (w : Word) : u.regWrite (4 * n) w = u := by
  simp only [List.mem_cons, List.not_mem_nil, or_false, not_or] at named core
  obtain ⟨n40, n41, n43, n80, n380⟩ := named
  have quiet : ¬(throughCore (4 * n) && u.coreStopped) = true := by
    intro both
    obtain ⟨through, stopped⟩ := Bool.and_eq_true_iff.1 both
    have cores : 4 * n = 0x010C ∨ 4 * n = 0x0C00 ∨ 4 * n = 0x0C04 ∨ 4 * n = 0x0C08 ∨ 4 * n = 0x0E04 ∨ 4 * n = 0x0E08 ∨
        4 * n = 0x0F00 := by
      simpa [throughCore] using through
    rw [core (by omega)] at stopped
    exact Bool.false_ne_true stopped
  rw [State.regWrite, if_neg (by omega), if_neg (by omega), if_neg (by omega), if_neg (by omega), if_neg (by omega), if_neg (by omega),
    if_neg quiet]

theorem regWrite_word {a : BitVec 14} (free : a ∉ [0x040#14, 0x043#14, 0x080#14])
    (core : a ∈ [0x300#14, 0x301#14, 0x302#14, 0x381#14, 0x382#14, 0x3C0#14] → u.coreStopped = false) (w : Word) :
    u.regWrite (4 * a.toNat) w =
      if a = 0x041#14 then { u with ctl := { u.ctl with en := BitVec.ofNat 12 w.toNat } }
      else if a = 0x380#14 then { u with ctl := { u.ctl with echo := some w } }
      else if 0x100 ≤ a.toNat ∧ a.toNat < 0x180 then u.modMbx (BitVec.ofNat 3 ((a.toNat - 0x100) / 16)) (fun m => { m with
        reqArea := m.reqArea.set ((a.toNat - 0x100) % 16) w })
      else u := by
  simp only [BitVec.toNat_eq, List.mem_cons, List.not_mem_nil, or_false, not_or] at free core ⊢
  obtain ⟨n40, n43, n80⟩ := free
  split
  · rename_i here
    rw [here]
    rfl
  · split
    · rename_i here
      rw [here]
      rfl
    · split
      · rename_i area
        exact regWrite_area area.1 area.2 w
      · rename_i n41 n380 area
        refine regWrite_ignored ?_ area (fun listed => core ?_) w
        · simp only [List.mem_cons, List.not_mem_nil, or_false, not_or]
          exact ⟨n40, n41, n43, n80, n380⟩
        · simp only [List.mem_cons, List.not_mem_nil, or_false] at listed
          exact listed

/-! ## `helm_restart` (13 R316; 19 R421) -/

/-- A restart that is asked for in RUN is counted, and ends what the Helm has in hand. -/
theorem writeHelm_run (port : u.portUp = true) (ok : u.xingOk 4 = true) (clk : u.coreStopped = false) (run : u.helm.stage = .run) :
    u.writeHelm.helm.stage = .restart ∧ u.writeHelm.helm.open_ = false ∧ u.writeHelm.helm.queue = [] ∧
    u.writeHelm.helm.restarts = satInc u.helm.restarts ∧ u.writeHelm.ctl.err = false ∧
    (∀ h < 8, 1 ≤ h → u.writeHelm.trust.sess.getD h none = none) ∧
    (u.mbxs.length = 8 → ∀ n, (u.mbx n).held = .posted ∨ (u.mbx n).held = .accepted →
      (u.writeHelm.mbx n).held = .done ∧
        (u.writeHelm.mbx n).heldResp = area16 (respHeader (u.mbx n).op (u.mbx n).tag (internalR 2) :: [2])) := by
  have restarts : u.writeHelm = State.restart { u.noErr with helm := { u.helm with restarts := satInc u.helm.restarts } } 2 := by
    rw [State.writeHelm, port, clk, ok]
    exact if_neg (not_not_intro run)
  obtain ⟨helm, err, closed, answers⟩ := restart_ends { u.noErr with helm := { u.helm with restarts := satInc u.helm.restarts } } 2
  rw [restarts, helm]
  exact ⟨rfl, rfl, rfl, rfl, err, closed, answers⟩

end

/-- Settles O21: an access acts on the port whose error is cleared; a restart ends what the Helm has in hand. -/
theorem controlPort : Obligations.ControlPort := by
  rintro dt s u v rfl live port rfl
  have run (f : State → State) : access dt s f = .next (f (s.tick dt).noErr) := access_live f live port
  refine ⟨fun w => run (fun s => s.clearInt w), fun fresh clk => ?_, fun fresh clk => ⟨?_, fun left => ?_, fun stage => ?_⟩,
    fun a w free core => ?_⟩
  · exact (run _).trans (congrArg _ (readMer_live (by rw [State.xingOk, fresh]; rfl) clk))
  · exact (run _).trans (congrArg _ (read4_live (by rw [State.xingOk, fresh]; rfl) clk _ _))
  · exact (run _).trans (congrArg _ (readLoop_more (by rw [State.xingOk, fresh]; rfl) clk left))
  · exact ⟨_, event_live State.writeHelm live, writeHelm_run port (by rw [State.xingOk, fresh]; rfl) clk stage⟩
  · exact (run (fun s => s.regWrite (4 * a.toNat) w)).trans (congrArg _ (regWrite_word (u := (s.tick dt).noErr) free core w))

end Sys2Proof.Proofs
end

section
/-! O22 and O23: doorbells, the intake, what is sent again after a port reset, and the end of an ACCEPTED command (13 R319 to R326;
14 R329). -/

namespace Sys2Proof.Proofs

open Sys2Proof.Machine Sys2Proof.Safety Sys2Proof.Laws

set_option Elab.async false

section

variable {u : State} {n : BitVec 3}

theorem stage_serves (stage : u.helm.stage = .run ∨ u.helm.stage = .rom) :
    (decide (u.helm.stage = .run) || decide (u.helm.stage = .rom)) = true := by
  rcases stage with stage | stage <;> simp [stage]

/-! ## Doorbells (13 R319 to R321) -/

/-- One bit rings one mailbox. -/
theorem doorbells_one (u : State) (n : BitVec 3) : u.doorbells (1 <<< n.toNat) = u.bell n := by
  have rung : ∀ n : BitVec 3, allMbx.filter (fun m => bit ((1 <<< n.toNat : Nat) : BitVec 8) m.toNat) = [n] := by decide
  rw [State.doorbells, rung n]
  rfl

theorem bell_misuse (hand : (u.mbx n).inHand = true) :
    u.bell n = { u.modMbx n (fun m => { m with misuse := satInc m.misuse }) with ctl := { u.ctl with misuse := true } } := by
  rw [State.bell, State.bellFail, if_pos hand]
  rfl

/-- Of a mailbox out of hand whose crossings are not stale, the stage, the intake and the queue decide. -/
theorem bellFail_open (fresh : ∀ x < 2, (u.xings.main.getD x {}).stale = false) (free : (u.mbx n).inHand = false) : u.bellFail n =
    if !(decide (u.helm.stage = .run) || decide (u.helm.stage = .rom)) then some 3 else if !u.helm.open_ then some 2
    else if u.helm.queue.length ≥ 4 then some 1 else none := by
  have passes : [0, 1].any (fun x => (u.xings.main.getD x {}).stale) = false := by
    simp only [List.any_cons, List.any_nil, fresh 0 (by decide), fresh 1 (by decide), Bool.or_self]
  rw [State.bellFail, if_neg (by rw [free]; exact Bool.false_ne_true), passes]
  rfl

theorem bell_joins (fresh : ∀ x < 2, (u.xings.main.getD x {}).stale = false) (free : (u.mbx n).inHand = false)
    (stage : u.helm.stage = .run ∨ u.helm.stage = .rom) (opened : u.helm.open_ = true) (room : u.helm.queue.length ≤ 3) :
    u.bell n = { u.modMbx n (fun m => { m with st := .posted, held := .posted, cmd := m.reqArea, final := none, wait := .none }) with
      helm := { u.helm with queue := u.helm.queue ++ [n] } } := by
  have enters : u.bellFail n = none := by
    rw [bellFail_open fresh free, if_neg (by simp [stage_serves stage]), opened, if_neg (by simp), if_neg (by omega)]
  rw [State.bell, enters]
  rfl

theorem bell_busy (fresh : ∀ x < 2, (u.xings.main.getD x {}).stale = false) (free : (u.mbx n).inHand = false) {why re : Nat}
    (busy : (why = 3 ∧ re = 0 ∧ u.helm.stage ≠ .run ∧ u.helm.stage ≠ .rom) ∨
      (u.helm.stage = .run ∨ u.helm.stage = .rom) ∧ (why = 2 ∧ re = u.helm.reopen.toNat ∧ u.helm.open_ = false ∨
        why = 1 ∧ re = 0 ∧ u.helm.open_ = true ∧ 4 ≤ u.helm.queue.length)) :
    u.bell n = u.hwBusy n (u.mbx n).reqArea why re := by
  have fails := bellFail_open fresh free
  rcases busy with ⟨rfl, rfl, noRun, noRom⟩ | ⟨stage, ⟨rfl, rfl, closed⟩ | ⟨rfl, rfl, opened, full⟩⟩
  · rw [if_pos (by simp [noRun, noRom])] at fails
    rw [State.bell, fails]
    rfl
  · rw [if_neg (by simp [stage_serves stage]), closed, if_pos (by simp)] at fails
    rw [State.bell, fails]
    rfl
  · rw [if_neg (by simp [stage_serves stage]), opened, if_neg (by simp), if_pos full] at fails
    rw [State.bell, fails]
    rfl

/-! ## The intake (13 R322, R323) -/

theorem ops_nodup : ((cmdSpdm :: baseCmds).map Cmd.op).Nodup := by decide

/-- Every command is found by its opcode. -/
theorem runCmd_listed {c : Cmd} (listed : c ∈ cmdSpdm :: baseCmds) (q : Req) :
    u.runCmd (cmdSpdm :: baseCmds) false c.op q = c.handle false u q := by
  have found : ((cmdSpdm :: baseCmds).find? (fun d => d.op == c.op)).isSome := List.find?_isSome.2 ⟨c, listed, beq_self_eq_true _⟩
  obtain ⟨d, hd⟩ := Option.isSome_iff_exists.1 found
  have same : d = c := List.inj_on_of_nodup_map ops_nodup (List.mem_of_find?_eq_some hd) listed
    (eq_of_beq (List.find?_some (p := fun d : Cmd => d.op == c.op) hd))
  rw [State.runCmd, hd, same]

theorem runCmd_unknown {op : Byte} (none : ∀ c ∈ cmdSpdm :: baseCmds, op ≠ c.op) (q : Req) :
    u.runCmd (cmdSpdm :: baseCmds) false op q = unknownOp u := by
  have missing : (cmdSpdm :: baseCmds).find? (fun d => d.op == op) = .none := by
    rw [List.find?_eq_none]
    exact fun c hc same => none c hc (eq_of_beq same).symm
  rw [State.runCmd, missing]

/-- The oldest entry leaves the queue, and its command runs on what is left. -/
theorem intakeTake_oldest {r : List (BitVec 3)} (stage : u.helm.stage = .run ∨ u.helm.stage = .rom) (opened : u.helm.open_ = true)
    (queue : u.helm.queue = n :: r) (held : (u.mbx n).held = .posted) {v : State} (hv : v = { u with helm := { u.helm with queue := r } }) :
    u.intakeTake = (v.runCmd (cmdSpdm :: baseCmds) false (u.mbx n).op (reqOfWords n (u.mbx n).cmd)).1.answer n
      (v.runCmd (cmdSpdm :: baseCmds) false (u.mbx n).op (reqOfWords n (u.mbx n).cmd)).2 := by
  subst hv
  rw [State.intakeTake, if_neg (by simp [opened, stage_serves stage]), queue]
  exact if_neg (not_not_intro held)

theorem intakeReopen_opens (stage : u.helm.stage = .run ∨ u.helm.stage = .rom) :
    u.intakeReopen = { u with helm := { u.helm with open_ := true, reopen := 0 } } := if_pos (stage_serves stage)

/-! ## What the Helm holds is sent again (13 R326) -/

/-- The publication of one mailbox while crossing 2 delivers. -/
theorem publish_one (up : u.ctlUp = true) (h8 : u.mbxs.length = 8) (n : BitVec 3) :
    (u.publish n).mbx n = { u.mbx n with st := (u.mbx n).held, resp := (u.mbx n).heldResp, unsent := false } ∧
      (u.publish n).ctlUp = true ∧ (u.publish n).mbxs.length = 8 := by
  rw [publish_up up]
  exact ⟨mbx_modMbx_same (h8 ▸ n.isLt) _, up, (List.length_modify ..).trans h8⟩

theorem publish_each (up : u.ctlUp = true) (h8 : u.mbxs.length = 8) (l : List (BitVec 3)) :
    (∀ n, ((u.each l State.publish).mbx n).held = (u.mbx n).held) ∧
    (∀ n ∈ l, ((u.each l State.publish).mbx n).st = (u.mbx n).held ∧ ((u.each l State.publish).mbx n).resp = (u.mbx n).heldResp) ∧
    ∀ n ∉ l, (u.each l State.publish).mbx n = u.mbx n := by
  induction l generalizing u with
  | nil => exact ⟨fun _ => rfl, nofun, fun _ _ => rfl⟩
  | cons m l ih =>
    obtain ⟨one, up', h8'⟩ := publish_one up h8 m
    obtain ⟨held, inside, outside⟩ := ih up' h8'
    have keeps := held_publish u m
    refine ⟨fun n => (held n).trans (keeps n).1, fun n hn => ?_, fun n hn => ?_⟩
    · by_cases again : n ∈ l
      · obtain ⟨st, resp⟩ := inside n again
        exact ⟨st.trans (keeps n).1, resp.trans (keeps n).2⟩
      · have first : n = m := (List.mem_cons.1 hn).resolve_right again
        subst first
        have sent : (u.each (n :: l) State.publish).mbx n = _ := (outside n again).trans one
        rw [sent]
        exact ⟨rfl, rfl⟩
    · obtain ⟨other, rest⟩ := not_or.1 (List.mem_cons.not.1 hn)
      exact (outside n rest).trans (publish_other other)

/-- The mailboxes that the Helm holds and that have taken no doorbell since the port's reset. -/
def resent (u : State) : List (BitVec 3) := allMbx.filter (fun n => decide ((u.mbx n).st = .idle) && decide ((u.mbx n).held ≠ .idle))

theorem mem_resent {u : State} {n : BitVec 3} : n ∈ resent u ↔ (u.mbx n).st = .idle ∧ (u.mbx n).held ≠ .idle := by
  have all : n ∈ allMbx := (by decide : ∀ n : BitVec 3, n ∈ allMbx) n
  simp [resent, List.mem_filter, all]

theorem republish_sends (stage : u.helm.stage = .run ∨ u.helm.stage = .rom) (up : u.ctlUp = true) (unsynced : u.ctl.sync = false) :
    u.republish = { u.each (resent u) State.publish with ctl := { (u.each (resent u) State.publish).ctl with sync := true } } :=
  if_neg (by simp [up, unsynced, stage_serves stage])

theorem republish_facts (stage : u.helm.stage = .run ∨ u.helm.stage = .rom) (up : u.ctlUp = true) (unsynced : u.ctl.sync = false)
    (h8 : u.mbxs.length = 8) : ∃ t, u.republish = t ∧ t.ctl.sync = true ∧ t.tiles = u.tiles ∧ t.helm = u.helm ∧
      ∀ n, (t.mbx n).held = (u.mbx n).held ∧
        ((u.mbx n).st = .idle → (u.mbx n).held ≠ .idle → (t.mbx n).st = (u.mbx n).held ∧ (t.mbx n).resp = (u.mbx n).heldResp) ∧
        ((u.mbx n).st ≠ .idle ∨ (u.mbx n).held = .idle → t.mbx n = u.mbx n) := by
  obtain ⟨held, inside, outside⟩ := publish_each up h8 (resent u)
  have port : PortSide u (u.each (resent u) State.publish) :=
    List.foldlRecOn (motive := fun t => PortSide u t) _ _ (.refl u) (fun _ ht n _ => ht.trans (portSide_publish _ n))
  have helm : (u.each (resent u) State.publish).helm = u.helm := by rw [port.eq]
  refine ⟨_, republish_sends stage up unsynced, rfl, port.tiles, helm, fun n => ⟨held n,
    fun idle some => inside n (mem_resent.2 ⟨idle, some⟩), fun stays => outside n (fun sent => ?_)⟩⟩
  obtain ⟨idle, some⟩ := mem_resent.1 sent
  exact stays.elim (fun busy => busy idle) some

/-! ## The end of an ACCEPTED command (14 R329) -/

theorem instantDone_final (held : (u.mbx n).held = .accepted) {x : Resp} (final : (u.mbx n).final = some x) (y : OpResult) :
    u.instantDone n y = u.finish n x := by
  have waits : (u.mbx n).final.isSome = true := by rw [final]; rfl
  unfold State.instantDone
  extract_lets m v
  have same : v = u := if_pos waits
  rw [if_neg (not_not_intro held), same, final]

end

/-- Settles O22: a doorbell's fate is that of its one mailbox. -/
theorem doorbell : Obligations.Doorbell := by
  rintro dt s u v n rfl live port rfl
  have rings : exec (.mbxDoorbell dt (1 <<< n.toNat)) s = .next ((s.tick dt).noErr.bell n) := by
    rw [← doorbells_one]
    exact access_live (fun s => s.doorbells (1 <<< n.toNat)) live port
  refine ⟨fun fresh free => ⟨fun stage opened room => ?_, fun why re busy => ?_⟩, fun hand => ?_⟩
  · exact rings.trans (congrArg _ (bell_joins (u := (s.tick dt).noErr) fresh free stage opened room))
  · exact rings.trans (congrArg _ (bell_busy (u := (s.tick dt).noErr) fresh free busy))
  · exact rings.trans (congrArg _ (bell_misuse (u := (s.tick dt).noErr) hand))

/-- Settles O23: the oldest entry runs by its opcode; the rest are the Helm's own sendings and endings. -/
theorem intake : Obligations.Intake := by
  rintro dt s u rfl live
  refine ⟨?_, fun stage => ⟨?_, fun up unsynced h8 => ?_⟩, fun n x y held final => ?_⟩
  · rintro n r q stage opened queue held rfl
    have take := (event_live State.intakeTake live).trans (congrArg _ (intakeTake_oldest stage opened queue held rfl))
    refine ⟨fun c listed op => ?_, fun none => ?_⟩
    · rw [op, runCmd_listed listed] at take
      exact take
    · rw [runCmd_unknown none] at take
      exact take
  · exact (event_live State.intakeReopen live).trans (congrArg _ (intakeReopen_opens stage))
  · obtain ⟨t, sends, facts⟩ := republish_facts stage up unsynced h8
    exact ⟨t, (event_live State.republish live).trans (congrArg _ sends), facts⟩
  · exact (event_live (fun s => s.instantDone n y) live).trans (congrArg _ (instantDone_final held final y))

end Sys2Proof.Proofs
end

section
/-! O27: the stages of the Helm (13 R315, R316; 16 R368 to R370, R376, R384). -/

namespace Sys2Proof.Proofs

open Sys2Proof.Machine Sys2Proof.Safety Sys2Proof.Laws

set_option Elab.async false

/-! ## What a tightening leaves of the Helm and its keys (16 R384) -/

/-- The Helm's registers and the key engine's state are as they were. -/
structure Governed (s t : State) : Prop where
  helm : t.helm = s.helm
  aliasKey : t.trust.aliasKey = s.trust.aliasKey
  devLock : t.trust.devLock = s.trust.devLock

namespace Governed

variable {s t u : State}

theorem refl (s : State) : Governed s s := ⟨rfl, rfl, rfl⟩
theorem trans (a : Governed s t) (b : Governed t u) : Governed s u :=
  ⟨b.helm.trans a.helm, b.aliasKey.trans a.aliasKey, b.devLock.trans a.devLock⟩
/-- The parts of a change from the last to the first. -/
theorem after (b : Governed t u) (a : Governed s t) : Governed s u := a.trans b
/-- A change of other fields alone. -/
theorem same (helm : t.helm = s.helm := by rfl) (trust : t.trust = s.trust := by rfl) : Governed s t :=
  ⟨helm, by rw [trust], by rw [trust]⟩
theorem logged (h : Logged s t) : Governed s t := .same h.helm h.trust
theorem answered (h : Answered s t) : Governed s t := .same h.helm (by rw [h.eq])
theorem each {α : Type} {f : State → α → State} (h : ∀ s a, Governed s (f s a)) (s : State) (l : List α) : Governed s (s.each l f) :=
  List.foldlRecOn l f (refl s) (fun _ hb a _ => hb.trans (h _ a))
theorem ite {p : Prop} [Decidable p] (ha : p → Governed s t) (hb : ¬ p → Governed s u) : Governed s (if p then t else u) := by
  split
  · exact ha ‹_›
  · exact hb ‹_›

end Governed

theorem governed_settle (s : State) (n : BitVec 3) (r : Resp) : Governed s (s.settle n r) := .answered (answered_settle ..)
theorem governed_settleO (s : State) (o : Option (BitVec 3)) (r : Resp) : Governed s (s.settleO o r) := .answered (answered_settleO ..)

theorem governed_sendNak (s : State) (reason cause status : Nat) (m : Word) (t : Time) :
    Governed s (s.sendNak reason cause status m t) := by
  unfold State.sendNak State.sendNotice State.cvyPump
  dsimp only
  split <;> exact ⟨rfl, rfl, rfl⟩

theorem governed_outOfStep (s : State) (m : Word) (b : Bool) : Governed s (s.outOfStep m b) :=
  .after (.logged (logged_raise0 ..)) .same

theorem governed_settleMove (s : State) (m : Word) (r : Resp) : Governed s (s.settleMove m r) :=
  .after (.each (fun _ _ => governed_settle ..) _ _) .same

theorem governed_convoyAbort (s : State) (x : Slot) (cause : Nat) (r : KsRes) : Governed s (s.convoyAbort x cause r) := by
  unfold State.convoyAbort
  split
  · exact .refl s
  · exact .refl s
  · exact .after .same (governed_settleO s s.cvy.joinMbx _)
  · exact .after (governed_outOfStep ..) <| .after (.ite (fun _ => governed_sendNak ..) (fun _ => governed_sendNak ..))
      (governed_settleMove ..)

theorem governed_resolve (s : State) (k : Nat) (r : KsRes) : Governed s (s.resolve k r) :=
  .after (.each (fun _ _ => governed_settle ..) _ _) <| .after (.logged (logged_logPacket ..)) .same

theorem governed_abortOne (s : State) (k cause : Nat) (f : Option (Nat × Nat)) : Governed s (s.abortOne k cause f) := by
  unfold State.abortOne
  dsimp only
  refine .ite (fun _ => .refl s) (fun _ => .after (governed_convoyAbort ..) (.after (.logged (logged_raise ..)) ?_))
  have told := (governed_resolve s k ((s.slot k).res k .aborted cause f)).trans
    (governed_settleO _ (s.slot k).sealMbx (abortedR ((s.slot k).res k .aborted cause f)))
  exact ⟨told.helm, told.aliasKey, told.devLock⟩

theorem governed_revalidate (n t0 : Nat) (l : List (Nat × Nat)) (s : State) : Governed s (s.revalidate n t0 l) := by
  induction n generalizing l s with
  | zero => exact .refl s
  | succ n ih =>
    unfold State.revalidate
    dsimp only
    split
    · exact .refl s
    · exact (governed_abortOne ..).trans (ih ..)

theorem governed_abortKs (s : State) (k cause : Nat) (f : Option (Nat × Nat)) : Governed s (s.abortKs k cause f) :=
  .ite (fun _ => .refl s) (fun _ => (governed_abortOne ..).trans (governed_revalidate ..))

theorem governed_modTile (s : State) (i : Nat) (f : Tile → Tile) : Governed s (s.modTile i f) := .same

theorem governed_setPower (s : State) (p : Power) : Governed s { s with power := p } := .same

theorem governed_tighten (s : State) (cls : Nat) (c : Chart) : Governed s (s.tighten cls c) := by
  unfold State.tighten
  refine .after (.logged (logged_raise0 ..)) <| .after (.each (fun v w => ?_) _ _) <| .after (.each (fun v i => ?_) _ _) <|
    .after (.each (fun v k => ?_) _ _) ⟨rfl, rfl, rfl⟩
  · exact .ite (fun _ => .after (.logged (logged_raise ..)) (governed_setPower ..)) (fun _ => .refl v)
  · exact .ite (fun _ => .refl v) (fun _ => .after (.each (fun _ _ => governed_settleO ..) _ _) (governed_modTile ..))
  · split
    · exact governed_abortKs ..
    · exact .refl v

theorem governed_tightenHeld (s : State) : Governed s s.tightenHeld :=
  have h := Governed.each (f := fun s (x : Nat × Chart) => s.tighten x.1 x.2) (fun _ _ => governed_tighten ..) s s.trust.tightWait
  ⟨h.helm, h.aliasKey, h.devLock⟩

theorem governed_makeChain (s : State) : Governed s s.makeChain := by
  unfold State.makeChain
  exact .ite (fun _ => .refl s) (fun _ => ⟨rfl, rfl, rfl⟩)

section

variable {u : State}

/-! ## The image check (16 R368) -/

/-- The Helm of a check that has ended with a reason. -/
def imageChecked (u : State) (r : Nat) : State := { u with helm := { u.helm with reason := BitVec.ofNat 8 r } }

theorem imageDone_checked (stage : u.helm.stage = .check) {r : Nat} (hr : r = u.trust.imageReason u.helm.image u.helm.image.length) :
    u.imageDone = if r = 0 then ((((imageChecked u r).enterRun true).makeChain).tightenHeld).settleO u.fwMbx (okR [])
      else (imageChecked u r).enterRom.settleO u.fwMbx (imageR r) := by
  subst hr
  exact if_neg (not_not_intro stage)

theorem settleO_trust (s : State) (o : Option (BitVec 3)) (r : Resp) : (s.settleO o r).trust = s.trust := by
  rw [(answered_settleO s o r).eq]

/-- An image that passes: RUN, its alias key where the lifecycle has one, and the tightenings that waited. -/
theorem imageDone_passes (stage : u.helm.stage = .check) (pass : u.trust.imageReason u.helm.image u.helm.image.length = 0) :
    u.imageDone.helm.stage = .run ∧ u.imageDone.helm.open_ = true ∧ u.imageDone.helm.reason = 0 ∧ u.imageDone.trust.devLock = true ∧
      u.imageDone.helm.runAt = u.boot.uptime ∧ (u.trust.lcCode ≠ 4 → u.imageDone.trust.aliasKey ≠ none) ∧
      u.imageDone.trust.tightWait = [] := by
  have done := (imageDone_checked stage pass.symm).trans (if_pos rfl)
  have runs := ((governed_makeChain ((imageChecked u 0).enterRun true)).trans (governed_tightenHeld _)).trans
    (governed_settleO _ u.fwMbx (okR []))
  rw [← done] at runs
  have waits : u.imageDone.trust.tightWait = [] := by
    rw [done, settleO_trust]
    rfl
  rw [runs.helm, runs.devLock, runs.aliasKey]
  refine ⟨rfl, rfl, rfl, rfl, rfl, fun lc => ?_, waits⟩
  have key : ((imageChecked u 0).enterRun true).trust.aliasKey = if u.trust.lcCode = 4 then none else
      some (BitVec.ofNat 384 (u.trust.aliasOf (sha384 (u.helm.image.take (u.helm.image.length - 256))))) := rfl
  rw [key, if_neg lc]
  exact Option.some_ne_none _

/-- An image that fails: ROM, with its reason and no alias key. -/
theorem imageDone_fails (stage : u.helm.stage = .check) {r : Nat} (hr : r = u.trust.imageReason u.helm.image u.helm.image.length)
    (fail : r ≠ 0) : u.imageDone.helm.stage = .rom ∧ u.imageDone.helm.open_ = true ∧ u.imageDone.helm.reason.toNat = r % 256 ∧
      u.imageDone.trust.aliasKey = none := by
  have done := (imageDone_checked stage hr).trans (if_neg fail)
  have rom := governed_settleO (imageChecked u r).enterRom u.fwMbx (imageR r)
  rw [← done] at rom
  rw [rom.helm, rom.aliasKey]
  exact ⟨rfl, rfl, BitVec.toNat_ofNat .., rfl⟩

/-! ## The watchdog (13 R316) -/

theorem wdogExpires_run (run : u.helm.stage = .run) :
    u.wdogExpires.helm.stage = .restart ∧ u.wdogExpires.helm.wdogs = satInc u.helm.wdogs ∧ u.wdogExpires.helm.open_ = false ∧
    u.wdogExpires.helm.queue = [] ∧ (∀ h < 8, 1 ≤ h → u.wdogExpires.trust.sess.getD h none = none) ∧
    (u.mbxs.length = 8 → ∀ n, (u.mbx n).held = .posted ∨ (u.mbx n).held = .accepted →
      (u.wdogExpires.mbx n).held = .done ∧
        (u.wdogExpires.mbx n).heldResp = area16 (respHeader (u.mbx n).op (u.mbx n).tag (internalR 1) :: [1])) := by
  have told : Logged { u with helm := { u.helm with wdogs := satInc u.helm.wdogs } }
    (State.raise0 { u with helm := { u.helm with wdogs := satInc u.helm.wdogs } } 0xB01 0) := logged_raise0 ..
  have expires : u.wdogExpires = State.restart (State.raise0 { u with helm := { u.helm with wdogs := satInc u.helm.wdogs } } 0xB01 0) 1 :=
    if_neg (not_not_intro run)
  obtain ⟨helm, -, closed, answers⟩ := restart_ends
    (State.raise0 { u with helm := { u.helm with wdogs := satInc u.helm.wdogs } } 0xB01 0) 1
  rw [← expires, told.helm] at helm
  rw [← expires] at closed answers
  simp only [State.mbx, told.mbxs] at answers
  rw [helm]
  exact ⟨rfl, rfl, rfl, rfl, closed, answers⟩

/-! ## The check after a restart (16 R370) -/

/-- The image in code SRAM is the one that was measured, under keys that still hold. -/
def imageStands (u : State) : Bool :=
  u.trust.keyReason u.helm.image = 0 && natOfBytes (sha384 (u.helm.image.take (u.helm.image.length - 256))) == u.helm.meas.toNat &&
    !u.helm.codeBad

theorem restartDone_checked (stage : u.helm.stage = .restart) : u.restartDone =
    if imageStands u then u.enterRun false else { u.enterRom with helm := { u.enterRom.helm with reason := 11 } } :=
  if_neg (not_not_intro stage)

theorem restartDone_plant (stage : u.helm.stage = .restart) : u.restartDone.tiles = u.tiles ∧ u.restartDone.rails = u.rails := by
  rw [restartDone_checked stage]
  split <;> exact ⟨rfl, rfl⟩

theorem restartDone_runs (stage : u.helm.stage = .restart) (keys : u.trust.keyReason u.helm.image = 0)
    (same : natOfBytes (sha384 (u.helm.image.take (u.helm.image.length - 256))) = u.helm.meas.toNat) (good : u.helm.codeBad = false) :
    u.restartDone = u.enterRun false := by
  rw [restartDone_checked stage]
  exact if_pos (by simp [imageStands, keys, same, good])

theorem restartDone_fails (stage : u.helm.stage = .restart) (bad : u.trust.keyReason u.helm.image ≠ 0 ∨
    natOfBytes (sha384 (u.helm.image.take (u.helm.image.length - 256))) ≠ u.helm.meas.toNat ∨ u.helm.codeBad = true) :
    u.restartDone = { u.enterRom with helm := { u.enterRom.helm with reason := 11 } } := by
  rw [restartDone_checked stage]
  refine if_neg ?_
  rcases bad with bad | bad | bad <;> simp [imageStands, bad]

/-! ## The anti-rollback count (16 R369) -/

theorem arbAdvance_due (run : u.helm.stage = .run) (more : u.trust.arbCount < u.helm.svn)
    (ran : u.helm.runAt + 960000000000 ≤ u.boot.uptime) (supply : u.boot.vddbDip = false)
    (back : u.boot.vddbCnt = 0 ∨ u.boot.vddbBack + 16000000000 ≤ u.boot.uptime) (blown : Bool) : u.arbAdvance blown =
    if blown then State.raise0 { u with trust := u.trust.blow (BitVec.ofNat 3776 ((2 ^ u.helm.svn - 1) * 2 ^ 392)) } 0xB02
      (u.trust.arbCount + 256 * u.helm.svn)
    else u.raise0 0xB03 (392 + u.trust.arbCount) := by
  have minute : 60000 * msMt = 960000000000 := by decide
  have second : 1000 * msMt = 16000000000 := by decide
  have early : decide (u.boot.uptime < u.helm.runAt + 60000 * msMt) = false := by
    rw [minute]
    exact decide_eq_false (Nat.not_lt.2 ran)
  have dipped : (decide (u.boot.vddbCnt ≠ 0) && decide (u.boot.uptime < u.boot.vddbBack + 1000 * msMt)) = false := by
    rw [second, Bool.and_eq_false_iff, decide_eq_false_iff_not, decide_eq_false_iff_not, not_not, Nat.not_lt]
    exact back
  have due : ¬(u.helm.stage ≠ .run || decide (u.helm.svn ≤ u.trust.arbCount) ||
      (decide (u.boot.uptime < u.helm.runAt + 60000 * msMt) || u.boot.vddbDip ||
        (decide (u.boot.vddbCnt ≠ 0) && decide (u.boot.uptime < u.boot.vddbBack + 1000 * msMt)))) = true := by
    rw [early, supply, dipped, decide_eq_false (Nat.not_le.2 more), decide_eq_false (not_not_intro run)]
    exact Bool.false_ne_true
  exact if_neg due

/-! ## The age of a session (16 R376) -/

theorem onChan_endClaim (s : State) (k : Nat) : OnChan k s (State.dropClaim s k) := by
  have given : OnChan k ((s.disarm k).1.modChan k (fun c => { c with waits := [] })) (State.each
      ((s.disarm k).1.modChan k (fun c => { c with waits := [] })) (s.chan k).waits
      (fun s w => s.finishO w.2.2.2 (notPermR 0xA { item := 5, idx := k, aux := 4 }))) :=
    List.foldlRecOn (motive := fun t => OnChan k _ t) _ _ (.refl _) (fun _ ht _ _ => ht.trans (onChan_finishO ..))
  exact ((waiting_disarm s k).toOnChan.trans (.modChan ..)).trans (given.trans (.modChan ..))

theorem owner_endClaim (s : State) (k : Nat) : ((State.dropClaim s k).chan k).owner = .none := freeChan_owner ..

/-- The channels that session h has claimed. -/
def claimed (u : State) (h : BitVec 3) : List Nat := [60, 61, 62].filter (fun ch => decide ((u.chan ch).owner = .session h))

/-- The session closed in the table of sessions. -/
def withoutSess (u : State) (h : BitVec 3) : State := { u with trust := { u.trust with sess := u.trust.sess.set h.toNat none } }

theorem withoutSess_sess (u : State) (h : BitVec 3) : (withoutSess u h).trust.sess.getD h.toNat none = none := by
  simp only [withoutSess, List.getD_eq_getElem?_getD, List.getElem?_set, if_true]
  split <;> rfl

theorem endSess_full {h : BitVec 3} {x : Sess} (found : u.trust.sess.getD h.toNat none = some x) (full : x.half = false) :
    u.endSess h = State.raise ((withoutSess u h).each (claimed u h) State.dropClaim) 0xB04 h.toNat 0 := by
  unfold State.endSess
  rw [found]
  exact if_neg (by simp [full])

/-- No channel stays with a session whose claims have been dropped. -/
theorem owner_claimed {h : BitVec 3} (where_ : ∀ k < 64, (u.chan k).owner = .session h → k = 60 ∨ k = 61 ∨ k = 62) {k : Nat}
    (hk : k < 64) : (((withoutSess u h).each (claimed u h) State.dropClaim).chan k).owner ≠ .session h := by
  have distinct : (claimed u h).Nodup := List.Nodup.filter _ (by decide)
  by_cases mine : k ∈ claimed u h
  · obtain ⟨v, -, own, -⟩ := each_own onChan_endClaim distinct (withoutSess u h) mine
    rw [own, owner_endClaim]
    exact nofun
  · obtain ⟨-, -, others⟩ := each_onChan onChan_endClaim (withoutSess u h) (claimed u h)
    rw [others k mine]
    intro owns
    refine mine (List.mem_filter.2 ⟨?_, decide_eq_true owns⟩)
    rcases where_ k hk owns with rfl | rfl | rfl <;> decide

theorem sessTimeout_old {h : BitVec 3} {x : Sess} (found : u.trust.sess.getD h.toNat none = some x) (full : x.half = false)
    (old : x.lastAt + 480000000000 ≤ u.boot.uptime)
    (where_ : ∀ k < 64, (u.chan k).owner = .session h → k = 60 ∨ k = 61 ∨ k = 62) : ∃ t, u.sessTimeout h = t ∧
      t.trust.sess.getD h.toNat none = none ∧ (∀ k < 64, (t.chan k).owner ≠ .session h) ∧ t.tiles = u.tiles ∧ t.rails = u.rails ∧
      t.keys = u.keys := by
  have half : 30000 * msMt = 480000000000 := by decide
  have ends : u.sessTimeout h = u.endSess h := by
    rw [State.sessTimeout, found]
    exact if_pos (by rw [half]; exact old)
  have drops : Delivered (withoutSess u h) ((withoutSess u h).each (claimed u h) State.dropClaim) := .each delivered_endClaim _ _
  have told := logged_raise ((withoutSess u h).each (claimed u h) State.dropClaim) 0xB04 h.toNat 0
  refine ⟨_, ends.trans (endSess_full found full), ?_, fun k hk => ?_, told.tiles.trans drops.tiles, told.rails.trans drops.rails,
    told.keys.trans drops.keys⟩
  · rw [told.trust, drops.eq]
    exact withoutSess_sess u h
  · rw [State.chan, told.sxt]
    exact owner_claimed where_ hk

end

/-- Settles O27: each stage by the branch that its check, its count or its age chooses. -/
theorem helmStages : Obligations.HelmStages := by
  rintro dt s u rfl live
  refine ⟨?_, ?_, ?_, ?_, ?_⟩
  · intro stage r hr
    refine ⟨_, event_live State.imageDone live, fun pass => ?_, fun fail => imageDone_fails stage hr fail⟩
    exact imageDone_passes stage (hr.symm.trans pass)
  · intro run
    exact ⟨_, event_live State.wdogExpires live, wdogExpires_run run⟩
  · intro stage
    obtain ⟨tiles, rails⟩ := restartDone_plant stage
    refine ⟨_, event_live State.restartDone live, tiles, rails, fun ⟨keys, same, good⟩ => ?_, fun bad => ?_⟩
    · rw [restartDone_runs stage keys same good]
      exact ⟨rfl, rfl, rfl⟩
    · rw [restartDone_fails stage bad]
      exact ⟨rfl, rfl, rfl⟩
  · intro run more ran supply back
    have due := arbAdvance_due run more ran supply back
    exact ⟨(event_live (fun s => s.arbAdvance true) live).trans (congrArg _ ((due true).trans (if_pos rfl))),
      (event_live (fun s => s.arbAdvance false) live).trans (congrArg _ ((due false).trans (if_neg Bool.false_ne_true)))⟩
  · intro h x found full old _ where_
    obtain ⟨t, ends, facts⟩ := sessTimeout_old found full old where_
    exact ⟨t, (event_live (fun s => s.sessTimeout h) live).trans (congrArg _ ends), facts⟩

end Sys2Proof.Proofs
end
